-- ==== Sys2Proof/Word.lean ====
section
/-! DEFINITION. The word types of the device (R6, R8): registers are 32 bits, 64-bit values are pairs of registers, bytes are 8 bits. -/

namespace Sys2Proof

/-- A byte of memory, of a packet or of an image. -/
abbrev Byte := BitVec 8

/-- A 32-bit register or word. -/
abbrev Word := BitVec 32

/-- A 64-bit value: a general register, a fabric time, a register pair. -/
abbrev Word64 := BitVec 64

end Sys2Proof
end

