-- ==== Sys2Proof/Syntax.lean ====
section
/-! DEFINITION. The commands of the block: one constructor per row of the opcode table, with the row's operands. What is measured
or read outside the device (a figure of merit, bytes read from host memory, whether stored parity is bad) is an operand. -/

namespace Sys2Proof

/-- A port (R159). -/
abbrev PortIx := Fin 24
/-- A lane (R159). -/
abbrev LaneIx := Fin 192
/-- A logical core (R43). -/
abbrev CoreIx := Fin 144
/-- A DMA queue of a core (R64). -/
abbrev QueueIx := Fin 4
/-- An engine with operations in flight (R58): 0 scalar unit, 1 MXE, 2 VXU. -/
abbrev EngIx := Fin 3
/-- A submission ring (R451). -/
abbrev RingIx := Fin 16
/-- A GDDR7 controller (R141). -/
abbrev CtlIx := Fin 24
/-- A switch port (R202). -/
abbrev OutIx := Fin 35
/-- A sequencing domain (R316). -/
abbrev DomIx := Fin 64
/-- A chain context (R294). -/
abbrev ChainIx := Fin 8
/-- A core group (R25). -/
abbrev GroupIx := Fin 32
/-- A shard registry or translation entry (R356). -/
abbrev EntryIx := Fin 64
/-- An MSI-X vector (R459). -/
abbrev VecIx := Fin 64

/-- A flit as a port receives it: the 72 bytes that come out of its descramblers, or the bits of its active lanes' lines in stripe order
(R167). -/
inductive RxFlit where
  | bytes (bs : List Byte)
  | line (lanes : List (List Bool))
deriving DecidableEq, Repr

/-- What the last steps of the boot found (R381): whether the identity was reconstructed, and whether the firmware initialised. -/
structure BootParts where
  pufOk : Bool
  fwOk : Bool
deriving DecidableEq, Repr

/-- The commands, in the order of the opcode table. -/
inductive Instr where
  /-- REGISTER_WRITE (R9). -/
  | registerWrite (req : Nat) (off : Nat) (size : Nat) (value : Nat)
  /-- LOAD (R29). -/
  | load (value : Word)
  /-- BASTE (R33). -/
  | baste (value : Word)
  /-- DRAINED (R27). -/
  | drained (value : Word)
  /-- DISCARD_BASTE (R33). -/
  | discardBaste (value : Word)
  /-- PATTERN_CHECK_DONE (R29). -/
  | patternCheckDone (image : Option (List Byte))
  /-- ARM (R37). -/
  | arm (value : Word)
  /-- SEAM_CANCEL (R41). -/
  | seamCancel (value : Word)
  /-- SEAM_APPLY (R38). -/
  | seamApply
  /-- OLD_BANK_RELEASE (R40). -/
  | oldBankRelease
  /-- CORE_ENABLE (R72). -/
  | coreEnable (core : CoreIx) (value : Word)
  /-- CORE_DISABLE (R73). -/
  | coreDisable (core : CoreIx) (value : Word)
  /-- ZEROING_DONE (R72). -/
  | zeroingDone (core : CoreIx)
  /-- CORE_SHUTDOWN_DONE (R73). -/
  | coreShutdownDone (core : CoreIx)
  /-- CORE_START (R72). -/
  | coreStart (core : CoreIx) (value : Word)
  /-- CORE_HALTED (R72). -/
  | coreHalted (core : CoreIx)
  /-- JOB_END (R79). -/
  | jobEnd (core : CoreIx)
  /-- NOP (R61). -/
  | nop (core : CoreIx) (bad : Option Nat)
  /-- HALT (R61). -/
  | halt (core : CoreIx) (bad : Option Nat)
  /-- JMP (R61). -/
  | jmp (core : CoreIx) (bad : Option Nat)
  /-- LOOP (R61). -/
  | loop (core : CoreIx) (bad : Option Nat)
  /-- ADD (R61). -/
  | add (core : CoreIx) (bad : Option Nat)
  /-- SUB (R61). -/
  | sub (core : CoreIx) (bad : Option Nat)
  /-- AND (R61). -/
  | and (core : CoreIx) (bad : Option Nat)
  /-- OR (R61). -/
  | or (core : CoreIx) (bad : Option Nat)
  /-- XOR (R61). -/
  | xor (core : CoreIx) (bad : Option Nat)
  /-- SHL (R61). -/
  | shl (core : CoreIx) (bad : Option Nat)
  /-- SHR (R61). -/
  | shr (core : CoreIx) (bad : Option Nat)
  /-- SRA (R61). -/
  | sra (core : CoreIx) (bad : Option Nat)
  /-- MUL (R61). -/
  | mul (core : CoreIx) (bad : Option Nat)
  /-- MIN (R61). -/
  | min (core : CoreIx) (bad : Option Nat)
  /-- MAX (R61). -/
  | max (core : CoreIx) (bad : Option Nat)
  /-- LI (R61). -/
  | li (core : CoreIx) (bad : Option Nat)
  /-- LIH (R61). -/
  | lih (core : CoreIx) (bad : Option Nat)
  /-- LDG (R61). -/
  | ldg (core : CoreIx) (bad : Option Nat)
  /-- STG (R61). -/
  | stg (core : CoreIx) (bad : Option Nat)
  /-- VLD (R61). -/
  | vld (core : CoreIx) (bad : Option Nat)
  /-- VST (R61). -/
  | vst (core : CoreIx) (bad : Option Nat)
  /-- LDW (R52). -/
  | ldw (core : CoreIx) (bad : Option Nat)
  /-- MMA (R53). -/
  | mma (core : CoreIx) (bad : Option Nat)
  /-- DRAIN (R53). -/
  | drain (core : CoreIx) (bad : Option Nat)
  /-- VADD (R55). -/
  | vadd (core : CoreIx) (bad : Option Nat)
  /-- VSUB (R55). -/
  | vsub (core : CoreIx) (bad : Option Nat)
  /-- VMUL (R55). -/
  | vmul (core : CoreIx) (bad : Option Nat)
  /-- VFMA (R55). -/
  | vfma (core : CoreIx) (bad : Option Nat)
  /-- VMAX (R55). -/
  | vmax (core : CoreIx) (bad : Option Nat)
  /-- VMIN (R55). -/
  | vmin (core : CoreIx) (bad : Option Nat)
  /-- VCMP (R55). -/
  | vcmp (core : CoreIx) (bad : Option Nat)
  /-- VSEL (R55). -/
  | vsel (core : CoreIx) (bad : Option Nat)
  /-- VCVT (R122). -/
  | vcvt (core : CoreIx) (bad : Option Nat)
  /-- VEXP (R56). -/
  | vexp (core : CoreIx) (bad : Option Nat)
  /-- VRCP (R56). -/
  | vrcp (core : CoreIx) (bad : Option Nat)
  /-- VRSQ (R56). -/
  | vrsq (core : CoreIx) (bad : Option Nat)
  /-- VRED (R55). -/
  | vred (core : CoreIx) (bad : Option Nat)
  /-- VBCAST (R55). -/
  | vbcast (core : CoreIx) (bad : Option Nat)
  /-- VMOVG (R55). -/
  | vmovg (core : CoreIx) (bad : Option Nat)
  /-- VMOVV (R55). -/
  | vmovv (core : CoreIx) (bad : Option Nat)
  /-- DMAQ (R64). -/
  | dmaq (core : CoreIx) (bad : Option Nat)
  /-- EVWAIT (R61). -/
  | evwait (core : CoreIx) (bad : Option Nat)
  /-- EVADD (R61). -/
  | evadd (core : CoreIx) (bad : Option Nat)
  /-- SIGNAL (R70). -/
  | signal (core : CoreIx) (bad : Option Nat)
  /-- GBAR (R71). -/
  | gbar (core : CoreIx) (bad : Option Nat)
  /-- SFENCE (R61). -/
  | sfence (core : CoreIx) (bad : Option Nat)
  /-- DMAWAIT (R61). -/
  | dmawait (core : CoreIx) (bad : Option Nat)
  /-- PEQ (R61). -/
  | peq (core : CoreIx) (bad : Option Nat)
  /-- PNE (R61). -/
  | pne (core : CoreIx) (bad : Option Nat)
  /-- PLT (R61). -/
  | plt (core : CoreIx) (bad : Option Nat)
  /-- PGE (R61). -/
  | pge (core : CoreIx) (bad : Option Nat)
  /-- PLTU (R61). -/
  | pltu (core : CoreIx) (bad : Option Nat)
  /-- PGEU (R61). -/
  | pgeu (core : CoreIx) (bad : Option Nat)
  /-- LDWS (R85). -/
  | ldws (core : CoreIx) (bad : Option Nat)
  /-- MMAZ (R87). -/
  | mmaz (core : CoreIx) (bad : Option Nat)
  /-- ZMAP (R88). -/
  | zmap (core : CoreIx) (bad : Option Nat)
  /-- SKIP (R90). -/
  | skip (core : CoreIx) (bad : Option Nat)
  /-- TOPK (R95). -/
  | topk (core : CoreIx) (bad : Option Nat)
  /-- SLOTSET (R92). -/
  | slotset (core : CoreIx) (bad : Option Nat)
  /-- BCLASS (R93). -/
  | bclass (core : CoreIx) (bad : Option Nat)
  /-- EMASK (R94). -/
  | emask (core : CoreIx) (bad : Option Nat)
  /-- ENGINE_OP_DONE (R59). -/
  | engineOpDone (core : CoreIx) (eng : EngIx)
  /-- EVWAIT_SATISFIED (R70). -/
  | evwaitSatisfied (core : CoreIx)
  /-- SFENCE_DONE (R61). -/
  | sfenceDone (core : CoreIx)
  /-- DMAWAIT_DONE (R61). -/
  | dmawaitDone (core : CoreIx)
  /-- GBAR_COMPLETE (R71). -/
  | gbarComplete (core : CoreIx)
  /-- COPY (R66). -/
  | copy (core : CoreIx) (queue : QueueIx) (bad : Option Nat)
  /-- FILL (R66). -/
  | fill (core : CoreIx) (queue : QueueIx) (bad : Option Nat)
  /-- FWRITE (R66). -/
  | fwrite (core : CoreIx) (queue : QueueIx) (bad : Option Nat)
  /-- FREAD (R66). -/
  | fread (core : CoreIx) (queue : QueueIx) (bad : Option Nat)
  /-- RACC (R148). -/
  | racc (core : CoreIx) (queue : QueueIx) (bad : Option Nat)
  /-- MCAST (R254). -/
  | mcast (core : CoreIx) (queue : QueueIx) (bad : Option Nat)
  /-- RSIGNAL (R66). -/
  | rsignal (core : CoreIx) (queue : QueueIx) (bad : Option Nat)
  /-- DISPATCH (R102). -/
  | dispatch (core : CoreIx) (queue : QueueIx) (bad : Option Nat)
  /-- DISPATCH_EXPERT_SIGNAL (R102). -/
  | dispatchExpertSignal (core : CoreIx) (queue : QueueIx)
  /-- COMBINE_RECV (R103). -/
  | combineRecv (core : CoreIx) (queue : QueueIx) (bad : Option Nat)
  /-- COMBINE_TIMEOUT (R107). -/
  | combineTimeout (core : CoreIx) (queue : QueueIx)
  /-- COMBINE (R104). -/
  | combine (core : CoreIx) (queue : QueueIx) (bad : Option Nat)
  /-- RINGPASS (R108). -/
  | ringpass (core : CoreIx) (queue : QueueIx) (bad : Option Nat)
  /-- ALLREDUCE (R303). -/
  | allreduce (core : CoreIx) (queue : QueueIx) (bad : Option Nat)
  /-- REDUCE (R312). -/
  | reduce (core : CoreIx) (queue : QueueIx) (bad : Option Nat)
  /-- REDUCE_SCATTER (R312). -/
  | reduceScatter (core : CoreIx) (queue : QueueIx) (bad : Option Nat)
  /-- ALLGATHER (R361). -/
  | allgather (core : CoreIx) (queue : QueueIx) (bad : Option Nat)
  /-- BROADCAST (R312). -/
  | broadcast (core : CoreIx) (queue : QueueIx) (bad : Option Nat)
  /-- BARRIER (R320). -/
  | barrier (core : CoreIx) (queue : QueueIx) (bad : Option Nat)
  /-- SCALAR (R321). -/
  | scalar (core : CoreIx) (queue : QueueIx) (bad : Option Nat)
  /-- PERMUTE (R368). -/
  | permute (core : CoreIx) (queue : QueueIx) (bad : Option Nat)
  /-- BACKUP (R324). -/
  | backup (core : CoreIx) (queue : QueueIx) (bad : Option Nat)
  /-- DESCRIPTOR_COMPLETE (R68). -/
  | descriptorComplete (core : CoreIx) (queue : QueueIx)
  /-- JOB_SUBMIT (R78). -/
  | jobSubmit (ring : RingIx) (entry : Option (List Byte))
  /-- JOB_ABORT (R454). -/
  | jobAbort (ring : RingIx) (entry : Option (List Byte))
  /-- SQ_NOP (R452). -/
  | sqNop (ring : RingIx) (entry : Option (List Byte))
  /-- SQ_DOORBELL (R453). -/
  | sqDoorbell (ring : RingIx) (value : Word)
  /-- CQ_DOORBELL (R457). -/
  | cqDoorbell (ring : RingIx) (value : Word)
  /-- CQ_INT_TIMER (R458). -/
  | cqIntTimer (ring : RingIx)
  /-- RING_ENABLE (R451). -/
  | ringEnable (ring : RingIx) (value : Word)
  /-- RING_DISABLE (R473). -/
  | ringDisable (ring : RingIx) (value : Word)
  /-- MEM_TRAIN_START (R144). -/
  | memTrainStart (value : Word)
  /-- TRAINING_DONE (R144). -/
  | trainingDone (ctl : CtlIx) (failCode : Nat) (failMap : Nat)
  /-- MEM_ENABLE (R145). -/
  | memEnable (value : Word)
  /-- MEM_DISABLE (R158). -/
  | memDisable (value : Word)
  /-- MEM_SHUTDOWN_DONE (R408). -/
  | memShutdownDone
  /-- RACC_PACKET (R150). -/
  | raccPacket (bad : Option Nat)
  /-- GATE_TIMEOUT (R153). -/
  | gateTimeout (entry : Nat)
  /-- TOMBSTONE_EXPIRY (R152). -/
  | tombstoneExpiry (entry : Nat)
  /-- RACC_RETRY_RESEND (R154). -/
  | raccRetryResend (core : CoreIx) (queue : QueueIx)
  /-- LNK_ENABLE (R173). -/
  | lnkEnable (port : PortIx) (value : Word)
  /-- LNK_DISABLE (R198). -/
  | lnkDisable (port : PortIx) (value : Word)
  /-- PORT_SHUTDOWN_DONE (R198). -/
  | portShutdownDone (port : PortIx)
  /-- LNK_RETRAIN (R199). -/
  | lnkRetrain (port : PortIx) (value : Word)
  /-- LP_REQUEST (R195). -/
  | lpRequest (port : PortIx) (value : Word)
  /-- LP_EXIT_WRITE (R195). -/
  | lpExitWrite (port : PortIx) (value : Word)
  /-- LP1_AUTO_IDLE (R195). -/
  | lp1AutoIdle (port : PortIx)
  /-- LP2_EXIT_DONE (R194). -/
  | lp2ExitDone (port : PortIx)
  /-- SQUELCH_WAKE (R195). -/
  | squelchWake (port : PortIx)
  /-- IDENT_FRAME (R176). -/
  | identFrame (lane : LaneIx) (bytes : List Byte) (inverted : Bool) (fom : Nat)
  /-- READY_FRAME (R173). -/
  | readyFrame (lane : LaneIx) (bytes : List Byte)
  /-- EQ_FRAME (R165). -/
  | eqFrame (lane : LaneIx) (bytes : List Byte) (fom : Nat)
  /-- LOOP_REQ_FRAME (R197). -/
  | loopReqFrame (lane : LaneIx) (bytes : List Byte)
  /-- NARROW_FRAME (R178). -/
  | narrowFrame (lane : LaneIx) (bytes : List Byte)
  /-- LANE_LOCK (R164). -/
  | laneLock (lane : LaneIx)
  /-- LANE_LOCK_LOSS (R166). -/
  | laneLockLoss (lane : LaneIx) (idle : Bool)
  /-- FOM_MEASURE (R166). -/
  | fomMeasure (lane : LaneIx) (fom : Nat)
  /-- EQ_ADAPT_END (R165). -/
  | eqAdaptEnd (port : PortIx)
  /-- TRAINING_STEP_TIMEOUT (R177). -/
  | trainingStepTimeout (port : PortIx)
  /-- FAILED_RETRY_TIMER (R173). -/
  | failedRetryTimer (port : PortIx)
  /-- MARKER_BLOCK (R172). -/
  | markerBlock (port : PortIx) (lanes : List (List Byte)) (skews : List Nat)
  /-- MARKER_INTERVAL_END (R171). -/
  | markerIntervalEnd (port : PortIx)
  /-- NULL_FLIT (R180). -/
  | nullFlit (port : PortIx) (rx : RxFlit)
  /-- DATA_FLIT (R246). -/
  | dataFlit (port : PortIx) (rx : RxFlit) (header : Bool)
  /-- CTRL_FLIT (R189). -/
  | ctrlFlit (port : PortIx) (rx : RxFlit) (replayed : Bool)
  /-- CREDIT_FLIT (R188). -/
  | creditFlit (port : PortIx) (rx : RxFlit)
  /-- NAK (R184). -/
  | nak (port : PortIx) (rx : RxFlit)
  /-- REPLAY_START (R183). -/
  | replayStart (port : PortIx) (rx : RxFlit)
  /-- REQ_LP1 (R195). -/
  | reqLp1 (port : PortIx) (rx : RxFlit)
  /-- REQ_LP2 (R195). -/
  | reqLp2 (port : PortIx) (rx : RxFlit)
  /-- LPM_ACCEPT (R195). -/
  | lpmAccept (port : PortIx) (rx : RxFlit)
  /-- LPM_REFUSE (R195). -/
  | lpmRefuse (port : PortIx) (rx : RxFlit)
  /-- WAKE (R195). -/
  | wake (port : PortIx) (rx : RxFlit)
  /-- LPM_DISABLE (R198). -/
  | lpmDisable (port : PortIx) (rx : RxFlit)
  /-- PING_START (R193). -/
  | pingStart (port : PortIx) (value : Word)
  /-- PING_REQUEST (R193). -/
  | pingRequest (port : PortIx) (rx : RxFlit)
  /-- PING_RESPONSE (R193). -/
  | pingResponse (port : PortIx) (rx : RxFlit)
  /-- FATAL_FLIT (R192). -/
  | fatalFlit (port : PortIx) (rx : RxFlit)
  /-- ACK_TIMEOUT (R184). -/
  | ackTimeout (port : PortIx)
  /-- NAK_TIMEOUT (R183). -/
  | nakTimeout (port : PortIx)
  /-- CREDIT_WAIT_TIMEOUT (R188). -/
  | creditWaitTimeout (port : PortIx)
  /-- OPEN_PACKET_TIMEOUT (R247). -/
  | openPacketTimeout (port : PortIx)
  /-- PORT_UP_HOLD_EXPIRY (R220). -/
  | portUpHoldExpiry (port : PortIx)
  /-- PORT_POWER_TURN (R385). -/
  | portPowerTurn (port : PortIx)
  /-- ACK (R210). -/
  | ack
  /-- RETRY (R210). -/
  | retry
  /-- REFUSE (R225). -/
  | refuse
  /-- READ_REQ (R210). -/
  | readReq (bad : Option Nat)
  /-- READ_RESP (R210). -/
  | readResp
  /-- WRITE (R204). -/
  | write
  /-- RSIGNAL_PACKET (R66). -/
  | rsignalPacket
  /-- MCAST_PACKET (R254). -/
  | mcastPacket
  /-- MCAST_RESIDUE_SERVE (R255). -/
  | mcastResidueServe
  /-- DISPATCH_ROW (R102). -/
  | dispatchRow
  /-- COMBINE_TERM (R105). -/
  | combineTerm (bad : Option Nat)
  /-- RING_BLOCK (R108). -/
  | ringBlock
  /-- ACC_CHUNK (R309). -/
  | accChunk (bad : Option Nat)
  /-- DIST_CHUNK (R311). -/
  | distChunk
  /-- HANDOFF_CHUNK (R310). -/
  | handoffChunk (bad : Option Nat)
  /-- PERMUTE_DATA (R372). -/
  | permuteData
  /-- BARRIER_ARRIVE (R320). -/
  | barrierArrive
  /-- BARRIER_RELEASE (R320). -/
  | barrierRelease
  /-- SCALAR_ACC (R321). -/
  | scalarAcc (bad : Option Nat)
  /-- SCALAR_DIST (R321). -/
  | scalarDist
  /-- CHAIN_CREDIT (R313). -/
  | chainCredit
  /-- CHAIN_ABORT (R319). -/
  | chainAbort
  /-- BACKUP_ACT (R324). -/
  | backupAct
  /-- STANDBY_RELEASE (R325). -/
  | standbyRelease
  /-- REPAIR_REQ (R327). -/
  | repairReq
  /-- PROBE (R387). -/
  | probe
  /-- PROBE_RESP (R388). -/
  | probeResp
  /-- NBR_MSG (R388). -/
  | nbrMsg
  /-- OUTPUT_SLOT (R275). -/
  | outputSlot (output : OutIx)
  /-- GATE_WINDOW_CHANGE (R287). -/
  | gateWindowChange (port : PortIx)
  /-- CELL_GRANT (R243). -/
  | cellGrant (input : OutIx)
  /-- CONGESTION_HOLD_END (R262). -/
  | congestionHoldEnd (input : OutIx)
  /-- AGE_SCAN (R264). -/
  | ageScan
  /-- RSQ_TIMEOUT (R261). -/
  | rsqTimeout (flow : Nat)
  /-- RSQ_IDLE_RELEASE (R261). -/
  | rsqIdleRelease (flow : Nat)
  /-- SWEEP_DONE (R268). -/
  | sweepDone
  /-- RECLAIM_TIMEOUT (R269). -/
  | reclaimTimeout
  /-- AUDIT (R271). -/
  | audit (value : Word)
  /-- AUDIT_PERIOD_TIMER (R271). -/
  | auditPeriodTimer
  /-- AUDIT_DONE (R271). -/
  | auditDone
  /-- SWC_ENABLE (R273). -/
  | swcEnable (value : Word)
  /-- SWC_DISABLE (R273). -/
  | swcDisable (value : Word)
  /-- SCH_CLEAR (R292). -/
  | schClear (value : Word)
  /-- COL_ENABLE (R408). -/
  | colEnable (value : Word)
  /-- COL_DISABLE (R333). -/
  | colDisable (value : Word)
  /-- COL_SHUTDOWN_DONE (R408). -/
  | colShutdownDone
  /-- DOMAIN_ENABLE (R319). -/
  | domainEnable (dom : DomIx) (value : Word)
  /-- DOMAIN_DISABLE (R319). -/
  | domainDisable (dom : DomIx) (value : Word)
  /-- DOMAIN_SHUTDOWN_DONE (R319). -/
  | domainShutdownDone (dom : DomIx)
  /-- TICKET_START (R317). -/
  | ticketStart (dom : DomIx) (bad : Option Nat)
  /-- STAGING_RESERVED (R313). -/
  | stagingReserved (chain : ChainIx)
  /-- CHUNK_SEND (R314). -/
  | chunkSend (chain : ChainIx) (bad : Option Nat)
  /-- ORDER_TIMEOUT (R318). -/
  | orderTimeout (dom : DomIx)
  /-- CHAIN_TIMEOUT (R323). -/
  | chainTimeout (chain : ChainIx)
  /-- BACKUP_GO (R324). -/
  | backupGo (value : Word)
  /-- HELD_ACTIVATION_TIMEOUT (R324). -/
  | heldActivationTimeout
  /-- STANDBY_TIMEOUT (R325). -/
  | standbyTimeout (chain : ChainIx)
  /-- REPLAY_RESUME (R344). -/
  | replayResume (core : CoreIx)
  /-- REPLAY_CAUGHT_UP (R344). -/
  | replayCaughtUp (core : CoreIx)
  /-- DET_START_ARM (R353). -/
  | detStartArm (value : Word)
  /-- DET_START_CANCEL (R353). -/
  | detStartCancel (value : Word)
  /-- START_BARRIER_RELEASE (R353). -/
  | startBarrierRelease
  /-- MEM_SHD_CFG_VALID (R357). -/
  | memShdCfgValid (entry : EntryIx) (value : Word)
  /-- ROLLBACK (R360). -/
  | rollback (entry : EntryIx) (value : Word)
  /-- PERMUTE_WAIT_END (R371). -/
  | permuteWaitEnd (chain : ChainIx)
  /-- PERMUTE_BLOCKED_TIMEOUT (R371). -/
  | permuteBlockedTimeout (chain : ChainIx)
  /-- PERMUTE_COMPLETE (R373). -/
  | permuteComplete (chain : ChainIx)
  /-- PERMUTE_PROGRESS_TIMEOUT (R373). -/
  | permuteProgressTimeout (chain : ChainIx)
  /-- XLATE_HOLD_EXPIRY (R375). -/
  | xlateHoldExpiry (entry : EntryIx)
  /-- POWER_ON_RESET (R378). -/
  | powerOnReset
  /-- LINK_RESET (R378). -/
  | linkReset
  /-- FULL_RESET (R378). -/
  | fullReset (value : Word)
  /-- DEVICE_RESET (R378). -/
  | deviceReset (value : Word)
  /-- FLR (R449). -/
  | flr
  /-- ROOT_PLL_LOCK (R381). -/
  | rootPllLock (modData : List Byte)
  /-- FLASH_SLOT_READ (R381). -/
  | flashSlotRead (headers : List Byte) (image : Option (List Byte))
  /-- BOOT_READY (R383). -/
  | bootReady (parts : BootParts)
  /-- RECOVERY_GO (R382). -/
  | recoveryGo (value : Word)
  /-- RECOVERY_IMAGE_READ (R382). -/
  | recoveryImageRead (image : Option (List Byte))
  /-- SEND_PROBE (R388). -/
  | sendProbe (value : Word)
  /-- SEND_NBR_MSG (R388). -/
  | sendNbrMsg (value : Word)
  /-- NBR_RX_POP (R396). -/
  | nbrRxPop (value : Word)
  /-- SYNTON_GO (R390). -/
  | syntonGo (value : Word)
  /-- SYNTON_MEASURE_DONE (R390). -/
  | syntonMeasureDone (offset : Int)
  /-- SYNTON_SLEW_DONE (R390). -/
  | syntonSlewDone
  /-- SYNTON_SOURCE_LOST (R391). -/
  | syntonSourceLost
  /-- HOLDOVER_REVERT_TIMEOUT (R391). -/
  | holdoverRevertTimeout
  /-- CLK_REVERT (R391). -/
  | clkRevert (value : Word)
  /-- FTIME_STEP (R392). -/
  | ftimeStep (value : Word)
  /-- FTIME_SLEW (R392). -/
  | ftimeSlew (value : Word)
  /-- SLEW_DONE (R392). -/
  | slewDone
  /-- FLT_FENCE_CMD (R406). -/
  | fltFenceCmd (value : Word)
  /-- FORCE_FATAL (R410). -/
  | forceFatal (value : Word)
  /-- SAFE_STATE_REACHED (R410). -/
  | safeStateReached
  /-- PLL_UNLOCK (R397). -/
  | pllUnlock
  /-- THERMAL_TRIP (R484). -/
  | thermalTrip (sensor : Nat) (temp : Int)
  /-- POWER_FAULT (R479). -/
  | powerFault (rail : Nat)
  /-- FW_WATCHDOG (R397). -/
  | fwWatchdog
  /-- FAULT_PULSE_END (R412). -/
  | faultPulseEnd
  /-- SNAP (R424). -/
  | snap (value : Word)
  /-- SNAP_ARM (R424). -/
  | snapArm (value : Word)
  /-- SNAP_TIME_REACHED (R424). -/
  | snapTimeReached
  /-- RESET_ALL (R425). -/
  | resetAll (value : Word)
  /-- TRACE_ENABLE (R426). -/
  | traceEnable (value : Word)
  /-- TRACE_DISABLE (R426). -/
  | traceDisable (value : Word)
  /-- TRACE_TRIGGER (R431). -/
  | traceTrigger (value : Word)
  /-- TRACE_MARK (R428). -/
  | traceMark (value : Word)
  /-- TRACE_POST_DONE (R426). -/
  | tracePostDone
  /-- TRACE_DRAIN_DONE (R426). -/
  | traceDrainDone
  /-- BAR2_READ (R446). -/
  | bar2Read (addr : Nat) (len : Nat) (bad : Bool)
  /-- BAR2_WRITE (R447). -/
  | bar2Write (addr : Nat) (bytes : List Byte) (enables : List Bool)
  /-- ATTEST (R469). -/
  | attest (nonce : Option (List Byte))
  /-- FW_UPDATE (R465). -/
  | fwUpdate (image : Option (List Byte)) (flashOk : Bool)
  /-- PUF_REFRESH (R468). -/
  | pufRefresh (ok : Bool)
  /-- DEBUG_UNLOCK (R470). -/
  | debugUnlock (token : Option (List Byte))
  /-- MAILBOX_DONE (R462). -/
  | mailboxDone
  /-- SEC_LOCK (R466). -/
  | secLock (value : Word)
  /-- MSIX_UNMASK (R459). -/
  | msixUnmask (vector : VecIx)
  /-- SMBUS_READ_BYTE (R472). -/
  | smbusReadByte (code : Nat) (pec : Bool)
  /-- SMBUS_READ_WORD (R472). -/
  | smbusReadWord (code : Nat) (pec : Bool)
  /-- SMBUS_BLOCK_READ (R472). -/
  | smbusBlockRead (code : Nat) (pec : Bool)
  /-- SMBUS_WRITE (R472). -/
  | smbusWrite (bytes : List Byte)
  /-- BYPASS (R471). -/
  | bypass (tdi : Bool)
  /-- IDCODE (R471). -/
  | idcode
  /-- SAMPLE_PRELOAD (R471). -/
  | samplePreload (pins : List Bool)
  /-- HIGHZ (R471). -/
  | highz
  /-- EXTEST (R471). -/
  | extest (pins : List Bool)
  /-- AC_INSTRUCTION (R471). -/
  | acInstruction (train : Bool)
  /-- DEBUG_INSTRUCTION (R471). -/
  | debugInstruction (code : Nat)
  /-- TEST_LOGIC_RESET (R471). -/
  | testLogicReset
  /-- HOT_SWAP_ON (R477). -/
  | hotSwapOn
  /-- INPUT_OFF (R479). -/
  | inputOff
  /-- POWER_SAMPLE (R482). -/
  | powerSample (tenths : Nat) (mv : Nat) (current : Nat)
  /-- LIMITER_CHECK (R482). -/
  | limiterCheck (temps : List Int)
  /-- NO_ACK_AGE_LIMIT (R265). -/
  | noAckAgeLimit (core : CoreIx) (queue : QueueIx)
  /-- JOB_LAUNCH (R76). -/
  | jobLaunch (core : CoreIx)
  /-- COMPLETION_TIMEOUT (R453). -/
  | completionTimeout (ring : RingIx)
  /-- LATENCY_SAMPLE (R290). -/
  | latencySample
  /-- RELEASE_POINT_WAIT (R340). -/
  | releasePointWait (group : GroupIx)
  /-- DEVICE_RESET_DONE (R379). -/
  | deviceResetDone
deriving DecidableEq, Repr

end Sys2Proof
end

