-- ==== Sys2Proof/Decode.lean ====
section
/-! DEFINITION. The decoder over the bits of the opcode table. No row of the table gives bits, so no word spells a command. -/

namespace Sys2Proof

/-- The command a word spells: none, since no row of the opcode table has bits. -/
def decodeTableWord (nbits w : Nat) : Option Instr :=
  match nbits, w with
  | _, _ => none

end Sys2Proof
end

