-- ==== Sys2Proof/Machine/Bits.lean ====
section
/-! DEFINITION. Bit fields, little-endian bytes, saturating counts, sparse tables in canonical form, and the CRCs: the plain
helpers that every meaning uses. -/

namespace Sys2Proof.Machine

/-- Bits [lo + width - 1 : lo] of a number. -/
def bits (x lo width : Nat) : Nat := x / 2 ^ lo % 2 ^ width

/-- Bit i of a number. -/
def bit (x i : Nat) : Bool := x / 2 ^ i % 2 == 1

/-- A number with bits [lo + width - 1 : lo] replaced by the low bits of v. -/
def putBits (x lo width v : Nat) : Nat :=
  x % 2 ^ lo + (v % 2 ^ width) * 2 ^ lo + x / 2 ^ (lo + width) * 2 ^ (lo + width)

/-- A Bool as 0 or 1. -/
def b2n (b : Bool) : Nat := if b then 1 else 0

/-- Two's-complement reading of the low w bits. -/
def toSigned (w x : Nat) : Int :=
  let y := x % 2 ^ w
  if y < 2 ^ (w - 1) then (y : Int) else (y : Int) - (2 ^ w : Nat)

/-- The low w bits of an integer in two's complement. -/
def ofSigned (w : Nat) (i : Int) : Nat := (i % ((2 ^ w : Nat) : Int)).toNat

/-- Sum kept at the all-ones value of a w-bit event count (R12). -/
def satAdd (w a b : Nat) : Nat := min (a + b) (2 ^ w - 1)

/-- The value of bytes read little-endian (R6). -/
def leNat : List Byte → Nat
  | [] => 0
  | b :: bs => b.toNat + 256 * leNat bs

/-- n bytes of a value, little-endian (R6). -/
def leBytes : Nat → Nat → List Byte
  | 0, _ => []
  | n + 1, v => BitVec.ofNat 8 v :: leBytes n (v / 256)

/-- The value of bytes read most significant first (the octet strings of R463). -/
def beNat (bs : List Byte) : Nat := bs.foldl (fun a b => a * 256 + b.toNat) 0

/-- n bytes of a value, most significant first. -/
def beBytes (n v : Nat) : List Byte := (leBytes n v).reverse

/-- n bytes of a list from an offset; bytes past the end read as zero. -/
def slice (bs : List Byte) (off n : Nat) : List Byte :=
  let t := (bs.drop off).take n
  t ++ List.replicate (n - t.length) 0

/-- The n-byte little-endian field at an offset of a byte list. -/
def field (bs : List Byte) (off n : Nat) : Nat := leNat ((bs.drop off).take n)

/-- Whether n bytes from an offset are all zero. -/
def zeroAt (bs : List Byte) (off n : Nat) : Bool := ((bs.drop off).take n).all (· == 0)

/-- A byte list with the bytes from an offset replaced. -/
def spliceAt (bs : List Byte) (off : Nat) (new : List Byte) : List Byte :=
  bs.take off ++ new ++ bs.drop (off + new.length)

/-- Number of ones in the low n bits. -/
def popcount : Nat → Nat → Nat
  | 0, _ => 0
  | n + 1, x => x % 2 + popcount n (x / 2)

/-- The indices below n at which a bit is set, ascending. -/
def onesBelow (n x : Nat) : List Nat := (List.range n).filter (bit x)

/-- Integer logarithm, rounded down; 0 for 0. -/
def log2 (n : Nat) : Nat := Nat.log2 n

/-- A sparse table: keys strictly rising, no entry equal to what an unlisted key reads as. -/
abbrev Tbl (α : Type) := List (Nat × α)

/-- The entry of a key. -/
def Tbl.find {α : Type} : Tbl α → Nat → Option α
  | [], _ => none
  | (k, v) :: t, i => if i = k then some v else Tbl.find t i

/-- What a key reads as: its entry, else the default. -/
def Tbl.read {α : Type} (t : Tbl α) (d : α) (i : Nat) : α := (Tbl.find t i).getD d

/-- The table without a key. -/
def Tbl.drop {α : Type} : Tbl α → Nat → Tbl α
  | [], _ => []
  | (k, v) :: t, i => if i = k then Tbl.drop t i else (k, v) :: Tbl.drop t i

/-- The table with a key set, without regard to the default. -/
def Tbl.insert {α : Type} : Tbl α → Nat → α → Tbl α
  | [], i, x => [(i, x)]
  | (k, v) :: t, i, x =>
    if i = k then (i, x) :: t else if i < k then (i, x) :: (k, v) :: t else (k, v) :: Tbl.insert t i x

/-- Writes a key; writing the default removes the entry, so that equal tables are equal data. -/
def Tbl.write {α : Type} [DecidableEq α] (t : Tbl α) (d : α) (i : Nat) (x : α) : Tbl α :=
  if x = d then Tbl.drop t i else Tbl.insert t i x

/-- The keys strictly rise from a bound on. -/
def Tbl.risesFrom {α : Type} : Option Nat → Tbl α → Bool
  | _, [] => true
  | none, (k, _) :: t => Tbl.risesFrom (some k) t
  | some b, (k, _) :: t => decide (b < k) && Tbl.risesFrom (some k) t

/-- The canonical form: keys strictly rising and no entry equal to the default. -/
def Tbl.canonical {α : Type} [DecidableEq α] (t : Tbl α) (d : α) : Bool :=
  Tbl.risesFrom none t && t.all (fun p => decide (p.2 ≠ d))

/-- One step of a reflected CRC: n bits of a byte already xored in. -/
def crcReflStep (poly : Nat) : Nat → Nat → Nat
  | 0, c => c
  | n + 1, c => crcReflStep poly n (if c % 2 = 1 then (c / 2) ^^^ poly else c / 2)

/-- A reflected CRC over bytes, initial value and final xor given. -/
def crcRefl (poly init xorOut : Nat) (bs : List Byte) : Nat :=
  (bs.foldl (fun c b => crcReflStep poly 8 (c ^^^ b.toNat)) init) ^^^ xorOut

/-- CRC-32C: polynomial 0x1EDC6F41 reflected, initial value and final xor all-ones (R181). -/
def crc32c (bs : List Byte) : Nat := crcRefl 0x82F63B78 0xFFFFFFFF 0xFFFFFFFF bs

/-- One step of a most-significant-bit-first CRC of w bits. -/
def crcMsbStep (w poly : Nat) : Nat → Nat → Nat
  | 0, c => c
  | n + 1, c =>
    crcMsbStep w poly n (if c / 2 ^ (w - 1) % 2 = 1 then ((c * 2) % 2 ^ w) ^^^ poly else (c * 2) % 2 ^ w)

/-- A most-significant-bit-first CRC of w bits over bytes. -/
def crcMsb (w poly init : Nat) (bs : List Byte) : Nat :=
  bs.foldl (fun c b => crcMsbStep w poly 8 (c ^^^ (b.toNat * 2 ^ (w - 8)))) init

end Sys2Proof.Machine
end

