-- ==== Sys2Proof/Machine/Crypto.lean ====
section
/-! DEFINITION. SHA-256 and the RSASSA-PSS verification of signed objects (R19, R463). The spec names both and gives neither's text; they follow
FIPS 180-4 and RFC 8017. PRESUMED. -/

namespace Sys2Proof.Machine

open Sys2Proof

/-! SHA-256 -/

/-- The eight 32-bit words of a 256-bit number, the most significant first. -/
def words8 (x : Nat) : List Nat := (List.range 8).map fun i => x / 2 ^ (32 * (7 - i)) % 2 ^ 32

/-- The round constants, eight to a number: the first 32 bits of the fractional parts of the cube roots of the first 64 primes. -/
def shaK : List Nat :=
  words8 0x428A2F9871374491B5C0FBCFE9B5DBA53956C25B59F111F1923F82A4AB1C5ED5 ++
  words8 0xD807AA9812835B01243185BE550C7DC372BE5D7480DEB1FE9BDC06A7C19BF174 ++
  words8 0xE49B69C1EFBE47860FC19DC6240CA1CC2DE92C6F4A7484AA5CB0A9DC76F988DA ++
  words8 0x983E5152A831C66DB00327C8BF597FC7C6E00BF3D5A7914706CA635114292967 ++
  words8 0x27B70A852E1B21384D2C6DFC53380D13650A7354766A0ABB81C2C92E92722C85 ++
  words8 0xA2BFE8A1A81A664BC24B8B70C76C51A3D192E819D6990624F40E3585106AA070 ++
  words8 0x19A4C1161E376C082748774C34B0BCB5391C0CB34ED8AA4A5B9CCA4F682E6FF3 ++
  words8 0x748F82EE78A5636F84C878148CC7020890BEFFFAA4506CEBBEF9A3F7C67178F2

/-- The initial hash value: the first 32 bits of the fractional parts of the square roots of the first 8 primes. -/
def shaInit : List Nat := words8 0x6A09E667BB67AE853C6EF372A54FF53A510E527F9B05688C1F83D9AB5BE0CD19

/-- Rotation of a 32-bit word to the right. -/
def rotr (n x : Nat) : Nat := (x / 2 ^ n + x * 2 ^ (32 - n)) % 2 ^ 32

/-- The message schedule: extends the last 16 words, newest first, to n more. -/
def shaExtend : Nat → List Nat → List Nat
  | 0, w => w
  | n + 1, w =>
    let g (i : Nat) : Nat := w.getD i 0
    let s0 := rotr 7 (g 14) ^^^ rotr 18 (g 14) ^^^ (g 14 / 2 ^ 3)
    let s1 := rotr 17 (g 1) ^^^ rotr 19 (g 1) ^^^ (g 1 / 2 ^ 10)
    shaExtend n (((g 15 + s0 + g 6 + s1) % 2 ^ 32) :: w)

/-- One round on the eight working words. -/
def shaRound (h : List Nat) (kw : Nat × Nat) : List Nat :=
  let g (i : Nat) : Nat := h.getD i 0
  let e := g 4
  let a := g 0
  let ch := (e &&& g 5) ^^^ ((e ^^^ 0xFFFFFFFF) &&& g 6)
  let maj := (a &&& g 1) ^^^ (a &&& g 2) ^^^ (g 1 &&& g 2)
  let t1 := g 7 + (rotr 6 e ^^^ rotr 11 e ^^^ rotr 25 e) + ch + kw.1 + kw.2
  let t2 := (rotr 2 a ^^^ rotr 13 a ^^^ rotr 22 a) + maj
  [(t1 + t2) % 2 ^ 32, a, g 1, g 2, (g 3 + t1) % 2 ^ 32, e, g 5, g 6]

/-- One 64-byte block. -/
def shaBlock (h : List Nat) (block : List Byte) : List Nat :=
  let w := (shaExtend 48 ((List.range 16).map fun i => beNat ((block.drop (4 * i)).take 4)).reverse).reverse
  let r := (shaK.zip w).foldl shaRound h
  (h.zip r).map fun p => (p.1 + p.2) % 2 ^ 32

/-- The blocks of a padded message. -/
def shaBlocks : Nat → List Nat → List Byte → List Nat
  | 0, h, _ => h
  | n + 1, h, bs => shaBlocks n (shaBlock h (bs.take 64)) (bs.drop 64)

/-- SHA-256 of a byte string: 32 bytes. -/
def sha256 (bs : List Byte) : List Byte :=
  let n := bs.length
  let blocks := (n + 9 + 63) / 64
  let msg := bs ++ [0x80] ++ List.replicate (64 * blocks - n - 9) 0 ++ beBytes 8 (8 * n)
  ((shaBlocks blocks shaInit msg).map (beBytes 4)).flatten

/-! RSASSA-PSS -/

/-- x to the power e modulo n; the first argument is the number of exponent bits. -/
def powMod : Nat → Nat → Nat → Nat → Nat
  | 0, _, _, n => 1 % n
  | k + 1, x, e, n =>
    let r := powMod k (x * x % n) (e / 2) n
    if e % 2 = 1 then x * r % n else r

/-- MGF1 with SHA-256: n bytes from a seed. -/
def mgf1 (seed : List Byte) (n : Nat) : List Byte :=
  (((List.range ((n + 31) / 32)).map fun i => sha256 (seed ++ beBytes 4 i)).flatten).take n

/-- EMSA-PSS verification of an encoded message of emBits bits against a message hash, with a 32-byte salt. -/
def pssOk (em emBits : Nat) (mHash : List Byte) : Bool :=
  let emLen := (emBits + 7) / 8
  let bs := beBytes emLen em
  let dbLen := emLen - 33
  let h := (bs.drop dbLen).take 32
  let masked := bs.take dbLen
  let spare := 8 * emLen - emBits
  let db := (masked.zip (mgf1 h dbLen)).map fun p => p.1 ^^^ p.2
  let db := match db with
    | [] => []
    | b :: rest => BitVec.ofNat 8 (b.toNat % 2 ^ (8 - spare)) :: rest
  let salt := db.drop (dbLen - 32)
  decide (emLen ≥ 66) && decide (em < 2 ^ emBits) && bs.drop (emLen - 1) == [0xBC] &&
    (db.take (dbLen - 33)).all (· == 0) && (db.drop (dbLen - 33)).take 1 == [0x01] &&
    sha256 (List.replicate 8 0 ++ mHash ++ salt) == h

/-- The hash of a key: over its modulus and its 4-byte exponent, as the signature block holds them (R463). -/
def keyHash (sigBlock : List Byte) : List Byte := sha256 (slice sigBlock 384 388)

/-- Whether a signature block signs a message (R19, R463): signature and modulus most significant byte first, the exponent little-endian. -/
def signatureOk (sigBlock msg : List Byte) : Bool :=
  let sig := beNat (sigBlock.take 384)
  let n := beNat ((sigBlock.drop 384).take 384)
  let e := field sigBlock 768 4
  decide (0 < n) && decide (sig < n) && pssOk (powMod 32 sig e n) (Nat.log2 n) (sha256 msg)

end Sys2Proof.Machine
end

