-- ==== Sys2Proof/Config.lean ====
section
/-! DEFINITION. What the spec leaves open: every definition here is a free value. None has a body, so nothing in Lean can
evaluate one or prove a value of one. The assumption log names each. -/

namespace Sys2Proof

/-- Which result inside the 2 ulp bound of R55 VEXP gives for an input code (R56). Log 20. -/
opaque Config.vexpPick : Nat → BitVec 2

/-- Which neighbour of the exact reciprocal VRCP gives for an input code (R55, R56). Log 20. -/
opaque Config.vrcpPick : Nat → BitVec 2

/-- Which result inside the 2 ulp bound of R55 VRSQ gives for an input code (R56). Log 20. -/
opaque Config.vrsqPick : Nat → BitVec 2

/-- A byte of GDDR7 that nothing has written since the reset or training numbered by the first argument (R13, R144). Log 11. -/
opaque Config.gddrByte : Nat → Nat → BitVec 8

/-- A byte of core SRAM that has not been zeroed since the reset numbered by the first argument (R48, R57). Log 12. -/
opaque Config.sramByte : Nat → Nat → BitVec 8

/-- A fresh undefined word, by the count of words drawn. Log 13. -/
opaque Config.freeWord : Nat → BitVec 64

/-- Where in the buffer the allocator's next free cell is looked for, by the count of draws (R244). Log 14. -/
opaque Config.freeCell : Nat → BitVec 17

/-- SHL, SHR and SRA (by OP) of a 64-bit value by an amount above 63, for which R61 states no result. Log 15. -/
opaque Config.shiftBig : Nat → Nat → Nat → BitVec 64

/-- Whether MIN and MAX compare as signed integers, which R61 does not state. Log 16. -/
opaque Config.minMaxSigned : Bool

/-- Which comparison VCMP makes, by the c field of the word: 0 equal, 1 not equal, 2 less, 3 less or equal, 4 greater, 5 greater or
equal. R61 gives no encoding. Log 17. -/
opaque Config.vcmpKind : Nat → BitVec 3

/-- Which reduction VRED makes, by the c field of the word: 0 sum, 1 maximum, 2 minimum. R55 gives no encoding. Log 18. -/
opaque Config.vredOp : Nat → BitVec 2

/-- What VRED writes to a lane other than lane 0 of d, by lane, old value and result. Log 19. -/
opaque Config.vredLane : Nat → BitVec 32 → BitVec 32 → BitVec 32

/-- Whether VBCAST, by its b field, takes its word from general register a and not from a lane of vector register a. Log 21. -/
opaque Config.bcastFromG : Nat → Bool

/-- The lane VBCAST and VMOVG read or write, by the b and c fields. Log 21. -/
opaque Config.moveLane : Nat → Nat → BitVec 6

/-- Whether VMOVG, by its c field, moves from a vector lane to a general register. Log 21. -/
opaque Config.movgToG : Nat → Bool

/-- Whether a mask lane of VSEL that is neither 0 nor all-ones selects register a (R55, R61). Log 36. -/
opaque Config.selOther : BitVec 32 → Bool

/-- Bits [63:32] that VMOVG leaves in a general register, by the register before and the word moved (R55). Log 37. -/
opaque Config.movgHigh : BitVec 64 → BitVec 32 → BitVec 32

/-- Byte i of the vendor root hash in the boot ROM (R381, R463). Log 22. -/
opaque Config.rootHash : Nat → BitVec 8

/-- Byte i of the modulus of the device's identity key, most significant first (R467). Log 23. -/
opaque Config.idModulus : Nat → BitVec 8

/-- Byte i of the identity key's signature over a report, by the count of words drawn (R469). Log 24. -/
opaque Config.idSignature : Nat → Nat → BitVec 8

/-- The identifier that the PCI-SIG assigned to the vendor, of which R442 gives no number. Log 43. -/
opaque Config.vendorId : BitVec 16

/-- The upset that strikes the device in an FCLK with nothing commanded, by the count of words drawn; 0 in its low bits is none. Log 42. -/
opaque Config.upset : Nat → BitVec 64

/-- IDCODE with the die stepping and the manufacturer code, of which R471 gives no value. Log 25. -/
opaque Config.idcodeOpen : BitVec 32

/-- The module address straps SA (R472, R489). Log 26. -/
opaque Config.smbusStraps : BitVec 3

end Sys2Proof
end

