-- ==== Sys2Proof/Machine/Regs.lean ====
section
/-! DEFINITION. The register handles: one definition per register of the spec's register tables (the BAR0 offset from
the block bases of R444, the reset value of the caption) and one per named field (the bit places of the table).
An array of registers is a function of its indices. The name of a field is REGISTER_FIELD. -/

namespace Sys2Proof.Machine

/-- A 32-bit register: its BAR0 offset (R444) and its reset value. -/
structure Reg where
  off : Nat
  reset : Nat
deriving DecidableEq, Repr

/-- A 64-bit value in two consecutive registers, bits [31:0] at the lower offset (R8). -/
structure Reg64 where
  off : Nat
  reset : Nat
deriving DecidableEq, Repr

/-- A field: its register, its lowest bit and its width. -/
structure Fld where
  reg : Reg
  lo : Nat
  width : Nat
deriving DecidableEq, Repr

/-- A field of a 64-bit value. -/
structure Fld64 where
  reg : Reg64
  lo : Nat
  width : Nat
deriving DecidableEq, Repr

/-- CORE_MAP after reset (R43): logical core L at physical row L / 9, column L mod 9, valid. -/
def coreMapReset (L : Nat) : Nat :=
  (L / 9) + (L % 9) * 0x10 + (10 * (L / 9) + L % 9) * 0x100 + 0x10000

/-- CORE_PHYS after reset (R43): a primary core is assigned its logical core; a spare of column 9 is not. -/
def corePhysReset (P : Nat) : Nat :=
  if P % 10 = 9 then 0 else 0x100 + (9 * (P / 10) + P % 10)

/-- PAT_CTRL: spec/01_pattern.md, offset 0x000, reset 0x0000_0000. -/
def PAT_CTRL : Reg := ⟨0x30000, 0x0⟩
def PAT_CTRL_LOAD : Fld := ⟨PAT_CTRL, 0, 1⟩
def PAT_CTRL_BASTE : Fld := ⟨PAT_CTRL, 1, 1⟩
def PAT_CTRL_DRAINED : Fld := ⟨PAT_CTRL, 2, 1⟩
def PAT_CTRL_DISCARD_BASTE : Fld := ⟨PAT_CTRL, 3, 1⟩
/-- PAT_STATUS: spec/01_pattern.md, offset 0x004, reset 0x0000_0000. -/
def PAT_STATUS : Reg := ⟨0x30004, 0x0⟩
def PAT_STATUS_LIVE_VALID : Fld := ⟨PAT_STATUS, 0, 1⟩
def PAT_STATUS_STAGED : Fld := ⟨PAT_STATUS, 1, 1⟩
def PAT_STATUS_BUSY : Fld := ⟨PAT_STATUS, 2, 1⟩
def PAT_STATUS_ARMED : Fld := ⟨PAT_STATUS, 3, 1⟩
def PAT_STATUS_MISSED : Fld := ⟨PAT_STATUS, 4, 1⟩
def PAT_STATUS_SEAM_DONE : Fld := ⟨PAT_STATUS, 5, 1⟩
def PAT_STATUS_EPOCH_AHEAD : Fld := ⟨PAT_STATUS, 6, 1⟩
def PAT_STATUS_LAST_CODE : Fld := ⟨PAT_STATUS, 8, 8⟩
def PAT_STATUS_LAST_OP : Fld := ⟨PAT_STATUS, 16, 2⟩
/-- PAT_LOAD_ADDR: spec/01_pattern.md, offset 0x008 (bits [31:0]) and 0x00C (bits [63:32]), reset 0x0000_0000_0000_0000. -/
def PAT_LOAD_ADDR : Reg64 := ⟨0x30008, 0x0⟩
def PAT_LOAD_ADDR_ADDR : Fld64 := ⟨PAT_LOAD_ADDR, 12, 52⟩
/-- PAT_LOAD_LEN: spec/01_pattern.md, offset 0x010, reset 0x0000_0000. -/
def PAT_LOAD_LEN : Reg := ⟨0x30010, 0x0⟩
def PAT_LOAD_LEN_LEN : Fld := ⟨PAT_LOAD_LEN, 0, 23⟩
/-- PAT_GEN_LIVE: spec/01_pattern.md, offset 0x014, reset 0x0000_0000. -/
def PAT_GEN_LIVE : Reg := ⟨0x30014, 0x0⟩
def PAT_GEN_LIVE_GEN : Fld := ⟨PAT_GEN_LIVE, 0, 32⟩
/-- PAT_GEN_STAGED: spec/01_pattern.md, offset 0x018, reset 0x0000_0000. -/
def PAT_GEN_STAGED : Reg := ⟨0x30018, 0x0⟩
def PAT_GEN_STAGED_GEN : Fld := ⟨PAT_GEN_STAGED, 0, 32⟩
/-- PAT_SEAM_TIME: spec/01_pattern.md, offset 0x020 (bits [31:0]) and 0x024 (bits [63:32]), reset 0x0000_0000_0000_0000. -/
def PAT_SEAM_TIME : Reg64 := ⟨0x30020, 0x0⟩
def PAT_SEAM_TIME_T : Fld64 := ⟨PAT_SEAM_TIME, 0, 64⟩
/-- PAT_SEAM_CTRL: spec/01_pattern.md, offset 0x028, reset 0x0000_0000. -/
def PAT_SEAM_CTRL : Reg := ⟨0x30028, 0x0⟩
def PAT_SEAM_CTRL_ARM : Fld := ⟨PAT_SEAM_CTRL, 0, 1⟩
def PAT_SEAM_CTRL_GEN : Fld := ⟨PAT_SEAM_CTRL, 16, 16⟩
/-- PAT_SEAM_LEAD: spec/01_pattern.md, offset 0x02C, reset 0x0000_80E8. -/
def PAT_SEAM_LEAD : Reg := ⟨0x3002c, 0x80e8⟩
def PAT_SEAM_LEAD_LEAD : Fld := ⟨PAT_SEAM_LEAD, 0, 24⟩
/-- PAT_SEAM_APPLIED: spec/01_pattern.md, offset 0x030 (bits [31:0]) and 0x034 (bits [63:32]), reset 0x0000_0000_0000_0000. -/
def PAT_SEAM_APPLIED : Reg64 := ⟨0x30030, 0x0⟩
def PAT_SEAM_APPLIED_T_APPLIED : Fld64 := ⟨PAT_SEAM_APPLIED, 0, 64⟩
/-- PAT_SEAM_REPORT: spec/01_pattern.md, offset 0x038, reset 0x0000_0000. -/
def PAT_SEAM_REPORT : Reg := ⟨0x30038, 0x0⟩
def PAT_SEAM_REPORT_GEN : Fld := ⟨PAT_SEAM_REPORT, 0, 16⟩
def PAT_SEAM_REPORT_PIECES : Fld := ⟨PAT_SEAM_REPORT, 16, 5⟩
def PAT_SEAM_REPORT_RWB : Fld := ⟨PAT_SEAM_REPORT, 21, 1⟩
def PAT_SEAM_REPORT_EPOCH_TOGGLED : Fld := ⟨PAT_SEAM_REPORT, 22, 1⟩
/-- PAT_EPOCH_STATUS: spec/01_pattern.md, offset 0x040, reset 0x0000_0000. -/
def PAT_EPOCH_STATUS : Reg := ⟨0x30040, 0x0⟩
def PAT_EPOCH_STATUS_CUR_EPOCH : Fld := ⟨PAT_EPOCH_STATUS, 0, 1⟩
def PAT_EPOCH_STATUS_OLD_DRAINING : Fld := ⟨PAT_EPOCH_STATUS, 1, 1⟩
def PAT_EPOCH_STATUS_BANK0_VALID : Fld := ⟨PAT_EPOCH_STATUS, 2, 1⟩
def PAT_EPOCH_STATUS_BANK1_VALID : Fld := ⟨PAT_EPOCH_STATUS, 3, 1⟩
/-- PAT_REFUSE_DETAIL: spec/01_pattern.md, offset 0x044, reset 0x0000_0000. -/
def PAT_REFUSE_DETAIL : Reg := ⟨0x30044, 0x0⟩
def PAT_REFUSE_DETAIL_PIECE_INDEX : Fld := ⟨PAT_REFUSE_DETAIL, 0, 8⟩
def PAT_REFUSE_DETAIL_PIECE_TYPE : Fld := ⟨PAT_REFUSE_DETAIL, 8, 8⟩
def PAT_REFUSE_DETAIL_RECORD : Fld := ⟨PAT_REFUSE_DETAIL, 16, 16⟩
/-- PAT_SEAM_MISS_COUNT: spec/01_pattern.md, offset 0x048, reset 0x0000_0000. -/
def PAT_SEAM_MISS_COUNT : Reg := ⟨0x30048, 0x0⟩
def PAT_SEAM_MISS_COUNT_COUNT : Fld := ⟨PAT_SEAM_MISS_COUNT, 0, 16⟩
/-- CORE_JOB_REFUSE: spec/02_compute_cores.md, offset 0x000, reset 0x0000_0000. -/
def CORE_JOB_REFUSE : Reg := ⟨0x100000, 0x0⟩
def CORE_JOB_REFUSE_CODE : Fld := ⟨CORE_JOB_REFUSE, 0, 8⟩
/-- CORE_JOB_REFUSE_ID: spec/02_compute_cores.md, offset 0x004, reset 0x0000_0000. -/
def CORE_JOB_REFUSE_ID : Reg := ⟨0x100004, 0x0⟩
def CORE_JOB_REFUSE_ID_JOB_ID : Fld := ⟨CORE_JOB_REFUSE_ID, 0, 32⟩
/-- CORE_FREE: spec/02_compute_cores.md, offset 0x008, reset 0x0000_0000. -/
def CORE_FREE : Reg := ⟨0x100008, 0x0⟩
def CORE_FREE_CORES : Fld := ⟨CORE_FREE, 0, 8⟩
def CORE_FREE_SLOTS : Fld := ⟨CORE_FREE, 8, 6⟩
def CORE_FREE_TICKETS : Fld := ⟨CORE_FREE, 16, 11⟩
/-- CORE_CTRL: spec/02_compute_cores.md, offset 0x1000 + L × 0x100, reset 0x0000_0000. -/
def CORE_CTRL (L : Nat) : Reg := ⟨0x101000 + L * 0x100, 0x0⟩
def CORE_CTRL_EN (L : Nat) : Fld := ⟨CORE_CTRL L, 0, 1⟩
def CORE_CTRL_START (L : Nat) : Fld := ⟨CORE_CTRL L, 1, 1⟩
def CORE_CTRL_ENABLE_PENDING (L : Nat) : Fld := ⟨CORE_CTRL L, 2, 1⟩
/-- CORE_STATUS: spec/02_compute_cores.md, offset 0x1004 + L × 0x100, reset 0x0000_0000. -/
def CORE_STATUS (L : Nat) : Reg := ⟨0x101004 + L * 0x100, 0x0⟩
def CORE_STATUS_STATE (L : Nat) : Fld := ⟨CORE_STATUS L, 0, 4⟩
def CORE_STATUS_SPARE_ACTIVE (L : Nat) : Fld := ⟨CORE_STATUS L, 4, 1⟩
def CORE_STATUS_STALL (L : Nat) : Fld := ⟨CORE_STATUS L, 8, 3⟩
def CORE_STATUS_STALLED (L : Nat) : Fld := ⟨CORE_STATUS L, 11, 1⟩
/-- CORE_MAP: spec/02_compute_cores.md, offset 0x1008 + L × 0x100, reset 0x0001_0000 + (9r + c mapping of R43). -/
def CORE_MAP (L : Nat) : Reg := ⟨0x101008 + L * 0x100, coreMapReset L⟩
def CORE_MAP_PROW (L : Nat) : Fld := ⟨CORE_MAP L, 0, 4⟩
def CORE_MAP_PCOL (L : Nat) : Fld := ⟨CORE_MAP L, 4, 4⟩
def CORE_MAP_PHYS (L : Nat) : Fld := ⟨CORE_MAP L, 8, 8⟩
def CORE_MAP_VALID (L : Nat) : Fld := ⟨CORE_MAP L, 16, 1⟩
/-- CORE_EXC: spec/02_compute_cores.md, offset 0x100C + L × 0x100, reset 0x0000_0000. -/
def CORE_EXC (L : Nat) : Reg := ⟨0x10100c + L * 0x100, 0x0⟩
def CORE_EXC_INVALID (L : Nat) : Fld := ⟨CORE_EXC L, 0, 1⟩
def CORE_EXC_DIVZERO (L : Nat) : Fld := ⟨CORE_EXC L, 1, 1⟩
def CORE_EXC_OVERFLOW (L : Nat) : Fld := ⟨CORE_EXC L, 2, 1⟩
def CORE_EXC_UNDERFLOW (L : Nat) : Fld := ⟨CORE_EXC L, 3, 1⟩
def CORE_EXC_INEXACT (L : Nat) : Fld := ⟨CORE_EXC L, 4, 1⟩
def CORE_EXC_FIRST_ENGINE (L : Nat) : Fld := ⟨CORE_EXC L, 8, 1⟩
/-- CORE_EXC_ADDR: spec/02_compute_cores.md, offset 0x1010 + L × 0x100, reset 0x0000_0000. -/
def CORE_EXC_ADDR (L : Nat) : Reg := ⟨0x101010 + L * 0x100, 0x0⟩
def CORE_EXC_ADDR_OFFSET (L : Nat) : Fld := ⟨CORE_EXC_ADDR L, 0, 21⟩
def CORE_EXC_ADDR_VALID (L : Nat) : Fld := ⟨CORE_EXC_ADDR L, 31, 1⟩
/-- CORE_DMA_CRING: spec/02_compute_cores.md, offset 0x1020 + L × 0x100 + q × 4 for q = 0–3, reset 0x0400_0000. -/
def CORE_DMA_CRING (L q : Nat) : Reg := ⟨0x101020 + L * 0x100 + q * 0x4, 0x4000000⟩
def CORE_DMA_CRING_BASE (L q : Nat) : Fld := ⟨CORE_DMA_CRING L q, 4, 17⟩
def CORE_DMA_CRING_LOG2_ENTRIES (L q : Nat) : Fld := ⟨CORE_DMA_CRING L q, 24, 4⟩
/-- CORE_DMA_CPROD: spec/02_compute_cores.md, offset 0x1030 + L × 0x100 + q × 4 for q = 0–3, reset 0x0000_0000. -/
def CORE_DMA_CPROD (L q : Nat) : Reg := ⟨0x101030 + L * 0x100 + q * 0x4, 0x0⟩
def CORE_DMA_CPROD_PROD (L q : Nat) : Fld := ⟨CORE_DMA_CPROD L q, 0, 16⟩
/-- CORE_PHYS: spec/02_compute_cores.md, offset 0xC000 + P × 4, reset 0x0000_0100 + (9r + c) for a primary core of row r and column c = 0–8, and 0x0000_0000 for a spare of column 9 (r = P ÷ 10, c = P mod 10). -/
def CORE_PHYS (P : Nat) : Reg := ⟨0x10c000 + P * 0x4, corePhysReset P⟩
def CORE_PHYS_LOGICAL (P : Nat) : Fld := ⟨CORE_PHYS P, 0, 8⟩
def CORE_PHYS_CARRIES (P : Nat) : Fld := ⟨CORE_PHYS P, 8, 1⟩
def CORE_PHYS_FENCED (P : Nat) : Fld := ⟨CORE_PHYS P, 9, 1⟩
/-- SEQ_PROG_BASE: spec/02_compute_cores.md, offset 0x1000 + L × 0x100, reset 0x0000_0000. -/
def SEQ_PROG_BASE (L : Nat) : Reg := ⟨0x111000 + L * 0x100, 0x0⟩
def SEQ_PROG_BASE_BASE (L : Nat) : Fld := ⟨SEQ_PROG_BASE L, 3, 18⟩
/-- SEQ_PC: spec/02_compute_cores.md, offset 0x1004 + L × 0x100, reset 0x0000_0000. -/
def SEQ_PC (L : Nat) : Reg := ⟨0x111004 + L * 0x100, 0x0⟩
def SEQ_PC_INDEX (L : Nat) : Fld := ⟨SEQ_PC L, 0, 18⟩
/-- SEQ_FAULT: spec/02_compute_cores.md, offset 0x1008 + L × 0x100, reset 0x0000_0000. -/
def SEQ_FAULT (L : Nat) : Reg := ⟨0x111008 + L * 0x100, 0x0⟩
def SEQ_FAULT_CODE (L : Nat) : Fld := ⟨SEQ_FAULT L, 0, 8⟩
/-- SEQ_FAULT_PC: spec/02_compute_cores.md, offset 0x100C + L × 0x100, reset 0x0000_0000. -/
def SEQ_FAULT_PC (L : Nat) : Reg := ⟨0x11100c + L * 0x100, 0x0⟩
def SEQ_FAULT_PC_INDEX (L : Nat) : Fld := ⟨SEQ_FAULT_PC L, 0, 18⟩
/-- CORE_SLOT_STATE: spec/03_sparse_and_conditional.md, offset 0x0100 + s × 4 for s = 0–31, reset 0x0000_0000. -/
def CORE_SLOT_STATE (s : Nat) : Reg := ⟨0x100100 + s * 0x4, 0x0⟩
def CORE_SLOT_STATE_ALLOC (s : Nat) : Fld := ⟨CORE_SLOT_STATE s, 0, 1⟩
def CORE_SLOT_STATE_JOB_INDEX (s : Nat) : Fld := ⟨CORE_SLOT_STATE s, 1, 5⟩
def CORE_SLOT_STATE_SEQ_LEN (s : Nat) : Fld := ⟨CORE_SLOT_STATE s, 8, 23⟩
/-- CORE_SLOT_POS: spec/03_sparse_and_conditional.md, offset 0x0180 + s × 4 for s = 0–31, reset 0x0000_0000. -/
def CORE_SLOT_POS (s : Nat) : Reg := ⟨0x100180 + s * 0x4, 0x0⟩
def CORE_SLOT_POS_Q_BASE (s : Nat) : Fld := ⟨CORE_SLOT_POS s, 0, 22⟩
def CORE_SLOT_POS_MASK (s : Nat) : Fld := ⟨CORE_SLOT_POS s, 24, 3⟩
/-- CORE_MOE_SENT: spec/03_sparse_and_conditional.md, offset 0x0200, reset 0x0000_0000. -/
def CORE_MOE_SENT : Reg := ⟨0x100200, 0x0⟩
def CORE_MOE_SENT_COUNT : Fld := ⟨CORE_MOE_SENT, 0, 32⟩
/-- CORE_MOE_DROPPED: spec/03_sparse_and_conditional.md, offset 0x0204, reset 0x0000_0000. -/
def CORE_MOE_DROPPED : Reg := ⟨0x100204, 0x0⟩
def CORE_MOE_DROPPED_COUNT : Fld := ⟨CORE_MOE_DROPPED, 0, 32⟩
/-- CORE_EXC_COUNT: spec/04_number_formats.md, offset 0x1014 + L × 0x100, reset 0x0000_0000. -/
def CORE_EXC_COUNT (L : Nat) : Reg := ⟨0x101014 + L * 0x100, 0x0⟩
def CORE_EXC_COUNT_COUNT (L : Nat) : Fld := ⟨CORE_EXC_COUNT L, 0, 32⟩
/-- MEM_CTRL: spec/05_gddr7_memory.md, offset 0x000, reset 0x0000_0000. -/
def MEM_CTRL : Reg := ⟨0x180000, 0x0⟩
def MEM_CTRL_EN : Fld := ⟨MEM_CTRL, 0, 1⟩
def MEM_CTRL_ENABLE_PENDING : Fld := ⟨MEM_CTRL, 1, 1⟩
/-- MEM_STATUS: spec/05_gddr7_memory.md, offset 0x004, reset 0x0000_0000. -/
def MEM_STATUS : Reg := ⟨0x180004, 0x0⟩
def MEM_STATUS_TRAIN_BUSY : Fld := ⟨MEM_STATUS, 0, 1⟩
def MEM_STATUS_REFUSE : Fld := ⟨MEM_STATUS, 1, 3⟩
/-- MEM_TRAIN_CTRL: spec/05_gddr7_memory.md, offset 0x008, reset 0x00FF_FFFF. -/
def MEM_TRAIN_CTRL : Reg := ⟨0x180008, 0xffffff⟩
def MEM_TRAIN_CTRL_MASK : Fld := ⟨MEM_TRAIN_CTRL, 0, 24⟩
def MEM_TRAIN_CTRL_RATE : Fld := ⟨MEM_TRAIN_CTRL, 24, 2⟩
def MEM_TRAIN_CTRL_START : Fld := ⟨MEM_TRAIN_CTRL, 31, 1⟩
/-- MEM_SPLIT: spec/05_gddr7_memory.md, offset 0x00C, reset 0x0000_0018. -/
def MEM_SPLIT : Reg := ⟨0x18000c, 0x18⟩
def MEM_SPLIT_HASHED_UNITS : Fld := ⟨MEM_SPLIT, 0, 5⟩
/-- MEM_GATE_TIMEOUT: spec/05_gddr7_memory.md, offset 0x010, reset 0x0000_2710. -/
def MEM_GATE_TIMEOUT : Reg := ⟨0x180010, 0x2710⟩
def MEM_GATE_TIMEOUT_TIME : Fld := ⟨MEM_GATE_TIMEOUT, 0, 24⟩
/-- MEM_STAGE_LIMIT: spec/05_gddr7_memory.md, offset 0x014, reset 0x0000_2000. -/
def MEM_STAGE_LIMIT : Reg := ⟨0x180014, 0x2000⟩
def MEM_STAGE_LIMIT_CELLS : Fld := ⟨MEM_STAGE_LIMIT, 0, 17⟩
/-- MEM_RACC_RING: spec/05_gddr7_memory.md, offset 0x018 (bits [31:0]) and 0x01C (bits [63:32]), reset 0x0000_0000_0000_0004. -/
def MEM_RACC_RING : Reg64 := ⟨0x180018, 0x4⟩
def MEM_RACC_RING_LOG2_ENTRIES : Fld64 := ⟨MEM_RACC_RING, 0, 4⟩
def MEM_RACC_RING_BASE : Fld64 := ⟨MEM_RACC_RING, 6, 42⟩
/-- MEM_RACC_PROD: spec/05_gddr7_memory.md, offset 0x020, reset 0x0000_0000. -/
def MEM_RACC_PROD : Reg := ⟨0x180020, 0x0⟩
def MEM_RACC_PROD_PROD : Fld := ⟨MEM_RACC_PROD, 0, 32⟩
/-- MEM_RACC_STATE: spec/05_gddr7_memory.md, offset 0x024, reset 0x0000_0000. -/
def MEM_RACC_STATE : Reg := ⟨0x180024, 0x0⟩
def MEM_RACC_STATE_ENTRIES : Fld := ⟨MEM_RACC_STATE, 0, 11⟩
def MEM_RACC_STATE_CELLS : Fld := ⟨MEM_RACC_STATE, 11, 17⟩
/-- MEM_RACC_DUP: spec/05_gddr7_memory.md, offset 0x028, 0x02C, 0x030, reset 0x0000_0000. -/
def MEM_RACC_DUP : Reg := ⟨0x180028, 0x0⟩
def MEM_RACC_DUP_COUNT : Fld := ⟨MEM_RACC_DUP, 0, 32⟩
/-- MEM_RACC_REJECT: spec/05_gddr7_memory.md, offset 0x028, 0x02C, 0x030, reset 0x0000_0000. -/
def MEM_RACC_REJECT : Reg := ⟨0x18002c, 0x0⟩
def MEM_RACC_REJECT_COUNT : Fld := ⟨MEM_RACC_REJECT, 0, 32⟩
/-- MEM_RACC_RETRY: spec/05_gddr7_memory.md, offset 0x028, 0x02C, 0x030, reset 0x0000_0000. -/
def MEM_RACC_RETRY : Reg := ⟨0x180030, 0x0⟩
def MEM_RACC_RETRY_COUNT : Fld := ⟨MEM_RACC_RETRY, 0, 32⟩
/-- MEM_CH_STATUS: spec/05_gddr7_memory.md, offset 0x100 + c × 0x10, reset 0x0000_0000. -/
def MEM_CH_STATUS (c : Nat) : Reg := ⟨0x180100 + c * 0x10, 0x0⟩
def MEM_CH_STATUS_STATE (c : Nat) : Fld := ⟨MEM_CH_STATUS c, 0, 3⟩
def MEM_CH_STATUS_CODE (c : Nat) : Fld := ⟨MEM_CH_STATUS c, 4, 8⟩
def MEM_CH_STATUS_CHANNELS (c : Nat) : Fld := ⟨MEM_CH_STATUS c, 12, 4⟩
def MEM_CH_STATUS_RATE (c : Nat) : Fld := ⟨MEM_CH_STATUS c, 16, 2⟩
/-- MEM_CH_EDC_CORR: spec/05_gddr7_memory.md, offset 0x104 and 0x108 + c × 0x10, reset 0x0000_0000. -/
def MEM_CH_EDC_CORR (c : Nat) : Reg := ⟨0x180104 + c * 0x10, 0x0⟩
def MEM_CH_EDC_CORR_COUNT (c : Nat) : Fld := ⟨MEM_CH_EDC_CORR c, 0, 32⟩
/-- MEM_CH_EDC_UNCORR: spec/05_gddr7_memory.md, offset 0x104 and 0x108 + c × 0x10, reset 0x0000_0000. -/
def MEM_CH_EDC_UNCORR (c : Nat) : Reg := ⟨0x180108 + c * 0x10, 0x0⟩
def MEM_CH_EDC_UNCORR_COUNT (c : Nat) : Fld := ⟨MEM_CH_EDC_UNCORR c, 0, 32⟩
/-- MEM_RETIRE: spec/05_gddr7_memory.md, offset 0x400 + i × 4 for i = 0–63, reset 0x0000_0000. -/
def MEM_RETIRE (i : Nat) : Reg := ⟨0x180400 + i * 0x4, 0x0⟩
def MEM_RETIRE_BLOCK (i : Nat) : Fld := ⟨MEM_RETIRE i, 0, 22⟩
def MEM_RETIRE_VALID (i : Nat) : Fld := ⟨MEM_RETIRE i, 31, 1⟩
/-- LNK_CTRL: spec/06_lanes_and_links.md, offset 0x00, reset 0x0000_0000. -/
def LNK_CTRL (p : Nat) : Reg := ⟨0x280000 + p * 0x100, 0x0⟩
def LNK_CTRL_EN (p : Nat) : Fld := ⟨LNK_CTRL p, 0, 1⟩
def LNK_CTRL_ENABLE_PENDING (p : Nat) : Fld := ⟨LNK_CTRL p, 1, 1⟩
def LNK_CTRL_LP (p : Nat) : Fld := ⟨LNK_CTRL p, 2, 2⟩
def LNK_CTRL_LP1_AUTO (p : Nat) : Fld := ⟨LNK_CTRL p, 4, 1⟩
def LNK_CTRL_LOOP (p : Nat) : Fld := ⟨LNK_CTRL p, 5, 2⟩
def LNK_CTRL_FAR_ALLOW (p : Nat) : Fld := ⟨LNK_CTRL p, 7, 1⟩
def LNK_CTRL_RETRAIN (p : Nat) : Fld := ⟨LNK_CTRL p, 8, 1⟩
/-- LNK_STATUS: spec/06_lanes_and_links.md, offset 0x04, reset 0x0000_0000. -/
def LNK_STATUS (p : Nat) : Reg := ⟨0x280004 + p * 0x100, 0x0⟩
def LNK_STATUS_STATE (p : Nat) : Fld := ⟨LNK_STATUS p, 0, 4⟩
def LNK_STATUS_UP (p : Nat) : Fld := ⟨LNK_STATUS p, 4, 1⟩
def LNK_STATUS_SPEED (p : Nat) : Fld := ⟨LNK_STATUS p, 5, 2⟩
def LNK_STATUS_X4 (p : Nat) : Fld := ⟨LNK_STATUS p, 7, 1⟩
def LNK_STATUS_UPPER_HALF (p : Nat) : Fld := ⟨LNK_STATUS p, 8, 1⟩
def LNK_STATUS_REVERSED (p : Nat) : Fld := ⟨LNK_STATUS p, 9, 1⟩
def LNK_STATUS_SPEED_LOW (p : Nat) : Fld := ⟨LNK_STATUS p, 10, 1⟩
def LNK_STATUS_PEER_CHANGED (p : Nat) : Fld := ⟨LNK_STATUS p, 11, 1⟩
def LNK_STATUS_PEER_FATAL (p : Nat) : Fld := ⟨LNK_STATUS p, 12, 1⟩
def LNK_STATUS_FAIL_CODE (p : Nat) : Fld := ⟨LNK_STATUS p, 16, 8⟩
/-- LNK_RETRY_CFG: spec/06_lanes_and_links.md, offset 0x08, reset 0x0008_4D58. -/
def LNK_RETRY_CFG (p : Nat) : Reg := ⟨0x280008 + p * 0x100, 0x84d58⟩
def LNK_RETRY_CFG_ACK_TIMEOUT (p : Nat) : Fld := ⟨LNK_RETRY_CFG p, 0, 16⟩
def LNK_RETRY_CFG_RETRY_LIMIT (p : Nat) : Fld := ⟨LNK_RETRY_CFG p, 16, 4⟩
/-- LNK_FOM_MIN: spec/06_lanes_and_links.md, offset 0x0C, reset 0x0000_000F. -/
def LNK_FOM_MIN (p : Nat) : Reg := ⟨0x28000c + p * 0x100, 0xf⟩
def LNK_FOM_MIN_FOM (p : Nat) : Fld := ⟨LNK_FOM_MIN p, 0, 8⟩
/-- LNK_CRC_ERR: spec/06_lanes_and_links.md, offset 0x10, 0x14, 0x18, 0x1C, 0x20, reset 0x0000_0000. -/
def LNK_CRC_ERR (p : Nat) : Reg := ⟨0x280010 + p * 0x100, 0x0⟩
def LNK_CRC_ERR_COUNT (p : Nat) : Fld := ⟨LNK_CRC_ERR p, 0, 32⟩
/-- LNK_REPLAY: spec/06_lanes_and_links.md, offset 0x10, 0x14, 0x18, 0x1C, 0x20, reset 0x0000_0000. -/
def LNK_REPLAY (p : Nat) : Reg := ⟨0x280014 + p * 0x100, 0x0⟩
def LNK_REPLAY_COUNT (p : Nat) : Fld := ⟨LNK_REPLAY p, 0, 32⟩
/-- LNK_STOMP: spec/06_lanes_and_links.md, offset 0x10, 0x14, 0x18, 0x1C, 0x20, reset 0x0000_0000. -/
def LNK_STOMP (p : Nat) : Reg := ⟨0x280018 + p * 0x100, 0x0⟩
def LNK_STOMP_COUNT (p : Nat) : Fld := ⟨LNK_STOMP p, 0, 32⟩
/-- LNK_PROTO_ERR: spec/06_lanes_and_links.md, offset 0x10, 0x14, 0x18, 0x1C, 0x20, reset 0x0000_0000. -/
def LNK_PROTO_ERR (p : Nat) : Reg := ⟨0x28001c + p * 0x100, 0x0⟩
def LNK_PROTO_ERR_COUNT (p : Nat) : Fld := ⟨LNK_PROTO_ERR p, 0, 32⟩
/-- LNK_XSLACK: spec/06_lanes_and_links.md, offset 0x10, 0x14, 0x18, 0x1C, 0x20, reset 0x0000_0000. -/
def LNK_XSLACK (p : Nat) : Reg := ⟨0x280020 + p * 0x100, 0x0⟩
def LNK_XSLACK_COUNT (p : Nat) : Fld := ⟨LNK_XSLACK p, 0, 32⟩
/-- LNK_PEER_ID: spec/06_lanes_and_links.md, offset 0x28 (bits [31:0]) and 0x2C (bits [63:32]), reset 0x0000_0000_0000_0000. -/
def LNK_PEER_ID (p : Nat) : Reg64 := ⟨0x280028 + p * 0x100, 0x0⟩
def LNK_PEER_ID_ID (p : Nat) : Fld64 := ⟨LNK_PEER_ID p, 0, 64⟩
/-- LNK_PEER_INFO: spec/06_lanes_and_links.md, offset 0x30, reset 0x001F_FFFF. -/
def LNK_PEER_INFO (p : Nat) : Reg := ⟨0x280030 + p * 0x100, 0x1fffff⟩
def LNK_PEER_INFO_ADDR (p : Nat) : Fld := ⟨LNK_PEER_INFO p, 0, 21⟩
def LNK_PEER_INFO_PORT (p : Nat) : Fld := ⟨LNK_PEER_INFO p, 24, 5⟩
/-- LNK_PEER_FATAL: spec/06_lanes_and_links.md, offset 0x34, reset 0x0000_0000. -/
def LNK_PEER_FATAL (p : Nat) : Reg := ⟨0x280034 + p * 0x100, 0x0⟩
def LNK_PEER_FATAL_ADDR (p : Nat) : Fld := ⟨LNK_PEER_FATAL p, 0, 21⟩
def LNK_PEER_FATAL_CODE (p : Nat) : Fld := ⟨LNK_PEER_FATAL p, 24, 8⟩
/-- LNK_PEER_FATAL_TIME: spec/06_lanes_and_links.md, offset 0x38 (bits [31:0]) and 0x3C (bits [63:32]), reset 0x0000_0000_0000_0000. -/
def LNK_PEER_FATAL_TIME (p : Nat) : Reg64 := ⟨0x280038 + p * 0x100, 0x0⟩
def LNK_PEER_FATAL_TIME_TIME (p : Nat) : Fld64 := ⟨LNK_PEER_FATAL_TIME p, 0, 64⟩
/-- LNK_PING_CTRL: spec/06_lanes_and_links.md, offset 0x40, reset 0x0000_0000. -/
def LNK_PING_CTRL (p : Nat) : Reg := ⟨0x280040 + p * 0x100, 0x0⟩
def LNK_PING_CTRL_START (p : Nat) : Fld := ⟨LNK_PING_CTRL p, 0, 1⟩
def LNK_PING_CTRL_DONE (p : Nat) : Fld := ⟨LNK_PING_CTRL p, 1, 1⟩
/-- LNK_PING_T: spec/06_lanes_and_links.md, offset 0x48 + i × 8 (bits [31:0]) and 0x4C + i × 8 (bits [63:32]) for i = 0–3, reset 0x0000_0000_0000_0000. -/
def LNK_PING_T (p i : Nat) : Reg64 := ⟨0x280048 + p * 0x100 + i * 0x8, 0x0⟩
def LNK_PING_T_T (p i : Nat) : Fld64 := ⟨LNK_PING_T p i, 0, 64⟩
/-- LNK_LP_CFG: spec/06_lanes_and_links.md, offset 0x68, reset 0x0000_0064. -/
def LNK_LP_CFG (p : Nat) : Reg := ⟨0x280068 + p * 0x100, 0x64⟩
def LNK_LP_CFG_IDLE (p : Nat) : Fld := ⟨LNK_LP_CFG p, 0, 16⟩
/-- LNK_DOWN_COUNT: spec/06_lanes_and_links.md, offset 0x6C, reset 0x0000_0000. -/
def LNK_DOWN_COUNT (p : Nat) : Reg := ⟨0x28006c + p * 0x100, 0x0⟩
def LNK_DOWN_COUNT_COUNT (p : Nat) : Fld := ⟨LNK_DOWN_COUNT p, 0, 16⟩
/-- LNK_CRED: spec/06_lanes_and_links.md, offset 0x80 + v × 4 for v = 0–31, reset 0x0000_0000. -/
def LNK_CRED (p v : Nat) : Reg := ⟨0x280080 + p * 0x100 + v * 0x4, 0x0⟩
def LNK_CRED_CELLS (p v : Nat) : Fld := ⟨LNK_CRED p v, 0, 10⟩
/-- LANE_CTRL: spec/06_lanes_and_links.md, offset 0x00, reset 0x0000_0000. -/
def LANE_CTRL (l : Nat) : Reg := ⟨0x290000 + l * 0x40, 0x0⟩
def LANE_CTRL_PRBS_TX (l : Nat) : Fld := ⟨LANE_CTRL l, 0, 1⟩
def LANE_CTRL_PATTERN (l : Nat) : Fld := ⟨LANE_CTRL l, 1, 1⟩
def LANE_CTRL_PRBS_CHK (l : Nat) : Fld := ⟨LANE_CTRL l, 2, 1⟩
/-- LANE_STATUS: spec/06_lanes_and_links.md, offset 0x04, reset 0x0000_0000. -/
def LANE_STATUS (l : Nat) : Reg := ⟨0x290004 + l * 0x40, 0x0⟩
def LANE_STATUS_LOCK (l : Nat) : Fld := ⟨LANE_STATUS l, 0, 1⟩
def LANE_STATUS_POL_INV (l : Nat) : Fld := ⟨LANE_STATUS l, 1, 1⟩
def LANE_STATUS_LOGICAL (l : Nat) : Fld := ⟨LANE_STATUS l, 2, 3⟩
def LANE_STATUS_ACTIVE (l : Nat) : Fld := ⟨LANE_STATUS l, 5, 1⟩
def LANE_STATUS_FAULT (l : Nat) : Fld := ⟨LANE_STATUS l, 6, 1⟩
def LANE_STATUS_FOM (l : Nat) : Fld := ⟨LANE_STATUS l, 8, 8⟩
def LANE_STATUS_SKEW (l : Nat) : Fld := ⟨LANE_STATUS l, 16, 8⟩
/-- LANE_TXEQ: spec/06_lanes_and_links.md, offset 0x08, reset 0x0000_0000. -/
def LANE_TXEQ (l : Nat) : Reg := ⟨0x290008 + l * 0x40, 0x0⟩
def LANE_TXEQ_PRE (l : Nat) : Fld := ⟨LANE_TXEQ l, 0, 5⟩
def LANE_TXEQ_POST (l : Nat) : Fld := ⟨LANE_TXEQ l, 5, 5⟩
/-- LANE_ERR_PRBS: spec/06_lanes_and_links.md, offset 0x0C, reset 0x0000_0000. -/
def LANE_ERR_PRBS (l : Nat) : Reg := ⟨0x29000c + l * 0x40, 0x0⟩
def LANE_ERR_PRBS_COUNT (l : Nat) : Fld := ⟨LANE_ERR_PRBS l, 0, 32⟩
/-- LANE_ERR_LINE: spec/06_lanes_and_links.md, offset 0x10, reset 0x0000_0000. -/
def LANE_ERR_LINE (l : Nat) : Reg := ⟨0x290010 + l * 0x40, 0x0⟩
def LANE_ERR_LINE_STUFF (l : Nat) : Fld := ⟨LANE_ERR_LINE l, 0, 16⟩
def LANE_ERR_LINE_MARKER (l : Nat) : Fld := ⟨LANE_ERR_LINE l, 16, 16⟩
/-- RTE_CFG: spec/07_packets_and_routing.md, offset 0x000, reset 0x0000_01FF. -/
def RTE_CFG : Reg := ⟨0x230000, 0x1ff⟩
def RTE_CFG_HOP_LIMIT : Fld := ⟨RTE_CFG, 0, 8⟩
def RTE_CFG_UP_AUTO : Fld := ⟨RTE_CFG, 8, 1⟩
/-- RTE_HASH_SEED: spec/07_packets_and_routing.md, offset 0x004, reset 0x0000_0000. -/
def RTE_HASH_SEED : Reg := ⟨0x230004, 0x0⟩
def RTE_HASH_SEED_SEED : Fld := ⟨RTE_HASH_SEED, 0, 32⟩
/-- RTE_UP_HOLD: spec/07_packets_and_routing.md, offset 0x008, reset 0x0000_0064. -/
def RTE_UP_HOLD : Reg := ⟨0x230008, 0x64⟩
def RTE_UP_HOLD_HOLD : Fld := ⟨RTE_UP_HOLD, 0, 16⟩
/-- RTE_PORT_UP: spec/07_packets_and_routing.md, offset 0x00C, reset 0x0000_0000. -/
def RTE_PORT_UP : Reg := ⟨0x23000c, 0x0⟩
def RTE_PORT_UP_UP : Fld := ⟨RTE_PORT_UP, 0, 24⟩
/-- RTE_PORT_MASK: spec/07_packets_and_routing.md, offset 0x010, reset 0x0000_0000. -/
def RTE_PORT_MASK : Reg := ⟨0x230010, 0x0⟩
def RTE_PORT_MASK_MASK : Fld := ⟨RTE_PORT_MASK, 0, 24⟩
/-- RTE_LAST_DISC: spec/07_packets_and_routing.md, offset 0x014, reset 0x0000_0000. -/
def RTE_LAST_DISC : Reg := ⟨0x230014, 0x0⟩
def RTE_LAST_DISC_DEST : Fld := ⟨RTE_LAST_DISC, 0, 21⟩
def RTE_LAST_DISC_REASON : Fld := ⟨RTE_LAST_DISC, 21, 3⟩
def RTE_LAST_DISC_IN_PORT : Fld := ⟨RTE_LAST_DISC, 24, 6⟩
/-- RTE_LAST_DISC_TIME: spec/07_packets_and_routing.md, offset 0x018 (bits [31:0]) and 0x01C (bits [63:32]), reset 0x0000_0000_0000_0000. -/
def RTE_LAST_DISC_TIME : Reg64 := ⟨0x230018, 0x0⟩
def RTE_LAST_DISC_TIME_TIME : Fld64 := ⟨RTE_LAST_DISC_TIME, 0, 64⟩
/-- RTE_DISC: spec/07_packets_and_routing.md, offset 0x020 + r × 4 for r = 1–7, reset 0x0000_0000. -/
def RTE_DISC (r : Nat) : Reg := ⟨0x230020 + r * 0x4, 0x0⟩
def RTE_DISC_COUNT (r : Nat) : Fld := ⟨RTE_DISC r, 0, 32⟩
/-- RTE_REVERSE: spec/07_packets_and_routing.md, offset 0x040, 0x044, 0x048, reset 0x0000_0000. -/
def RTE_REVERSE : Reg := ⟨0x230040, 0x0⟩
def RTE_REVERSE_COUNT : Fld := ⟨RTE_REVERSE, 0, 32⟩
/-- RTE_DETOUR: spec/07_packets_and_routing.md, offset 0x040, 0x044, 0x048, reset 0x0000_0000. -/
def RTE_DETOUR : Reg := ⟨0x230044, 0x0⟩
def RTE_DETOUR_COUNT : Fld := ⟨RTE_DETOUR, 0, 32⟩
/-- RTE_LATE_EPOCH: spec/07_packets_and_routing.md, offset 0x040, 0x044, 0x048, reset 0x0000_0000. -/
def RTE_LATE_EPOCH : Reg := ⟨0x230048, 0x0⟩
def RTE_LATE_EPOCH_COUNT : Fld := ⟨RTE_LATE_EPOCH, 0, 32⟩
/-- RTE_DRAIN: spec/07_packets_and_routing.md, offset 0x100 + p × 4 for p = 0–34, reset 0x0000_0000. -/
def RTE_DRAIN (p : Nat) : Reg := ⟨0x230100 + p * 0x4, 0x0⟩
def RTE_DRAIN_COUNT (p : Nat) : Fld := ⟨RTE_DRAIN p, 0, 18⟩
/-- SWC_CTRL: spec/08_switch_core.md, offset 0x000, reset 0x0000_0000. -/
def SWC_CTRL : Reg := ⟨0x200000, 0x0⟩
def SWC_CTRL_EN : Fld := ⟨SWC_CTRL, 0, 1⟩
/-- SWC_AGE_LIMIT: spec/08_switch_core.md, offset 0x004, reset 0x0000_07D0. -/
def SWC_AGE_LIMIT : Reg := ⟨0x200004, 0x7d0⟩
def SWC_AGE_LIMIT_LIMIT : Fld := ⟨SWC_AGE_LIMIT, 0, 15⟩
/-- SWC_MARK: spec/08_switch_core.md, offset 0x008, reset 0x0200_0400. -/
def SWC_MARK : Reg := ⟨0x200008, 0x2000400⟩
def SWC_MARK_ON : Fld := ⟨SWC_MARK, 0, 16⟩
def SWC_MARK_OFF : Fld := ⟨SWC_MARK, 16, 16⟩
/-- SWC_CONG_HOLD: spec/08_switch_core.md, offset 0x00C, reset 0x0000_0002. -/
def SWC_CONG_HOLD : Reg := ⟨0x20000c, 0x2⟩
def SWC_CONG_HOLD_HOLD : Fld := ⟨SWC_CONG_HOLD, 0, 16⟩
/-- SWC_RSQ_CFG: spec/08_switch_core.md, offset 0x010, reset 0x0FA0_0834. -/
def SWC_RSQ_CFG : Reg := ⟨0x200010, 0xfa00834⟩
def SWC_RSQ_CFG_TIMEOUT : Fld := ⟨SWC_RSQ_CFG, 0, 16⟩
def SWC_RSQ_CFG_IDLE : Fld := ⟨SWC_RSQ_CFG, 16, 16⟩
/-- SWC_RSQ_LIMIT: spec/08_switch_core.md, offset 0x014, reset 0x0000_4000. -/
def SWC_RSQ_LIMIT : Reg := ⟨0x200014, 0x4000⟩
def SWC_RSQ_LIMIT_CELLS : Fld := ⟨SWC_RSQ_LIMIT, 0, 18⟩
/-- SWC_RSQ_STATE: spec/08_switch_core.md, offset 0x018, reset 0x0000_0000. -/
def SWC_RSQ_STATE : Reg := ⟨0x200018, 0x0⟩
def SWC_RSQ_STATE_ENTRIES : Fld := ⟨SWC_RSQ_STATE, 0, 13⟩
def SWC_RSQ_STATE_CELLS : Fld := ⟨SWC_RSQ_STATE, 13, 18⟩
/-- SWC_MC_CFG: spec/08_switch_core.md, offset 0x01C, reset 0x0000_0004. -/
def SWC_MC_CFG : Reg := ⟨0x20001c, 0x4⟩
def SWC_MC_CFG_READY : Fld := ⟨SWC_MC_CFG, 0, 8⟩
/-- SWC_LAST_DISC: spec/08_switch_core.md, offset 0x020, reset 0x0000_0000. -/
def SWC_LAST_DISC : Reg := ⟨0x200020, 0x0⟩
def SWC_LAST_DISC_SRC : Fld := ⟨SWC_LAST_DISC, 0, 21⟩
def SWC_LAST_DISC_REASON : Fld := ⟨SWC_LAST_DISC, 21, 4⟩
def SWC_LAST_DISC_IN_PORT : Fld := ⟨SWC_LAST_DISC, 25, 6⟩
/-- SWC_LAST_DISC_TIME: spec/08_switch_core.md, offset 0x024 (bits [31:0]) and 0x028 (bits [63:32]), reset 0x0000_0000_0000_0000. -/
def SWC_LAST_DISC_TIME : Reg64 := ⟨0x200024, 0x0⟩
def SWC_LAST_DISC_TIME_TIME : Fld64 := ⟨SWC_LAST_DISC_TIME, 0, 64⟩
/-- SWC_DISC: spec/08_switch_core.md, offset 0x040 + r × 4 for r = 8–15, reset 0x0000_0000. -/
def SWC_DISC (r : Nat) : Reg := ⟨0x200040 + r * 0x4, 0x0⟩
def SWC_DISC_COUNT (r : Nat) : Fld := ⟨SWC_DISC r, 0, 32⟩
/-- SWC_MARK_EVENTS: spec/08_switch_core.md, offset 0x080, reset 0x0000_0000. -/
def SWC_MARK_EVENTS : Reg := ⟨0x200080, 0x0⟩
def SWC_MARK_EVENTS_COUNT : Fld := ⟨SWC_MARK_EVENTS, 0, 32⟩
/-- SWC_CONG: spec/08_switch_core.md, offset 0x100 + p × 4 for p = 0–34, reset 0x0000_0000. -/
def SWC_CONG (p : Nat) : Reg := ⟨0x200100 + p * 0x4, 0x0⟩
def SWC_CONG_MARKED (p : Nat) : Fld := ⟨SWC_CONG p, 0, 32⟩
/-- SWC_MG_CFG: spec/08_switch_core.md, offset 0x1000 + g × 0x10 for g = 0–255, reset 0x0000_001F. -/
def SWC_MG_CFG (g : Nat) : Reg := ⟨0x201000 + g * 0x10, 0x1f⟩
def SWC_MG_CFG_IN_PORT (g : Nat) : Fld := ⟨SWC_MG_CFG g, 0, 5⟩
def SWC_MG_CFG_LOCAL (g : Nat) : Fld := ⟨SWC_MG_CFG g, 5, 1⟩
def SWC_MG_CFG_VALID (g : Nat) : Fld := ⟨SWC_MG_CFG g, 6, 1⟩
def SWC_MG_CFG_MEMBERS (g : Nat) : Fld := ⟨SWC_MG_CFG g, 8, 16⟩
/-- SWC_MG_OUT: spec/08_switch_core.md, offset 0x1004 + g × 0x10 for g = 0–255, reset 0x0000_0000. -/
def SWC_MG_OUT (g : Nat) : Reg := ⟨0x201004 + g * 0x10, 0x0⟩
def SWC_MG_OUT_OUT (g : Nat) : Fld := ⟨SWC_MG_OUT g, 0, 24⟩
/-- SWC_MG_SUB: spec/08_switch_core.md, offset 0x4000 + g × 0x80 + p × 4 for g = 0–255 and p = 0–23, reset 0x0000_0000. -/
def SWC_MG_SUB (g p : Nat) : Reg := ⟨0x204000 + g * 0x80 + p * 0x4, 0x0⟩
def SWC_MG_SUB_COUNT (g p : Nat) : Fld := ⟨SWC_MG_SUB g p, 0, 16⟩
/-- BPM_CTRL: spec/08_switch_core.md, offset 0x000, reset 0x0000_0000. -/
def BPM_CTRL : Reg := ⟨0x210000, 0x0⟩
def BPM_CTRL_AUDIT : Fld := ⟨BPM_CTRL, 0, 1⟩
def BPM_CTRL_AUDIT_FREE : Fld := ⟨BPM_CTRL, 1, 1⟩
def BPM_CTRL_AUDIT_PERIOD : Fld := ⟨BPM_CTRL, 8, 8⟩
/-- BPM_STATUS: spec/08_switch_core.md, offset 0x004, reset 0x0000_0000. -/
def BPM_STATUS : Reg := ⟨0x210004, 0x0⟩
def BPM_STATUS_AUDIT_BUSY : Fld := ⟨BPM_STATUS, 0, 1⟩
def BPM_STATUS_SWEEP_BUSY : Fld := ⟨BPM_STATUS, 1, 1⟩
def BPM_STATUS_AUDIT_MISMATCH : Fld := ⟨BPM_STATUS, 2, 1⟩
def BPM_STATUS_LEAK : Fld := ⟨BPM_STATUS, 3, 1⟩
def BPM_STATUS_DOUBLE_FREE : Fld := ⟨BPM_STATUS, 4, 1⟩
def BPM_STATUS_QUARANTINE : Fld := ⟨BPM_STATUS, 5, 1⟩
/-- BPM_FREE: spec/08_switch_core.md, offset 0x008, reset 0x0002_0000. -/
def BPM_FREE : Reg := ⟨0x210008, 0x20000⟩
def BPM_FREE_CELLS : Fld := ⟨BPM_FREE, 0, 18⟩
/-- BPM_SHARED: spec/08_switch_core.md, offset 0x00C, reset 0x0001_E500. -/
def BPM_SHARED : Reg := ⟨0x21000c, 0x1e500⟩
def BPM_SHARED_FREE : Fld := ⟨BPM_SHARED, 0, 18⟩
/-- BPM_LOAN_CFG: spec/08_switch_core.md, offset 0x010, reset 0x0002_0020. -/
def BPM_LOAN_CFG : Reg := ⟨0x210010, 0x20020⟩
def BPM_LOAN_CFG_STEP : Fld := ⟨BPM_LOAN_CFG, 0, 8⟩
def BPM_LOAN_CFG_MAX : Fld := ⟨BPM_LOAN_CFG, 8, 10⟩
/-- BPM_POOL_CFG: spec/08_switch_core.md, offset 0x014, reset 0x0800_1000. -/
def BPM_POOL_CFG : Reg := ⟨0x210014, 0x8001000⟩
def BPM_POOL_CFG_FLOOR : Fld := ⟨BPM_POOL_CFG, 0, 16⟩
def BPM_POOL_CFG_RECALL : Fld := ⟨BPM_POOL_CFG, 16, 16⟩
/-- BPM_RECLAIM_TIMEOUT: spec/08_switch_core.md, offset 0x018, reset 0x0000_0064. -/
def BPM_RECLAIM_TIMEOUT : Reg := ⟨0x210018, 0x64⟩
def BPM_RECLAIM_TIMEOUT_TIME : Fld := ⟨BPM_RECLAIM_TIMEOUT, 0, 16⟩
/-- BPM_LEAK_AGE: spec/08_switch_core.md, offset 0x01C, reset 0x0000_0004. -/
def BPM_LEAK_AGE : Reg := ⟨0x21001c, 0x4⟩
def BPM_LEAK_AGE_AGE : Fld := ⟨BPM_LEAK_AGE, 0, 8⟩
/-- BPM_SETASIDE: spec/08_switch_core.md, offset 0x020 and 0x024, reset 0x0000_0000. -/
def BPM_SETASIDE : Reg := ⟨0x210020, 0x0⟩
def BPM_SETASIDE_CELLS : Fld := ⟨BPM_SETASIDE, 0, 18⟩
/-- BPM_QUARANTINED: spec/08_switch_core.md, offset 0x020 and 0x024, reset 0x0000_0000. -/
def BPM_QUARANTINED : Reg := ⟨0x210024, 0x0⟩
def BPM_QUARANTINED_CELLS : Fld := ⟨BPM_QUARANTINED, 0, 18⟩
/-- BPM_DOUBLE_FREE: spec/08_switch_core.md, offset 0x028 and 0x030, reset 0x0000_0000. -/
def BPM_DOUBLE_FREE : Reg := ⟨0x210028, 0x0⟩
def BPM_DOUBLE_FREE_COUNT : Fld := ⟨BPM_DOUBLE_FREE, 0, 32⟩
/-- BPM_FORCED: spec/08_switch_core.md, offset 0x028 and 0x030, reset 0x0000_0000. -/
def BPM_FORCED : Reg := ⟨0x210030, 0x0⟩
def BPM_FORCED_COUNT : Fld := ⟨BPM_FORCED, 0, 32⟩
/-- BPM_FAULT_CELL: spec/08_switch_core.md, offset 0x02C, reset 0x0000_0000. -/
def BPM_FAULT_CELL : Reg := ⟨0x21002c, 0x0⟩
def BPM_FAULT_CELL_CELL : Fld := ⟨BPM_FAULT_CELL, 0, 17⟩
def BPM_FAULT_CELL_KIND : Fld := ⟨BPM_FAULT_CELL, 17, 2⟩
def BPM_FAULT_CELL_VALID : Fld := ⟨BPM_FAULT_CELL, 31, 1⟩
/-- BPM_AUDIT_RESULT: spec/08_switch_core.md, offset 0x034, reset 0x0000_0000. -/
def BPM_AUDIT_RESULT : Reg := ⟨0x210034, 0x0⟩
def BPM_AUDIT_RESULT_LEAKED : Fld := ⟨BPM_AUDIT_RESULT, 0, 18⟩
def BPM_AUDIT_RESULT_OWNER : Fld := ⟨BPM_AUDIT_RESULT, 24, 8⟩
/-- BPM_AUDIT_CELL: spec/08_switch_core.md, offset 0x038, reset 0x0000_0000. -/
def BPM_AUDIT_CELL : Reg := ⟨0x210038, 0x0⟩
def BPM_AUDIT_CELL_CELL : Fld := ⟨BPM_AUDIT_CELL, 0, 17⟩
/-- BPM_CELL_SEL: spec/08_switch_core.md, offset 0x03C, reset 0x0000_0000. -/
def BPM_CELL_SEL : Reg := ⟨0x21003c, 0x0⟩
def BPM_CELL_SEL_CELL : Fld := ⟨BPM_CELL_SEL, 0, 17⟩
/-- BPM_CELL_META: spec/08_switch_core.md, offset 0x040, reset 0x0001_FE00. -/
def BPM_CELL_META : Reg := ⟨0x210040, 0x1fe00⟩
def BPM_CELL_META_STATE : Fld := ⟨BPM_CELL_META, 0, 2⟩
def BPM_CELL_META_RECLAIM : Fld := ⟨BPM_CELL_META, 2, 1⟩
def BPM_CELL_META_TX : Fld := ⟨BPM_CELL_META, 3, 1⟩
def BPM_CELL_META_HEAD : Fld := ⟨BPM_CELL_META, 4, 1⟩
def BPM_CELL_META_GEN : Fld := ⟨BPM_CELL_META, 5, 4⟩
def BPM_CELL_META_OWNER : Fld := ⟨BPM_CELL_META, 9, 8⟩
def BPM_CELL_META_REF : Fld := ⟨BPM_CELL_META, 17, 6⟩
def BPM_CELL_META_MARK : Fld := ⟨BPM_CELL_META, 23, 1⟩
/-- BPM_CELL_LINK: spec/08_switch_core.md, offset 0x044, reset 0x07FE_0000. -/
def BPM_CELL_LINK : Reg := ⟨0x210044, 0x7fe0000⟩
def BPM_CELL_LINK_NEXT : Fld := ⟨BPM_CELL_LINK, 0, 17⟩
def BPM_CELL_LINK_ACCT : Fld := ⟨BPM_CELL_LINK, 17, 10⟩
def BPM_CELL_LINK_CHARGE : Fld := ⟨BPM_CELL_LINK, 27, 3⟩
/-- BPM_OWNER_CELLS: spec/08_switch_core.md, offset 0x100 + t × 4 for t = 0–255, reset 0x0000_0000. -/
def BPM_OWNER_CELLS (t : Nat) : Reg := ⟨0x210100 + t * 0x4, 0x0⟩
def BPM_OWNER_CELLS_CELLS (t : Nat) : Fld := ⟨BPM_OWNER_CELLS t, 0, 18⟩
/-- BPM_ACCT: spec/08_switch_core.md, offset 0x800 + a × 4 for a = 32 × port + VC, 0–767, reset 0x0000_0000. -/
def BPM_ACCT (a : Nat) : Reg := ⟨0x210800 + a * 0x4, 0x0⟩
def BPM_ACCT_IN_USE (a : Nat) : Fld := ⟨BPM_ACCT a, 0, 10⟩
def BPM_ACCT_LOAN (a : Nat) : Fld := ⟨BPM_ACCT a, 10, 10⟩
/-- SCH_CTRL: spec/09_scheduling.md, offset 0x000, reset 0x0000_0000. -/
def SCH_CTRL : Reg := ⟨0x220000, 0x0⟩
def SCH_CTRL_OBS_EN : Fld := ⟨SCH_CTRL, 0, 1⟩
def SCH_CTRL_CLEAR : Fld := ⟨SCH_CTRL, 1, 1⟩
/-- SCH_OUT_DVTIME: spec/09_scheduling.md, offset 0x200 and 0x204 + p × 0x20, reset 0x0000_0000. -/
def SCH_OUT_DVTIME (p : Nat) : Reg := ⟨0x220200 + p * 0x20, 0x0⟩
def SCH_OUT_DVTIME_V (p : Nat) : Fld := ⟨SCH_OUT_DVTIME p, 0, 32⟩
/-- SCH_OUT_CVTIME: spec/09_scheduling.md, offset 0x200 and 0x204 + p × 0x20, reset 0x0000_0000. -/
def SCH_OUT_CVTIME (p : Nat) : Reg := ⟨0x220204 + p * 0x20, 0x0⟩
def SCH_OUT_CVTIME_V (p : Nat) : Fld := ⟨SCH_OUT_CVTIME p, 0, 32⟩
/-- SCH_OUT_TOKENS: spec/09_scheduling.md, offset 0x208 + p × 0x20, reset 0x0000_4000. -/
def SCH_OUT_TOKENS (p : Nat) : Reg := ⟨0x220208 + p * 0x20, 0x4000⟩
def SCH_OUT_TOKENS_T (p : Nat) : Fld := ⟨SCH_OUT_TOKENS p, 0, 16⟩
/-- SCH_OUT_GATE: spec/09_scheduling.md, offset 0x20C + p × 0x20, reset 0x0000_000F. -/
def SCH_OUT_GATE (p : Nat) : Reg := ⟨0x22020c + p * 0x20, 0xf⟩
def SCH_OUT_GATE_OPEN (p : Nat) : Fld := ⟨SCH_OUT_GATE p, 0, 4⟩
def SCH_OUT_GATE_ENTRY (p : Nat) : Fld := ⟨SCH_OUT_GATE p, 4, 6⟩
def SCH_OUT_GATE_GATED (p : Nat) : Fld := ⟨SCH_OUT_GATE p, 10, 1⟩
/-- SCH_OUT_WEIGHT: spec/09_scheduling.md, offset 0x210 + p × 0x20, reset 0x4040_4040. -/
def SCH_OUT_WEIGHT (p : Nat) : Reg := ⟨0x220210 + p * 0x20, 0x40404040⟩
def SCH_OUT_WEIGHT_W (p : Nat) : Fld := ⟨SCH_OUT_WEIGHT p, 0, 32⟩
/-- SCH_OUT_OVH: spec/09_scheduling.md, offset 0x214 + p × 0x20, reset 0x4040_0000. -/
def SCH_OUT_OVH (p : Nat) : Reg := ⟨0x220214 + p * 0x20, 0x40400000⟩
def SCH_OUT_OVH_OVH_PKT (p : Nat) : Fld := ⟨SCH_OUT_OVH p, 0, 8⟩
def SCH_OUT_OVH_OVH_FLIT (p : Nat) : Fld := ⟨SCH_OUT_OVH p, 8, 8⟩
def SCH_OUT_OVH_CTRL_RATE (p : Nat) : Fld := ⟨SCH_OUT_OVH p, 16, 8⟩
def SCH_OUT_OVH_CTRL_BURST (p : Nat) : Fld := ⟨SCH_OUT_OVH p, 24, 8⟩
/-- SCH_GATE_OVERRUN: spec/09_scheduling.md, offset 0x800 + p × 4 for p = 0–23, reset 0x0000_0000. -/
def SCH_GATE_OVERRUN (p : Nat) : Reg := ⟨0x220800 + p * 0x4, 0x0⟩
def SCH_GATE_OVERRUN_COUNT (p : Nat) : Fld := ⟨SCH_GATE_OVERRUN p, 0, 32⟩
/-- SCH_Q_SAMPLES: spec/09_scheduling.md, offset 0x1000, 0x1004, 0x1008 + (24p + v − 8) × 0x10, reset 0x0000_0000. -/
def SCH_Q_SAMPLES (n : Nat) : Reg := ⟨0x221000 + n * 0x10, 0x0⟩
def SCH_Q_SAMPLES_COUNT (n : Nat) : Fld := ⟨SCH_Q_SAMPLES n, 0, 32⟩
/-- SCH_Q_DEPTH_SUM: spec/09_scheduling.md, offset 0x1000, 0x1004, 0x1008 + (24p + v − 8) × 0x10, reset 0x0000_0000. -/
def SCH_Q_DEPTH_SUM (n : Nat) : Reg := ⟨0x221004 + n * 0x10, 0x0⟩
def SCH_Q_DEPTH_SUM_COUNT (n : Nat) : Fld := ⟨SCH_Q_DEPTH_SUM n, 0, 32⟩
/-- SCH_Q_WAIT_SUM: spec/09_scheduling.md, offset 0x1000, 0x1004, 0x1008 + (24p + v − 8) × 0x10, reset 0x0000_0000. -/
def SCH_Q_WAIT_SUM (n : Nat) : Reg := ⟨0x221008 + n * 0x10, 0x0⟩
def SCH_Q_WAIT_SUM_COUNT (n : Nat) : Fld := ⟨SCH_Q_WAIT_SUM n, 0, 32⟩
/-- SCH_Q_MAX: spec/09_scheduling.md, offset 0x100C + (24p + v − 8) × 0x10, reset 0x0000_0000. -/
def SCH_Q_MAX (n : Nat) : Reg := ⟨0x22100c + n * 0x10, 0x0⟩
def SCH_Q_MAX_DEPTH_MAX (n : Nat) : Fld := ⟨SCH_Q_MAX n, 0, 16⟩
def SCH_Q_MAX_WAIT_MAX (n : Nat) : Fld := ⟨SCH_Q_MAX n, 16, 16⟩
/-- SCH_CQ_HWM: spec/09_scheduling.md, offset 0x5000 + (8p + v) × 4 for p = 0–34 and v = 0–7, reset 0x0000_0000. -/
def SCH_CQ_HWM (n : Nat) : Reg := ⟨0x225000 + n * 0x4, 0x0⟩
def SCH_CQ_HWM_HWM_DEPTH (n : Nat) : Fld := ⟨SCH_CQ_HWM n, 0, 16⟩
def SCH_CQ_HWM_HWM_WAIT (n : Nat) : Fld := ⟨SCH_CQ_HWM n, 16, 16⟩
/-- COL_CTRL: spec/10_collectives.md, offset 0x000, reset 0x0000_0000. -/
def COL_CTRL : Reg := ⟨0x240000, 0x0⟩
def COL_CTRL_EN : Fld := ⟨COL_CTRL, 0, 1⟩
def COL_CTRL_ENABLE_PENDING : Fld := ⟨COL_CTRL, 1, 1⟩
/-- COL_STATUS: spec/10_collectives.md, offset 0x004, reset 0x0000_0000. -/
def COL_STATUS : Reg := ⟨0x240004, 0x0⟩
def COL_STATUS_CHAINS : Fld := ⟨COL_STATUS, 0, 8⟩
def COL_STATUS_COMBINES : Fld := ⟨COL_STATUS, 8, 5⟩
def COL_STATUS_ARRIVALS : Fld := ⟨COL_STATUS, 13, 12⟩
/-- COL_CFG: spec/10_collectives.md, offset 0x008, reset 0x0000_0008. -/
def COL_CFG : Reg := ⟨0x240008, 0x8⟩
def COL_CFG_WINDOW : Fld := ⟨COL_CFG, 0, 7⟩
/-- COL_CHAIN_TIMEOUT: spec/10_collectives.md, offset 0x00C, reset 0x0000_4E20. -/
def COL_CHAIN_TIMEOUT : Reg := ⟨0x24000c, 0x4e20⟩
def COL_CHAIN_TIMEOUT_TIME : Fld := ⟨COL_CHAIN_TIMEOUT, 0, 24⟩
/-- COL_REC_RING: spec/10_collectives.md, offset 0x010 (bits [31:0]) and 0x014 (bits [63:32]), reset 0x0000_0000_0000_0004. -/
def COL_REC_RING : Reg64 := ⟨0x240010, 0x4⟩
def COL_REC_RING_LOG2_ENTRIES : Fld64 := ⟨COL_REC_RING, 0, 4⟩
def COL_REC_RING_BASE : Fld64 := ⟨COL_REC_RING, 6, 42⟩
/-- COL_REC_PROD: spec/10_collectives.md, offset 0x018, reset 0x0000_0000. -/
def COL_REC_PROD : Reg := ⟨0x240018, 0x0⟩
def COL_REC_PROD_PROD : Fld := ⟨COL_REC_PROD, 0, 32⟩
/-- COL_BACKUP_GO: spec/10_collectives.md, offset 0x01C, reset 0x0000_0000. -/
def COL_BACKUP_GO : Reg := ⟨0x24001c, 0x0⟩
def COL_BACKUP_GO_ADDR : Fld := ⟨COL_BACKUP_GO, 0, 21⟩
def COL_BACKUP_GO_GO : Fld := ⟨COL_BACKUP_GO, 31, 1⟩
/-- COL_DISCARD: spec/10_collectives.md, offset 0x020, 0x024, 0x028, 0x02C, reset 0x0000_0000. -/
def COL_DISCARD : Reg := ⟨0x240020, 0x0⟩
def COL_DISCARD_COUNT : Fld := ⟨COL_DISCARD, 0, 32⟩
/-- COL_BACKUPS: spec/10_collectives.md, offset 0x020, 0x024, 0x028, 0x02C, reset 0x0000_0000. -/
def COL_BACKUPS : Reg := ⟨0x240024, 0x0⟩
def COL_BACKUPS_COUNT : Fld := ⟨COL_BACKUPS, 0, 32⟩
/-- COL_REPAIRS: spec/10_collectives.md, offset 0x020, 0x024, 0x028, 0x02C, reset 0x0000_0000. -/
def COL_REPAIRS : Reg := ⟨0x240028, 0x0⟩
def COL_REPAIRS_COUNT : Fld := ⟨COL_REPAIRS, 0, 32⟩
/-- COL_ORDER_FAULTS: spec/10_collectives.md, offset 0x020, 0x024, 0x028, 0x02C, reset 0x0000_0000. -/
def COL_ORDER_FAULTS : Reg := ⟨0x24002c, 0x0⟩
def COL_ORDER_FAULTS_COUNT : Fld := ⟨COL_ORDER_FAULTS, 0, 32⟩
/-- COL_CHAIN_STATE: spec/10_collectives.md, offset 0x100 + i × 0x10, reset 0x0000_0000. -/
def COL_CHAIN_STATE (i : Nat) : Reg := ⟨0x240100 + i * 0x10, 0x0⟩
def COL_CHAIN_STATE_STATE (i : Nat) : Fld := ⟨COL_CHAIN_STATE i, 0, 3⟩
def COL_CHAIN_STATE_DOMAIN (i : Nat) : Fld := ⟨COL_CHAIN_STATE i, 3, 6⟩
def COL_CHAIN_STATE_SHAPE (i : Nat) : Fld := ⟨COL_CHAIN_STATE i, 9, 4⟩
def COL_CHAIN_STATE_OP (i : Nat) : Fld := ⟨COL_CHAIN_STATE i, 13, 4⟩
def COL_CHAIN_STATE_CORE (i : Nat) : Fld := ⟨COL_CHAIN_STATE i, 17, 8⟩
/-- COL_CHAIN_TICKET: spec/10_collectives.md, offset 0x104 + i × 0x10, reset 0x0000_0000. -/
def COL_CHAIN_TICKET (i : Nat) : Reg := ⟨0x240104 + i * 0x10, 0x0⟩
def COL_CHAIN_TICKET_TICKET (i : Nat) : Fld := ⟨COL_CHAIN_TICKET i, 0, 32⟩
/-- COL_CHAIN_CHUNKS: spec/10_collectives.md, offset 0x108 + i × 0x10, reset 0x0000_0000. -/
def COL_CHAIN_CHUNKS (i : Nat) : Reg := ⟨0x240108 + i * 0x10, 0x0⟩
def COL_CHAIN_CHUNKS_DONE (i : Nat) : Fld := ⟨COL_CHAIN_CHUNKS i, 0, 16⟩
def COL_CHAIN_CHUNKS_TOTAL (i : Nat) : Fld := ⟨COL_CHAIN_CHUNKS i, 16, 16⟩
/-- COL_DOM_CTRL: spec/10_collectives.md, offset 0x400 + d × 0x10, reset 0x0000_0000. -/
def COL_DOM_CTRL (d : Nat) : Reg := ⟨0x240400 + d * 0x10, 0x0⟩
def COL_DOM_CTRL_EN (d : Nat) : Fld := ⟨COL_DOM_CTRL d, 0, 1⟩
def COL_DOM_CTRL_ENABLE_PENDING (d : Nat) : Fld := ⟨COL_DOM_CTRL d, 1, 1⟩
def COL_DOM_CTRL_DEFINED (d : Nat) : Fld := ⟨COL_DOM_CTRL d, 2, 1⟩
def COL_DOM_CTRL_ORDER_FAULT (d : Nat) : Fld := ⟨COL_DOM_CTRL d, 3, 1⟩
/-- COL_DOM_NEXT: spec/10_collectives.md, offset 0x404 + d × 0x10, reset 0x0000_0000. -/
def COL_DOM_NEXT (d : Nat) : Reg := ⟨0x240404 + d * 0x10, 0x0⟩
def COL_DOM_NEXT_NEXT (d : Nat) : Fld := ⟨COL_DOM_NEXT d, 0, 32⟩
/-- COL_DOM_HELD: spec/10_collectives.md, offset 0x408 + d × 0x10, reset 0x0000_0000. -/
def COL_DOM_HELD (d : Nat) : Reg := ⟨0x240408 + d * 0x10, 0x0⟩
def COL_DOM_HELD_HELD (d : Nat) : Fld := ⟨COL_DOM_HELD d, 0, 11⟩
/-- DET_CFG: spec/11_determinism.md, offset 0x000, reset 0x0000_0002. -/
def DET_CFG : Reg := ⟨0x140000, 0x2⟩
def DET_CFG_REPLAY_LIMIT : Fld := ⟨DET_CFG, 0, 4⟩
/-- DET_STATUS: spec/11_determinism.md, offset 0x004, reset 0x0000_0000. -/
def DET_STATUS : Reg := ⟨0x140004, 0x0⟩
def DET_STATUS_LATE_REPAIR : Fld := ⟨DET_STATUS, 0, 1⟩
def DET_STATUS_REPLAY_LOST : Fld := ⟨DET_STATUS, 1, 1⟩
def DET_STATUS_TAKEOVER_BUSY : Fld := ⟨DET_STATUS, 2, 1⟩
/-- DET_START_TIME: spec/11_determinism.md, offset 0x008 (bits [31:0]) and 0x00C (bits [63:32]), reset 0x0000_0000_0000_0000. -/
def DET_START_TIME : Reg64 := ⟨0x140008, 0x0⟩
def DET_START_TIME_T : Fld64 := ⟨DET_START_TIME, 0, 64⟩
/-- DET_START_CTRL: spec/11_determinism.md, offset 0x010, reset 0x0000_0000. -/
def DET_START_CTRL : Reg := ⟨0x140010, 0x0⟩
def DET_START_CTRL_ARM : Fld := ⟨DET_START_CTRL, 0, 1⟩
def DET_START_CTRL_RELEASED : Fld := ⟨DET_START_CTRL, 1, 1⟩
def DET_START_CTRL_LATE : Fld := ⟨DET_START_CTRL, 2, 1⟩
/-- DET_REPLAYS: spec/11_determinism.md, offset 0x014, 0x018, 0x01C, reset 0x0000_0000. -/
def DET_REPLAYS : Reg := ⟨0x140014, 0x0⟩
def DET_REPLAYS_COUNT : Fld := ⟨DET_REPLAYS, 0, 32⟩
/-- DET_TAKEOVERS: spec/11_determinism.md, offset 0x014, 0x018, 0x01C, reset 0x0000_0000. -/
def DET_TAKEOVERS : Reg := ⟨0x140018, 0x0⟩
def DET_TAKEOVERS_COUNT : Fld := ⟨DET_TAKEOVERS, 0, 32⟩
/-- DET_LOST: spec/11_determinism.md, offset 0x014, 0x018, 0x01C, reset 0x0000_0000. -/
def DET_LOST : Reg := ⟨0x14001c, 0x0⟩
def DET_LOST_COUNT : Fld := ⟨DET_LOST, 0, 32⟩
/-- DET_LATE_STEP: spec/11_determinism.md, offset 0x020 (bits [31:0]) and 0x024 (bits [63:32]), reset 0x0000_0000_0000_0000. -/
def DET_LATE_STEP : Reg64 := ⟨0x140020, 0x0⟩
def DET_LATE_STEP_STEP : Fld64 := ⟨DET_LATE_STEP, 0, 48⟩
/-- DET_STEP: spec/11_determinism.md, offset 0x100 (bits [31:0]) and 0x104 (bits [63:32]) + g × 0x10, reset 0x0000_0000_0000_0000. -/
def DET_STEP (g : Nat) : Reg64 := ⟨0x140100 + g * 0x10, 0x0⟩
def DET_STEP_STEP (g : Nat) : Fld64 := ⟨DET_STEP g, 0, 48⟩
/-- DET_RELEASED: spec/11_determinism.md, offset 0x108 + g × 0x10, reset 0x0000_0000. -/
def DET_RELEASED (g : Nat) : Reg := ⟨0x140108 + g * 0x10, 0x0⟩
def DET_RELEASED_STEP (g : Nat) : Fld := ⟨DET_RELEASED g, 0, 32⟩
/-- DET_CORE_REPLAY: spec/11_determinism.md, offset 0x1000 + L × 0x20, reset 0x0000_0000. -/
def DET_CORE_REPLAY (L : Nat) : Reg := ⟨0x141000 + L * 0x20, 0x0⟩
def DET_CORE_REPLAY_REPLAY_GEN (L : Nat) : Fld := ⟨DET_CORE_REPLAY L, 0, 2⟩
def DET_CORE_REPLAY_UNSAFE (L : Nat) : Fld := ⟨DET_CORE_REPLAY L, 2, 1⟩
def DET_CORE_REPLAY_REPLAYING (L : Nat) : Fld := ⟨DET_CORE_REPLAY L, 3, 1⟩
def DET_CORE_REPLAY_ATTEMPTS (L : Nat) : Fld := ⟨DET_CORE_REPLAY L, 4, 4⟩
/-- DET_CORE_LOG: spec/11_determinism.md, offset 0x1004 + L × 0x20, reset 0x0000_0000. -/
def DET_CORE_LOG (L : Nat) : Reg := ⟨0x141004 + L * 0x20, 0x0⟩
def DET_CORE_LOG_USED (L : Nat) : Fld := ⟨DET_CORE_LOG L, 0, 10⟩
def DET_CORE_LOG_CKPT_INDEX (L : Nat) : Fld := ⟨DET_CORE_LOG L, 10, 18⟩
/-- DET_CORE_NONQUIET: spec/11_determinism.md, offset 0x1008 and 0x100C + L × 0x20, reset 0x0000_0000. -/
def DET_CORE_NONQUIET (L : Nat) : Reg := ⟨0x141008 + L * 0x20, 0x0⟩
def DET_CORE_NONQUIET_COUNT (L : Nat) : Fld := ⟨DET_CORE_NONQUIET L, 0, 32⟩
/-- DET_CORE_STALE: spec/11_determinism.md, offset 0x1008 and 0x100C + L × 0x20, reset 0x0000_0000. -/
def DET_CORE_STALE (L : Nat) : Reg := ⟨0x14100c + L * 0x20, 0x0⟩
def DET_CORE_STALE_COUNT (L : Nat) : Fld := ⟨DET_CORE_STALE L, 0, 32⟩
/-- MEM_LAYOUT: spec/12_sharded_training.md, offset 0x040, reset 0x0000_0000. -/
def MEM_LAYOUT : Reg := ⟨0x180040, 0x0⟩
def MEM_LAYOUT_EPOCH : Fld := ⟨MEM_LAYOUT, 0, 16⟩
/-- MEM_XLATE_HOLD: spec/12_sharded_training.md, offset 0x044, reset 0x0000_000A. -/
def MEM_XLATE_HOLD : Reg := ⟨0x180044, 0xa⟩
def MEM_XLATE_HOLD_HOLD : Fld := ⟨MEM_XLATE_HOLD, 0, 16⟩
/-- MEM_SHD_REFUSED: spec/12_sharded_training.md, offset 0x048, 0x04C, 0x050, reset 0x0000_0000. -/
def MEM_SHD_REFUSED : Reg := ⟨0x180048, 0x0⟩
def MEM_SHD_REFUSED_COUNT : Fld := ⟨MEM_SHD_REFUSED, 0, 32⟩
/-- MEM_XLATE_FWD: spec/12_sharded_training.md, offset 0x048, 0x04C, 0x050, reset 0x0000_0000. -/
def MEM_XLATE_FWD : Reg := ⟨0x18004c, 0x0⟩
def MEM_XLATE_FWD_COUNT : Fld := ⟨MEM_XLATE_FWD, 0, 32⟩
/-- MEM_XLATE_STALE: spec/12_sharded_training.md, offset 0x048, 0x04C, 0x050, reset 0x0000_0000. -/
def MEM_XLATE_STALE : Reg := ⟨0x180050, 0x0⟩
def MEM_XLATE_STALE_COUNT : Fld := ⟨MEM_XLATE_STALE, 0, 32⟩
/-- MEM_SHD_LAST: spec/12_sharded_training.md, offset 0x054, reset 0x0000_0000. -/
def MEM_SHD_LAST : Reg := ⟨0x180054, 0x0⟩
def MEM_SHD_LAST_ENTRY : Fld := ⟨MEM_SHD_LAST, 0, 6⟩
def MEM_SHD_LAST_STATUS : Fld := ⟨MEM_SHD_LAST, 8, 8⟩
def MEM_SHD_LAST_VALID : Fld := ⟨MEM_SHD_LAST, 31, 1⟩
/-- MEM_SHD_CFG: spec/12_sharded_training.md, offset 0x800 + e × 0x40, reset 0x007F_7F00. -/
def MEM_SHD_CFG (e : Nat) : Reg := ⟨0x180800 + e * 0x40, 0x7f7f00⟩
def MEM_SHD_CFG_VALID (e : Nat) : Fld := ⟨MEM_SHD_CFG e, 0, 1⟩
def MEM_SHD_CFG_KIND (e : Nat) : Fld := ⟨MEM_SHD_CFG e, 1, 2⟩
def MEM_SHD_CFG_GROUP (e : Nat) : Fld := ⟨MEM_SHD_CFG e, 3, 5⟩
def MEM_SHD_CFG_GRAD_INDEX (e : Nat) : Fld := ⟨MEM_SHD_CFG e, 8, 7⟩
def MEM_SHD_CFG_SLOT_UNITS (e : Nat) : Fld := ⟨MEM_SHD_CFG e, 16, 16⟩
/-- MEM_SHD_TENSOR: spec/12_sharded_training.md, offset 0x804 + e × 0x40, reset 0x0000_0000. -/
def MEM_SHD_TENSOR (e : Nat) : Reg := ⟨0x180804 + e * 0x40, 0x0⟩
def MEM_SHD_TENSOR_TENSOR_ID (e : Nat) : Fld := ⟨MEM_SHD_TENSOR e, 0, 32⟩
/-- MEM_SHD_BASE: spec/12_sharded_training.md, offset 0x808 (bits [31:0]) and 0x80C (bits [63:32]) + e × 0x40, reset 0x0000_0000_0000_0000. -/
def MEM_SHD_BASE (e : Nat) : Reg64 := ⟨0x180808 + e * 0x40, 0x0⟩
def MEM_SHD_BASE_BASE (e : Nat) : Fld64 := ⟨MEM_SHD_BASE e, 16, 32⟩
/-- MEM_SHD_VERSION: spec/12_sharded_training.md, offset 0x810 + e × 0x40, reset 0x0000_0000. -/
def MEM_SHD_VERSION (e : Nat) : Reg := ⟨0x180810 + e * 0x40, 0x0⟩
def MEM_SHD_VERSION_VERSION (e : Nat) : Fld := ⟨MEM_SHD_VERSION e, 0, 32⟩
/-- MEM_SHD_EPOCH: spec/12_sharded_training.md, offset 0x814 + e × 0x40, reset 0x0000_0000. -/
def MEM_SHD_EPOCH (e : Nat) : Reg := ⟨0x180814 + e * 0x40, 0x0⟩
def MEM_SHD_EPOCH_EPOCH (e : Nat) : Fld := ⟨MEM_SHD_EPOCH e, 0, 16⟩
def MEM_SHD_EPOCH_PREV_EPOCH (e : Nat) : Fld := ⟨MEM_SHD_EPOCH e, 16, 16⟩
/-- MEM_SHD_STATE: spec/12_sharded_training.md, offset 0x818 + e × 0x40, reset 0x0000_0000. -/
def MEM_SHD_STATE (e : Nat) : Reg := ⟨0x180818 + e * 0x40, 0x0⟩
def MEM_SHD_STATE_DIRTY (e : Nat) : Fld := ⟨MEM_SHD_STATE e, 0, 1⟩
def MEM_SHD_STATE_PERMUTING (e : Nat) : Fld := ⟨MEM_SHD_STATE e, 1, 1⟩
def MEM_SHD_STATE_CUR (e : Nat) : Fld := ⟨MEM_SHD_STATE e, 2, 2⟩
def MEM_SHD_STATE_ROLLED (e : Nat) : Fld := ⟨MEM_SHD_STATE e, 4, 1⟩
def MEM_SHD_STATE_G_VALID (e : Nat) : Fld := ⟨MEM_SHD_STATE e, 5, 1⟩
def MEM_SHD_STATE_ROLLBACK (e : Nat) : Fld := ⟨MEM_SHD_STATE e, 6, 1⟩
def MEM_SHD_STATE_G_EPOCH (e : Nat) : Fld := ⟨MEM_SHD_STATE e, 16, 16⟩
/-- MEM_SHD_RECV: spec/12_sharded_training.md, offset 0x81C + e × 0x40, reset 0x0000_0000. -/
def MEM_SHD_RECV (e : Nat) : Reg := ⟨0x18081c + e * 0x40, 0x0⟩
def MEM_SHD_RECV_UNITS (e : Nat) : Fld := ⟨MEM_SHD_RECV e, 0, 32⟩
/-- MEM_SHD_SWAP_STEP: spec/12_sharded_training.md, offset 0x820/0x824 and 0x828/0x82C + e × 0x40, reset 0x0000_0000_0000_0000. -/
def MEM_SHD_SWAP_STEP (e : Nat) : Reg64 := ⟨0x180820 + e * 0x40, 0x0⟩
def MEM_SHD_SWAP_STEP_STEP (e : Nat) : Fld64 := ⟨MEM_SHD_SWAP_STEP e, 0, 48⟩
/-- MEM_SHD_G_STEP: spec/12_sharded_training.md, offset 0x820/0x824 and 0x828/0x82C + e × 0x40, reset 0x0000_0000_0000_0000. -/
def MEM_SHD_G_STEP (e : Nat) : Reg64 := ⟨0x180828 + e * 0x40, 0x0⟩
def MEM_SHD_G_STEP_STEP (e : Nat) : Fld64 := ⟨MEM_SHD_G_STEP e, 0, 48⟩
/-- MEM_SHD_G_VERSION: spec/12_sharded_training.md, offset 0x830 + e × 0x40, reset 0x0000_0000. -/
def MEM_SHD_G_VERSION (e : Nat) : Reg := ⟨0x180830 + e * 0x40, 0x0⟩
def MEM_SHD_G_VERSION_VERSION (e : Nat) : Fld := ⟨MEM_SHD_G_VERSION e, 0, 32⟩
/-- MEM_XLATE_OLD: spec/12_sharded_training.md, offset 0x1800/0x1804 and 0x1810/0x1814 + x × 0x20, reset 0x0000_0000_0000_0000. -/
def MEM_XLATE_OLD (x : Nat) : Reg64 := ⟨0x181800 + x * 0x20, 0x0⟩
def MEM_XLATE_OLD_BASE (x : Nat) : Fld64 := ⟨MEM_XLATE_OLD x, 11, 37⟩
/-- MEM_XLATE_NEW: spec/12_sharded_training.md, offset 0x1800/0x1804 and 0x1810/0x1814 + x × 0x20, reset 0x0000_0000_0000_0000. -/
def MEM_XLATE_NEW (x : Nat) : Reg64 := ⟨0x181810 + x * 0x20, 0x0⟩
def MEM_XLATE_NEW_BASE (x : Nat) : Fld64 := ⟨MEM_XLATE_NEW x, 11, 37⟩
/-- MEM_XLATE_CTRL: spec/12_sharded_training.md, offset 0x1808 + x × 0x20, reset 0x0000_0000. -/
def MEM_XLATE_CTRL (x : Nat) : Reg := ⟨0x181808 + x * 0x20, 0x0⟩
def MEM_XLATE_CTRL_VALID (x : Nat) : Fld := ⟨MEM_XLATE_CTRL x, 0, 1⟩
def MEM_XLATE_CTRL_ACTIVE (x : Nat) : Fld := ⟨MEM_XLATE_CTRL x, 1, 1⟩
def MEM_XLATE_CTRL_OLD_EPOCH (x : Nat) : Fld := ⟨MEM_XLATE_CTRL x, 16, 16⟩
/-- MEM_XLATE_LEN: spec/12_sharded_training.md, offset 0x180C + x × 0x20, reset 0x0000_0000. -/
def MEM_XLATE_LEN (x : Nat) : Reg := ⟨0x18180c + x * 0x20, 0x0⟩
def MEM_XLATE_LEN_UNITS (x : Nat) : Fld := ⟨MEM_XLATE_LEN x, 0, 24⟩
/-- MEM_XLATE_NODE: spec/12_sharded_training.md, offset 0x1818 + x × 0x20, reset 0x0000_0000. -/
def MEM_XLATE_NODE (x : Nat) : Reg := ⟨0x181818 + x * 0x20, 0x0⟩
def MEM_XLATE_NODE_NEW_ADDR (x : Nat) : Fld := ⟨MEM_XLATE_NODE x, 0, 21⟩
/-- PWR_RESET: spec/13_start_and_discovery.md, offset 0x000, reset 0x0000_0000. -/
def PWR_RESET : Reg := ⟨0x0, 0x0⟩
def PWR_RESET_DEVICE : Fld := ⟨PWR_RESET, 0, 1⟩
def PWR_RESET_FULL : Fld := ⟨PWR_RESET, 1, 1⟩
/-- PWR_RESET_CAUSE: spec/13_start_and_discovery.md, offset 0x004, reset 0x0000_0001. -/
def PWR_RESET_CAUSE : Reg := ⟨0x4, 0x1⟩
def PWR_RESET_CAUSE_POWER_ON : Fld := ⟨PWR_RESET_CAUSE, 0, 1⟩
def PWR_RESET_CAUSE_LINK : Fld := ⟨PWR_RESET_CAUSE, 1, 1⟩
def PWR_RESET_CAUSE_FULL : Fld := ⟨PWR_RESET_CAUSE, 2, 1⟩
def PWR_RESET_CAUSE_DEVICE : Fld := ⟨PWR_RESET_CAUSE, 3, 1⟩
/-- PWR_BOOT_STATUS: spec/13_start_and_discovery.md, offset 0x008, reset 0x0000_0000. -/
def PWR_BOOT_STATUS : Reg := ⟨0x8, 0x0⟩
def PWR_BOOT_STATUS_STAGE : Fld := ⟨PWR_BOOT_STATUS, 0, 4⟩
def PWR_BOOT_STATUS_CODE : Fld := ⟨PWR_BOOT_STATUS, 4, 8⟩
def PWR_BOOT_STATUS_SLOT : Fld := ⟨PWR_BOOT_STATUS, 12, 1⟩
def PWR_BOOT_STATUS_ID_VALID : Fld := ⟨PWR_BOOT_STATUS, 13, 1⟩
def PWR_BOOT_STATUS_FROM_HOST : Fld := ⟨PWR_BOOT_STATUS, 14, 1⟩
/-- PWR_FW_VERSION: spec/13_start_and_discovery.md, offset 0x00C, reset 0x0000_0000. -/
def PWR_FW_VERSION : Reg := ⟨0xc, 0x0⟩
def PWR_FW_VERSION_VERSION : Fld := ⟨PWR_FW_VERSION, 0, 16⟩
def PWR_FW_VERSION_BUILD : Fld := ⟨PWR_FW_VERSION, 16, 16⟩
/-- PWR_ID_HASH: spec/13_start_and_discovery.md, offset 0x010 + i × 4 for i = 0–7, reset 0x0000_0000. -/
def PWR_ID_HASH (i : Nat) : Reg := ⟨0x10 + i * 0x4, 0x0⟩
def PWR_ID_HASH_HASH (i : Nat) : Fld := ⟨PWR_ID_HASH i, 0, 32⟩
/-- PWR_CLK_STATUS: spec/13_start_and_discovery.md, offset 0x030, reset 0x0000_0000. -/
def PWR_CLK_STATUS : Reg := ⟨0x30, 0x0⟩
def PWR_CLK_STATUS_STATE : Fld := ⟨PWR_CLK_STATUS, 0, 3⟩
def PWR_CLK_STATUS_PORT : Fld := ⟨PWR_CLK_STATUS, 3, 5⟩
def PWR_CLK_STATUS_ROOT_LOCK : Fld := ⟨PWR_CLK_STATUS, 8, 1⟩
def PWR_CLK_STATUS_OFFSET_FAIL : Fld := ⟨PWR_CLK_STATUS, 9, 1⟩
def PWR_CLK_STATUS_OFFSET : Fld := ⟨PWR_CLK_STATUS, 16, 16⟩
/-- PWR_CLK_CTRL: spec/13_start_and_discovery.md, offset 0x034, reset 0x0000_0000. -/
def PWR_CLK_CTRL : Reg := ⟨0x34, 0x0⟩
def PWR_CLK_CTRL_SYNTON_GO : Fld := ⟨PWR_CLK_CTRL, 0, 1⟩
def PWR_CLK_CTRL_REVERT : Fld := ⟨PWR_CLK_CTRL, 1, 1⟩
/-- PWR_CLK_LOSS: spec/13_start_and_discovery.md, offset 0x038, reset 0x0000_0000. -/
def PWR_CLK_LOSS : Reg := ⟨0x38, 0x0⟩
def PWR_CLK_LOSS_COUNT : Fld := ⟨PWR_CLK_LOSS, 0, 16⟩
/-- PWR_FTIME: spec/13_start_and_discovery.md, offset 0x040 (bits [31:0]) and 0x044 (bits [63:32]), reset 0x0000_0000_0000_0000. -/
def PWR_FTIME : Reg64 := ⟨0x40, 0x0⟩
def PWR_FTIME_TIME : Fld64 := ⟨PWR_FTIME, 0, 64⟩
/-- PWR_FTIME_ADJ: spec/13_start_and_discovery.md, offset 0x048 (bits [31:0]) and 0x04C (bits [63:32]), reset 0x0000_0000_0000_0000. -/
def PWR_FTIME_ADJ : Reg64 := ⟨0x48, 0x0⟩
def PWR_FTIME_ADJ_ADJ : Fld64 := ⟨PWR_FTIME_ADJ, 0, 64⟩
/-- PWR_FTIME_CTRL: spec/13_start_and_discovery.md, offset 0x050, reset 0x0000_0000. -/
def PWR_FTIME_CTRL : Reg := ⟨0x50, 0x0⟩
def PWR_FTIME_CTRL_STEP : Fld := ⟨PWR_FTIME_CTRL, 0, 1⟩
def PWR_FTIME_CTRL_SLEW : Fld := ⟨PWR_FTIME_CTRL, 1, 1⟩
def PWR_FTIME_CTRL_SLEWING : Fld := ⟨PWR_FTIME_CTRL, 2, 1⟩
def PWR_FTIME_CTRL_REFUSED : Fld := ⟨PWR_FTIME_CTRL, 3, 1⟩
/-- PWR_FTIME_SLEW_LEFT: spec/13_start_and_discovery.md, offset 0x054, reset 0x0000_0000. -/
def PWR_FTIME_SLEW_LEFT : Reg := ⟨0x54, 0x0⟩
def PWR_FTIME_SLEW_LEFT_TICKS : Fld := ⟨PWR_FTIME_SLEW_LEFT, 0, 24⟩
/-- PWR_RECOVERY_ADDR: spec/13_start_and_discovery.md, offset 0x060 (bits [31:0]) and 0x064 (bits [63:32]), reset 0x0000_0000_0000_0000. -/
def PWR_RECOVERY_ADDR : Reg64 := ⟨0x60, 0x0⟩
def PWR_RECOVERY_ADDR_ADDR : Fld64 := ⟨PWR_RECOVERY_ADDR, 12, 52⟩
/-- PWR_RECOVERY_LEN: spec/13_start_and_discovery.md, offset 0x068, reset 0x0000_0000. -/
def PWR_RECOVERY_LEN : Reg := ⟨0x68, 0x0⟩
def PWR_RECOVERY_LEN_LEN : Fld := ⟨PWR_RECOVERY_LEN, 0, 23⟩
def PWR_RECOVERY_LEN_GO : Fld := ⟨PWR_RECOVERY_LEN, 31, 1⟩
/-- HIF_NBR_TX_CTRL: spec/13_start_and_discovery.md, offset 0x400, reset 0x0000_0000. -/
def HIF_NBR_TX_CTRL : Reg := ⟨0x10400, 0x0⟩
def HIF_NBR_TX_CTRL_PORT : Fld := ⟨HIF_NBR_TX_CTRL, 0, 5⟩
def HIF_NBR_TX_CTRL_KIND : Fld := ⟨HIF_NBR_TX_CTRL, 8, 2⟩
def HIF_NBR_TX_CTRL_SEND : Fld := ⟨HIF_NBR_TX_CTRL, 10, 1⟩
def HIF_NBR_TX_CTRL_BUSY : Fld := ⟨HIF_NBR_TX_CTRL, 11, 1⟩
def HIF_NBR_TX_CTRL_NOT_UP : Fld := ⟨HIF_NBR_TX_CTRL, 12, 1⟩
def HIF_NBR_TX_CTRL_TAG : Fld := ⟨HIF_NBR_TX_CTRL, 16, 11⟩
/-- HIF_NBR_TX_DATA: spec/13_start_and_discovery.md, offset 0x404 + i × 4 for i = 0–9, reset 0x0000_0000. -/
def HIF_NBR_TX_DATA (i : Nat) : Reg := ⟨0x10404 + i * 0x4, 0x0⟩
def HIF_NBR_TX_DATA_DATA (i : Nat) : Fld := ⟨HIF_NBR_TX_DATA i, 0, 32⟩
/-- HIF_NBR_RX_STATUS: spec/13_start_and_discovery.md, offset 0x440, reset 0x0000_0000. -/
def HIF_NBR_RX_STATUS : Reg := ⟨0x10440, 0x0⟩
def HIF_NBR_RX_STATUS_COUNT : Fld := ⟨HIF_NBR_RX_STATUS, 0, 5⟩
def HIF_NBR_RX_STATUS_PORT : Fld := ⟨HIF_NBR_RX_STATUS, 5, 5⟩
def HIF_NBR_RX_STATUS_OPCODE : Fld := ⟨HIF_NBR_RX_STATUS, 10, 8⟩
def HIF_NBR_RX_STATUS_TAG : Fld := ⟨HIF_NBR_RX_STATUS, 18, 11⟩
/-- HIF_NBR_RX_DATA: spec/13_start_and_discovery.md, offset 0x444 + i × 4 for i = 0–11, reset 0x0000_0000. -/
def HIF_NBR_RX_DATA (i : Nat) : Reg := ⟨0x10444 + i * 0x4, 0x0⟩
def HIF_NBR_RX_DATA_DATA (i : Nat) : Fld := ⟨HIF_NBR_RX_DATA i, 0, 32⟩
/-- HIF_NBR_RX_POP: spec/13_start_and_discovery.md, offset 0x474, reset 0x0000_0000. -/
def HIF_NBR_RX_POP : Reg := ⟨0x10474, 0x0⟩
def HIF_NBR_RX_POP_POP : Fld := ⟨HIF_NBR_RX_POP, 0, 1⟩
/-- HIF_NBR_RX_DROP: spec/13_start_and_discovery.md, offset 0x478 and 0x47C, reset 0x0000_0000. -/
def HIF_NBR_RX_DROP : Reg := ⟨0x10478, 0x0⟩
def HIF_NBR_RX_DROP_COUNT : Fld := ⟨HIF_NBR_RX_DROP, 0, 16⟩
/-- HIF_NBR_PROBES: spec/13_start_and_discovery.md, offset 0x478 and 0x47C, reset 0x0000_0000. -/
def HIF_NBR_PROBES : Reg := ⟨0x1047c, 0x0⟩
def HIF_NBR_PROBES_COUNT : Fld := ⟨HIF_NBR_PROBES, 0, 16⟩
/-- FLT_CTRL: spec/14_faults_and_fencing.md, offset 0x000, reset 0x0000_000C. -/
def FLT_CTRL : Reg := ⟨0x40000, 0xc⟩
def FLT_CTRL_FORCE_FATAL : Fld := ⟨FLT_CTRL, 0, 1⟩
def FLT_CTRL_INT_CORRECTED : Fld := ⟨FLT_CTRL, 1, 1⟩
def FLT_CTRL_INT_CONTAINED : Fld := ⟨FLT_CTRL, 2, 1⟩
def FLT_CTRL_INT_LASTING : Fld := ⟨FLT_CTRL, 3, 1⟩
/-- FLT_STATUS: spec/14_faults_and_fencing.md, offset 0x004, reset 0x0000_0000. -/
def FLT_STATUS : Reg := ⟨0x40004, 0x0⟩
def FLT_STATUS_FATAL : Fld := ⟨FLT_STATUS, 0, 1⟩
def FLT_STATUS_SAFE : Fld := ⟨FLT_STATUS, 1, 1⟩
def FLT_STATUS_CORRECTED : Fld := ⟨FLT_STATUS, 2, 1⟩
def FLT_STATUS_CONTAINED : Fld := ⟨FLT_STATUS, 3, 1⟩
def FLT_STATUS_LASTING : Fld := ⟨FLT_STATUS, 4, 1⟩
def FLT_STATUS_FENCED : Fld := ⟨FLT_STATUS, 5, 1⟩
def FLT_STATUS_LOG_OVERRUN : Fld := ⟨FLT_STATUS, 6, 1⟩
/-- FLT_FATAL_CAUSE: spec/14_faults_and_fencing.md, offset 0x008, reset 0x0000_0000. -/
def FLT_FATAL_CAUSE : Reg := ⟨0x40008, 0x0⟩
def FLT_FATAL_CAUSE_SOURCE : Fld := ⟨FLT_FATAL_CAUSE, 0, 8⟩
def FLT_FATAL_CAUSE_INSTANCE : Fld := ⟨FLT_FATAL_CAUSE, 8, 8⟩
def FLT_FATAL_CAUSE_MORE : Fld := ⟨FLT_FATAL_CAUSE, 16, 8⟩
def FLT_FATAL_CAUSE_VALID : Fld := ⟨FLT_FATAL_CAUSE, 31, 1⟩
/-- FLT_FATAL_TIME: spec/14_faults_and_fencing.md, offset 0x010 (bits [31:0]) and 0x014 (bits [63:32]), reset 0x0000_0000_0000_0000. -/
def FLT_FATAL_TIME : Reg64 := ⟨0x40010, 0x0⟩
def FLT_FATAL_TIME_TIME : Fld64 := ⟨FLT_FATAL_TIME, 0, 64⟩
/-- FLT_FAULTN: spec/14_faults_and_fencing.md, offset 0x018, reset 0x0000_0002. -/
def FLT_FAULTN : Reg := ⟨0x40018, 0x2⟩
def FLT_FAULTN_DRIVE : Fld := ⟨FLT_FAULTN, 0, 1⟩
def FLT_FAULTN_HOLD_ON_FATAL : Fld := ⟨FLT_FAULTN, 1, 1⟩
def FLT_FAULTN_PULSE_ON_LASTING : Fld := ⟨FLT_FAULTN, 2, 1⟩
def FLT_FAULTN_PULSING : Fld := ⟨FLT_FAULTN, 3, 1⟩
def FLT_FAULTN_LOW : Fld := ⟨FLT_FAULTN, 4, 1⟩
/-- FLT_FENCE_CMD: spec/14_faults_and_fencing.md, offset 0x020, reset 0x0000_0000. -/
def FLT_FENCE_CMD : Reg := ⟨0x40020, 0x0⟩
def FLT_FENCE_CMD_KIND : Fld := ⟨FLT_FENCE_CMD, 0, 3⟩
def FLT_FENCE_CMD_INDEX : Fld := ⟨FLT_FENCE_CMD, 8, 8⟩
def FLT_FENCE_CMD_GO : Fld := ⟨FLT_FENCE_CMD, 31, 1⟩
/-- FLT_LOG_PROD: spec/14_faults_and_fencing.md, offset 0x024, reset 0x0000_0000. -/
def FLT_LOG_PROD : Reg := ⟨0x40024, 0x0⟩
def FLT_LOG_PROD_PROD : Fld := ⟨FLT_LOG_PROD, 0, 32⟩
/-- FLT_FENCE_PORT: spec/14_faults_and_fencing.md, offset 0x028, reset 0x0000_0000. -/
def FLT_FENCE_PORT : Reg := ⟨0x40028, 0x0⟩
def FLT_FENCE_PORT_PORTS : Fld := ⟨FLT_FENCE_PORT, 0, 24⟩
/-- FLT_FENCE_UNIT: spec/14_faults_and_fencing.md, offset 0x02C, reset 0x0000_0000. -/
def FLT_FENCE_UNIT : Reg := ⟨0x4002c, 0x0⟩
def FLT_FENCE_UNIT_GW : Fld := ⟨FLT_FENCE_UNIT, 0, 8⟩
def FLT_FENCE_UNIT_MEM : Fld := ⟨FLT_FENCE_UNIT, 8, 24⟩
/-- FLT_FENCE_LANE: spec/14_faults_and_fencing.md, offset 0x030 + i × 4 for i = 0–5, reset 0x0000_0000. -/
def FLT_FENCE_LANE (i : Nat) : Reg := ⟨0x40030 + i * 0x4, 0x0⟩
def FLT_FENCE_LANE_LANES (i : Nat) : Fld := ⟨FLT_FENCE_LANE i, 0, 32⟩
/-- FLT_FENCE_CORE: spec/14_faults_and_fencing.md, offset 0x050 + i × 4 for i = 0–4, reset 0x0000_0000. -/
def FLT_FENCE_CORE (i : Nat) : Reg := ⟨0x40050 + i * 0x4, 0x0⟩
def FLT_FENCE_CORE_CORES (i : Nat) : Fld := ⟨FLT_FENCE_CORE i, 0, 32⟩
/-- FLT_SRC_COUNT: spec/14_faults_and_fencing.md, offset 0x100 + s × 4 for s = 0–63, reset 0x0000_0000. -/
def FLT_SRC_COUNT (s : Nat) : Reg := ⟨0x40100 + s * 0x4, 0x0⟩
def FLT_SRC_COUNT_COUNT (s : Nat) : Fld := ⟨FLT_SRC_COUNT s, 0, 32⟩
/-- FLT_SRC_LASTING: spec/14_faults_and_fencing.md, offset 0x200 + s × 4 for s = 0–63, reset 0x0000_0000. -/
def FLT_SRC_LASTING (s : Nat) : Reg := ⟨0x40200 + s * 0x4, 0x0⟩
def FLT_SRC_LASTING_COUNT (s : Nat) : Fld := ⟨FLT_SRC_LASTING s, 0, 16⟩
/-- FLT_LOG_TIME: spec/14_faults_and_fencing.md, offset 0x400 (bits [31:0]) and 0x404 (bits [63:32]) + i × 0x10 for i = 0–63, reset 0x0000_0000_0000_0000. -/
def FLT_LOG_TIME (i : Nat) : Reg64 := ⟨0x40400 + i * 0x10, 0x0⟩
def FLT_LOG_TIME_TIME (i : Nat) : Fld64 := ⟨FLT_LOG_TIME i, 0, 64⟩
/-- FLT_LOG_INFO: spec/14_faults_and_fencing.md, offset 0x408 + i × 0x10, reset 0x0000_0000. -/
def FLT_LOG_INFO (i : Nat) : Reg := ⟨0x40408 + i * 0x10, 0x0⟩
def FLT_LOG_INFO_SOURCE (i : Nat) : Fld := ⟨FLT_LOG_INFO i, 0, 8⟩
def FLT_LOG_INFO_CLASS (i : Nat) : Fld := ⟨FLT_LOG_INFO i, 8, 2⟩
def FLT_LOG_INFO_LASTING (i : Nat) : Fld := ⟨FLT_LOG_INFO i, 10, 1⟩
def FLT_LOG_INFO_FENCED (i : Nat) : Fld := ⟨FLT_LOG_INFO i, 11, 1⟩
def FLT_LOG_INFO_INSTANCE (i : Nat) : Fld := ⟨FLT_LOG_INFO i, 16, 8⟩
/-- FLT_LOG_DETAIL: spec/14_faults_and_fencing.md, offset 0x40C + i × 0x10, reset 0x0000_0000. -/
def FLT_LOG_DETAIL (i : Nat) : Reg := ⟨0x4040c + i * 0x10, 0x0⟩
def FLT_LOG_DETAIL_DETAIL (i : Nat) : Fld := ⟨FLT_LOG_DETAIL i, 0, 32⟩
/-- OBS_CTRL: spec/15_counters_and_trace.md, offset 0x000, reset 0x0000_0008. -/
def OBS_CTRL : Reg := ⟨0x300000, 0x8⟩
def OBS_CTRL_SNAP : Fld := ⟨OBS_CTRL, 0, 1⟩
def OBS_CTRL_SNAP_ARM : Fld := ⟨OBS_CTRL, 1, 1⟩
def OBS_CTRL_SNAP_ON_JOB : Fld := ⟨OBS_CTRL, 2, 1⟩
def OBS_CTRL_RESET_ON_JOB : Fld := ⟨OBS_CTRL, 3, 1⟩
def OBS_CTRL_RESET_ALL : Fld := ⟨OBS_CTRL, 4, 1⟩
def OBS_CTRL_LATE : Fld := ⟨OBS_CTRL, 5, 1⟩
/-- OBS_SNAP_TIME: spec/15_counters_and_trace.md, offset 0x008/0x00C and 0x010/0x014, reset 0x0000_0000_0000_0000. -/
def OBS_SNAP_TIME : Reg64 := ⟨0x300008, 0x0⟩
def OBS_SNAP_TIME_TIME : Fld64 := ⟨OBS_SNAP_TIME, 0, 64⟩
/-- OBS_SNAP_TAKEN: spec/15_counters_and_trace.md, offset 0x008/0x00C and 0x010/0x014, reset 0x0000_0000_0000_0000. -/
def OBS_SNAP_TAKEN : Reg64 := ⟨0x300010, 0x0⟩
def OBS_SNAP_TAKEN_TIME : Fld64 := ⟨OBS_SNAP_TAKEN, 0, 64⟩
/-- OBS_SNAP_COUNT: spec/15_counters_and_trace.md, offset 0x018, reset 0x0000_0000. -/
def OBS_SNAP_COUNT : Reg := ⟨0x300018, 0x0⟩
def OBS_SNAP_COUNT_COUNT : Fld := ⟨OBS_SNAP_COUNT, 0, 32⟩
/-- OBS_TRACE_CTRL: spec/15_counters_and_trace.md, offset 0x020, reset 0x0000_0000. -/
def OBS_TRACE_CTRL : Reg := ⟨0x300020, 0x0⟩
def OBS_TRACE_CTRL_EN : Fld := ⟨OBS_TRACE_CTRL, 0, 1⟩
def OBS_TRACE_CTRL_ENABLE_PENDING : Fld := ⟨OBS_TRACE_CTRL, 1, 1⟩
def OBS_TRACE_CTRL_TRIGGER : Fld := ⟨OBS_TRACE_CTRL, 2, 1⟩
def OBS_TRACE_CTRL_MARK : Fld := ⟨OBS_TRACE_CTRL, 3, 1⟩
/-- OBS_TRACE_STATUS: spec/15_counters_and_trace.md, offset 0x024, reset 0x0000_0000. -/
def OBS_TRACE_STATUS : Reg := ⟨0x300024, 0x0⟩
def OBS_TRACE_STATUS_STATE : Fld := ⟨OBS_TRACE_STATUS, 0, 3⟩
def OBS_TRACE_STATUS_TRIGGERED : Fld := ⟨OBS_TRACE_STATUS, 3, 1⟩
def OBS_TRACE_STATUS_WRAPPED : Fld := ⟨OBS_TRACE_STATUS, 4, 1⟩
/-- OBS_TRACE_WPTR: spec/15_counters_and_trace.md, offset 0x028 and 0x02C, reset 0x0000_0000. -/
def OBS_TRACE_WPTR : Reg := ⟨0x300028, 0x0⟩
def OBS_TRACE_WPTR_INDEX : Fld := ⟨OBS_TRACE_WPTR, 0, 13⟩
/-- OBS_TRACE_TRIG: spec/15_counters_and_trace.md, offset 0x028 and 0x02C, reset 0x0000_0000. -/
def OBS_TRACE_TRIG : Reg := ⟨0x30002c, 0x0⟩
def OBS_TRACE_TRIG_INDEX : Fld := ⟨OBS_TRACE_TRIG, 0, 13⟩
/-- OBS_TRACE_SPILLED: spec/15_counters_and_trace.md, offset 0x030 (bits [31:0]) and 0x034 (bits [63:32]), reset 0x0000_0000_0000_0000. -/
def OBS_TRACE_SPILLED : Reg64 := ⟨0x300030, 0x0⟩
def OBS_TRACE_SPILLED_COUNT : Fld64 := ⟨OBS_TRACE_SPILLED, 0, 48⟩
/-- OBS_TRACE_LOST: spec/15_counters_and_trace.md, offset 0x038 and 0x03C, reset 0x0000_0000. -/
def OBS_TRACE_LOST : Reg := ⟨0x300038, 0x0⟩
def OBS_TRACE_LOST_COUNT : Fld := ⟨OBS_TRACE_LOST, 0, 32⟩
/-- OBS_TRACE_SPILL_ERR: spec/15_counters_and_trace.md, offset 0x038 and 0x03C, reset 0x0000_0000. -/
def OBS_TRACE_SPILL_ERR : Reg := ⟨0x30003c, 0x0⟩
def OBS_TRACE_SPILL_ERR_COUNT : Fld := ⟨OBS_TRACE_SPILL_ERR, 0, 32⟩
/-- OBS_TRACE_MARK: spec/15_counters_and_trace.md, offset 0x040 (bits [31:0]) and 0x044 (bits [63:32]), reset 0x0000_0000_0000_0000. -/
def OBS_TRACE_MARK : Reg64 := ⟨0x300040, 0x0⟩
def OBS_TRACE_MARK_DATA : Fld64 := ⟨OBS_TRACE_MARK, 0, 64⟩
/-- OBS_CORE_SNAPINFO: spec/15_counters_and_trace.md, offset 0x10C0 + L × 0x100, reset 0x0000_0000. -/
def OBS_CORE_SNAPINFO (L : Nat) : Reg := ⟨0x3010c0 + L * 0x100, 0x0⟩
def OBS_CORE_SNAPINFO_PRE_RESET (L : Nat) : Fld := ⟨OBS_CORE_SNAPINFO L, 0, 1⟩
def OBS_CORE_SNAPINFO_CAUSE (L : Nat) : Fld := ⟨OBS_CORE_SNAPINFO L, 1, 2⟩
/-- OBS_CORE_SNAPTAG: spec/15_counters_and_trace.md, offset 0x10C4 + L × 0x100, reset 0x0000_0000. -/
def OBS_CORE_SNAPTAG (L : Nat) : Reg := ⟨0x3010c4 + L * 0x100, 0x0⟩
def OBS_CORE_SNAPTAG_JOB_ID (L : Nat) : Fld := ⟨OBS_CORE_SNAPTAG L, 0, 32⟩
/-- OBS_TRACE_WIN: spec/15_counters_and_trace.md, offset 0x10000 + i × 4 for i = 0–65,535, reset 0x0000_0000. -/
def OBS_TRACE_WIN (i : Nat) : Reg := ⟨0x310000 + i * 0x4, 0x0⟩
def OBS_TRACE_WIN_DATA (i : Nat) : Fld := ⟨OBS_TRACE_WIN i, 0, 32⟩
/-- HIF_BAR2_BASE: spec/16_host_interface_and_security.md, offset 0x008 (bits [31:0]) and 0x00C (bits [63:32]), reset 0x0000_0000_0000_0000. -/
def HIF_BAR2_BASE : Reg64 := ⟨0x10008, 0x0⟩
def HIF_BAR2_BASE_BASE : Fld64 := ⟨HIF_BAR2_BASE, 30, 8⟩
/-- HIF_SQ_BASE: spec/16_host_interface_and_security.md, offset 0x1000/0x1004 and 0x1018/0x101C + r × 0x40, reset 0x0000_0000_0000_0000. -/
def HIF_SQ_BASE (r : Nat) : Reg64 := ⟨0x11000 + r * 0x40, 0x0⟩
def HIF_SQ_BASE_ADDR (r : Nat) : Fld64 := ⟨HIF_SQ_BASE r, 12, 52⟩
/-- HIF_CQ_BASE: spec/16_host_interface_and_security.md, offset 0x1000/0x1004 and 0x1018/0x101C + r × 0x40, reset 0x0000_0000_0000_0000. -/
def HIF_CQ_BASE (r : Nat) : Reg64 := ⟨0x11018 + r * 0x40, 0x0⟩
def HIF_CQ_BASE_ADDR (r : Nat) : Fld64 := ⟨HIF_CQ_BASE r, 12, 52⟩
/-- HIF_SQ_CFG: spec/16_host_interface_and_security.md, offset 0x1008 + r × 0x40, reset 0x0000_0004. -/
def HIF_SQ_CFG (r : Nat) : Reg := ⟨0x11008 + r * 0x40, 0x4⟩
def HIF_SQ_CFG_LOG2_ENTRIES (r : Nat) : Fld := ⟨HIF_SQ_CFG r, 0, 5⟩
def HIF_SQ_CFG_EN (r : Nat) : Fld := ⟨HIF_SQ_CFG r, 8, 1⟩
def HIF_SQ_CFG_ENABLE_PENDING (r : Nat) : Fld := ⟨HIF_SQ_CFG r, 9, 1⟩
/-- HIF_SQ_TAIL: spec/16_host_interface_and_security.md, offset 0x100C, 0x1010, 0x1020, 0x1024 + r × 0x40, reset 0x0000_0000. -/
def HIF_SQ_TAIL (r : Nat) : Reg := ⟨0x1100c + r * 0x40, 0x0⟩
def HIF_SQ_TAIL_INDEX (r : Nat) : Fld := ⟨HIF_SQ_TAIL r, 0, 16⟩
/-- HIF_SQ_HEAD: spec/16_host_interface_and_security.md, offset 0x100C, 0x1010, 0x1020, 0x1024 + r × 0x40, reset 0x0000_0000. -/
def HIF_SQ_HEAD (r : Nat) : Reg := ⟨0x11010 + r * 0x40, 0x0⟩
def HIF_SQ_HEAD_INDEX (r : Nat) : Fld := ⟨HIF_SQ_HEAD r, 0, 16⟩
/-- HIF_CQ_HEAD: spec/16_host_interface_and_security.md, offset 0x100C, 0x1010, 0x1020, 0x1024 + r × 0x40, reset 0x0000_0000. -/
def HIF_CQ_HEAD (r : Nat) : Reg := ⟨0x11020 + r * 0x40, 0x0⟩
def HIF_CQ_HEAD_INDEX (r : Nat) : Fld := ⟨HIF_CQ_HEAD r, 0, 16⟩
/-- HIF_CQ_TAIL: spec/16_host_interface_and_security.md, offset 0x100C, 0x1010, 0x1020, 0x1024 + r × 0x40, reset 0x0000_0000. -/
def HIF_CQ_TAIL (r : Nat) : Reg := ⟨0x11024 + r * 0x40, 0x0⟩
def HIF_CQ_TAIL_INDEX (r : Nat) : Fld := ⟨HIF_CQ_TAIL r, 0, 16⟩
/-- HIF_CQ_INT: spec/16_host_interface_and_security.md, offset 0x1028 + r × 0x40, reset 0x0000_0000. -/
def HIF_CQ_INT (r : Nat) : Reg := ⟨0x11028 + r * 0x40, 0x0⟩
def HIF_CQ_INT_COALESCE (r : Nat) : Fld := ⟨HIF_CQ_INT r, 0, 8⟩
def HIF_CQ_INT_TIMER (r : Nat) : Fld := ⟨HIF_CQ_INT r, 8, 16⟩
/-- HIF_RING_STATUS: spec/16_host_interface_and_security.md, offset 0x102C + r × 0x40, reset 0x0000_0000. -/
def HIF_RING_STATUS (r : Nat) : Reg := ⟨0x1102c + r * 0x40, 0x0⟩
def HIF_RING_STATUS_CQ_FULL (r : Nat) : Fld := ⟨HIF_RING_STATUS r, 0, 1⟩
def HIF_RING_STATUS_ERROR (r : Nat) : Fld := ⟨HIF_RING_STATUS r, 8, 8⟩
/-- HIF_MBOX_CMD: spec/16_host_interface_and_security.md, offset 0x200, reset 0x0000_0000. -/
def HIF_MBOX_CMD : Reg := ⟨0x10200, 0x0⟩
def HIF_MBOX_CMD_CMD : Fld := ⟨HIF_MBOX_CMD, 0, 4⟩
/-- HIF_MBOX_ADDR: spec/16_host_interface_and_security.md, offset 0x208 (bits [31:0]) and 0x20C (bits [63:32]), reset 0x0000_0000_0000_0000. -/
def HIF_MBOX_ADDR : Reg64 := ⟨0x10208, 0x0⟩
def HIF_MBOX_ADDR_ADDR : Fld64 := ⟨HIF_MBOX_ADDR, 12, 52⟩
/-- HIF_MBOX_LEN: spec/16_host_interface_and_security.md, offset 0x210, reset 0x0000_0000. -/
def HIF_MBOX_LEN : Reg := ⟨0x10210, 0x0⟩
def HIF_MBOX_LEN_LEN : Fld := ⟨HIF_MBOX_LEN, 0, 23⟩
/-- HIF_MBOX_STATUS: spec/16_host_interface_and_security.md, offset 0x214, reset 0x0000_0000. -/
def HIF_MBOX_STATUS : Reg := ⟨0x10214, 0x0⟩
def HIF_MBOX_STATUS_BUSY : Fld := ⟨HIF_MBOX_STATUS, 0, 1⟩
def HIF_MBOX_STATUS_CODE : Fld := ⟨HIF_MBOX_STATUS, 8, 8⟩
def HIF_MBOX_STATUS_CMD : Fld := ⟨HIF_MBOX_STATUS, 16, 4⟩
/-- HIF_AERR_PROD: spec/16_host_interface_and_security.md, offset 0x300, reset 0x0000_0000. -/
def HIF_AERR_PROD : Reg := ⟨0x10300, 0x0⟩
def HIF_AERR_PROD_PROD : Fld := ⟨HIF_AERR_PROD, 0, 32⟩
/-- HIF_AERR_ADDR: spec/16_host_interface_and_security.md, offset 0x500 (bits [31:0]) and 0x504 (bits [63:32]) + i × 0x10 for i = 0–15, reset 0x0000_0000_0000_0000. -/
def HIF_AERR_ADDR (i : Nat) : Reg64 := ⟨0x10500 + i * 0x10, 0x0⟩
def HIF_AERR_ADDR_OFFSET (i : Nat) : Fld64 := ⟨HIF_AERR_ADDR i, 0, 38⟩
/-- HIF_AERR_INFO: spec/16_host_interface_and_security.md, offset 0x508 + i × 0x10, reset 0x0000_0000. -/
def HIF_AERR_INFO (i : Nat) : Reg := ⟨0x10508 + i * 0x10, 0x0⟩
def HIF_AERR_INFO_SPACE (i : Nat) : Fld := ⟨HIF_AERR_INFO i, 0, 2⟩
def HIF_AERR_INFO_WRITE (i : Nat) : Fld := ⟨HIF_AERR_INFO i, 2, 1⟩
def HIF_AERR_INFO_KIND (i : Nat) : Fld := ⟨HIF_AERR_INFO i, 4, 4⟩
/-- HIF_AERR_TIME: spec/16_host_interface_and_security.md, offset 0x50C + i × 0x10, reset 0x0000_0000. -/
def HIF_AERR_TIME (i : Nat) : Reg := ⟨0x1050c + i * 0x10, 0x0⟩
def HIF_AERR_TIME_TIME (i : Nat) : Fld := ⟨HIF_AERR_TIME i, 0, 32⟩
/-- SEC_CTRL: spec/16_host_interface_and_security.md, offset 0x000, reset 0x0000_0000. -/
def SEC_CTRL : Reg := ⟨0x20000, 0x0⟩
def SEC_CTRL_LOCK : Fld := ⟨SEC_CTRL, 0, 1⟩
/-- SEC_STATUS: spec/16_host_interface_and_security.md, offset 0x004, reset 0x0000_0000. -/
def SEC_STATUS : Reg := ⟨0x20004, 0x0⟩
def SEC_STATUS_DEBUG_UNLOCKED : Fld := ⟨SEC_STATUS, 0, 1⟩
def SEC_STATUS_PERMS : Fld := ⟨SEC_STATUS, 1, 2⟩
/-- SEC_SIGNER_VALID: spec/16_host_interface_and_security.md, offset 0x008, reset 0x0000_0000. -/
def SEC_SIGNER_VALID : Reg := ⟨0x20008, 0x0⟩
def SEC_SIGNER_VALID_VALID : Fld := ⟨SEC_SIGNER_VALID, 0, 8⟩
/-- SEC_PUF_STATUS: spec/16_host_interface_and_security.md, offset 0x00C, reset 0x0000_0000. -/
def SEC_PUF_STATUS : Reg := ⟨0x2000c, 0x0⟩
def SEC_PUF_STATUS_CORRECTED : Fld := ⟨SEC_PUF_STATUS, 0, 12⟩
def SEC_PUF_STATUS_MARGIN_LOW : Fld := ⟨SEC_PUF_STATUS, 12, 1⟩
def SEC_PUF_STATUS_REFRESHED : Fld := ⟨SEC_PUF_STATUS, 13, 1⟩
/-- SEC_ROOT_HASH: spec/16_host_interface_and_security.md, offset 0x040 + i × 4 and 0x060 + i × 4 for i = 0–7, reset 0x0000_0000. -/
def SEC_ROOT_HASH (i : Nat) : Reg := ⟨0x20040 + i * 0x4, 0x0⟩
def SEC_ROOT_HASH_HASH (i : Nat) : Fld := ⟨SEC_ROOT_HASH i, 0, 32⟩
/-- SEC_FW_HASH: spec/16_host_interface_and_security.md, offset 0x040 + i × 4 and 0x060 + i × 4 for i = 0–7, reset 0x0000_0000. -/
def SEC_FW_HASH (i : Nat) : Reg := ⟨0x20060 + i * 0x4, 0x0⟩
def SEC_FW_HASH_HASH (i : Nat) : Fld := ⟨SEC_FW_HASH i, 0, 32⟩
/-- SEC_SIGNER: spec/16_host_interface_and_security.md, offset 0x100 + k × 0x20 + i × 4 for k = 0–7 and i = 0–7, reset 0x0000_0000. -/
def SEC_SIGNER (k i : Nat) : Reg := ⟨0x20100 + k * 0x20 + i * 0x4, 0x0⟩
def SEC_SIGNER_HASH (k i : Nat) : Fld := ⟨SEC_SIGNER k i, 0, 32⟩
/-- PWR_LIMIT: spec/17_module.md, offset 0x100, reset 0x0000_0352. -/
def PWR_LIMIT : Reg := ⟨0x100, 0x352⟩
def PWR_LIMIT_WATTS : Fld := ⟨PWR_LIMIT, 0, 11⟩
/-- PWR_THROTTLE: spec/17_module.md, offset 0x104, reset 0x0000_0000. -/
def PWR_THROTTLE : Reg := ⟨0x104, 0x0⟩
def PWR_THROTTLE_K : Fld := ⟨PWR_THROTTLE, 0, 4⟩
def PWR_THROTTLE_POWER : Fld := ⟨PWR_THROTTLE, 4, 1⟩
def PWR_THROTTLE_FAST : Fld := ⟨PWR_THROTTLE, 5, 1⟩
def PWR_THROTTLE_DIE : Fld := ⟨PWR_THROTTLE, 6, 1⟩
def PWR_THROTTLE_MEM : Fld := ⟨PWR_THROTTLE, 7, 1⟩
/-- PWR_THROTTLE_EVENTS: spec/17_module.md, offset 0x108, reset 0x0000_0000. -/
def PWR_THROTTLE_EVENTS : Reg := ⟨0x108, 0x0⟩
def PWR_THROTTLE_EVENTS_COUNT : Fld := ⟨PWR_THROTTLE_EVENTS, 0, 32⟩
/-- PWR_INPUT: spec/17_module.md, offset 0x10C, reset 0x0000_0000. -/
def PWR_INPUT : Reg := ⟨0x10c, 0x0⟩
def PWR_INPUT_MV : Fld := ⟨PWR_INPUT, 0, 16⟩
def PWR_INPUT_CURRENT : Fld := ⟨PWR_INPUT, 16, 16⟩
/-- PWR_THERM_LIMITS: spec/17_module.md, offset 0x110, reset 0x0000_0000; loaded from the module data at boot. -/
def PWR_THERM_LIMITS : Reg := ⟨0x110, 0x0⟩
def PWR_THERM_LIMITS_DIE_THROTTLE : Fld := ⟨PWR_THERM_LIMITS, 0, 8⟩
def PWR_THERM_LIMITS_DIE_TRIP : Fld := ⟨PWR_THERM_LIMITS, 8, 8⟩
def PWR_THERM_LIMITS_MEM_THROTTLE : Fld := ⟨PWR_THERM_LIMITS, 16, 8⟩
def PWR_THERM_LIMITS_MEM_TRIP : Fld := ⟨PWR_THERM_LIMITS, 24, 8⟩
/-- PWR_TEMP: spec/17_module.md, offset 0x114 + s × 4 for s = 0–39, reset 0x0000_0000. -/
def PWR_TEMP (s : Nat) : Reg := ⟨0x114 + s * 0x4, 0x0⟩
def PWR_TEMP_TEMP (s : Nat) : Fld := ⟨PWR_TEMP s, 0, 16⟩

end Sys2Proof.Machine
end

