-- ==== Sys2Proof/Machine/RegTable.lean ====
section
/-! DEFINITION. The register table REGISTER_WRITE looks a BAR0 offset up in: per register the offset, the strides of the
array it belongs to, and the bits of each access code of R9. Written from the spec's register tables. -/

namespace Sys2Proof.Machine

/-- Whether a register stands alone or is a half of a 64-bit pair (R8). -/
inductive Half where
  | single | low | high
deriving DecidableEq, Repr

/-- How the reset value is given. -/
inductive ResetKind where
  | word (v : Nat)
  | coreMap
  | corePhys
deriving DecidableEq, Repr

/-- A row: first offset, (stride, count) of each index, reset, pair half, and the masks of the RW, W1C, WO, RWB and RWP bits. -/
structure RegRow where
  base : Nat
  dims : List (Nat × Nat)
  reset : ResetKind
  half : Half
  rw : Nat
  w1c : Nat
  wo : Nat
  rwb : Nat
  rwp : Nat
deriving DecidableEq, Repr

/-- The indices at which a displacement from the first offset lies, if it lies on an element of the array. -/
def RegRow.indices : List (Nat × Nat) → Nat → Option (List Nat)
  | [], d => if d = 0 then some [] else none
  | (stride, count) :: ds, d =>
    if d / stride < count then (RegRow.indices ds (d % stride)).map (d / stride :: ·) else none

/-- The reset value of the element with these indices. -/
def RegRow.resetAt (r : RegRow) (ix : List Nat) : Nat :=
  match r.reset with
  | .word v => v
  | .coreMap => coreMapReset (ix.headD 0)
  | .corePhys => corePhysReset (ix.headD 0)

/-- Looks an offset up in a list of rows: the row and the indices of the element. -/
def RegRow.find : List RegRow → Nat → Option (RegRow × List Nat)
  | [], _ => none
  | r :: rs, off =>
    if off < r.base then RegRow.find rs off
    else match RegRow.indices r.dims (off - r.base) with
      | some ix => some (r, ix)
      | none => RegRow.find rs off


/-- Rows of block PAT. -/
def rowsPAT0 : List RegRow := [
  ⟨0x30000, [], .word 0x0, .single, 0x0, 0x0, 0xf, 0x0, 0x0⟩,
  ⟨0x30004, [], .word 0x0, .single, 0x0, 0x70, 0x0, 0x0, 0x0⟩,
  ⟨0x30008, [], .word 0x0, .low, 0xfffff000, 0x0, 0x0, 0x0, 0x0⟩,
  ⟨0x3000c, [], .word 0x0, .high, 0xffffffff, 0x0, 0x0, 0x0, 0x0⟩,
  ⟨0x30010, [], .word 0x0, .single, 0x7fffff, 0x0, 0x0, 0x0, 0x0⟩,
  ⟨0x30014, [], .word 0x0, .single, 0x0, 0x0, 0x0, 0x0, 0x0⟩,
  ⟨0x30018, [], .word 0x0, .single, 0x0, 0x0, 0x0, 0x0, 0x0⟩,
  ⟨0x30020, [], .word 0x0, .low, 0xffffffff, 0x0, 0x0, 0x0, 0x0⟩,
  ⟨0x30024, [], .word 0x0, .high, 0xffffffff, 0x0, 0x0, 0x0, 0x0⟩,
  ⟨0x30028, [], .word 0x0, .single, 0xffff0001, 0x0, 0x0, 0x0, 0x0⟩,
  ⟨0x3002c, [], .word 0x80e8, .single, 0xffffff, 0x0, 0x0, 0x0, 0x0⟩,
  ⟨0x30030, [], .word 0x0, .low, 0x0, 0x0, 0x0, 0x0, 0x0⟩,
  ⟨0x30034, [], .word 0x0, .high, 0x0, 0x0, 0x0, 0x0, 0x0⟩,
  ⟨0x30038, [], .word 0x0, .single, 0x0, 0x0, 0x0, 0x0, 0x0⟩,
  ⟨0x30040, [], .word 0x0, .single, 0x0, 0x0, 0x0, 0x0, 0x0⟩,
  ⟨0x30044, [], .word 0x0, .single, 0x0, 0x0, 0x0, 0x0, 0x0⟩,
  ⟨0x30048, [], .word 0x0, .single, 0xffff, 0x0, 0x0, 0x0, 0x0⟩]

/-- Rows of block CORE. -/
def rowsCORE0 : List RegRow := [
  ⟨0x100000, [], .word 0x0, .single, 0x0, 0x0, 0x0, 0x0, 0x0⟩,
  ⟨0x100004, [], .word 0x0, .single, 0x0, 0x0, 0x0, 0x0, 0x0⟩,
  ⟨0x100008, [], .word 0x0, .single, 0x0, 0x0, 0x0, 0x0, 0x0⟩,
  ⟨0x101000, [(0x100, 144)], .word 0x0, .single, 0x1, 0x0, 0x2, 0x0, 0x0⟩,
  ⟨0x101004, [(0x100, 144)], .word 0x0, .single, 0x0, 0x0, 0x0, 0x0, 0x0⟩,
  ⟨0x101008, [(0x100, 144)], .coreMap, .single, 0x0, 0x0, 0x0, 0x0, 0x0⟩,
  ⟨0x10100c, [(0x100, 144)], .word 0x0, .single, 0x0, 0x1f, 0x0, 0x0, 0x0⟩,
  ⟨0x101010, [(0x100, 144)], .word 0x0, .single, 0x0, 0x0, 0x0, 0x0, 0x0⟩,
  ⟨0x101020, [(0x100, 144), (0x4, 4)], .word 0x4000000, .single, 0x0, 0x0, 0x0, 0x0, 0xf1ffff0⟩,
  ⟨0x101030, [(0x100, 144), (0x4, 4)], .word 0x0, .single, 0x0, 0x0, 0x0, 0x0, 0x0⟩,
  ⟨0x10c000, [(0x4, 160)], .corePhys, .single, 0x0, 0x0, 0x0, 0x0, 0x0⟩,
  ⟨0x100100, [(0x4, 32)], .word 0x0, .single, 0x0, 0x0, 0x0, 0x0, 0x0⟩,
  ⟨0x100180, [(0x4, 32)], .word 0x0, .single, 0x0, 0x0, 0x0, 0x0, 0x0⟩,
  ⟨0x100200, [], .word 0x0, .single, 0xffffffff, 0x0, 0x0, 0x0, 0x0⟩,
  ⟨0x100204, [], .word 0x0, .single, 0xffffffff, 0x0, 0x0, 0x0, 0x0⟩,
  ⟨0x101014, [(0x100, 144)], .word 0x0, .single, 0xffffffff, 0x0, 0x0, 0x0, 0x0⟩]

/-- Rows of block SEQ. -/
def rowsSEQ0 : List RegRow := [
  ⟨0x111000, [(0x100, 144)], .word 0x0, .single, 0x0, 0x0, 0x0, 0x0, 0x1ffff8⟩,
  ⟨0x111004, [(0x100, 144)], .word 0x0, .single, 0x0, 0x0, 0x0, 0x0, 0x0⟩,
  ⟨0x111008, [(0x100, 144)], .word 0x0, .single, 0x0, 0x0, 0x0, 0x0, 0x0⟩,
  ⟨0x11100c, [(0x100, 144)], .word 0x0, .single, 0x0, 0x0, 0x0, 0x0, 0x0⟩]

/-- Rows of block MEM. -/
def rowsMEM0 : List RegRow := [
  ⟨0x180000, [], .word 0x0, .single, 0x1, 0x0, 0x0, 0x0, 0x0⟩,
  ⟨0x180004, [], .word 0x0, .single, 0x0, 0x0, 0x0, 0x0, 0x0⟩,
  ⟨0x180008, [], .word 0xffffff, .single, 0x0, 0x0, 0x80000000, 0x0, 0x3ffffff⟩,
  ⟨0x18000c, [], .word 0x18, .single, 0x0, 0x0, 0x0, 0x0, 0x1f⟩,
  ⟨0x180010, [], .word 0x2710, .single, 0xffffff, 0x0, 0x0, 0x0, 0x0⟩,
  ⟨0x180014, [], .word 0x2000, .single, 0x1ffff, 0x0, 0x0, 0x0, 0x0⟩,
  ⟨0x180018, [], .word 0x4, .low, 0x0, 0x0, 0x0, 0x0, 0xffffffcf⟩,
  ⟨0x18001c, [], .word 0x0, .high, 0x0, 0x0, 0x0, 0x0, 0xffff⟩,
  ⟨0x180020, [], .word 0x0, .single, 0x0, 0x0, 0x0, 0x0, 0x0⟩,
  ⟨0x180024, [], .word 0x0, .single, 0x0, 0x0, 0x0, 0x0, 0x0⟩,
  ⟨0x180028, [], .word 0x0, .single, 0xffffffff, 0x0, 0x0, 0x0, 0x0⟩,
  ⟨0x18002c, [], .word 0x0, .single, 0xffffffff, 0x0, 0x0, 0x0, 0x0⟩,
  ⟨0x180030, [], .word 0x0, .single, 0xffffffff, 0x0, 0x0, 0x0, 0x0⟩,
  ⟨0x180100, [(0x10, 24)], .word 0x0, .single, 0x0, 0x0, 0x0, 0x0, 0x0⟩,
  ⟨0x180104, [(0x10, 24)], .word 0x0, .single, 0xffffffff, 0x0, 0x0, 0x0, 0x0⟩,
  ⟨0x180108, [(0x10, 24)], .word 0x0, .single, 0xffffffff, 0x0, 0x0, 0x0, 0x0⟩,
  ⟨0x180400, [(0x4, 64)], .word 0x0, .single, 0x803fffff, 0x0, 0x0, 0x0, 0x0⟩,
  ⟨0x180040, [], .word 0x0, .single, 0xffff, 0x0, 0x0, 0x0, 0x0⟩,
  ⟨0x180044, [], .word 0xa, .single, 0xffff, 0x0, 0x0, 0x0, 0x0⟩,
  ⟨0x180048, [], .word 0x0, .single, 0xffffffff, 0x0, 0x0, 0x0, 0x0⟩]

/-- Rows of block MEM. -/
def rowsMEM1 : List RegRow := [
  ⟨0x18004c, [], .word 0x0, .single, 0xffffffff, 0x0, 0x0, 0x0, 0x0⟩,
  ⟨0x180050, [], .word 0x0, .single, 0xffffffff, 0x0, 0x0, 0x0, 0x0⟩,
  ⟨0x180054, [], .word 0x0, .single, 0x0, 0x80000000, 0x0, 0x0, 0x0⟩,
  ⟨0x180800, [(0x40, 64)], .word 0x7f7f00, .single, 0x0, 0x0, 0x0, 0x0, 0xffff7fff⟩,
  ⟨0x180804, [(0x40, 64)], .word 0x0, .single, 0x0, 0x0, 0x0, 0x0, 0xffffffff⟩,
  ⟨0x180808, [(0x40, 64)], .word 0x0, .low, 0x0, 0x0, 0x0, 0x0, 0xffff0000⟩,
  ⟨0x18080c, [(0x40, 64)], .word 0x0, .high, 0x0, 0x0, 0x0, 0x0, 0xffff⟩,
  ⟨0x180810, [(0x40, 64)], .word 0x0, .single, 0x0, 0x0, 0x0, 0x0, 0xffffffff⟩,
  ⟨0x180814, [(0x40, 64)], .word 0x0, .single, 0x0, 0x0, 0x0, 0x0, 0xffffffff⟩,
  ⟨0x180818, [(0x40, 64)], .word 0x0, .single, 0x0, 0x0, 0x40, 0x0, 0x0⟩,
  ⟨0x18081c, [(0x40, 64)], .word 0x0, .single, 0x0, 0x0, 0x0, 0x0, 0x0⟩,
  ⟨0x180820, [(0x40, 64)], .word 0x0, .low, 0x0, 0x0, 0x0, 0x0, 0x0⟩,
  ⟨0x180824, [(0x40, 64)], .word 0x0, .high, 0x0, 0x0, 0x0, 0x0, 0x0⟩,
  ⟨0x180828, [(0x40, 64)], .word 0x0, .low, 0x0, 0x0, 0x0, 0x0, 0x0⟩,
  ⟨0x18082c, [(0x40, 64)], .word 0x0, .high, 0x0, 0x0, 0x0, 0x0, 0x0⟩,
  ⟨0x180830, [(0x40, 64)], .word 0x0, .single, 0x0, 0x0, 0x0, 0x0, 0x0⟩,
  ⟨0x181800, [(0x20, 64)], .word 0x0, .low, 0x0, 0x0, 0x0, 0x0, 0xfffff800⟩,
  ⟨0x181804, [(0x20, 64)], .word 0x0, .high, 0x0, 0x0, 0x0, 0x0, 0xffff⟩,
  ⟨0x181810, [(0x20, 64)], .word 0x0, .low, 0x0, 0x0, 0x0, 0x0, 0xfffff800⟩,
  ⟨0x181814, [(0x20, 64)], .word 0x0, .high, 0x0, 0x0, 0x0, 0x0, 0xffff⟩]

/-- Rows of block MEM. -/
def rowsMEM2 : List RegRow := [
  ⟨0x181808, [(0x20, 64)], .word 0x0, .single, 0x1, 0x0, 0x0, 0x0, 0xffff0000⟩,
  ⟨0x18180c, [(0x20, 64)], .word 0x0, .single, 0x0, 0x0, 0x0, 0x0, 0xffffff⟩,
  ⟨0x181818, [(0x20, 64)], .word 0x0, .single, 0x0, 0x0, 0x0, 0x0, 0x1fffff⟩]

/-- Rows of block LNK. -/
def rowsLNK0 : List RegRow := [
  ⟨0x280000, [(0x100, 24)], .word 0x0, .single, 0x9d, 0x0, 0x100, 0x0, 0x60⟩,
  ⟨0x280004, [(0x100, 24)], .word 0x0, .single, 0x0, 0x1800, 0x0, 0x0, 0x0⟩,
  ⟨0x280008, [(0x100, 24)], .word 0x84d58, .single, 0xfffff, 0x0, 0x0, 0x0, 0x0⟩,
  ⟨0x28000c, [(0x100, 24)], .word 0xf, .single, 0xff, 0x0, 0x0, 0x0, 0x0⟩,
  ⟨0x280010, [(0x100, 24)], .word 0x0, .single, 0xffffffff, 0x0, 0x0, 0x0, 0x0⟩,
  ⟨0x280014, [(0x100, 24)], .word 0x0, .single, 0xffffffff, 0x0, 0x0, 0x0, 0x0⟩,
  ⟨0x280018, [(0x100, 24)], .word 0x0, .single, 0xffffffff, 0x0, 0x0, 0x0, 0x0⟩,
  ⟨0x28001c, [(0x100, 24)], .word 0x0, .single, 0xffffffff, 0x0, 0x0, 0x0, 0x0⟩,
  ⟨0x280020, [(0x100, 24)], .word 0x0, .single, 0xffffffff, 0x0, 0x0, 0x0, 0x0⟩,
  ⟨0x280028, [(0x100, 24)], .word 0x0, .low, 0x0, 0x0, 0x0, 0x0, 0x0⟩,
  ⟨0x28002c, [(0x100, 24)], .word 0x0, .high, 0x0, 0x0, 0x0, 0x0, 0x0⟩,
  ⟨0x280030, [(0x100, 24)], .word 0x1fffff, .single, 0x0, 0x0, 0x0, 0x0, 0x0⟩,
  ⟨0x280034, [(0x100, 24)], .word 0x0, .single, 0x0, 0x0, 0x0, 0x0, 0x0⟩,
  ⟨0x280038, [(0x100, 24)], .word 0x0, .low, 0x0, 0x0, 0x0, 0x0, 0x0⟩,
  ⟨0x28003c, [(0x100, 24)], .word 0x0, .high, 0x0, 0x0, 0x0, 0x0, 0x0⟩,
  ⟨0x280040, [(0x100, 24)], .word 0x0, .single, 0x0, 0x2, 0x1, 0x0, 0x0⟩,
  ⟨0x280048, [(0x100, 24), (0x8, 4)], .word 0x0, .low, 0x0, 0x0, 0x0, 0x0, 0x0⟩,
  ⟨0x28004c, [(0x100, 24), (0x8, 4)], .word 0x0, .high, 0x0, 0x0, 0x0, 0x0, 0x0⟩,
  ⟨0x280068, [(0x100, 24)], .word 0x64, .single, 0xffff, 0x0, 0x0, 0x0, 0x0⟩,
  ⟨0x28006c, [(0x100, 24)], .word 0x0, .single, 0xffff, 0x0, 0x0, 0x0, 0x0⟩]

/-- Rows of block LNK. -/
def rowsLNK1 : List RegRow := [
  ⟨0x280080, [(0x100, 24), (0x4, 32)], .word 0x0, .single, 0x0, 0x0, 0x0, 0x0, 0x0⟩]

/-- Rows of block LANE. -/
def rowsLANE0 : List RegRow := [
  ⟨0x290000, [(0x40, 192)], .word 0x0, .single, 0x0, 0x0, 0x0, 0x0, 0x7⟩,
  ⟨0x290004, [(0x40, 192)], .word 0x0, .single, 0x0, 0x0, 0x0, 0x0, 0x0⟩,
  ⟨0x290008, [(0x40, 192)], .word 0x0, .single, 0x0, 0x0, 0x0, 0x0, 0x0⟩,
  ⟨0x29000c, [(0x40, 192)], .word 0x0, .single, 0xffffffff, 0x0, 0x0, 0x0, 0x0⟩,
  ⟨0x290010, [(0x40, 192)], .word 0x0, .single, 0xffffffff, 0x0, 0x0, 0x0, 0x0⟩]

/-- Rows of block RTE. -/
def rowsRTE0 : List RegRow := [
  ⟨0x230000, [], .word 0x1ff, .single, 0x1ff, 0x0, 0x0, 0x0, 0x0⟩,
  ⟨0x230004, [], .word 0x0, .single, 0xffffffff, 0x0, 0x0, 0x0, 0x0⟩,
  ⟨0x230008, [], .word 0x64, .single, 0xffff, 0x0, 0x0, 0x0, 0x0⟩,
  ⟨0x23000c, [], .word 0x0, .single, 0xffffff, 0x0, 0x0, 0x0, 0x0⟩,
  ⟨0x230010, [], .word 0x0, .single, 0xffffff, 0x0, 0x0, 0x0, 0x0⟩,
  ⟨0x230014, [], .word 0x0, .single, 0x0, 0x0, 0x0, 0x0, 0x0⟩,
  ⟨0x230018, [], .word 0x0, .low, 0x0, 0x0, 0x0, 0x0, 0x0⟩,
  ⟨0x23001c, [], .word 0x0, .high, 0x0, 0x0, 0x0, 0x0, 0x0⟩,
  ⟨0x230024, [(0x4, 7)], .word 0x0, .single, 0xffffffff, 0x0, 0x0, 0x0, 0x0⟩,
  ⟨0x230040, [], .word 0x0, .single, 0xffffffff, 0x0, 0x0, 0x0, 0x0⟩,
  ⟨0x230044, [], .word 0x0, .single, 0xffffffff, 0x0, 0x0, 0x0, 0x0⟩,
  ⟨0x230048, [], .word 0x0, .single, 0xffffffff, 0x0, 0x0, 0x0, 0x0⟩,
  ⟨0x230100, [(0x4, 35)], .word 0x0, .single, 0x0, 0x0, 0x0, 0x0, 0x0⟩]

/-- Rows of block SWC. -/
def rowsSWC0 : List RegRow := [
  ⟨0x200000, [], .word 0x0, .single, 0x1, 0x0, 0x0, 0x0, 0x0⟩,
  ⟨0x200004, [], .word 0x7d0, .single, 0x7fff, 0x0, 0x0, 0x0, 0x0⟩,
  ⟨0x200008, [], .word 0x2000400, .single, 0xffffffff, 0x0, 0x0, 0x0, 0x0⟩,
  ⟨0x20000c, [], .word 0x2, .single, 0xffff, 0x0, 0x0, 0x0, 0x0⟩,
  ⟨0x200010, [], .word 0xfa00834, .single, 0xffffffff, 0x0, 0x0, 0x0, 0x0⟩,
  ⟨0x200014, [], .word 0x4000, .single, 0x3ffff, 0x0, 0x0, 0x0, 0x0⟩,
  ⟨0x200018, [], .word 0x0, .single, 0x0, 0x0, 0x0, 0x0, 0x0⟩,
  ⟨0x20001c, [], .word 0x4, .single, 0xff, 0x0, 0x0, 0x0, 0x0⟩,
  ⟨0x200020, [], .word 0x0, .single, 0x0, 0x0, 0x0, 0x0, 0x0⟩,
  ⟨0x200024, [], .word 0x0, .low, 0x0, 0x0, 0x0, 0x0, 0x0⟩,
  ⟨0x200028, [], .word 0x0, .high, 0x0, 0x0, 0x0, 0x0, 0x0⟩,
  ⟨0x200060, [(0x4, 8)], .word 0x0, .single, 0xffffffff, 0x0, 0x0, 0x0, 0x0⟩,
  ⟨0x200080, [], .word 0x0, .single, 0xffffffff, 0x0, 0x0, 0x0, 0x0⟩,
  ⟨0x200100, [(0x4, 35)], .word 0x0, .single, 0x0, 0x0, 0x0, 0x0, 0x0⟩,
  ⟨0x201000, [(0x10, 256)], .word 0x1f, .single, 0x0, 0x0, 0x0, 0xffff7f, 0x0⟩,
  ⟨0x201004, [(0x10, 256)], .word 0x0, .single, 0x0, 0x0, 0x0, 0xffffff, 0x0⟩,
  ⟨0x204000, [(0x80, 256), (0x4, 24)], .word 0x0, .single, 0x0, 0x0, 0x0, 0xffff, 0x0⟩]

/-- Rows of block BPM. -/
def rowsBPM0 : List RegRow := [
  ⟨0x210000, [], .word 0x0, .single, 0xff02, 0x0, 0x1, 0x0, 0x0⟩,
  ⟨0x210004, [], .word 0x0, .single, 0x0, 0x3c, 0x0, 0x0, 0x0⟩,
  ⟨0x210008, [], .word 0x20000, .single, 0x0, 0x0, 0x0, 0x0, 0x0⟩,
  ⟨0x21000c, [], .word 0x1e500, .single, 0x0, 0x0, 0x0, 0x0, 0x0⟩,
  ⟨0x210010, [], .word 0x20020, .single, 0x3ffff, 0x0, 0x0, 0x0, 0x0⟩,
  ⟨0x210014, [], .word 0x8001000, .single, 0xffffffff, 0x0, 0x0, 0x0, 0x0⟩,
  ⟨0x210018, [], .word 0x64, .single, 0xffff, 0x0, 0x0, 0x0, 0x0⟩,
  ⟨0x21001c, [], .word 0x4, .single, 0xff, 0x0, 0x0, 0x0, 0x0⟩,
  ⟨0x210020, [], .word 0x0, .single, 0x0, 0x0, 0x0, 0x0, 0x0⟩,
  ⟨0x210024, [], .word 0x0, .single, 0x0, 0x0, 0x0, 0x0, 0x0⟩,
  ⟨0x210028, [], .word 0x0, .single, 0xffffffff, 0x0, 0x0, 0x0, 0x0⟩,
  ⟨0x210030, [], .word 0x0, .single, 0xffffffff, 0x0, 0x0, 0x0, 0x0⟩,
  ⟨0x21002c, [], .word 0x0, .single, 0x0, 0x80000000, 0x0, 0x0, 0x0⟩,
  ⟨0x210034, [], .word 0x0, .single, 0x0, 0x0, 0x0, 0x0, 0x0⟩,
  ⟨0x210038, [], .word 0x0, .single, 0x0, 0x0, 0x0, 0x0, 0x0⟩,
  ⟨0x21003c, [], .word 0x0, .single, 0x1ffff, 0x0, 0x0, 0x0, 0x0⟩,
  ⟨0x210040, [], .word 0x1fe00, .single, 0x0, 0x0, 0x0, 0x0, 0x0⟩,
  ⟨0x210044, [], .word 0x7fe0000, .single, 0x0, 0x0, 0x0, 0x0, 0x0⟩,
  ⟨0x210100, [(0x4, 256)], .word 0x0, .single, 0x0, 0x0, 0x0, 0x0, 0x0⟩,
  ⟨0x210800, [(0x4, 768)], .word 0x0, .single, 0x0, 0x0, 0x0, 0x0, 0x0⟩]

/-- Rows of block SCH. -/
def rowsSCH0 : List RegRow := [
  ⟨0x220000, [], .word 0x0, .single, 0x1, 0x0, 0x2, 0x0, 0x0⟩,
  ⟨0x220200, [(0x20, 35)], .word 0x0, .single, 0x0, 0x0, 0x0, 0x0, 0x0⟩,
  ⟨0x220204, [(0x20, 35)], .word 0x0, .single, 0x0, 0x0, 0x0, 0x0, 0x0⟩,
  ⟨0x220208, [(0x20, 35)], .word 0x4000, .single, 0x0, 0x0, 0x0, 0x0, 0x0⟩,
  ⟨0x22020c, [(0x20, 35)], .word 0xf, .single, 0x0, 0x0, 0x0, 0x0, 0x0⟩,
  ⟨0x220210, [(0x20, 35)], .word 0x40404040, .single, 0x0, 0x0, 0x0, 0x0, 0x0⟩,
  ⟨0x220214, [(0x20, 35)], .word 0x40400000, .single, 0x0, 0x0, 0x0, 0x0, 0x0⟩,
  ⟨0x220800, [(0x4, 24)], .word 0x0, .single, 0xffffffff, 0x0, 0x0, 0x0, 0x0⟩,
  ⟨0x221000, [(0x10, 840)], .word 0x0, .single, 0x0, 0x0, 0x0, 0x0, 0x0⟩,
  ⟨0x221004, [(0x10, 840)], .word 0x0, .single, 0x0, 0x0, 0x0, 0x0, 0x0⟩,
  ⟨0x221008, [(0x10, 840)], .word 0x0, .single, 0x0, 0x0, 0x0, 0x0, 0x0⟩,
  ⟨0x22100c, [(0x10, 840)], .word 0x0, .single, 0x0, 0x0, 0x0, 0x0, 0x0⟩,
  ⟨0x225000, [(0x4, 280)], .word 0x0, .single, 0x0, 0x0, 0x0, 0x0, 0x0⟩]

/-- Rows of block COL. -/
def rowsCOL0 : List RegRow := [
  ⟨0x240000, [], .word 0x0, .single, 0x1, 0x0, 0x0, 0x0, 0x0⟩,
  ⟨0x240004, [], .word 0x0, .single, 0x0, 0x0, 0x0, 0x0, 0x0⟩,
  ⟨0x240008, [], .word 0x8, .single, 0x7f, 0x0, 0x0, 0x0, 0x0⟩,
  ⟨0x24000c, [], .word 0x4e20, .single, 0xffffff, 0x0, 0x0, 0x0, 0x0⟩,
  ⟨0x240010, [], .word 0x4, .low, 0x0, 0x0, 0x0, 0x0, 0xffffffcf⟩,
  ⟨0x240014, [], .word 0x0, .high, 0x0, 0x0, 0x0, 0x0, 0xffff⟩,
  ⟨0x240018, [], .word 0x0, .single, 0x0, 0x0, 0x0, 0x0, 0x0⟩,
  ⟨0x24001c, [], .word 0x0, .single, 0x0, 0x0, 0x801fffff, 0x0, 0x0⟩,
  ⟨0x240020, [], .word 0x0, .single, 0xffffffff, 0x0, 0x0, 0x0, 0x0⟩,
  ⟨0x240024, [], .word 0x0, .single, 0xffffffff, 0x0, 0x0, 0x0, 0x0⟩,
  ⟨0x240028, [], .word 0x0, .single, 0xffffffff, 0x0, 0x0, 0x0, 0x0⟩,
  ⟨0x24002c, [], .word 0x0, .single, 0xffffffff, 0x0, 0x0, 0x0, 0x0⟩,
  ⟨0x240100, [(0x10, 8)], .word 0x0, .single, 0x0, 0x0, 0x0, 0x0, 0x0⟩,
  ⟨0x240104, [(0x10, 8)], .word 0x0, .single, 0x0, 0x0, 0x0, 0x0, 0x0⟩,
  ⟨0x240108, [(0x10, 8)], .word 0x0, .single, 0x0, 0x0, 0x0, 0x0, 0x0⟩,
  ⟨0x240400, [(0x10, 64)], .word 0x0, .single, 0x1, 0x8, 0x0, 0x0, 0x0⟩,
  ⟨0x240404, [(0x10, 64)], .word 0x0, .single, 0x0, 0x0, 0x0, 0x0, 0xffffffff⟩,
  ⟨0x240408, [(0x10, 64)], .word 0x0, .single, 0x0, 0x0, 0x0, 0x0, 0x0⟩]

/-- Rows of block DET. -/
def rowsDET0 : List RegRow := [
  ⟨0x140000, [], .word 0x2, .single, 0xf, 0x0, 0x0, 0x0, 0x0⟩,
  ⟨0x140004, [], .word 0x0, .single, 0x0, 0x3, 0x0, 0x0, 0x0⟩,
  ⟨0x140008, [], .word 0x0, .low, 0xffffffff, 0x0, 0x0, 0x0, 0x0⟩,
  ⟨0x14000c, [], .word 0x0, .high, 0xffffffff, 0x0, 0x0, 0x0, 0x0⟩,
  ⟨0x140010, [], .word 0x0, .single, 0x1, 0x6, 0x0, 0x0, 0x0⟩,
  ⟨0x140014, [], .word 0x0, .single, 0xffffffff, 0x0, 0x0, 0x0, 0x0⟩,
  ⟨0x140018, [], .word 0x0, .single, 0xffffffff, 0x0, 0x0, 0x0, 0x0⟩,
  ⟨0x14001c, [], .word 0x0, .single, 0xffffffff, 0x0, 0x0, 0x0, 0x0⟩,
  ⟨0x140020, [], .word 0x0, .low, 0x0, 0x0, 0x0, 0x0, 0x0⟩,
  ⟨0x140024, [], .word 0x0, .high, 0x0, 0x0, 0x0, 0x0, 0x0⟩,
  ⟨0x140100, [(0x10, 32)], .word 0x0, .low, 0x0, 0x0, 0x0, 0x0, 0x0⟩,
  ⟨0x140104, [(0x10, 32)], .word 0x0, .high, 0x0, 0x0, 0x0, 0x0, 0x0⟩,
  ⟨0x140108, [(0x10, 32)], .word 0x0, .single, 0x0, 0x0, 0x0, 0x0, 0x0⟩,
  ⟨0x141000, [(0x20, 144)], .word 0x0, .single, 0x0, 0x0, 0x0, 0x0, 0x0⟩,
  ⟨0x141004, [(0x20, 144)], .word 0x0, .single, 0x0, 0x0, 0x0, 0x0, 0x0⟩,
  ⟨0x141008, [(0x20, 144)], .word 0x0, .single, 0xffffffff, 0x0, 0x0, 0x0, 0x0⟩,
  ⟨0x14100c, [(0x20, 144)], .word 0x0, .single, 0xffffffff, 0x0, 0x0, 0x0, 0x0⟩]

/-- Rows of block PWR. -/
def rowsPWR0 : List RegRow := [
  ⟨0x0, [], .word 0x0, .single, 0x0, 0x0, 0x3, 0x0, 0x0⟩,
  ⟨0x4, [], .word 0x1, .single, 0x0, 0xf, 0x0, 0x0, 0x0⟩,
  ⟨0x8, [], .word 0x0, .single, 0x0, 0x0, 0x0, 0x0, 0x0⟩,
  ⟨0xc, [], .word 0x0, .single, 0x0, 0x0, 0x0, 0x0, 0x0⟩,
  ⟨0x10, [(0x4, 8)], .word 0x0, .single, 0x0, 0x0, 0x0, 0x0, 0x0⟩,
  ⟨0x30, [], .word 0x0, .single, 0x0, 0x200, 0x0, 0x0, 0x0⟩,
  ⟨0x34, [], .word 0x0, .single, 0x0, 0x0, 0x3, 0x0, 0x0⟩,
  ⟨0x38, [], .word 0x0, .single, 0xffff, 0x0, 0x0, 0x0, 0x0⟩,
  ⟨0x40, [], .word 0x0, .low, 0x0, 0x0, 0x0, 0x0, 0x0⟩,
  ⟨0x44, [], .word 0x0, .high, 0x0, 0x0, 0x0, 0x0, 0x0⟩,
  ⟨0x48, [], .word 0x0, .low, 0xffffffff, 0x0, 0x0, 0x0, 0x0⟩,
  ⟨0x4c, [], .word 0x0, .high, 0xffffffff, 0x0, 0x0, 0x0, 0x0⟩,
  ⟨0x50, [], .word 0x0, .single, 0x0, 0x8, 0x3, 0x0, 0x0⟩,
  ⟨0x54, [], .word 0x0, .single, 0x0, 0x0, 0x0, 0x0, 0x0⟩,
  ⟨0x60, [], .word 0x0, .low, 0xfffff000, 0x0, 0x0, 0x0, 0x0⟩,
  ⟨0x64, [], .word 0x0, .high, 0xffffffff, 0x0, 0x0, 0x0, 0x0⟩,
  ⟨0x68, [], .word 0x0, .single, 0x7fffff, 0x0, 0x80000000, 0x0, 0x0⟩,
  ⟨0x100, [], .word 0x352, .single, 0x7ff, 0x0, 0x0, 0x0, 0x0⟩,
  ⟨0x104, [], .word 0x0, .single, 0x0, 0x0, 0x0, 0x0, 0x0⟩,
  ⟨0x108, [], .word 0x0, .single, 0xffffffff, 0x0, 0x0, 0x0, 0x0⟩]

/-- Rows of block PWR. -/
def rowsPWR1 : List RegRow := [
  ⟨0x10c, [], .word 0x0, .single, 0x0, 0x0, 0x0, 0x0, 0x0⟩,
  ⟨0x110, [], .word 0x0, .single, 0x0, 0x0, 0x0, 0x0, 0x0⟩,
  ⟨0x114, [(0x4, 40)], .word 0x0, .single, 0x0, 0x0, 0x0, 0x0, 0x0⟩]

/-- Rows of block HIF. -/
def rowsHIF0 : List RegRow := [
  ⟨0x10400, [], .word 0x0, .single, 0x7ff031f, 0x1000, 0x400, 0x0, 0x0⟩,
  ⟨0x10404, [(0x4, 10)], .word 0x0, .single, 0xffffffff, 0x0, 0x0, 0x0, 0x0⟩,
  ⟨0x10440, [], .word 0x0, .single, 0x0, 0x0, 0x0, 0x0, 0x0⟩,
  ⟨0x10444, [(0x4, 12)], .word 0x0, .single, 0x0, 0x0, 0x0, 0x0, 0x0⟩,
  ⟨0x10474, [], .word 0x0, .single, 0x0, 0x0, 0x1, 0x0, 0x0⟩,
  ⟨0x10478, [], .word 0x0, .single, 0xffff, 0x0, 0x0, 0x0, 0x0⟩,
  ⟨0x1047c, [], .word 0x0, .single, 0xffff, 0x0, 0x0, 0x0, 0x0⟩,
  ⟨0x10008, [], .word 0x0, .low, 0xc0000000, 0x0, 0x0, 0x0, 0x0⟩,
  ⟨0x1000c, [], .word 0x0, .high, 0x3f, 0x0, 0x0, 0x0, 0x0⟩,
  ⟨0x11000, [(0x40, 16)], .word 0x0, .low, 0x0, 0x0, 0x0, 0x0, 0xfffff000⟩,
  ⟨0x11004, [(0x40, 16)], .word 0x0, .high, 0x0, 0x0, 0x0, 0x0, 0xffffffff⟩,
  ⟨0x11018, [(0x40, 16)], .word 0x0, .low, 0x0, 0x0, 0x0, 0x0, 0xfffff000⟩,
  ⟨0x1101c, [(0x40, 16)], .word 0x0, .high, 0x0, 0x0, 0x0, 0x0, 0xffffffff⟩,
  ⟨0x11008, [(0x40, 16)], .word 0x4, .single, 0x100, 0x0, 0x0, 0x0, 0x1f⟩,
  ⟨0x1100c, [(0x40, 16)], .word 0x0, .single, 0xffff, 0x0, 0x0, 0x0, 0x0⟩,
  ⟨0x11010, [(0x40, 16)], .word 0x0, .single, 0x0, 0x0, 0x0, 0x0, 0x0⟩,
  ⟨0x11020, [(0x40, 16)], .word 0x0, .single, 0xffff, 0x0, 0x0, 0x0, 0x0⟩,
  ⟨0x11024, [(0x40, 16)], .word 0x0, .single, 0x0, 0x0, 0x0, 0x0, 0x0⟩,
  ⟨0x11028, [(0x40, 16)], .word 0x0, .single, 0xffffff, 0x0, 0x0, 0x0, 0x0⟩,
  ⟨0x1102c, [(0x40, 16)], .word 0x0, .single, 0x0, 0x0, 0x0, 0x0, 0x0⟩]

/-- Rows of block HIF. -/
def rowsHIF1 : List RegRow := [
  ⟨0x10200, [], .word 0x0, .single, 0x0, 0x0, 0xf, 0x0, 0x0⟩,
  ⟨0x10208, [], .word 0x0, .low, 0xfffff000, 0x0, 0x0, 0x0, 0x0⟩,
  ⟨0x1020c, [], .word 0x0, .high, 0xffffffff, 0x0, 0x0, 0x0, 0x0⟩,
  ⟨0x10210, [], .word 0x0, .single, 0x7fffff, 0x0, 0x0, 0x0, 0x0⟩,
  ⟨0x10214, [], .word 0x0, .single, 0x0, 0x0, 0x0, 0x0, 0x0⟩,
  ⟨0x10300, [], .word 0x0, .single, 0x0, 0x0, 0x0, 0x0, 0x0⟩,
  ⟨0x10500, [(0x10, 16)], .word 0x0, .low, 0x0, 0x0, 0x0, 0x0, 0x0⟩,
  ⟨0x10504, [(0x10, 16)], .word 0x0, .high, 0x0, 0x0, 0x0, 0x0, 0x0⟩,
  ⟨0x10508, [(0x10, 16)], .word 0x0, .single, 0x0, 0x0, 0x0, 0x0, 0x0⟩,
  ⟨0x1050c, [(0x10, 16)], .word 0x0, .single, 0x0, 0x0, 0x0, 0x0, 0x0⟩]

/-- Rows of block FLT. -/
def rowsFLT0 : List RegRow := [
  ⟨0x40000, [], .word 0xc, .single, 0xe, 0x0, 0x1, 0x0, 0x0⟩,
  ⟨0x40004, [], .word 0x0, .single, 0x0, 0x7c, 0x0, 0x0, 0x0⟩,
  ⟨0x40008, [], .word 0x0, .single, 0x0, 0x80000000, 0x0, 0x0, 0x0⟩,
  ⟨0x40010, [], .word 0x0, .low, 0x0, 0x0, 0x0, 0x0, 0x0⟩,
  ⟨0x40014, [], .word 0x0, .high, 0x0, 0x0, 0x0, 0x0, 0x0⟩,
  ⟨0x40018, [], .word 0x2, .single, 0x7, 0x0, 0x0, 0x0, 0x0⟩,
  ⟨0x40020, [], .word 0x0, .single, 0xff07, 0x0, 0x80000000, 0x0, 0x0⟩,
  ⟨0x40024, [], .word 0x0, .single, 0x0, 0x0, 0x0, 0x0, 0x0⟩,
  ⟨0x40028, [], .word 0x0, .single, 0x0, 0x0, 0x0, 0x0, 0x0⟩,
  ⟨0x4002c, [], .word 0x0, .single, 0x0, 0x0, 0x0, 0x0, 0x0⟩,
  ⟨0x40030, [(0x4, 6)], .word 0x0, .single, 0x0, 0x0, 0x0, 0x0, 0x0⟩,
  ⟨0x40050, [(0x4, 5)], .word 0x0, .single, 0x0, 0x0, 0x0, 0x0, 0x0⟩,
  ⟨0x40100, [(0x4, 64)], .word 0x0, .single, 0xffffffff, 0x0, 0x0, 0x0, 0x0⟩,
  ⟨0x40200, [(0x4, 64)], .word 0x0, .single, 0xffff, 0x0, 0x0, 0x0, 0x0⟩,
  ⟨0x40400, [(0x10, 64)], .word 0x0, .low, 0x0, 0x0, 0x0, 0x0, 0x0⟩,
  ⟨0x40404, [(0x10, 64)], .word 0x0, .high, 0x0, 0x0, 0x0, 0x0, 0x0⟩,
  ⟨0x40408, [(0x10, 64)], .word 0x0, .single, 0x0, 0x0, 0x0, 0x0, 0x0⟩,
  ⟨0x4040c, [(0x10, 64)], .word 0x0, .single, 0x0, 0x0, 0x0, 0x0, 0x0⟩]

/-- Rows of block OBS. -/
def rowsOBS0 : List RegRow := [
  ⟨0x300000, [], .word 0x8, .single, 0xe, 0x20, 0x11, 0x0, 0x0⟩,
  ⟨0x300008, [], .word 0x0, .low, 0xffffffff, 0x0, 0x0, 0x0, 0x0⟩,
  ⟨0x30000c, [], .word 0x0, .high, 0xffffffff, 0x0, 0x0, 0x0, 0x0⟩,
  ⟨0x300010, [], .word 0x0, .low, 0x0, 0x0, 0x0, 0x0, 0x0⟩,
  ⟨0x300014, [], .word 0x0, .high, 0x0, 0x0, 0x0, 0x0, 0x0⟩,
  ⟨0x300018, [], .word 0x0, .single, 0x0, 0x0, 0x0, 0x0, 0x0⟩,
  ⟨0x300020, [], .word 0x0, .single, 0x1, 0x0, 0xc, 0x0, 0x0⟩,
  ⟨0x300024, [], .word 0x0, .single, 0x0, 0x0, 0x0, 0x0, 0x0⟩,
  ⟨0x300028, [], .word 0x0, .single, 0x0, 0x0, 0x0, 0x0, 0x0⟩,
  ⟨0x30002c, [], .word 0x0, .single, 0x0, 0x0, 0x0, 0x0, 0x0⟩,
  ⟨0x300030, [], .word 0x0, .low, 0x0, 0x0, 0x0, 0x0, 0x0⟩,
  ⟨0x300034, [], .word 0x0, .high, 0x0, 0x0, 0x0, 0x0, 0x0⟩,
  ⟨0x300038, [], .word 0x0, .single, 0xffffffff, 0x0, 0x0, 0x0, 0x0⟩,
  ⟨0x30003c, [], .word 0x0, .single, 0xffffffff, 0x0, 0x0, 0x0, 0x0⟩,
  ⟨0x300040, [], .word 0x0, .low, 0xffffffff, 0x0, 0x0, 0x0, 0x0⟩,
  ⟨0x300044, [], .word 0x0, .high, 0xffffffff, 0x0, 0x0, 0x0, 0x0⟩,
  ⟨0x3010c0, [(0x100, 144)], .word 0x0, .single, 0x0, 0x0, 0x0, 0x0, 0x0⟩,
  ⟨0x3010c4, [(0x100, 144)], .word 0x0, .single, 0x0, 0x0, 0x0, 0x0, 0x0⟩,
  ⟨0x310000, [(0x4, 65536)], .word 0x0, .single, 0x0, 0x0, 0x0, 0x0, 0x0⟩]

/-- Rows of block SEC. -/
def rowsSEC0 : List RegRow := [
  ⟨0x20000, [], .word 0x0, .single, 0x1, 0x0, 0x0, 0x0, 0x0⟩,
  ⟨0x20004, [], .word 0x0, .single, 0x0, 0x0, 0x0, 0x0, 0x0⟩,
  ⟨0x20008, [], .word 0x0, .single, 0xff, 0x0, 0x0, 0x0, 0x0⟩,
  ⟨0x2000c, [], .word 0x0, .single, 0x0, 0x2000, 0x0, 0x0, 0x0⟩,
  ⟨0x20040, [(0x4, 8)], .word 0x0, .single, 0x0, 0x0, 0x0, 0x0, 0x0⟩,
  ⟨0x20060, [(0x4, 8)], .word 0x0, .single, 0x0, 0x0, 0x0, 0x0, 0x0⟩,
  ⟨0x20100, [(0x20, 8), (0x4, 8)], .word 0x0, .single, 0xffffffff, 0x0, 0x0, 0x0, 0x0⟩]

/-- All rows of block PAT. -/
def rowsPAT : List RegRow := rowsPAT0

/-- All rows of block CORE. -/
def rowsCORE : List RegRow := rowsCORE0

/-- All rows of block SEQ. -/
def rowsSEQ : List RegRow := rowsSEQ0

/-- All rows of block MEM. -/
def rowsMEM : List RegRow := rowsMEM0 ++ rowsMEM1 ++ rowsMEM2

/-- All rows of block LNK. -/
def rowsLNK : List RegRow := rowsLNK0 ++ rowsLNK1

/-- All rows of block LANE. -/
def rowsLANE : List RegRow := rowsLANE0

/-- All rows of block RTE. -/
def rowsRTE : List RegRow := rowsRTE0

/-- All rows of block SWC. -/
def rowsSWC : List RegRow := rowsSWC0

/-- All rows of block BPM. -/
def rowsBPM : List RegRow := rowsBPM0

/-- All rows of block SCH. -/
def rowsSCH : List RegRow := rowsSCH0

/-- All rows of block COL. -/
def rowsCOL : List RegRow := rowsCOL0

/-- All rows of block DET. -/
def rowsDET : List RegRow := rowsDET0

/-- All rows of block PWR. -/
def rowsPWR : List RegRow := rowsPWR0 ++ rowsPWR1

/-- All rows of block HIF. -/
def rowsHIF : List RegRow := rowsHIF0 ++ rowsHIF1

/-- All rows of block FLT. -/
def rowsFLT : List RegRow := rowsFLT0

/-- All rows of block OBS. -/
def rowsOBS : List RegRow := rowsOBS0

/-- All rows of block SEC. -/
def rowsSEC : List RegRow := rowsSEC0

/-- The rows of the block an offset lies in (R444); none outside every block. -/
def rowsAt (off : Nat) : List RegRow :=
  if 0x30000 ≤ off ∧ off < 0x40000 then rowsPAT
  else if 0x100000 ≤ off ∧ off < 0x110000 then rowsCORE
  else if 0x110000 ≤ off ∧ off < 0x120000 then rowsSEQ
  else if 0x180000 ≤ off ∧ off < 0x190000 then rowsMEM
  else if 0x280000 ≤ off ∧ off < 0x290000 then rowsLNK
  else if 0x290000 ≤ off ∧ off < 0x2a0000 then rowsLANE
  else if 0x230000 ≤ off ∧ off < 0x240000 then rowsRTE
  else if 0x200000 ≤ off ∧ off < 0x210000 then rowsSWC
  else if 0x210000 ≤ off ∧ off < 0x220000 then rowsBPM
  else if 0x220000 ≤ off ∧ off < 0x230000 then rowsSCH
  else if 0x240000 ≤ off ∧ off < 0x250000 then rowsCOL
  else if 0x140000 ≤ off ∧ off < 0x150000 then rowsDET
  else if 0x0 ≤ off ∧ off < 0x10000 then rowsPWR
  else if 0x10000 ≤ off ∧ off < 0x20000 then rowsHIF
  else if 0x40000 ≤ off ∧ off < 0x50000 then rowsFLT
  else if 0x300000 ≤ off ∧ off < 0x380000 then rowsOBS
  else if 0x20000 ≤ off ∧ off < 0x30000 then rowsSEC
  else []

/-- The register at a BAR0 offset. -/
def regAt (off : Nat) : Option (RegRow × List Nat) := RegRow.find (rowsAt off) off

end Sys2Proof.Machine
end

