-- ==== Sys2Proof/Machine/TypesBase.lean ====
section
/-! DEFINITION. Plain data types that several parts of the state share: packets, boundary outputs, pattern pieces, fault events,
counter sets, trace records, the host bridge and the boot. -/

namespace Sys2Proof.Machine

/-- A packet (R205, R206): whether it is a data packet, its header (16 bytes of a control packet, 64 of a data packet) and its payload
(48 bytes of a control packet, the payload flits' bytes of a data packet). -/
structure Pkt where
  data : Bool
  hdr : List Byte
  pay : List Byte
deriving DecidableEq, Repr

/-- What leaves the block at its boundary, in the order it leaves. -/
inductive Out where
  /-- An MSI-X message (R459). -/
  | msix (vector : Nat) (addr : Nat) (data : Nat)
  /-- A write into host memory by the host bridge. -/
  | hostWrite (addr : Nat) (bytes : List Byte)
  /-- A read request the host bridge issues to host memory; the answer arrives with a later command. -/
  | hostRead (addr : Nat) (len : Nat)
  /-- The completion of a host read: data. -/
  | readData (bytes : List Byte)
  /-- The completion of a host read: Completer Abort. -/
  | completerAbort
  /-- A flit on a port: its 72 bytes as they enter the striping (R179), and the line bits of each active lane in stripe order (R167). -/
  | flit (port : Nat) (bytes : List Byte) (line : List (List Bool))
  /-- A flit with a stomped CRC (R190). -/
  | stomped (port : Nat) (bytes : List Byte) (line : List (List Bool))
  /-- A marker block on a port: MSEQ, XSLACK, and the marker and fill of each active lane (R170, R171). -/
  | marker (port : Nat) (mseq : Nat) (xslack : Nat) (line : List (List Bool))
  /-- A training frame on a lane: its 32 bytes and its line form. The lane repeats it back to back until it sends something else (R174). -/
  | frame (lane : Nat) (bytes : List Byte) (line : List Bool)
  /-- Line bits of a test pattern, or of a received lane that is sent back (R197). -/
  | bits (lane : Nat) (line : List Bool)
  /-- The lanes of a port go to electrical idle. -/
  | idle (port : Nat)
  /-- One lane goes to electrical idle (R194). -/
  | idleLane (lane : Nat)
  /-- The 2 microsecond wake burst of a port in LP2 (R195). -/
  | burst (port : Nat)
  /-- An SMBus answer (R472). -/
  | smbus (bytes : List Byte)
  /-- A NACK on the SMBus (R472). -/
  | smbusNack
  /-- A value shifted out of the JTAG port (R471). -/
  | jtag (width : Nat) (value : Nat)
  /-- The boundary pins are driven or released by the JTAG port (R471). -/
  | jtagPins (drive : Bool) (pins : List Bool)
deriving DecidableEq, Repr

/-- One piece of a pattern (R17, R18, R20): type, instance number and its records. -/
structure Piece where
  type : Nat
  inst : Nat
  recs : List (List Byte)
deriving DecidableEq, Repr

/-- An image check in progress (R29): the command (0 full, 1 basting, 2 drained update), the host address and the length. -/
structure PatCheck where
  op : Nat
  addr : Nat
  len : Nat
deriving DecidableEq, Repr

/-- The two route tables, one per plane, of one route bank (R35). -/
structure RouteBank where
  plane0 : List (List Byte) := []
  plane1 : List (List Byte) := []
deriving DecidableEq, Repr

/-- The pattern store (R29): live pieces, staged pieces, the route banks' tables, the pieces of earlier generations that chains are
bound to, and the image check. -/
structure PatState where
  live : List Piece := []
  staged : List Piece := []
  bank0 : RouteBank := {}
  bank1 : RouteBank := {}
  /-- SHAPE and SEQDOM of generations that are no longer live, kept while a chain is bound to them. -/
  kept : List (Nat × List Piece) := []
  check : Option PatCheck := none
  /-- SHA-256 of the last accepted full pattern (R469). -/
  fullHash : List Byte := []
  /-- SHA-256 of the last applied basting or drained-update image (R469). -/
  appliedHash : List Byte := []
  /-- SHA-256 of the staged basting image. -/
  stagedHash : List Byte := []
deriving DecidableEq, Repr

/-- A fault report on its way to the collector within one command (R397). -/
structure FaultEv where
  src : Nat
  inst : Nat
  detail : Nat
  /-- A host fence command (R406): the kind of the unit named. -/
  fence : Option Nat := none
deriving DecidableEq, Repr

/-- The count and window start of one (source, instance) (R399). -/
structure FaultWin where
  count : Nat
  start : Nat
deriving DecidableEq, Repr

/-- The fault collector's state that is in no register (R399, R412, R415). -/
structure FaultState where
  wins : Tbl FaultWin := []
  queue : List FaultEv := []
  /-- FCLK count at which a FAULT_N pulse ends. -/
  pulseEnd : Option Nat := none
  /-- FLT_LOG_PROD when LOG_OVERRUN was last cleared. -/
  overrunBase : Nat := 0
deriving DecidableEq, Repr

/-- One counter set (R418): BUSY, IDLE and the eight stall counters, 48 bits each. -/
structure CSet where
  busy : Nat := 0
  idle : Nat := 0
  stall : List Nat := [0, 0, 0, 0, 0, 0, 0, 0]
deriving DecidableEq, Repr

/-- A trace record (R427). -/
structure TRec where
  time : Nat
  type : Nat
  unit : Nat
  sub : Nat
  addr : Nat
  d0 : Nat
  d1 : Nat
deriving DecidableEq, Repr

/-- The counters and the trace unit (R418 to R435). Counter sets are numbered 4 L + engine (0 SEQ, 1 MXE, 2 VXU, 3 DMA); set 576 is COL. -/
structure ObsState where
  live : Tbl CSet := []
  snap : Tbl CSet := []
  /-- Per core: cause (0 none, 1 job, 2 host) and tag of the last reset of its sets. -/
  resetCause : Tbl (Nat × Nat) := []
  /-- A reset of the core's sets takes effect in the next cycle: cause and tag. -/
  resetDue : Tbl (Nat × Nat) := []
  /-- Instructions issued whose cycle has not been counted yet, by set. -/
  busyDue : Tbl Nat := []
  /-- Phase of the throttle's 16-edge group (R481). -/
  phase : Nat := 0
  /-- The on-die ring, by slot (R431). -/
  ring : Tbl TRec := []
  /-- Records written since ARMED. -/
  written : Nat := 0
  /-- Records staged, with the source queue each is in (R430). -/
  staged : List (Nat × TRec) := []
  /-- Matching records seen since ARMED or since the TRACE piece changed. -/
  matched : Nat := 0
  /-- Records still to write after the TRIGGER record. -/
  postLeft : Nat := 0
  /-- Records lost since the last GAP record, and the time of the first. -/
  gap : Nat := 0
  gapTime : Nat := 0
  /-- The TRACE piece taken at the last enable fixes SPILL, SPILL_BASE and SPILL_UNITS (R435). -/
  spill : Option (Nat × Nat) := none
  /-- The stall in progress per set: reason, cycles, and the instruction index at its start (R428). -/
  stalls : Tbl (Nat × Nat × Nat) := []
  /-- FCLK count of the last snapshot, while it is still that FCLK (R424). -/
  lastSnap : Option Nat := none
deriving DecidableEq, Repr

/-- The part of the module data the device uses (R380): serial number, cooling variant, and the thermal limits as PWR_THERM_LIMITS
holds them. -/
structure ModData where
  serial : Nat := 0
  variant : Nat := 0
  limits : Nat := 0
deriving DecidableEq, Repr

/-- What the boot and the management controller hold (R380 to R383, R465). A flash slot that the device itself has written is known; the
factory contents arrive with the command that reads them. -/
structure BootState where
  powered : Bool := false
  /-- A device reset is in progress (R379). -/
  resetting : Bool := false
  /-- JTAG EXTEST, HIGHZ or an AC instruction holds the device in device reset (R471). -/
  jtagHold : Bool := false
  /-- The TAP has returned to Test-Logic-Reset; a device reset is still needed. -/
  jtagWait : Bool := false
  slotA : Option (List Byte) := none
  slotB : Option (List Byte) := none
  prefB : Option Bool := none
  /-- The preferred slot failed in this boot, and the other is tried. -/
  tried : Bool := false
  /-- Whether the slot header read at this boot prefers slot B. -/
  bootB : Bool := false
  mod : ModData := {}
  /-- FW_HASH of the running firmware (R464). -/
  fwHash : List Byte := []
  /-- FCLK count from which SMBus telemetry answers (R472). -/
  railsGood : Option Nat := none
  /-- Recovery read in progress (R382). -/
  recovering : Bool := false
deriving DecidableEq, Repr

/-- Clock and fabric-time state in no register (R390 to R392). -/
structure ClockState where
  /-- FCLK count at which the measurement of the source port that runs began. -/
  measureAt : Option Nat := none
  /-- The module reference is absent (R487). -/
  refGone : Bool := false
  /-- FCLK count at which the source was lost; none while it is there. -/
  lostAt : Option Nat := none
  slewNeg : Bool := false
  slewPhase : Nat := 0
deriving DecidableEq, Repr

/-- Working state of one submission ring (R451 to R458). -/
structure RingState where
  on : Bool := false
  /-- Pass parity of the completion ring: false on even passes. -/
  oddPass : Bool := false
  unsignalled : Nat := 0
  firstAt : Nat := 0
deriving DecidableEq, Repr

/-- Configuration space (R442): Device ID, class code, and the Subsystem ID read from the module data. The Vendor ID and the Revision ID, of which
the spec gives no number, are Config.vendorId and revisionId. -/
structure ConfigSpace where
  device : BitVec 16 := 0x4816
  classCode : BitVec 24 := 0x120000
  subsystem : BitVec 16 := 0
deriving DecidableEq, Repr

/-- Host bridge state in no BAR0 register of the tables (R445 to R462). -/
structure HostState where
  config : ConfigSpace := {}
  /-- log2 of the BAR2 size in GiB, 0 to 8; 16 GiB at reset (R443). -/
  bar2Log2 : Nat := 4
  /-- MSI-X table by 32-bit word, 4 words an entry. -/
  msix : Tbl Nat := []
  msixPending : Nat := 0
  /-- Per vector, the SCLK cycle (plus one) in which the last message was raised. -/
  raisedAt : Tbl Nat := []
  rings : Tbl RingState := []
  /-- Rotating priority over the rings: the next ring to look at. -/
  ringPtr : Nat := 0
  /-- The key the next job gets. -/
  nextJob : Nat := 0
  /-- The mailbox command in progress, and its status once its work is done. -/
  mbox : Option (Nat × Option Nat) := none
  /-- The image a FW_UPDATE is writing to flash. -/
  mboxImage : List Byte := []
  /-- The neighbour receive FIFO: arrival port, OPCODE, TAG, payload. -/
  nbrRx : List (Nat × Nat × Nat × List Byte) := []
deriving DecidableEq, Repr

/-- Power input and limiter (R477 to R484). -/
structure PowerState where
  inputOn : Bool := false
  /-- Input power samples of the last 1 ms in units of 0.1 W, newest first. -/
  samples : List Nat := []
  /-- FCLK count of the last change of K. -/
  lastChange : Nat := 0
  /-- FCLK count from which PWR_INPUT is refreshed again. -/
  refreshAt : Nat := 0
  /-- FCLK counts of the last sample and the last check. -/
  sampledAt : Nat := 0
  checkedAt : Nat := 0
  /-- A sample above 1,050 W came since the last check. -/
  fast : Bool := false
  peak : Nat := 0
  /-- Input energy in units of 0.001 mJ: 0.1 W times 10 microseconds is 1 microjoule. -/
  energy : Nat := 0
deriving DecidableEq, Repr

/-- A held lower write or a captured upper half of a 64-bit pair (R8): requester, offset of the lower register, value. -/
structure PairHold where
  req : Nat
  off : Nat
  value : Nat
deriving DecidableEq, Repr

end Sys2Proof.Machine
end

