-- ==== Sys2Proof/Machine/TypesCore.lean ====
section
/-! DEFINITION. The compute cores' state (R43 to R81, R82 to R110): registers, weight buffers, scoreboard, DMA queues, jobs, sequence
slots and combine registrations. -/

namespace Sys2Proof.Machine

/-- The engines of a core (R58). -/
inductive Engine where
  | scalar | mxe | vxu | dma
deriving DecidableEq, Repr

/-- A hardware loop (R61): index of the first body word, index after the last, iterations left including the running one, and the
words a body of at most 64 words holds in the loop buffer after their first fetch (R58). -/
structure Loop where
  start : Nat
  stop : Nat
  left : Nat
  words : Tbl Nat := []
deriving DecidableEq, Repr

/-- An instruction in flight on an engine (R59): the registers it writes, the SRAM bytes it has still to make visible. -/
structure EngOp where
  eng : Engine
  gs : List Nat := []
  ps : List Nat := []
  vs : List Nat := []
  accs : List Nat := []
  stores : List (Nat × List Byte) := []
deriving DecidableEq, Repr

/-- A weight tile in a buffer (R52, R85): format, sparsity mode (0 dense), SRAM offset it was loaded from and its bytes. -/
structure WTile where
  fmt : Nat
  mode : Nat
  addr : Nat
  bytes : List Byte
deriving DecidableEq, Repr

/-- What holds issue after an instruction that waits (R61). -/
inductive Wait where
  | evwait (evt target : Nat)
  | gbar (step : Bool)
  | sfence
  | dmawait (queue : Nat)
  | halt
deriving DecidableEq, Repr

/-- One transfer of a descriptor still to be sent, or sent and not yet answered: packet opcode, destination device and selector,
destination address, local source address, bytes, offset within the descriptor, operation fields, group (expert or phase). -/
structure Xfer where
  op : Nat
  dev : Nat
  sel : Nat
  addr : Nat
  src : Nat
  len : Nat
  off : Nat
  fields : List Byte
  grp : Nat
  last : Bool := false
  /-- Payload that is not read from a source: a tag, a count, a header. -/
  lit : Option (List Byte) := none
deriving DecidableEq, Repr

/-- A packet sent and not yet answered (R69): the transfer, the packet, its tag, when it was first sent, when it is to be sent again after
a retry answer, and the answers a multicast still awaits. -/
structure Outst where
  xfer : Xfer
  pkt : Pkt
  ctag : Nat
  firstSent : Nat
  retryAt : Option Nat := none
  need : Nat := 1
deriving DecidableEq, Repr

/-- A descriptor in a DMA queue (R64, R65): its 64 bytes, the instruction index of its DMAQ, and its progress. -/
structure Desc where
  bytes : List Byte
  pc : Nat
  started : Bool := false
  todo : List Xfer := []
  outst : List Outst := []
  /-- Status of the first failure; 0 while none. -/
  status : Nat := 0
  failOff : Nat := 0
  skipped : Nat := 0
  moved : Nat := 0
  detail : Nat := 0
  /-- Groups (experts) whose rows are all acknowledged and whose signal is still to be sent. -/
  groups : List Nat := []
  phase : Nat := 0
  /-- A DISPATCH has scanned its routing table: its completion tells the combine how many terms to expect (R103). -/
  scanned : Bool := false
  /-- The collective engine or the combine holds the descriptor. -/
  held : Bool := false
  /-- Every effect has taken place; only the completion record and event remain. -/
  finished : Bool := false
  /-- Completed in the replay log already: during a replay it is taken from the log (R345). -/
  logged : Bool := false
  /-- The key of the instruction that issued it: checkpoints taken so far and instructions issued since the last (R342). -/
  number : Nat := 0
  /-- The job's step counter when it was issued (R340). -/
  step : Nat := 0
deriving DecidableEq, Repr

/-- A logical core (R57) with its engines and DMA. The state, enable, program counter and exception registers live in the register file. -/
structure Core where
  g : Tbl Nat := []
  /-- Predicates P7..P0 as bits; P0 is always true. -/
  p : Nat := 1
  v : Tbl (List Nat) := []
  acc : Tbl (List Nat) := []
  /-- Bit i: accumulator tile i holds INT32 sums (R51). -/
  accInt : Nat := 0
  loops : List Loop := []
  evt : Tbl Nat := []
  wActive : Option WTile := none
  wShadow : Option WTile := none
  ops : List EngOp := []
  wait : Option Wait := none
  queues : List (List Desc) := [[], [], [], []]
  /-- Rotating priority over the queues for the core's NoC link: the queue looked at first (R64). -/
  dmaPtr : Nat := 0
  /-- Key of the job that holds the core. -/
  job : Option Nat := none
  /-- FCLK count at which the current zeroing ends. -/
  zeroEnd : Nat := 0
  /-- FCLK count at which SHUTDOWN began. -/
  shutAt : Nat := 0
  /-- Packets still unanswered when SHUTDOWN began (R73). -/
  left : List Outst := []
deriving DecidableEq, Repr

/-- A running job (R76 to R79) or a core started by hand (its own group). -/
structure Job where
  key : Nat
  id : Nat
  group : Nat
  cores : List Nat
  /-- The ring and command tag of its submission; none for a core started by hand. -/
  ring : Option (Nat × Nat) := none
  sram : Nat := 0
  slots : List Nat := []
  tickets : Nat := 0
  cells : Nat := 0
  gBase : Nat := 0
  gLen : Nat := 0
  progAddr : Nat := 0
  progLen : Nat := 0
  seed : Nat := 0
  stepStart : Nat := 0
  zeroSram : Bool := false
  /-- Admitted and not yet launched; or held by the start barrier (R353). -/
  launched : Bool := false
  held : Bool := false
  /-- Ends reported by cores: the logical core and a code of R456. -/
  ends : List (Nat × Nat) := []
  aborting : Bool := false
  /-- SQ_HEAD after its entry was fetched (R455). -/
  sqHead : Nat := 0
deriving DecidableEq, Repr

/-- A sequence slot (R91, R92): its job and what SLOTSET wrote. -/
structure Slot where
  job : Option Nat := none
  index : Nat := 0
  seqLen : Nat := 0
  qBase : Nat := 0
  qLen : Nat := 0
  mask : Nat := 0
  diag : Bool := false
  window : Nat := 0
  cpSize : Nat := 0
  cpIndex : Nat := 0
  bitmap : Nat := 0
deriving DecidableEq, Repr

/-- A combine registration (R103, R105): the core, queue and number of its COMBINE_RECV descriptor, the descriptor's bytes, the job's
seed and step, and the pieces of terms seen, as (entry, slot, byte offset). -/
structure Combine where
  core : Nat
  queue : Nat
  number : Nat
  bytes : List Byte
  seed : Nat
  step : Nat
  /-- Pieces held in scratch. -/
  parked : List (Nat × Nat × Nat) := []
  /-- Pieces added into the running sum. -/
  folded : List (Nat × Nat × Nat) := []
  /-- Number of terms expected, once the DISPATCH has completed. -/
  expect : Option Nat := none
  lastTerm : Nat := 0
deriving DecidableEq, Repr

end Sys2Proof.Machine
end

