-- ==== Sys2Proof/Machine/TypesCol.lean ====
section
/-! DEFINITION. The collective engine's state in no register (R294 to R331), with the permute's progress (R368 to R373). -/

namespace Sys2Proof.Machine

/-- The metadata of a chunk (R308): the flags, the count of NaN elements, the first rank that made one with its lowest element, and the
first rank supplied by a backup with the device stood in for. -/
structure ChunkMeta where
  invalid : Bool := false
  overflow : Bool := false
  backup : Bool := false
  nans : Nat := 0
  nanRank : Nat := 0xFFFF
  nanElem : Nat := 0
  standRank : Nat := 0xFFFF
  standAddr : Nat := 0
deriving DecidableEq, Repr

/-- A ring's place in a shape: level and stripe (0 at level 1), with the number of the chunk that runs on it. -/
structure ChunkKey where
  level : Nat
  stripe : Nat
  chunk : Nat
deriving DecidableEq, Repr

/-- Values on their way: 32-bit element codes with their metadata. -/
structure Part where
  vals : List Nat
  info : ChunkMeta := {}
deriving DecidableEq, Repr

/-- A chunk in a role's staging: its course (0 accumulate, 1 handoff, 2 distribute), where it belongs, and the device it came from. -/
structure Staged where
  course : Nat
  key : ChunkKey
  part : Part
  src : Nat
deriving DecidableEq, Repr

/-- Credits held for an outgoing course, or owed to the sender of an incoming one (R313): the other device, course, level, stripe, count. -/
structure Credit where
  dest : Nat
  course : Nat
  level : Nat
  stripe : Nat
  count : Nat
deriving DecidableEq, Repr

/-- A chunk ready to leave against a credit (R313), or sent and not yet acknowledged (R324): its destination, what it carries, FOLD_HI, the
credits that go back when it leaves staging, and the packet once it is sent. -/
structure ChunkOut where
  dest : Nat
  course : Nat
  key : ChunkKey
  part : Part
  foldHi : Nat
  repair : Bool := false
  back : List Credit := []
  pkt : Option Pkt := none
deriving DecidableEq, Repr

/-- A chain context (R294): one running collective descriptor. -/
structure Role where
  core : Nat
  queue : Nat
  number : Nat
  bytes : List Byte
  /-- The pattern generation it is bound to (R308). -/
  gen : Nat
  /-- The operation it performs: that of the descriptor, for a standby that of the role it stands in for. -/
  op : Nat
  /-- Device whose role it is: the own address, or the device stood in for (R324). -/
  addr : Nat
  /-- Posted for another device and not activated (R324). -/
  standby : Bool := false
  /-- Running for another device. -/
  active : Bool := false
  seed : Nat := 0
  /-- The step counter, and the core group, at its start. -/
  step : Nat := 0
  group : Nat := 0
  startFt : Nat := 0
  heldUs : Nat := 0
  postedAt : Nat := 0
  /-- FCLK count at which it last sent or received. -/
  lastAt : Nat := 0
  window : Nat := 8
  /-- Cells reserved for staging under R313, and how many of them are charged to the job's set-aside. -/
  cells : List Nat := []
  aside : Nat := 0
  job : Option Nat := none
  granted : Bool := false
  credits : List Credit := []
  staged : List Staged := []
  /-- Keys received, with their course. -/
  seen : List (Nat × ChunkKey) := []
  ready : List ChunkOut := []
  sent : List ChunkOut := []
  /-- Rings on which a chunk's accumulate pass has run here, and rings whose distribute course has passed here. -/
  folded : List ChunkKey := []
  passed : List ChunkKey := []
  /-- Chunks whose ranks have been taken up here (the internal levels), and chunks written to DST, with their metadata. -/
  begun : List Nat := []
  written : List (Nat × ChunkMeta) := []
  thinned : Bool := false
  repaired : Bool := false
  /-- The ticket had completed before the repair (R328). -/
  consumed : Bool := false
  backupUsed : Bool := false
  standRank : Nat := 0xFFFF
  /-- Devices whose ranks a backup supplied, in the order they became known. -/
  standIns : List Nat := []
  /-- Devices found unreachable, and the device that stands in for each (R324). -/
  moved : List (Nat × Nat) := []
  /-- Chunks that run again with REPAIR set (R327). -/
  repairing : List Nat := []
  /-- Terms that could not be read when the role started are taken up later: its scalars, or its thinned accumulation. -/
  waiting : Bool := false
  /-- INVALID and OVERFLOW of the thinned accumulation (R326, R331). -/
  thinInv : Bool := false
  thinOvf : Bool := false
  /-- Chunks whose copy in the staging fails its parity check (R327). -/
  bad : List Nat := []
  /-- A role that has completed and passes late distribute chunks on (R312): the FCLK count of its completion. -/
  passing : Option Nat := none
  /-- PERMUTE (R371): the registry entry, whether the wait has ended, the translation entries it activated, the packets to send and those
  unacknowledged, by index of the move. -/
  entry : Nat := 64
  waitOver : Bool := false
  activated : List Nat := []
  moves : List Xfer := []
  movesOut : List Outst := []
deriving DecidableEq, Repr

/-- A descriptor held under the ticket rule (R317), or admitted and waiting for a context (R296). -/
structure HeldDesc where
  core : Nat
  queue : Nat
  number : Nat
  bytes : List Byte
  gen : Nat
  domain : Nat
  ticket : Nat
  since : Nat
deriving DecidableEq, Repr

/-- An arrival in the keystone's store (R320). -/
structure Arrival where
  domain : Nat
  level : Nat
  shape : Nat
  ticket : Nat
  addr : Nat
deriving DecidableEq, Repr

/-- A BACKUP_ACT that waits for its standby (R324): its payload and when it came. -/
structure HeldAct where
  pay : List Byte
  at_ : Nat
deriving DecidableEq, Repr

/-- A completed ticket kept for REPAIR_REQ and for chunks that still pass through (R312, R328): the role as it ended, and when. -/
structure DoneRole where
  role : Role
  endAt : Nat
deriving DecidableEq, Repr

/-- The collective engine. -/
structure ColState where
  /-- Chain contexts by index 0 to 7. -/
  roles : Tbl Role := []
  held : List HeldDesc := []
  arrivals : List Arrival := []
  acts : List HeldAct := []
  done : List DoneRole := []
  /-- Credits and scalar packets that came before their role started. -/
  early : List Pkt := []
  /-- Contexts whose role has ended and whose staging is being swept: context, domain and COL_CHAIN_STATE (4 aborted, 5 done). -/
  ending : List (Nat × Nat × Nat) := []
  /-- Keys for which CHAIN_ABORT has been acted on: domain, ticket. -/
  aborted : List (Nat × Nat) := []
  /-- Tickets that have completed ahead of NEXT (R317): domain, ticket. -/
  doneAhead : List (Nat × Nat) := []
  /-- Keys for which REPAIR_REQ has been acted on: domain, ticket, chunk. -/
  repairs : List (Nat × Nat × Nat) := []
  /-- Since when a domain holds descriptors while NEXT is not issued. -/
  orderAt : Tbl Nat := []
  /-- Domains in shutdown. -/
  closing : List Nat := []
  /-- Engine shutdown in progress. -/
  shutting : Bool := false
  /-- BARRIER_ARRIVE packets sent and not yet released: they may be answered by RETRY. -/
  arrived : List Pkt := []
  /-- Arrivals answered by RETRY, to be sent again: due time and packet. -/
  resend : List (Nat × Pkt) := []
  /-- The ticket that set PERMUTING, by registry entry: domain and ticket. -/
  permOwner : Tbl (Nat × Nat) := []
deriving DecidableEq, Repr

end Sys2Proof.Machine
end

