-- ==== Sys2Proof/Machine/TypesDet.lean ====
section
/-! DEFINITION. Checkpoints, replay logs and core replay: their state in no register (R341 to R350), and the start barrier's. -/

namespace Sys2Proof.Machine

/-- A checkpoint (R341). -/
structure Ckpt where
  g : Tbl Nat := []
  p : Nat := 1
  loops : List Loop := []
  pc : Nat := 0
  evt : Tbl Nat := []
  cprod : List Nat := [0, 0, 0, 0]
  exc : Nat := 0
  excAddr : Nat := 0
  excCount : Nat := 0
  step : Nat := 0
deriving DecidableEq, Repr

/-- State of a logged item (R342). -/
inductive LogSt where
  | issued | sent | running | completed
deriving DecidableEq, Repr

/-- An entry of the replay log (R342): the queue of its descriptor (4 for SIGNAL, 5 for GBAR), the key of the instruction that issued
it, its DMA OP, its state, the completion record, the event increments it has sent (by expert; 0 for the one of a RINGPASS), and the
control packet of an RSIGNAL whose answer is awaited with the FCLK count at which it was sent. -/
structure LogItem where
  queue : Nat
  number : Nat
  op : Nat
  st : LogSt
  record : List Byte := []
  sent : List Nat := []
  ctag : Option Nat := none
  at_ : Nat := 0
deriving DecidableEq, Repr

/-- The replay state of one logical core (R341 to R347). -/
structure CoreDet where
  ckpt : Option Ckpt := none
  /-- The checkpoint store fails parity. -/
  badCkpt : Bool := false
  /-- Checkpoints taken: the segment's number. -/
  seg : Nat := 0
  log : List LogItem := []
  acc : Tbl Nat := []
  /-- Instructions and descriptors (per queue) issued since the checkpoint. -/
  count : Nat := 0
  dcount : List Nat := [0, 0, 0, 0]
  /-- During a replay: the instruction count at the fault. -/
  faultCount : Nat := 0
  /-- The core was quiet when it issued the GBAR it waits in. -/
  quiet : Bool := false
  /-- FCLK count at which the zeroing and the program copy of a replay end. -/
  resumeAt : Option Nat := none
  /-- A takeover is under way. -/
  takeover : Bool := false
  /-- The step counter a replay stands at: that of its checkpoint, moved on by the step barriers it has passed (R341, R344). -/
  replayStep : Option Nat := none
deriving DecidableEq, Repr

/-- The determinism block. -/
structure DetState where
  cores : Tbl CoreDet := []
  /-- Latest local completion of a collective of the current step, by group (R340). -/
  lastCol : Tbl Nat := []
  /-- The same for the step before. -/
  prevCol : Tbl Nat := []
  /-- Groups whose step barrier is held by R340, and until when. -/
  heldBar : Tbl Nat := []
deriving DecidableEq, Repr

end Sys2Proof.Machine
end

