-- ==== Sys2Proof/Machine/TypesLink.lean ====
section
/-! DEFINITION. The lanes' and ports' state in no register (R159 to R200). -/

namespace Sys2Proof.Machine

/-- A sequenced flit in the replay buffer (R182): sequence number, type, 64 payload bytes, credit fields. -/
structure Stored where
  seq : Nat
  type : Nat
  pay : List Byte
  vc : Nat
  cells : Nat
  /-- The flit is the last of a packet: its epoch, for the drain count (R228). -/
  lastOf : Option Nat := none
deriving DecidableEq, Repr

/-- An unsequenced flit waiting for a slot: type and payload. -/
structure Unseq where
  type : Nat
  pay : List Byte
deriving DecidableEq, Repr

/-- One direction of a lane's line coding: the scrambler's state (R168), the last line bit (2 is none) and its run, and the bits stuffed since the
last marker block (R169). -/
structure Coder where
  scr : Nat := 0
  runBit : Nat := 2
  run : Nat := 0
  stuffed : Nat := 0
deriving DecidableEq, Repr

/-- One lane. -/
structure Lane where
  /-- Line coding of the transmit and of the receive direction (R167). -/
  tx : Coder := {}
  rx : Coder := {}
  /-- Good training frames in a row, and the LANE field of the last one (R173, R175). -/
  goodFrames : Nat := 0
  peerLane : Option Nat := none
  /-- Adaptation (R165): the best figure of merit of this training, and the iterations since it last rose. -/
  bestFom : Nat := 0
  flat : Nat := 0
  /-- In service (R166): low figures of merit in a row, failed markers in a row. -/
  lowFom : Nat := 0
  badMarkers : Nat := 0
  /-- Test pattern (R197): the generator's register, the checker's, and the bits the checker has loaded. -/
  prbsTx : Nat := 0
  prbsRx : Nat := 0
  prbsSeen : Nat := 0
deriving DecidableEq, Repr

/-- One port (R173 to R198). -/
structure Port where
  nonceTx : Nat := 0
  nonceRx : Nat := 0
  /-- ID last seen on the port since reset (R176). -/
  lastId : Option Nat := none
  /-- Staged analog power-up (R385): waiting for a turn, powered, and since when. -/
  waitPower : Bool := false
  powered : Bool := false
  powerAt : Nat := 0
  /-- FCLK count at which the present state was entered. -/
  stepAt : Nat := 0
  /-- From the partner's frames: CAPS, LANE_MASK; READY sent and received. -/
  peerCaps : Nat := 0
  peerMask : Nat := 0
  selfReady : Bool := false
  peerReady : Bool := false
  /-- Adaptation has ended with every figure of merit passing, and LOOP_REQ frames are sent (R197). -/
  loopAsked : Bool := false
  /-- In far-end loopback for the partner (R197). -/
  farLoop : Bool := false
  /-- Good aligned marker blocks in a row (R173). -/
  goodMarkers : Nat := 0
  /-- Receiver (R183): expected sequence number, replay generation, duplicates to skip, RX_WAIT, resends of the NAK and when it was sent. -/
  expected : Nat := 0
  rxGen : Nat := 0
  skip : Nat := 0
  rxWait : Bool := false
  resend : Nat := 0
  nakAt : Nat := 0
  anyRx : Bool := false
  /-- Transmitter (R184): next sequence number, replay generation, stored flits, the replay in progress and whether its REPLAY_START is still
  to go, replays without progress, start of the ack timer. -/
  txNext : Nat := 0
  txGen : Nat := 0
  stored : List Stored := []
  replayFrom : Option Nat := none
  replayStart : Bool := false
  replays : Nat := 0
  ackAt : Nat := 0
  /-- Unsequenced flits waiting, oldest first. -/
  ctl : List Unseq := []
  /-- Credit cells waiting to be returned, by VC, and since when (R188). -/
  owed : Tbl Nat := []
  owedAt : Option Nat := none
  owedPtr : Nat := 0
  /-- Credits received in the FCLK credAt, by VC: not counted by a decision of that FCLK (R282). -/
  credNew : Tbl Nat := []
  credAt : Nat := 0
  /-- Initial credits sent and received (INIT). -/
  credSent : Bool := false
  credSeen : Bool := false
  /-- Flit slots since the last marker block and the next MSEQ (R171). -/
  slots : Nat := 0
  mseq : Nat := 0
  /-- MSEQ of the last marker block received (R168). -/
  rxMseq : Nat := 0
  /-- Low-power request sent and not answered (1 LP1, 2 LP2; 3 refused until LP is written again), and since when only NULL flits have
  passed (R195). -/
  lpAsked : Nat := 0
  idleSince : Nat := 0
  /-- The idle time of LP1_AUTO has passed and the request is to go; the state an ACCEPT waiting to go leads to; lanes other than logical lane 0
  idle, from LP1 until WAKE has passed (R194, R195). -/
  autoDue : Bool := false
  lpEnter : Nat := 0
  onLane0 : Bool := false
  /-- Wake from LP2 in progress since, and whether PLL and recovery have locked again (R194). -/
  waking : Option Nat := none
  relocked : Bool := false
  /-- Entry into service whose RTE_UP_HOLD runs (R220). -/
  upAt : Option Nat := none
deriving DecidableEq, Repr

end Sys2Proof.Machine
end

