-- ==== Sys2Proof/Machine/TypesMem.lean ====
section
/-! DEFINITION. The GDDR7 subsystem's state in no register (R144 to R156): the rank gates of the RACC front end. -/

namespace Sys2Proof.Machine

/-- A parked RACC packet (R150): rank, packet number, packet, its staging cells. -/
structure Parked where
  rank : Nat
  k : Nat
  pkt : Pkt
  cells : List Nat
deriving DecidableEq, Repr

/-- A gate entry (R150), open or a CLOSED tombstone (R152). -/
structure Gate where
  chunk : Nat
  tag : Nat
  first : Nat
  /-- RANK_COUNT. -/
  count : Nat
  length : Nat
  dst : Nat
  /-- Layout epoch of its first packet (R371). -/
  epoch : Nat := 0
  /-- The next rank to apply, counted from 0; equal to count when every rank is done. -/
  next : Nat
  /-- Received (rank, k). -/
  got : List (Nat × Nat) := []
  /-- Packets of the rank NEXT applied. -/
  applied : Nat := 0
  parked : List Parked := []
  lastAt : Nat := 0
  /-- Notify logical core and event counter, if NOTIFY. -/
  notify : Option (Nat × Nat) := none
  /-- FCLK count at which a tombstone ends; none while open. -/
  closed : Option Nat := none
  invalid : Bool := false
  overflow : Bool := false
  nanRank : Option Nat := none
  nanElem : Nat := 0
deriving DecidableEq, Repr

/-- A forwarded RACC packet whose answer is awaited (R374): the tag sent, the packet it answers for, its staging cells. -/
structure Forward where
  ctag : Nat
  pkt : Pkt
  cells : List Nat
deriving DecidableEq, Repr

/-- The GDDR7 subsystem. -/
structure MemState where
  gates : List Gate := []
  /-- A shutdown is running (R408). -/
  shutting : Bool := false
  /-- FCLK count at which the translation entry was activated, by entry (R375). -/
  xlateAt : Tbl Nat := []
  forwards : List Forward := []
  /-- Local addresses whose next transfer fails its check (R48, R146); 2^48 more for a burst that is good after a repeat. -/
  upsets : List Nat := []
  /-- The rate a controller trains at, taken from MEM_TRAIN_CTRL at its START (R144). -/
  rates : Tbl Nat := []
deriving DecidableEq, Repr

end Sys2Proof.Machine
end

