-- ==== Sys2Proof/Machine/TypesSwitch.lean ====
section
/-! DEFINITION. The switch core, the shared buffer and the output scheduler: their state in no register (R234 to R272, R275 to R292). -/

namespace Sys2Proof.Machine

/-- One cell of the shared buffer (R236 to R238): the fields of BPM_CELL_META and BPM_CELL_LINK, and whether the parity stored with its bytes, its
metadata word or its link word no longer holds. -/
structure Cell where
  state : Nat := 0
  reclaim : Bool := false
  tx : Bool := false
  head : Bool := false
  gen : Nat := 0
  owner : Nat := 0xFF
  ref : Nat := 0
  mark : Bool := false
  next : Nat := 0
  acct : Nat := 0x3FF
  charge : Nat := 0
  badData : Bool := false
  badMeta : Bool := false
  badLink : Bool := false
deriving DecidableEq, Repr

/-- The data of a packet in the buffer, kept under its head cell: the packet, the switch input port it arrived on, whether it was
originated on this device, its cells in order. -/
structure BufPkt where
  /-- As it arrived or was originated. -/
  pkt : Pkt
  /-- As it leaves after its decision. -/
  sent : Pkt
  input : Nat
  origin : Bool
  cells : List Nat
  /-- The job on whose set-aside its cells draw (R243). -/
  aside : Option Nat := none
  /-- A first flit of it has left the device (R264). -/
  left : Bool := false
deriving DecidableEq, Repr

/-- A packet descriptor (R235): head cell, generation, flit count, VC; and the time from which it has been at the head. -/
structure PD where
  head : Nat
  gen : Nat
  flits : Nat
  vc : Nat
  since : Nat := 0
deriving DecidableEq, Repr

/-- The open data packet of an external input (R245): its cells, the flits received so far, and the time of the last. -/
structure OpenPkt where
  cells : List Nat
  vc : Nat
  flits : List (List Byte)
  need : Nat
  lastAt : Nat
deriving DecidableEq, Repr

/-- The packet an output is sending (R245): descriptor, packet, flits sent, when its gate window ends (fabric time in units of 1/264 ns), and
whether it started before a seam changed the gate list (R289). -/
structure Sending where
  pd : PD
  pkt : Pkt
  sent : Nat
  ends : Option Nat := none
  preSeam : Bool := false
deriving DecidableEq, Repr

/-- What a packet offered at an internal input came from, so that its refusal reaches the right party (R226). -/
inductive Orig where
  | none
  | dma (core queue number : Nat)
  | chain (idx : Nat)
  | endpoint
deriving DecidableEq, Repr

/-- A packet waiting at an internal input (R243, R244, R262): the input, the packet, what originated it, the job whose set-aside it may draw on,
since when it is held by a congestion mark, and when it asked for its cells. -/
structure Offer where
  input : Nat
  pkt : Pkt
  orig : Orig
  job : Option Nat := none
  heldAt : Option Nat := none
  came : Nat := 0
deriving DecidableEq, Repr

/-- A residue packet of the replicator (R255): head cell, generation, flits, VC, and the destinations still to be served (bit p external
port p, bit 24 the local endpoint). -/
structure Residue where
  head : Nat
  gen : Nat
  flits : Nat
  vc : Nat
  dests : Nat
deriving DecidableEq, Repr

/-- A flow of the resequencer (R258, R259). -/
structure Flow where
  srcAddr : Nat
  srcEp : Nat
  sq : Nat
  destEp : Nat
  expected : Nat
  /-- Filled slots: PSN and descriptor. -/
  slots : List (Nat × PD) := []
  lastAt : Nat := 0
  /-- Since when the slot at EXPECTED has been empty while later slots are filled. -/
  gapAt : Option Nat := none
deriving DecidableEq, Repr

/-- A control packet that may cut through (R251): its output and input, its head cell; or, for a bad one, the flit that goes out stomped. -/
structure Cut where
  output : Nat
  input : Nat
  head : Nat
  stomped : Option (List Byte) := none
deriving DecidableEq, Repr

/-- The order in which inputs join a queue (R252): the FCLK of the last commits, the rotating pointer they began with, the input that joined
first, and how many descriptors joined in that FCLK. -/
structure Join where
  at_ : Nat := 0
  base : Nat := 0
  first : Nat := 34
  n : Nat := 0
deriving DecidableEq, Repr

/-- A reclaim sweep (R268): the owner tags, when it began, how far the walk is, the head cells it marked RECLAIM, and the cells allocated under
its tags since it began. -/
structure Sweep where
  tags : List Nat
  start : Option Nat := none
  pos : Nat := 0
  marked : List Nat := []
  fresh : List Nat := []
deriving DecidableEq, Repr

/-- A leak audit in progress (R271, R272). -/
structure Audit where
  pos : Nat := 0
  free : Nat := 0
  /-- Frees and allocations of cells the walk has passed. -/
  frees : Nat := 0
  allocs : Nat := 0
  marking : Bool := false
  leaked : Nat := 0
  first : Option Nat := none
deriving DecidableEq, Repr

/-- One class of a lane of an output (R280): start value S, whether it is backlogged with its gate open, its candidate's VC and head cell
with its finish tag F, and the rotating pointer over the class's queues. -/
structure ClassSt where
  s : Nat := 0
  backlogged : Bool := false
  cand : Option (Nat × Nat) := none
  f : Nat := 0
  ptr : Nat := 0
deriving DecidableEq, Repr

/-- One switch output (R275 to R289). Times are in units of 1/264 ns. -/
structure OutSt where
  sending : Option Sending := none
  ctl : List ClassSt := [{}, {}, {}, {}]
  data : List ClassSt := [{}, {}, {}, {}]
  /-- When its next slot begins. -/
  slotDue : Nat := 0
  /-- Up to when its control tokens are accounted (R277). -/
  tokAt : Nat := 0
  /-- Of each lane, the FCLK of its last selection and V as it stood before the first selection of that FCLK (R282). -/
  ctlV : Nat × Nat := (0, 0)
  dataV : Nat × Nat := (0, 0)
deriving DecidableEq, Repr

/-- A packet that has reached an internal output and waits for its endpoint: the output, the switch port it arrived on, the packet. -/
structure Inb where
  output : Nat
  input : Nat
  pkt : Pkt
  /-- Fabric time at its arrival (R387). -/
  ft : Nat := 0
deriving DecidableEq, Repr

/-- An originated flow (R258): source endpoint, SQ, destination address and endpoint; the next PSN and the PSNs outstanding. -/
structure OrigFlow where
  srcEp : Nat
  sq : Nat
  destAddr : Nat
  destEp : Nat
  next : Nat := 0
  outst : List Nat := []
deriving DecidableEq, Repr

/-- The switch core and the buffer pool manager. -/
structure SwitchState where
  cells : Tbl Cell := []
  pkts : Tbl BufPkt := []
  /-- The 1,120 queues, keyed 32 × output + VC. -/
  queues : Tbl (List PD) := []
  opens : Tbl OpenPkt := []
  outs : Tbl OutSt := []
  offers : List Offer := []
  /-- Committed multicast packets the replicator has not yet taken. -/
  repl : List PD := []
  /-- Control packets that became ready for cut-through in this FCLK, the outputs' rotating pointers, and the outputs that have made their choice in
  this FCLK (R251). -/
  cuts : List Cut := []
  cutPtr : Tbl Nat := []
  cutTook : List Nat := []
  /-- The order of commits to each queue (R252). -/
  joins : Tbl Join := []
  /-- The allocator (R244): the FCLK it hands out cells in, the free lists that have handed one out in it, and the winner of the last tie. The cells
  freed in the FCLK freedAt, which are back on their lists only at its end (R238). Cells that stand on a free list without being FREE
  (R270). -/
  allocAt : Nat := 0
  allocUsed : List Nat := []
  tieWon : Option Nat := none
  freedAt : Nat := 0
  freed : List Nat := []
  stray : List Nat := []
  /-- SCH_CTRL.CLEAR acts at the end of this FCLK (R292). -/
  clearDue : Bool := false
  residues : List Residue := []
  flows : List Flow := []
  sweeps : List Sweep := []
  /-- Sweeps whose walk has ended and whose forced reclaim is still due. -/
  swept : List Sweep := []
  audit : Option Audit := none
  auditAsked : Bool := false
  lastMarking : Option Nat := none
  auditStart : Nat := 0
  /-- The last queue the age scanner visited (R264). -/
  scanPtr : Nat := 0
  /-- The queue the sampler visits next, 0 to 839 (R290). -/
  samplePtr : Nat := 0
  /-- Packets delivered and not yet consumed, oldest first. -/
  inbox : List Inb := []
  psn : List OrigFlow := []
  /-- Control-packet tags, one counter a source endpoint. -/
  ctags : Tbl Nat := []
  /-- Loans are being recalled (R242). -/
  recalling : Bool := false
  /-- Origin discards (R226) of the command that is running, on their way to the party that originated the packet: the packet, the party,
  and the reason. -/
  failed : List (Pkt × Orig × Nat) := []
deriving DecidableEq, Repr

end Sys2Proof.Machine
end

