-- ==== Sys2Proof/Machine/State.lean ====
section
/-! DEFINITION. The state of the block as plain data, its state after reset, and the reasons a command can stop. -/

namespace Sys2Proof.Machine

/-- Reasons a command ends in a fault: none. The spec gives every error of this hardware an effect on the state, so no command
faults, and the type has no constructor. Safe. -/
inductive Fault where
deriving DecidableEq, Repr

/-- Reasons a command is refused. -/
inductive Refusal where
  /-- Raised by the arm of a command that has no meaning yet. Safe: the run stops. -/
  | notModelled (mnemonic : String)
  /-- Raised by DEBUG_INSTRUCTION while PERMS bit 0 is set: R471 says the debug instructions are decoded then and gives none of their
  encodings or effects. Safe: the run stops. -/
  | debugInstruction (code : Nat)
deriving DecidableEq, Repr

/-- The state of the block. -/
structure State where
  /-- FCLK cycles of the local time base since reset (R4); microseconds of local time are now / 1650. -/
  now : Nat
  /-- Fabric time (R390, R392). -/
  ftime : Word64
  /-- Every register of the register tables that does not read as its reset value, by BAR0 offset (R8, R444). -/
  regs : Tbl Word
  /-- Pending writes of RWB registers, by BAR0 offset (R9, R33). -/
  shadow : Tbl Word
  /-- Lower halves of 64-bit pairs waiting for the upper write (R8). -/
  heldWrites : List PairHold
  /-- Upper halves captured by reads of the lower register (R8). -/
  captured : List PairHold
  /-- GDDR7 bytes that have a known value, by address (R141); an unlisted byte has no defined value. -/
  gddr : List Host.Cell
  /-- Number of times the undefined bytes of GDDR7 have been renewed by a training or a reset (R144). -/
  gddrGen : Nat
  /-- Core SRAM bytes: physical core × 2 MiB + offset (R43). -/
  sram : List Host.Cell
  /-- Physical cores whose SRAM has been zeroed (R72): their unlisted bytes are zero, those of the others are undefined. -/
  zeroed : List Nat
  pat : PatState
  cores : Tbl Core
  jobs : List Job
  slots : Tbl Slot
  combines : List Combine
  mem : MemState
  ports : Tbl Port
  lanes : Tbl Lane
  switch : SwitchState
  col : ColState
  det : DetState
  boot : BootState
  clock : ClockState
  fault : FaultState
  obs : ObsState
  host : HostState
  power : PowerState
  /-- What the block sent over its boundary, oldest first. -/
  out : List Out
  /-- The model's own: how many free values have been drawn. No statement rests on its value. -/
  free : Nat
  /-- The commands that wait, first in, first out. -/
  pending : List Instr
deriving DecidableEq, Repr

/-- The state after reset: the power-on reset has just been released (R378, R381); every register at the reset value of its table, every
queue empty. -/
def State.reset : State where
  now := 0
  ftime := 0
  regs := []
  shadow := []
  heldWrites := []
  captured := []
  gddr := []
  gddrGen := 0
  sram := []
  zeroed := []
  pat := {}
  cores := []
  jobs := []
  slots := []
  combines := []
  mem := {}
  ports := []
  lanes := []
  switch := {}
  col := {}
  det := {}
  boot := { powered := true, railsGood := some 0 }
  clock := {}
  fault := {}
  obs := {}
  host := {}
  power := { inputOn := true }
  out := []
  free := 0
  pending := []

end Sys2Proof.Machine
end

