-- ==== Sys2Proof/Machine/Ops.lean ====
section
/-! DEFINITION. The named operations over registers, interrupts, the access-error log, fault reports, and the device's memories. -/

namespace Sys2Proof.Machine

open Sys2Proof

/-! Registers (R8 to R12) -/

/-- The stored value of a 32-bit register. -/
def State.getR (s : State) (r : Reg) : Nat := (Tbl.read s.regs (BitVec.ofNat 32 r.reset) r.off).toNat

/-- Writes a 32-bit register. -/
def State.setR (s : State) (r : Reg) (v : Nat) : State :=
  { s with regs := Tbl.write s.regs (BitVec.ofNat 32 r.reset) r.off (BitVec.ofNat 32 v) }

/-- The lower register of a 64-bit pair. -/
def Reg64.low (r : Reg64) : Reg := ⟨r.off, r.reset % 2 ^ 32⟩

/-- The upper register of a 64-bit pair. -/
def Reg64.high (r : Reg64) : Reg := ⟨r.off + 4, r.reset / 2 ^ 32⟩

/-- The stored value of a 64-bit pair. -/
def State.getR64 (s : State) (r : Reg64) : Nat := s.getR r.low + 2 ^ 32 * s.getR r.high

/-- Writes a 64-bit pair. -/
def State.setR64 (s : State) (r : Reg64) (v : Nat) : State :=
  (s.setR r.low (v % 2 ^ 32)).setR r.high (v / 2 ^ 32)

/-- A field of a register. -/
def State.get (s : State) (f : Fld) : Nat := bits (s.getR f.reg) f.lo f.width

/-- A field of a register as a flag. -/
def State.flag (s : State) (f : Fld) : Bool := s.get f != 0

/-- Writes a field of a register. -/
def State.set (s : State) (f : Fld) (v : Nat) : State := s.setR f.reg (putBits (s.getR f.reg) f.lo f.width v)

/-- A field of a 64-bit pair. -/
def State.get64 (s : State) (f : Fld64) : Nat := bits (s.getR64 f.reg) f.lo f.width

/-- Writes a field of a 64-bit pair. -/
def State.set64 (s : State) (f : Fld64) (v : Nat) : State :=
  s.setR64 f.reg (putBits (s.getR64 f.reg) f.lo f.width v)

/-- Adds to an event count, which saturates at its all-ones value (R12). -/
def State.count (s : State) (f : Fld) (n : Nat := 1) : State := s.set f (satAdd f.width (s.get f) n)

/-- Adds to a count that wraps to 0. -/
def State.countWrap (s : State) (f : Fld) (n : Nat := 1) : State := s.set f (s.get f + n)

/-- The live pair of a register row: the register of an offset, with its reset value. -/
def regOf (off : Nat) : Reg :=
  match regAt off with
  | some (row, ix) => ⟨off, row.resetAt ix⟩
  | none => ⟨off, 0⟩

/-! Time -/

/-- Fabric time as a number. -/
def State.ft (s : State) : Nat := s.ftime.toNat

/-- Microseconds of the local time base (R399). -/
def State.usNow (s : State) : Nat := s.now / 1650

/-- FCLK cycles in a number of microseconds. -/
def fclk (us : Nat) : Nat := 1650 * us

/-! Boundary outputs, free values -/

/-- Sends something over the boundary. -/
def State.emit (s : State) (o : Out) : State := { s with out := s.out ++ [o] }

/-- Draws a fresh undefined word. -/
def State.draw (s : State) : Nat × State := ((Config.freeWord s.free).toNat, { s with free := s.free + 1 })

/-! MSI-X (R459) -/

/-- A word of the MSI-X table: 4 words an entry; the mask bit is set at reset. -/
def State.msixWord (s : State) (v i : Nat) : Nat := Tbl.read s.host.msix (if i = 3 then 1 else 0) (4 * v + i)

/-- Sends the message of a vector. -/
def State.sendMsix (s : State) (v : Nat) : State :=
  s.emit (.msix v (s.msixWord v 0 + 2 ^ 32 * s.msixWord v 1) (s.msixWord v 2))

/-- Raises a vector: a masked vector becomes pending; causes of one vector that arise within one SCLK raise one message. -/
def State.raiseVec (s : State) (v : Nat) : State :=
  let c := s.now / 4 + 1
  if s.msixWord v 3 % 2 = 1 then
    { s with host := { s.host with msixPending := putBits s.host.msixPending v 1 1 } }
  else if Tbl.read s.host.raisedAt 0 v = c then s
  else { s.sendMsix v with host := { s.host with raisedAt := Tbl.write s.host.raisedAt 0 v c } }

/-! The access-error log (R460) -/

/-- Records an access in the access-error log: space (0 BAR0, 1 BAR2, 2 internal command), offset, whether a write, kind. -/
def State.aerr (s : State) (space off : Nat) (write : Bool) (kind : Nat) : State :=
  let i := s.getR HIF_AERR_PROD % 16
  let s := s.setR64 (HIF_AERR_ADDR i) (off % 2 ^ 38)
  let s := s.setR (HIF_AERR_INFO i) (space + 4 * b2n write + 16 * kind)
  let s := s.setR (HIF_AERR_TIME i) (s.ft % 2 ^ 32)
  (s.countWrap HIF_AERR_PROD_PROD).raiseVec 2

/-! Fault reports (R397) -/

/-- Reports an event of a source to the fault collector, which takes it up at the end of the command. -/
def State.report (s : State) (src inst detail : Nat) : State :=
  { s with fault := { s.fault with queue := s.fault.queue ++ [{ src := src, inst := inst, detail := detail }] } }

/-- Whether the fatal decision has been taken (R410). -/
def State.fatal (s : State) : Bool := s.flag FLT_STATUS_FATAL

/-- Whether a port, lane, physical core, gateway or controller is fenced (R405). -/
def State.portFenced (s : State) (p : Nat) : Bool := bit (s.getR FLT_FENCE_PORT) p
def State.laneFenced (s : State) (l : Nat) : Bool := bit (s.getR (FLT_FENCE_LANE (l / 32))) (l % 32)
def State.coreFenced (s : State) (P : Nat) : Bool := bit (s.getR (FLT_FENCE_CORE (P / 32))) (P % 32)
def State.gwFenced (s : State) (g : Nat) : Bool := bit (s.getR FLT_FENCE_UNIT) g
def State.ctlFenced (s : State) (c : Nat) : Bool := bit (s.getR FLT_FENCE_UNIT) (8 + c)

/-! Sub-state accessors -/

/-- The engine and DMA state of a logical core. -/
def State.core (s : State) (L : Nat) : Core := Tbl.read s.cores {} L

/-- Writes the state of a logical core. -/
def State.setCore (s : State) (L : Nat) (c : Core) : State := { s with cores := Tbl.write s.cores {} L c }

/-- Changes the state of a logical core. -/
def State.modCore (s : State) (L : Nat) (f : Core → Core) : State := s.setCore L (f (s.core L))

/-- A port's state. -/
def State.port (s : State) (p : Nat) : Port := Tbl.read s.ports {} p

def State.setPort (s : State) (p : Nat) (x : Port) : State := { s with ports := Tbl.write s.ports {} p x }

def State.modPort (s : State) (p : Nat) (f : Port → Port) : State := s.setPort p (f (s.port p))

/-- A lane's state. -/
def State.lane (s : State) (l : Nat) : Lane := Tbl.read s.lanes {} l

def State.modLane (s : State) (l : Nat) (f : Lane → Lane) : State :=
  { s with lanes := Tbl.write s.lanes {} l (f (s.lane l)) }

/-- The replay state of a logical core. -/
def State.cdet (s : State) (L : Nat) : CoreDet := Tbl.read s.det.cores {} L

def State.modDet (s : State) (L : Nat) (f : CoreDet → CoreDet) : State :=
  { s with det := { s.det with cores := Tbl.write s.det.cores {} L (f (s.cdet L)) } }

/-- A submission ring's working state. -/
def State.ring (s : State) (r : Nat) : RingState := Tbl.read s.host.rings {} r

def State.modRing (s : State) (r : Nat) (f : RingState → RingState) : State :=
  { s with host := { s.host with rings := Tbl.write s.host.rings {} r (f (s.ring r)) } }

/-- A job by its key. -/
def State.jobOf (s : State) (key : Nat) : Option Job := s.jobs.find? (·.key == key)

def State.modJob (s : State) (key : Nat) (f : Job → Job) : State :=
  { s with jobs := s.jobs.map fun j => if j.key == key then f j else j }

/-! Enables that need a live pattern (R13) -/

/-- Whether a full pattern is live. -/
def State.patLive (s : State) : Bool := s.flag PAT_STATUS_LIVE_VALID

/-- Whether the switch core is active: enabled, with a live pattern. -/
def State.swcActive (s : State) : Bool := s.flag SWC_CTRL_EN && s.patLive

/-- Whether the collective engine is active: enabled, with a live pattern. -/
def State.colActive (s : State) : Bool := s.flag COL_CTRL_EN && s.patLive

/-! Core mapping (R43, R44) -/

/-- The physical core behind a logical core, if it has one. -/
def State.phys (s : State) (L : Nat) : Option Nat :=
  if s.flag (CORE_MAP_VALID L) then some (s.get (CORE_MAP_PHYS L)) else none

/-- The gateway of a logical core (R46): rows 2g and 2g + 1 of 9 cores each. -/
def gatewayOf (L : Nat) : Nat := L / 18

/-- The logical core carried by a physical core, if any. -/
def State.carried (s : State) (P : Nat) : Option Nat :=
  if s.flag (CORE_PHYS_CARRIES P) then some (s.get (CORE_PHYS_LOGICAL P)) else none

/-! Core SRAM (R43 to R48) -/

/-- Bytes of a core's SRAM. -/
def sramSize : Nat := 0x200000

/-- A byte of a physical core's SRAM. -/
def State.sramByte (s : State) (P a : Nat) : Byte :=
  match Tbl.find s.sram (P * sramSize + a) with
  | some b => b
  | none => if s.zeroed.contains P then 0 else Config.sramByte s.gddrGen (P * sramSize + a)

/-- Stores a byte of a physical core's SRAM; a zero byte of a zeroed SRAM is not listed. -/
def sramPut (zeroed : List Nat) (m : List Host.Cell) (k : Nat) (b : Byte) : List Host.Cell :=
  if b = 0 ∧ zeroed.contains (k / sramSize) then Tbl.drop m k else Tbl.insert m k b

/-- Stores bytes from a key on. -/
def sramPuts (zeroed : List Nat) : List Host.Cell → Nat → List Byte → List Host.Cell
  | m, _, [] => m
  | m, k, b :: bs => sramPuts zeroed (sramPut zeroed m k b) (k + 1) bs

/-- n bytes of a logical core's SRAM from an offset; offsets wrap at 2 MiB. -/
def State.sramRead (s : State) (L a n : Nat) : List Byte :=
  match s.phys L with
  | some P => (List.range n).map fun i => s.sramByte P ((a + i) % sramSize)
  | none => List.replicate n 0

/-- Writes bytes of a logical core's SRAM; bytes past its end are not stored. -/
def State.sramWrite (s : State) (L a : Nat) (bs : List Byte) : State :=
  match s.phys L with
  | some P => { s with sram := sramPuts s.zeroed s.sram (P * sramSize + a % sramSize) (bs.take (sramSize - a % sramSize)) }
  | none => s

/-- Zeroes the SRAM of a physical core (R48, R72). -/
def State.sramZero (s : State) (P : Nat) : State :=
  { s with sram := s.sram.filter (fun c => c.1 / sramSize != P)
           zeroed := if s.zeroed.contains P then s.zeroed else s.zeroed ++ [P] }

/-- The canonical form of the SRAM list: keys strictly rising, no zero byte of a zeroed core. -/
def sramWf (zeroed : List Nat) (m : List Host.Cell) : Bool :=
  Tbl.risesFrom none m && m.all (fun c => !(c.2 == 0 && zeroed.contains (c.1 / sramSize)))

/-! GDDR7 (R141, R13) -/

/-- Bytes of GDDR7. -/
def gddrSize : Nat := 144 * 2 ^ 30

/-- A byte of GDDR7: one that nothing has written since the last training or reset is undefined. -/
def State.gddrByte (s : State) (a : Nat) : Byte :=
  match Tbl.find s.gddr a with
  | some b => b
  | none => Config.gddrByte s.gddrGen a

/-- Stores bytes of GDDR7 from an address on. -/
def gddrPuts : List Host.Cell → Nat → List Byte → List Host.Cell
  | m, _, [] => m
  | m, a, b :: bs => gddrPuts (Tbl.insert m a b) (a + 1) bs

/-- n bytes of GDDR7. -/
def State.gddrRead (s : State) (a n : Nat) : List Byte := (List.range n).map fun i => s.gddrByte (a + i)

/-- Writes bytes of GDDR7; bytes past its end are not stored. -/
def State.gddrWrite (s : State) (a : Nat) (bs : List Byte) : State := { s with gddr := gddrPuts s.gddr a (bs.take (gddrSize - a)) }

/-- Makes an address range of GDDR7 undefined. -/
def State.gddrForget (s : State) (inRange : Nat → Bool) : State :=
  { s with gddr := s.gddr.filter (fun c => !inRange c.1), gddrGen := s.gddrGen + 1 }

/-- The canonical form of the GDDR7 list: addresses strictly rising, inside the 144 GiB. An unlisted address has no value of its own, so
no entry can equal it. -/
def gddrWf (m : List Host.Cell) : Bool := Tbl.risesFrom none m && m.all (fun c => decide (c.1 < gddrSize))

/-- The canonical form of the memories. -/
def Memory.wf (s : State) : Bool := gddrWf s.gddr && sramWf s.zeroed s.sram

/-! Local addresses (R45, R141) -/

/-- Base of the core SRAM windows. -/
def sramBase : Nat := 0x10000000000

/-- Where a local address lies: GDDR7, or a logical core's SRAM at an offset. -/
inductive Place where
  | gddr (a : Nat)
  | sram (L a : Nat)
  | nowhere
deriving DecidableEq, Repr

/-- The place of a local address. -/
def place (a : Nat) : Place :=
  if a < gddrSize then .gddr a
  else if sramBase ≤ a ∧ a < sramBase + 144 * sramSize then
    .sram ((a - sramBase) / sramSize) ((a - sramBase) % sramSize)
  else .nowhere

/-- n bytes from a local address. -/
def State.readLocal (s : State) (a n : Nat) : List Byte :=
  match place a with
  | .gddr a => s.gddrRead a n
  | .sram L o => s.sramRead L o n
  | .nowhere => List.replicate n 0

/-- Writes bytes at a local address. -/
def State.writeLocal (s : State) (a : Nat) (bs : List Byte) : State :=
  match place a with
  | .gddr a => s.gddrWrite a bs
  | .sram L o => s.sramWrite L o bs
  | .nowhere => s

/-! The live pattern's identity (R22) -/

/-- The live pieces of a type. -/
def State.pieces (s : State) (t : Nat) : List Piece := s.pat.live.filter (·.type == t)

/-- The records of the live pieces of a type, in piece order. -/
def State.recs (s : State) (t : Nat) : List (List Byte) := ((s.pieces t).map (·.recs)).flatten

end Sys2Proof.Machine
end

