-- ==== Sys2Proof/Machine/Obs.lean ====
section
/-! DEFINITION. The trace unit and the activity counters (R418 to R435), the GDDR7 address map (R142), and the passing of time. -/

namespace Sys2Proof.Machine

open Sys2Proof

/-! The address map -/

/-- HASHED_UNITS (R142). -/
def State.hashedUnits (s : State) : Nat := min 24 (s.get MEM_SPLIT_HASHED_UNITS)

/-- The controller and controller address of a GDDR7 address (R142), for u hashed units. -/
def mapAddr (u a : Nat) : Nat × Nat :=
  let hb := u * 2 ^ 28
  if a < 24 * hb then
    let n := a / 256
    let q := n / 24
    let r := n % 24
    let h := (q % 32) ^^^ (q / 2 ^ 5 % 32) ^^^ (q / 2 ^ 10 % 32) ^^^ (q / 2 ^ 15 % 32) ^^^ (q / 2 ^ 20 % 32)
    ((r + h) % 24, q * 256 + a % 256)
  else
    let d := a - 24 * hb
    let lb := 6 * 2 ^ 30 - hb
    (d / lb, hb + d % lb)

/-- The controller of a GDDR7 address. -/
def State.ctlOf (s : State) (a : Nat) : Nat := (mapAddr s.hashedUnits a).1

/-- The channel of a GDDR7 address (R143). -/
def State.chanOf (s : State) (a : Nat) : Nat := (mapAddr s.hashedUnits a).2 / 256 % 4

/-- Whether any 256-byte granule of a GDDR7 range lies on a controller that is fenced (R405). -/
def State.rangeFenced (s : State) (a n : Nat) : Bool :=
  bits (s.getR FLT_FENCE_UNIT) 8 24 != 0 &&
    (List.range ((a + n + 255) / 256 - a / 256)).any fun i => s.ctlFenced (s.ctlOf ((a / 256 + i) * 256))

/-! The trace unit -/

/-- Record types of R428. -/
def trJobStart : Nat := 0x01
def trJobEnd : Nat := 0x02
def trDescStart : Nat := 0x03
def trDescDone : Nat := 0x04
def trStall : Nat := 0x05
def trReplay : Nat := 0x06
def trColRole : Nat := 0x07
def trDiscard : Nat := 0x08
def trLink : Nat := 0x09
def trFault : Nat := 0x0A
def trSeam : Nat := 0x0B
def trMark : Nat := 0x0C
def trTimeStep : Nat := 0x0D
def trTrigger : Nat := 0x0E
def trGap : Nat := 0x0F

/-- The live TRACE record (R429). -/
def State.tracePiece (s : State) : Option (List Byte) := (s.recs 0x0B).head?

/-- The 32 bytes of a trace record (R427). -/
def TRec.bytes (r : TRec) : List Byte :=
  leBytes 8 r.time ++ leBytes 1 r.type ++ leBytes 1 r.unit ++ leBytes 2 r.sub ++ leBytes 4 r.addr ++ leBytes 8 r.d0 ++ leBytes 8 r.d1

/-- Capacity in records (R429). -/
def State.traceCap (s : State) : Nat :=
  match s.obs.spill with
  | some (_, units) => 2048 * units
  | none => 8192

/-- Whether a record matches the TRACE piece's trigger (R429). -/
def traceMatch (p : List Byte) (r : TRec) : Bool :=
  field p 0x04 1 != 0 && field p 0x04 1 == r.type && (bit (field p 0x14 1) 2 || field p 0x05 1 == r.unit) &&
    ((r.addr % 2 ^ 32) ^^^ field p 0x08 4) &&& field p 0x0C 4 == 0

/-- Puts a record into the next slot of the on-die ring. With spill, a record that would overwrite one not yet spilled is lost (R432). -/
def State.tracePut (s : State) (r : TRec) : State :=
  let i := s.get OBS_TRACE_WPTR_INDEX
  if s.obs.spill.isSome && s.obs.written ≥ s.get64 OBS_TRACE_SPILLED_COUNT + 8192 then
    { s.count OBS_TRACE_LOST_COUNT with
      obs := { s.obs with gap := s.obs.gap + 1, gapTime := if s.obs.gap = 0 then r.time else s.obs.gapTime } }
  else
    let s := { s with obs := { s.obs with ring := Tbl.insert s.obs.ring i r, written := s.obs.written + 1
                                          postLeft := s.obs.postLeft - 1 } }
    let s := s.set OBS_TRACE_WPTR_INDEX ((i + 1) % 8192)
    if i = 8191 then s.set OBS_TRACE_STATUS_WRAPPED 1 else s

/-- Whether events are recorded now: ARMED, or POST with records left. -/
def State.traceOn (s : State) : Bool :=
  s.get OBS_TRACE_STATUS_STATE == 1 || (s.get OBS_TRACE_STATUS_STATE == 2 && s.obs.postLeft != 0)

/-- Whether the writer may write a record now: also in SHUTDOWN, where the records in flight are written. -/
def State.traceOpen (s : State) : Bool := s.traceOn || s.get OBS_TRACE_STATUS_STATE == 5

/-- The GAP record that goes in front of the next record after losses (R430). -/
def State.traceGap (s : State) : State :=
  if s.obs.gap = 0 || !s.traceOpen then s
  else
    let r : TRec := { time := s.ft, type := trGap, unit := 0xD8, sub := 0, addr := 0, d0 := s.obs.gap, d1 := s.obs.gapTime }
    { s with obs := { s.obs with gap := 0 } }.tracePut r

/-- Fires the trigger (R431): writes the TRIGGER record and enters POST. -/
def State.traceFire (s : State) (cause : Nat) (m : Option TRec) : State :=
  if s.get OBS_TRACE_STATUS_STATE != 1 || s.flag OBS_TRACE_STATUS_TRIGGERED then s
  else
    let s := s.traceGap
    let r : TRec := { time := s.ft, type := trTrigger, unit := (m.map (·.unit)).getD 0xD8, sub := cause
                      addr := (m.map (·.addr)).getD 0, d0 := s.obs.written, d1 := (m.map (·.time)).getD 0 }
    let s := (s.set OBS_TRACE_TRIG_INDEX (s.get OBS_TRACE_WPTR_INDEX)).tracePut r
    let s := (s.set OBS_TRACE_STATUS_TRIGGERED 1).set OBS_TRACE_STATUS_STATE 2
    let post := match s.tracePiece with
      | some p => min (field p 0x10 4) (s.traceCap - 1)
      | none => 0
    { s with obs := { s.obs with postLeft := post } }

/-- Counts a record that matches the trigger, and fires at the TRIG_COUNTth. -/
def State.traceCheck (s : State) (r : TRec) : State :=
  match s.tracePiece with
  | some p =>
    if s.get OBS_TRACE_STATUS_STATE == 1 && traceMatch p r then
      let n := s.obs.matched + 1
      let s := { s with obs := { s.obs with matched := n } }
      if n ≥ max 1 (field p 0x06 2) then s.traceFire 1 (some r) else s
    else s
  | none => s

/-- Offers a record to the trace unit: filtered by the TRACE piece, staged in its source's queue, lost when that queue holds four. -/
def State.trace (s : State) (type unit sub addr d0 d1 : Nat) : State :=
  match s.tracePiece with
  | some p =>
    let keep := bit (field p 0x00 4) type && (unit ≥ 144 || bit (field p 0x18 18) unit)
    if !s.traceOn || !keep then s
    else
      let r : TRec := { time := s.ft, type := type, unit := unit, sub := sub % 2 ^ 16, addr := addr % 2 ^ 32
                        d0 := d0 % 2 ^ 64, d1 := d1 % 2 ^ 64 }
      if (s.obs.staged.filter (·.1 == unit)).length < 4 then
        { s with obs := { s.obs with staged := s.obs.staged ++ [(unit, r)] } }
      else
        { s.count OBS_TRACE_LOST_COUNT with
          obs := { s.obs with gap := s.obs.gap + 1, gapTime := if s.obs.gap = 0 then r.time else s.obs.gapTime } }.traceCheck r
  | none => s

/-- Which of two records the writer takes first: smallest TIME, then UNIT, then TYPE (R430). -/
def TRec.before (a b : TRec) : Bool :=
  a.time < b.time || (a.time == b.time && (a.unit < b.unit || (a.unit == b.unit && a.type < b.type)))

/-- The staged record the writer takes next: the first of its queue with the smallest key. -/
def pickStaged : List (Nat × TRec) → Option (Nat × TRec)
  | [] => none
  | x :: xs =>
    match pickStaged xs with
    | none => some x
    | some y => if y.2.before x.2 && y.1 != x.1 then some y else some x

/-- Writes up to n staged records. -/
def State.traceDrain : Nat → State → State
  | 0, s => s
  | n + 1, s =>
    match pickStaged s.obs.staged with
    | none => s
    | some x =>
      let s := { s with obs := { s.obs with staged := s.obs.staged.erase x } }
      if s.traceOpen then
        let s := s.traceGap
        traceDrain n ((if s.traceOpen then s.tracePut x.2 else s).traceCheck x.2)
      else traceDrain n s

/-! Activity counters -/

/-- Number of a counter set: 4 L + engine for a core, 576 for the collective engine. -/
def colSet : Nat := 576

/-- The core states of R72. -/
def stOff : Nat := 0
def stZeroing : Nat := 1
def stIdle : Nat := 2
def stRun : Nat := 3
def stHalted : Nat := 4
def stFaulted : Nat := 5
def stShutdown : Nat := 6
def stFenced : Nat := 7

/-- The state of a logical core. -/
def State.cst (s : State) (L : Nat) : Nat := s.get (CORE_STATUS_STATE L)

/-- Adds to a counter set: BUSY, one STALL counter, IDLE; each wraps at 48 bits (R422). -/
def CSet.add (c : CSet) (busy idle : Nat) (stall : Nat) (cycles : Nat) : CSet :=
  { busy := (c.busy + busy) % 2 ^ 48, idle := (c.idle + idle) % 2 ^ 48
    stall := c.stall.set stall ((c.stall.getD stall 0 + cycles) % 2 ^ 48) }

/-- The n ACLK edges that follow phase ph of the 16-edge group as runs of edges that the throttle removes, or leaves: the first k of each group go
(R481). -/
def edgeRuns (k ph n : Nat) : List (Bool × Nat) :=
  if k = 0 then [(false, n)]
  else
    let part (a b : Nat) : Nat := min b (ph + n) - max a ph
    ((List.range ((ph + n + 15) / 16)).flatMap fun g =>
      [(true, part (16 * g) (16 * g + k)), (false, part (16 * g + k) (16 * g + 16))]).filter fun r => r.2 != 0

/-- Whether a local range needs the GDDR7 subsystem while it takes no accesses: the access waits (R69, R145). -/
def State.memWaits (s : State) (a n : Nat) : Bool := decide (a < gddrSize) && decide (0 < n) && !s.flag MEM_CTRL_EN

/-- Whether the source of a transfer's packet waits for the GDDR7 subsystem. -/
def State.xferWaits (s : State) (x : Xfer) : Bool := s.memWaits x.src (if 0x40 ≤ x.op && x.lit.isNone then x.len else 0)

/-- Whether the source or the destination that a descriptor's bytes name lies in GDDR7 while that takes no accesses. -/
def State.placesWait (s : State) (bs : List Byte) : Bool :=
  s.memWaits (field bs 0x08 8) (field bs 4 4) || s.memWaits (field bs 0x10 8) (field bs 4 4)

/-- The operations the collective engine carries out (R66). -/
def isCollective (op : Nat) : Bool := decide (0x20 ≤ op) && decide (op ≤ 0x28)

/-- What an engine of a core is doing when it is not busy: none when idle, else the stall reason (R419 to R421). -/
def State.engineStall (s : State) (L eng : Nat) : Option Nat :=
  let c := s.core L
  let st := s.cst L
  let fence := st == stFaulted || (s.cdet L).takeover
  match eng with
  | 0 => if fence then some 7 else if st == stRun then
      some (if s.flag (CORE_STATUS_STALLED L) then s.get (CORE_STATUS_STALL L) else 5) else none
  | 1 => if c.ops.any (·.eng == .mxe) then (if fence then some 7 else some 5) else none
  | 2 => if c.ops.any (·.eng == .vxu) then (if fence then some 7 else some 5) else none
  | _ =>
    let ds := c.queues.flatten
    if ds.isEmpty then none
    else if fence then some 7
    else if ds.any (fun d => d.todo.head?.any s.xferWaits || (!d.started && s.placesWait d.bytes)) then some 1
    else if ds.any (fun d => !d.todo.isEmpty || !d.outst.isEmpty) then some 2
    else if ds.any (fun d => d.held || (!d.started && isCollective (field d.bytes 0 1))) then some 4
    else some 1

/-- Whether an engine works through every cycle while an instruction is in flight on it (R420). -/
def State.engineBusy (s : State) (L eng : Nat) : Bool :=
  let c := s.core L
  let live := s.cst L == stRun || s.cst L == stHalted
  match eng with
  | 1 => live && c.ops.any (·.eng == .mxe)
  | 2 => live && c.ops.any (·.eng == .vxu)
  | _ => false

/-- Ends the stall in progress of a set: a STALL record when it lasted at least 2^STALL_MIN cycles (R428). -/
def State.endStall (s : State) (k : Nat) : State :=
  match Tbl.find s.obs.stalls k with
  | none => s
  | some (reason, n, pc) =>
    let s := { s with obs := { s.obs with stalls := Tbl.drop s.obs.stalls k } }
    match s.tracePiece with
    | some p =>
      if k < colSet && n ≥ 2 ^ field p 0x15 1 then
        s.trace trStall (k / 4) (k % 4 + 4 * reason) pc n 0
      else s
    | none => s

/-- Begins a stall of a set, at the instruction its core stands at. -/
def State.beginStall (s : State) (k reason n : Nat) : State :=
  { s with obs := { s.obs with stalls := Tbl.insert s.obs.stalls k (reason, n, s.get (SEQ_PC_INDEX (k / 4))) } }

/-- Continues or begins the stall of a set. -/
def State.runStall (s : State) (k reason n : Nat) : State :=
  if n = 0 then s
  else match Tbl.find s.obs.stalls k with
    | some (r, m, pc) =>
      if r = reason then { s with obs := { s.obs with stalls := Tbl.insert s.obs.stalls k (r, m + n, pc) } }
      else (s.endStall k).beginStall k reason n
    | none => s.beginStall k reason n

/-- Passes cycles on one counter set: first those in which it was busy, then the stall or idleness. -/
def State.passSet (s : State) (k cycles : Nat) (whole : Bool) (stall : Option Nat) : State :=
  let due := Tbl.read s.obs.busyDue 0 k
  let busy := if whole then cycles else min due cycles
  let rest := cycles - busy
  let s := { s with obs := { s.obs with busyDue := Tbl.write s.obs.busyDue 0 k (due - min due cycles) } }
  let live := match stall with
    | some r => (Tbl.read s.obs.live {} k).add busy 0 r rest
    | none => (Tbl.read s.obs.live {} k).add busy rest 0 0
  let s := { s with obs := { s.obs with live := Tbl.write s.obs.live {} k live } }
  let s := if busy = 0 && stall.isSome then s else s.endStall k
  match stall with
  | some r => s.runStall k r rest
  | none => s

/-- Passes removed edges on a core's set: each is a cycle of THERMAL (R421). -/
def State.passThermal (s : State) (k cycles : Nat) : State :=
  let live := (Tbl.read s.obs.live {} k).add 0 0 6 cycles
  { s with obs := { s.obs with live := Tbl.write s.obs.live {} k live } }.runStall k 6 cycles

/-- Passes a run of edges on a core's set; FENCE comes before THERMAL (R421). -/
def State.passRun (s : State) (k : Nat) (whole : Bool) (stall : Option Nat) (run : Bool × Nat) : State :=
  if run.1 && stall != some 7 then s.passThermal k run.2 else s.passSet k run.2 whole stall

/-- Passes runs of edges on the four sets of a core that is not OFF. -/
def State.passCore (s : State) (runs : List (Bool × Nat)) (L : Nat) : State :=
  if s.cst L == stOff then s
  else [0, 1, 2, 3].foldl (fun s e => runs.foldl (fun s r => s.passRun (4 * L + e) (s.engineBusy L e) (s.engineStall L e) r) s) s

/-- What the collective engine waits for when its adders serve nothing (R420, R421): the memory, the fabric, or a ticket, as a posted standby does. -/
def State.colStall (s : State) : Option Nat :=
  if s.col.roles.isEmpty && s.combines.isEmpty && s.col.ending.isEmpty then none
  else if s.col.roles.any fun r => s.placesWait r.2.bytes then some 1
  else if s.col.roles.any (fun r => !r.2.standby || r.2.active) || !s.combines.isEmpty || !s.col.ending.isEmpty then some 2
  else some 4

/-- Applies the resets of counter sets that take effect in the next cycle (R425). -/
def State.applyResets (s : State) : State :=
  s.obs.resetDue.foldl (fun s d =>
    let keys := if d.1 = 144 then [colSet] else [4 * d.1, 4 * d.1 + 1, 4 * d.1 + 2, 4 * d.1 + 3]
    { s with obs := { s.obs with live := keys.foldl (fun t k => Tbl.drop t k) s.obs.live
                                 resetCause := Tbl.insert s.obs.resetCause d.1 d.2
                                 resetDue := Tbl.drop s.obs.resetDue d.1 } }) s

/-- Passes n FCLK on every counter set; the fatal decision gates the clocks they count (R410). -/
def State.passCounters (s : State) (n : Nat) : State :=
  let runs := edgeRuns (s.get PWR_THROTTLE_K) s.obs.phase (2 * n)
  let s := if s.fatal then s else
    let s := (List.range 144).foldl (fun s L => s.passCore runs L) s
    s.passSet colSet n false s.colStall
  let s := s.applyResets
  { s with obs := { s.obs with phase := (s.obs.phase + 2 * n) % 16, lastSnap := if n = 0 then s.obs.lastSnap else none } }

/-- Marks cycles in which an engine worked: an instruction issued, bytes moved, adders served. -/
def State.busy (s : State) (k n : Nat) : State :=
  { s with obs := { s.obs with busyDue := Tbl.write s.obs.busyDue 0 k (Tbl.read s.obs.busyDue 0 k + n) } }

/-- What the last snapshot says of a core's sets (R425): that it fell in the cycle of a reset, or which reset came last. -/
def State.noteSnap (s : State) (L : Nat) : State :=
  match Tbl.find s.obs.resetDue L with
  | some (cause, tag) => (s.setR (OBS_CORE_SNAPINFO L) (1 + 2 * cause)).setR (OBS_CORE_SNAPTAG L) tag
  | none =>
    let (cause, tag) := Tbl.read s.obs.resetCause (0, 0) L
    (s.setR (OBS_CORE_SNAPINFO L) (2 * cause)).setR (OBS_CORE_SNAPTAG L) (if cause = 2 then 0xFFFFFFFF else tag)

/-- Takes a snapshot of every set (R423 to R425); requests that fall in one FCLK produce one. -/
def State.snapshot (s : State) : State :=
  if s.obs.lastSnap = some s.now then s
  else
    let s := { s with obs := { s.obs with snap := s.obs.live, lastSnap := some s.now } }
    let s := (s.setR64 OBS_SNAP_TAKEN s.ft).countWrap OBS_SNAP_COUNT_COUNT
    (List.range 144).foldl State.noteSnap s

/-- Has the sets of a list of cores, 144 for the collective engine's, reset in the next cycle, with the cause and its tag; a snapshot of this cycle
holds what was before (R425). -/
def State.resetSets (s : State) (Ls : List Nat) (cause tag : Nat) : State :=
  let s := { s with obs := { s.obs with resetDue := Ls.foldl (fun t L => Tbl.insert t L (cause, tag)) s.obs.resetDue } }
  if s.obs.lastSnap = some s.now then (Ls.filter (· < 144)).foldl State.noteSnap s else s

/-! Time -/

/-- The armed fabric times: those of the seam, the start barrier and the snapshot. -/
def State.armedTimes (s : State) : List Nat :=
  (if s.flag PAT_STATUS_ARMED then [s.getR64 PAT_SEAM_TIME] else []) ++
    (if s.flag DET_START_CTRL_ARM then [s.getR64 DET_START_TIME] else []) ++
    (if s.flag OBS_CTRL_SNAP_ARM then [s.getR64 OBS_SNAP_TIME] else [])

/-- Ticks of a slew applied in n FCLK: one in every 16 (R392). A positive slew does not pass over an armed time: in the FCLK before it the counter
advances by one. -/
def State.slewIn (s : State) (n : Nat) : Nat :=
  if n = 1 ∧ !s.clock.slewNeg ∧ s.armedTimes.contains (s.ft + 1) then 0
  else if s.flag PWR_FTIME_CTRL_SLEWING then min (s.get PWR_FTIME_SLEW_LEFT_TICKS) ((s.clock.slewPhase + n) / 16) else 0

/-- What fabric time advances by in n FCLK. -/
def State.ftIn (s : State) (n : Nat) : Nat := if s.clock.slewNeg then n - s.slewIn n else n + s.slewIn n

/-- Passes n FCLK of time on the clocks: the local time base always, fabric time once the root PLL has locked. -/
def State.passClock (s : State) (n : Nat) : State :=
  let k := s.slewIn n
  let ft := if s.flag PWR_CLK_STATUS_ROOT_LOCK then s.ftime + BitVec.ofNat 64 (s.ftIn n) else s.ftime
  let s := { s with ftime := ft, now := s.now + n, clock := { s.clock with slewPhase := (s.clock.slewPhase + n) % 16 } }
  if k = 0 then s
  else
    let s := s.set PWR_FTIME_SLEW_LEFT_TICKS (s.get PWR_FTIME_SLEW_LEFT_TICKS - k)
    if s.get PWR_FTIME_SLEW_LEFT_TICKS = 0 then
      (s.set PWR_FTIME_CTRL_SLEWING 0).raiseVec 6
    else s

/-- Control tokens of one output after n slot times (R277). -/
def tokensAfter (t rate burst n : Nat) : Nat := min (max t (burst * 256)) (t + rate * n)

/-- Enters a core's state, with its engines' stall flags cleared. -/
def State.setCst (s : State) (L st : Nat) : State :=
  ((s.set (CORE_STATUS_STATE L) st).set (CORE_STATUS_STALL L) 0).set (CORE_STATUS_STALLED L) 0

end Sys2Proof.Machine
end

