-- ==== Sys2Proof/Machine/Route.lean ====
section
/-! DEFINITION. Packet headers (R205 to R212), the identity and port map of the live pattern (R22, R23), and the decision at each hop
(R214 to R222). -/

namespace Sys2Proof.Machine

open Sys2Proof

/-! Headers -/

/-- Bits [lo + w - 1 : lo] of the common header (R205). -/
def Pkt.h (p : Pkt) (lo w : Nat) : Nat := bits (leNat (p.hdr.take 16)) lo w

def Pkt.destAddr (p : Pkt) : Nat := p.h 0 21
def Pkt.destEp (p : Pkt) : Nat := p.h 21 8
def Pkt.cls (p : Pkt) : Nat := p.h 29 2
def Pkt.plane (p : Pkt) : Nat := p.h 31 1
def Pkt.srcAddr (p : Pkt) : Nat := p.h 32 21
def Pkt.srcEp (p : Pkt) : Nat := p.h 53 8
def Pkt.epoch (p : Pkt) : Nat := p.h 61 1
def Pkt.esc (p : Pkt) : Nat := p.h 62 1
def Pkt.wrev (p : Pkt) : Nat := p.h 63 1
def Pkt.hops (p : Pkt) : Nat := p.h 64 8
def Pkt.age (p : Pkt) : Nat := p.h 72 16
def Pkt.opcode (p : Pkt) : Nat := p.h 88 8
def Pkt.pgen (p : Pkt) : Nat := p.h 96 8
def Pkt.ctag (p : Pkt) : Nat := p.h 104 16

/-- Fields of a data header (R206). -/
def Pkt.rsq (p : Pkt) : Bool := p.data && bit (field p.hdr 15 1) 0
def Pkt.mcast (p : Pkt) : Bool := p.data && bit (field p.hdr 15 1) 1
def Pkt.last (p : Pkt) : Bool := p.data && bit (field p.hdr 15 1) 2
def Pkt.byteCount (p : Pkt) : Nat := field p.hdr 0x10 2 % 4096
def Pkt.psn (p : Pkt) : Nat := field p.hdr 0x12 2
def Pkt.sq (p : Pkt) : Nat := if p.data then field p.hdr 0x14 1 else 0
def Pkt.addr (p : Pkt) : Nat := field p.hdr 0x18 6
/-- An operation field at its header offset. -/
def Pkt.op (p : Pkt) (off n : Nat) : Nat := field p.hdr off n
/-- The payload bytes that count. -/
def Pkt.payload (p : Pkt) : List Byte := p.pay.take p.byteCount

/-- The XOR of bytes. -/
def xorBytes (bs : List Byte) : Byte := bs.foldl (· ^^^ ·) 0

/-- The header parity byte of a header (R207). -/
def hparOf (data : Bool) (hdr : List Byte) : Byte := xorBytes (hdr.take (if data then 63 else 15))

/-- Where the header parity byte lies. -/
def hparAt (data : Bool) : Nat := if data then 63 else 15

/-- Whether a packet's header parity holds. -/
def Pkt.hparOk (p : Pkt) : Bool := (p.hdr.drop (hparAt p.data)).take 1 == [hparOf p.data p.hdr]

/-- Writes a header field at the origin and the header parity with it. -/
def Pkt.seal (p : Pkt) : Pkt := { p with hdr := spliceAt p.hdr (hparAt p.data) [hparOf p.data p.hdr] }

/-- Replaces bits of the common header, with HPAR updated by XOR of the changed bytes (R207). -/
def Pkt.setH (p : Pkt) (lo w v : Nat) : Pkt :=
  let old := p.hdr.take 15
  let new := leBytes 15 (putBits (leNat old) lo w v)
  let i := hparAt p.data
  let par := xorBytes (p.hdr.drop i |>.take 1) ^^^ xorBytes old ^^^ xorBytes new
  { p with hdr := spliceAt (spliceAt p.hdr 0 new) i [par] }

/-- The first 15 bytes of a header at its origin: HOPS, ESC and WREV zero; AGE_STAMP is written when the switch accepts the packet. -/
def hdr15 (dest ep cls plane src sep epoch op pgen ctag : Nat) : List Byte :=
  leBytes 15 (dest % 2 ^ 21 + ep % 2 ^ 8 * 2 ^ 21 + cls % 4 * 2 ^ 29 + plane % 2 * 2 ^ 31 + src % 2 ^ 21 * 2 ^ 32 +
    sep % 2 ^ 8 * 2 ^ 53 + epoch % 2 * 2 ^ 61 + op % 2 ^ 8 * 2 ^ 88 + pgen % 2 ^ 8 * 2 ^ 96 + ctag % 2 ^ 16 * 2 ^ 104)

/-- The class of an opcode (R209); none for an opcode that is not in the table. -/
def opClass (data : Bool) (op : Nat) : Option Nat :=
  if data then
    if op = 0x40 ∨ op = 0x42 ∨ op = 0x43 ∨ op = 0x44 ∨ op = 0x46 then some 2
    else if op = 0x41 then some 3
    else if op = 0x45 ∨ op = 0x50 ∨ op = 0x51 ∨ op = 0x52 ∨ op = 0x54 then some 1
    else none
  else
    if op = 0x01 ∨ op = 0x02 ∨ op = 0x03 then some 3
    else if op = 0x04 then some 2
    else if op = 0x05 then some 0
    else if 0x10 ≤ op ∧ op ≤ 0x1E then some 0
    else if 0x20 ≤ op ∧ op ≤ 0x22 then some 0
    else none

/-- Virtual channel of a packet on its current hop (R212). -/
def Pkt.vc (p : Pkt) : Nat := 8 * p.cls + 4 * p.plane + 2 * p.epoch + p.esc

/-- Flits of a packet: 1, or the header flit and its payload flits (R206). -/
def Pkt.flits (p : Pkt) : Nat := if p.data then 1 + (p.byteCount + 63) / 64 else 1

/-- Cells a packet fills (R236). -/
def cellsOf (flits : Nat) : Nat := (flits + 3) / 4

/-! The live identity and port map -/

/-- The live IDENT record. -/
def State.ident (s : State) : Option (List Byte) := (s.recs 0x01).head?

/-- The own fabric address; 0x1F_FFFF without a live pattern. -/
def State.ownAddr (s : State) : Nat :=
  match s.ident with
  | some r => field r 0 4 % 2 ^ 21
  | none => 0x1FFFFF

/-- First rank and rank count of the device (R22). -/
def State.rankBase (s : State) : Nat := ((s.ident).map (field · 4 2)).getD 0
def State.rankCount (s : State) : Nat := ((s.ident).map (field · 6 2)).getD 0

/-- A coordinate of an address: dimensions 1 X, 2 Y, 3 Z, 4 W (R201). -/
def coord (a d : Nat) : Nat :=
  if d = 1 then a % 16 else if d = 2 then a / 16 % 16 else if d = 3 then a / 256 % 32 else a / 8192 % 256

/-- The extent of a dimension from an IDENT record (R22). -/
def extent (r : List Byte) (d : Nat) : Nat :=
  if d = 1 then field r 8 1 else if d = 2 then field r 9 1 else if d = 3 then field r 10 1 else field r 11 1 + 1

/-- Whether an address lies within the extents. -/
def inExtents (r : List Byte) (a : Nat) : Bool := [1, 2, 3, 4].all fun d => decide (coord a d < extent r d)

/-- The live PORTMAP record of a port (R23). -/
def State.portmap (s : State) (p : Nat) : Option (List Byte) := (s.recs 0x02).find? fun r => field r 0 1 == p

def State.portDim (s : State) (p : Nat) : Nat := ((s.portmap p).map (field · 1 1)).getD 0
def State.portPlanes (s : State) (p : Nat) : Nat := ((s.portmap p).map (field · 5 1)).getD 0

/-- The W port upstream (DIM 4) or downstream (DIM 5). -/
def State.wPort (s : State) (dim : Nat) : Option Nat := (List.range 24).find? fun p => s.portDim p == dim

/-- The route table of an epoch's bank and a plane. -/
def State.routes (s : State) (epoch plane : Nat) : List (List Byte) :=
  let b := if epoch = 0 then s.pat.bank0 else s.pat.bank1
  if plane = 0 then b.plane0 else b.plane1

/-- Whether the bank of an epoch is valid (R35, R36): staged or live. -/
def State.bankValid (s : State) (epoch : Nat) : Bool :=
  if epoch = 0 then s.flag PAT_EPOCH_STATUS_BANK0_VALID else s.flag PAT_EPOCH_STATUS_BANK1_VALID

/-- The epoch originated packets carry. -/
def State.curEpoch (s : State) : Nat := s.get PAT_EPOCH_STATUS_CUR_EPOCH

/-! Endpoints -/

/-- The first gateway from g on that is not fenced, wrapping (R203). -/
def State.gatewayFrom (s : State) (g : Nat) : Option Nat :=
  ((List.range 8).map fun i => (g + i) % 8).find? fun g => !s.gwFenced g

/-- The switch port of a selector for a packet's ADDR (R202, R203): none when the selector is reserved. -/
def State.epPort (s : State) (ep addr : Nat) : Option (Option Nat) :=
  if ep < 144 then some (some (24 + gatewayOf ep))
  else if ep = 0xC0 then some ((s.gatewayFrom (addr / 256 % 8)).map (24 + ·))
  else if ep = 0xC8 then some (some 32)
  else if ep = 0xD0 then some (some 33)
  else if ep = 0xD8 then some (some 34)
  else none

/-- Whether the endpoint of a selector serves an opcode (R204). -/
def epServes (ep : Nat) (data : Bool) (op : Nat) : Bool :=
  if ep < 144 then
    if data then op == 0x40 || op == 0x41 || op == 0x43 || op == 0x44 || op == 0x46
    else op == 1 || op == 2 || op == 3 || op == 4 || op == 5
  else if ep = 0xC0 then
    if data then op == 0x40 || op == 0x41 || op == 0x42 || op == 0x43 || op == 0x44 || op == 0x46
    else op == 1 || op == 2 || op == 3 || op == 4
  else if ep = 0xC8 then
    if data then op == 0x45 || op == 0x50 || op == 0x51 || op == 0x52 || op == 0x54
    else op == 1 || op == 2 || op == 3 || (0x10 ≤ op && op ≤ 0x1E)
  else false

/-- A packet's ADDR for the choice of the GDDR7 gateway: the source address of a READ_REQ, else the header's. -/
def Pkt.placeAddr (p : Pkt) : Nat := if p.data then p.addr else field p.pay 0 6

/-! The decision -/

/-- Usable for routing (R220). -/
def State.usable (s : State) (plane p : Nat) : Bool :=
  bit (s.getR RTE_PORT_UP) p && !bit (s.getR RTE_PORT_MASK) p && bit (s.portPlanes p) plane

/-- The outcome of a decision: an output and the packet as it leaves, or a discard reason; and what the counters have to note. -/
structure Decision where
  out : Option Nat
  reason : Nat := 0
  pkt : Pkt
  forward : Bool := false
  reversed : Bool := false
  detour : Bool := false
deriving DecidableEq, Repr

/-- The dimension order of a plane (R215). -/
def dimOrder (plane : Nat) : List Nat := if plane = 0 then [1, 2, 3, 4] else [4, 3, 2, 1]

/-- Position of a dimension in a list. -/
def posOf (d : Nat) : List Nat → Nat
  | [] => 0
  | x :: xs => if x = d then 0 else posOf d xs + 1

/-- The dimension a port belongs to, both W ports counting as W. -/
def State.arrDim (s : State) (arr : Option Nat) : Option Nat :=
  match arr with
  | some p => if p < 24 then
      (let d := s.portDim p
       if d = 0 then none else some (if d = 5 then 4 else d)) else none
  | none => none

/-- Whether a W hop through a port crosses the dateline (R215). -/
def State.crosses (s : State) (own : Nat) (n : Nat) (port : Nat) : Bool :=
  if s.portDim port = 5 then coord own 4 == n - 1 else coord own 4 == 0

/-- A packet as it takes an external hop (R221, R222). -/
def hopPkt (p : Pkt) (esc wrev : Nat) : Pkt := ((p.setH 64 8 (p.hops + 1)).setH 62 1 esc).setH 63 1 wrev

/-- The decision of R221 for a routed packet: arr is the external port it arrived on, if any. -/
def State.route (s : State) (p : Pkt) (arr : Option Nat) : Decision :=
  let no (r : Nat) : Decision := { out := none, reason := r, pkt := p }
  match s.ident with
  | none => no 1
  | some id =>
    let own := s.ownAddr
    if p.destAddr = own then
      match s.epPort p.destEp p.placeAddr with
      | none => no 5
      | some none => no 14
      | some (some q) => { out := some q, pkt := p }
    else if !inExtents id p.destAddr then no 1
    else if !s.bankValid p.epoch then no 7
    else
      match (dimOrder p.plane).find? fun d => coord own d != coord p.destAddr d with
      | none => no 1
      | some d =>
        let arrd := s.arrDim arr
        let order := dimOrder p.plane
        let late : Bool := match arrd with
          | some a => decide (posOf d order < posOf a order)
          | none => false
        if late then no 4
        else
          let tbl := s.routes p.epoch p.plane
          let key (r : List Byte) : Nat := field r 1 3
          if tbl.any (fun r => field r 0 1 == 3 && key r == p.destAddr) then no 6
          else if p.hops ≥ max 1 (s.get RTE_CFG_HOP_LIMIT) then no 2
          else if d = 4 then
            let down := s.wPort 5
            let up := s.wPort 4
            let fwd := if p.plane = 0 then down else up
            let rev := if p.plane = 0 then up else down
            let pick := if p.wrev = 0 then fwd else rev
            let other := if p.wrev = 0 then rev else fwd
            let escOf (port : Nat) : Nat :=
              b2n ((arrd == some 4 && p.esc == 1) || s.crosses own (extent id 4) port)
            let ok (x : Option Nat) : Bool := match x with
              | some q => s.usable p.plane q
              | none => false
            if ok pick then
              let q := pick.getD 0
              { out := some q, pkt := hopPkt p (escOf q) p.wrev, forward := true }
            else if p.wrev = 0 ∧ ok other then
              let q := other.getD 0
              { out := some q, pkt := hopPkt p (escOf q) 1, forward := true, reversed := true }
            else no 1
          else
            let r := match tbl.find? fun r => field r 0 1 == 2 && key r == p.destAddr with
              | some r => some r
              | none => tbl.find? fun r => field r 0 1 == 1 && field r 1 1 == d && field r 2 1 == coord p.destAddr d
            match r with
            | none => no 1
            | some r =>
              let mn := field r 4 1
              let det := field r 5 1
              if s.usable p.plane mn then { out := some mn, pkt := hopPkt p 0 p.wrev, forward := true }
              else if arrd = some d then no 1
              else if det ≠ 0xFF ∧ s.usable p.plane det then
                { out := some det, pkt := hopPkt p 1 p.wrev, forward := true, detour := true }
              else no 1

/-- Whether a delivered packet has an opcode, kind and class of the table that its endpoint serves (R204, R209). Selector 0xD0 takes every
request, to refuse it (R448). -/
def Pkt.served (p : Pkt) : Bool :=
  opClass p.data p.opcode == some p.cls && (epServes p.destEp p.data p.opcode || (p.destEp == 0xD0 && p.cls != 3))

/-- Whether a packet is addressed to the neighbour address (R208): it is never routed. -/
def Pkt.toNeighbour (p : Pkt) : Bool := p.destAddr == 0x1FFFFF

/-- Whether a packet is a neighbour packet (R208): a control packet to the neighbour address. -/
def Pkt.neighbour (p : Pkt) : Bool := !p.data && p.toNeighbour

/-- Whether a neighbour packet is one that management ports exchange (R208, R387). -/
def Pkt.neighbourOk (p : Pkt) : Bool :=
  p.neighbour && p.destEp == 0xD8 && p.cls == 0 && (p.opcode == 0x20 || p.opcode == 0x21 || p.opcode == 0x22)

/-- The plane an origin chooses (R216). -/
def State.planeFor (s : State) (dest ep src sep sq : Nat) : Nat :=
  let key := leBytes 3 dest ++ leBytes 1 ep ++ leBytes 3 src ++ leBytes 1 sep ++ leBytes 1 sq
  let hash := (crc32c key ^^^ s.getR RTE_HASH_SEED) % 2
  let n := match s.ident with
    | some id => extent id 4
    | none => 1
  let ws := coord src 4
  let wd := coord dest 4
  if ws = wd then hash
  else
    let dn := (wd + n - ws) % n
    let up := n - dn
    if dn < up then 0 else if up < dn then 1 else hash

/-- A control packet originated on this device. -/
def State.mkCtl (s : State) (dest ep sep op ctag : Nat) (plane : Option Nat) (pay : List Byte) : Pkt :=
  let own := s.ownAddr
  let pl := plane.getD (s.planeFor dest ep own sep 0)
  ({ data := false
     hdr := hdr15 dest ep ((opClass false op).getD 0) pl own sep s.curEpoch op (s.getR PAT_GEN_LIVE) ctag ++ [0]
     pay := slice pay 0 48 } : Pkt).seal

/-- A data packet originated on this device. -/
def State.mkData (s : State) (dest ep sep op ctag : Nat) (plane : Option Nat) (dflags psn sq addr : Nat) (ops : List Byte)
    (pay : List Byte) : Pkt :=
  let own := s.ownAddr
  let pl := plane.getD (s.planeFor dest ep own sep sq)
  ({ data := true
     hdr := hdr15 dest ep ((opClass true op).getD 2) pl own sep s.curEpoch op (s.getR PAT_GEN_LIVE) ctag ++
       leBytes 1 dflags ++ leBytes 2 pay.length ++ leBytes 2 psn ++ leBytes 1 sq ++ [0, 0, 0] ++ leBytes 8 addr ++
       slice ops 0 31 ++ [0]
     pay := slice pay 0 (64 * ((pay.length + 63) / 64)) } : Pkt).seal

end Sys2Proof.Machine
end

