-- ==== Sys2Proof/Machine/Switch.lean ====
section
/-! DEFINITION. The shared buffer and its manager (R236 to R244, R266 to R272), the queues and marks (R234, R252, R262), the decision of a
complete packet and its discard (R221 to R229, R246, R263 to R265), origination (R226, R243), the resequencer (R258 to R261), the
replicator (R253 to R257), and a port's leaving service (R223). -/

namespace Sys2Proof.Machine

open Sys2Proof

/-- Changes the switch core's state. -/
def State.sw (s : State) (f : SwitchState → SwitchState) : State := { s with switch := f s.switch }

/-! Cells and counts (R236 to R239) -/

/-- Cells of the buffer. -/
def totalCells : Nat := 131072

/-- A cell's metadata. -/
def State.cell (s : State) (c : Nat) : Cell := Tbl.read s.switch.cells {} c

/-- Writes a cell's metadata. -/
def State.setCell (s : State) (c : Nat) (x : Cell) : State := s.sw fun w => { w with cells := Tbl.write w.cells {} c x }

/-- Changes several cells. -/
def State.modCells (s : State) (cs : List Nat) (f : Cell → Cell) : State := cs.foldl (fun s c => s.setCell c (f (s.cell c))) s

/-- Number of cells with a property that a free cell does not have. -/
def State.countCells (s : State) (p : Cell → Bool) : Nat := (s.switch.cells.filter fun c => c.2.state != 0 && p c.2).length

/-- Cells on the free lists (BPM_FREE). -/
def State.cellsFree (s : State) : Nat := totalCells - s.countCells fun _ => true

/-- Cells in QUARANTINE (BPM_QUARANTINED). -/
def State.quarantined (s : State) : Nat := s.countCells (·.state == 3)

/-- The set-aside region: RES_CELLS over the running jobs (BPM_SETASIDE). -/
def State.setAside (s : State) : Nat := (s.jobs.map (·.cells)).sum

/-- U of an account (R240): cells that hold packets which arrived on the pair. -/
def State.inUse (s : State) (a : Nat) : Nat := s.countCells (·.acct == a)

/-- Cells held by an owner tag (BPM_OWNER_CELLS). -/
def State.ownedBy (s : State) (t : Nat) : Nat := s.countCells (·.owner == t)

/-- Cells lent to accounts, or held by an account above its reserve after its loan was dropped. -/
def State.lent (s : State) : Nat :=
  ((List.range 768).map fun a => max (s.get (BPM_ACCT_LOAN a)) (s.inUse a - 9)).sum

/-- Shared region not lent, not set aside and not held (BPM_SHARED). -/
def State.sharedFree (s : State) : Nat :=
  totalCells - 6912 - s.setAside - s.quarantined - s.lent -
    s.countCells (fun c => c.charge == 2 || c.charge == 4 || c.charge == 5) -
    (s.countCells (·.charge == 3) - s.setAside)

/-- STEP, MAX, FLOOR and RECALL as they act (R274). -/
def State.loanStep (s : State) : Nat := max 1 (s.get BPM_LOAN_CFG_STEP)
def State.loanMax (s : State) : Nat := min 1014 (s.get BPM_LOAN_CFG_MAX)
def State.floorCells (s : State) : Nat := s.get BPM_POOL_CFG_FLOOR
def State.recallCells (s : State) : Nat := min s.floorCells (s.get BPM_POOL_CFG_RECALL)

/-- Whether a port is ACTIVE, LP1 or LP2. -/
def State.portUp (s : State) (p : Nat) : Bool := s.flag (LNK_STATUS_UP p)

/-- Owes credit to the sender on an account while the port's link keeps its credits: INIT, ACTIVE, RETRAIN, LP1, LP2 (R188). -/
def State.owe (s : State) (a n : Nat) : State :=
  let st := s.get (LNK_STATUS_STATE (a / 32))
  if n = 0 ∨ st < 6 ∨ st > 0xA then s
  else s.modPort (a / 32) fun x =>
    { x with owed := Tbl.write x.owed 0 (a % 32) (Tbl.read x.owed 0 (a % 32) + n)
             owedAt := some (x.owedAt.getD s.now) }

/-- The loan request of an account whose U has changed, and its grant (R241). -/
def State.loanCheck (s : State) (a : Nat) : State :=
  let loan := s.get (BPM_ACCT_LOAN a)
  let step := s.loanStep
  if s.portUp (a / 32) ∧ s.inUse a + step ≥ 9 + loan ∧ loan + step ≤ s.loanMax ∧ s.sharedFree ≥ s.floorCells + step then
    (s.set (BPM_ACCT_LOAN a) (loan + step)).owe a step
  else s

/-- Starts and stops recall (R242). -/
def State.updRecall (s : State) : State :=
  let f := s.sharedFree
  if f < s.recallCells then s.sw fun w => { w with recalling := true }
  else if f ≥ s.floorCells then s.sw fun w => { w with recalling := false }
  else s

/-- A cell has left an account: its credit goes back, unless it is recalled (R240, R242). -/
def State.cellLeft (s : State) (a : Nat) : State :=
  if a ≥ 768 then s
  else
    let s := s.updRecall
    let loan := s.get (BPM_ACCT_LOAN a)
    let s := if s.switch.recalling ∧ loan > 0 then s.set (BPM_ACCT_LOAN a) (loan - 1) else s.owe a 1
    s.loanCheck a

/-- Records an event of R270 in BPM_FAULT_CELL. -/
def State.cellFault (s : State) (c kind : Nat) : State :=
  if s.flag BPM_FAULT_CELL_VALID then s else s.setR BPM_FAULT_CELL (c + kind * 2 ^ 17 + 2 ^ 31)

/-- A cell goes to QUARANTINE (R238, R270): its account is credited, the event recorded and reported. -/
def State.quarantine (s : State) (c kind : Nat) : State :=
  let x := s.cell c
  let s := (s.setCell c { state := 3, charge := 6, gen := x.gen }).set BPM_STATUS_QUARANTINE 1
  let s := (s.cellFault c kind).report (if kind = 2 then 0x1B else 0x1C) 0 c
  if x.state = 0 then s else s.cellLeft x.acct

/-- Whether the parity of a cell's metadata word or link word fails. -/
def Cell.wordBad (x : Cell) : Bool := x.badMeta || x.badLink

/-- Counts a free or an allocation of a cell that the audit's walk has passed (R271). -/
def State.auditNote (s : State) (c : Nat) (freed : Bool) : State :=
  match s.switch.audit with
  | some a =>
    if c < a.pos then
      s.sw fun w => { w with audit := some (if freed then { a with frees := a.frees + 1 } else { a with allocs := a.allocs + 1 }) }
    else s
  | none => s

/-- Frees one cell (R238, R270). A forced free of a head cell raises its generation (R269); credit is returned when asked. -/
def State.freeOne (s : State) (c : Nat) (forced credit : Bool) : State :=
  let x := s.cell c
  if x.state = 0 then
    (((s.count BPM_DOUBLE_FREE_COUNT).set BPM_STATUS_DOUBLE_FREE 1).cellFault c 1).report 0x1A 0 c
  else if x.state = 3 then s
  else if x.wordBad then s.quarantine c 3
  else
    let s := (s.setCell c { gen := if forced && x.head then (x.gen + 1) % 16 else x.gen }).auditNote c true
    let s := s.sw fun w => { w with freedAt := s.now, freed := (if w.freedAt = s.now then w.freed else []) ++ [c] }
    if credit then s.cellLeft x.acct else s.updRecall

/-! The allocator (R244): 16 free lists, cell c on list c mod 16, one cell from each in an FCLK -/

/-- Walks a free list from a cell on to one that can be handed out; a cell whose metadata has failed goes to QUARANTINE (R270). -/
def State.drawCell (taken : Nat → Bool) : Nat → Nat → State → Nat × State
  | 0, c, s => (c, s)
  | n + 1, c, s =>
    let x := s.cell c
    if x.state = 0 && x.wordBad then State.drawCell taken n ((c + 16) % totalCells) (s.quarantine c 3)
    else if x.state ≠ 0 || taken c then State.drawCell taken n ((c + 16) % totalCells) s
    else (c, s)

/-- The FCLK in which the next cell is handed out, and the lists that have handed one out in it. -/
def SwitchState.allocTurn (w : SwitchState) (now : Nat) : Nat × List Nat :=
  if w.allocAt < now then (now, [])
  else if w.allocUsed.length < 16 then (w.allocAt, w.allocUsed)
  else (w.allocAt + 1, [])

/-- Allocates one cell: from a list that has not yet served in the FCLK of the request. Which list, and which of its free cells, is a free value. What
a list holds that is not FREE goes to QUARANTINE (R270). -/
def State.allocOne (s : State) (x : Cell) : Nat × State :=
  let (t, used) := s.switch.allocTurn s.now
  let v := (Config.freeCell s.free).toNat
  let k := (((List.range 16).map fun i => (v + i) % 16).find? fun k => !used.contains k).getD 0
  let strays := s.switch.stray.filter fun c => c % 16 == k
  let s := strays.foldl (fun s c => s.quarantine c 2) { s with free := s.free + 1 }
  let s := s.sw fun w => { w with stray := w.stray.filter fun c => c % 16 != k, allocAt := t, allocUsed := used ++ [k] }
  let w := s.switch
  let taken (c : Nat) : Bool := decide (w.freedAt = t) && w.freed.contains c
  let (c, s) := State.drawCell taken (w.cells.length + w.freed.length) ((v / 16 * 16 + k) % totalCells) s
  let s := s.sw fun w => { w with sweeps := w.sweeps.map fun y => if y.tags.contains x.owner then { y with fresh := y.fresh ++ [c] } else y }
  (c, (s.setCell c { x with gen := (s.cell c).gen, mark := false }).auditNote c false)

/-- Allocates n cells of one kind. -/
def State.allocN : Nat → Cell → State → List Nat × State
  | 0, _, s => ([], s)
  | n + 1, x, s =>
    let (c, s) := s.allocOne x
    let (cs, s) := State.allocN n x s
    (c :: cs, s)

/-- Allocates one cell for an external account: reserved while U is at most 9, a loan above (R240). -/
def State.allocAcct (s : State) (a : Nat) : Nat × State :=
  let (c, s) := s.allocOne { state := 1, owner := a / 32, acct := a, charge := if s.inUse a < 9 then 0 else 1 }
  (c, s.loanCheck a)

/-- The bank and row in which flit f of a cell lies (R236). -/
def flitPlace (c f : Nat) : Nat × Nat := (4 * (c % 32) + f, c / 32)

/-- The cell whose flit lies in a bank and row. -/
def cellAt (bank row : Nat) : Nat := 32 * row + bank / 4

/-- Links the cells of a packet through NEXT, and marks its head. -/
def State.linkCells (s : State) (cells : List Nat) : State :=
  let s := (cells.zip (cells.drop 1)).foldl (fun s p => s.setCell p.1 { s.cell p.1 with next := p.2 }) s
  match cells with
  | h :: _ => s.setCell h { s.cell h with head := true }
  | [] => s

/-- A chain of staging cells is linked and held by one reference in its head cell. -/
def State.holdChain (s : State) (cells : List Nat) : State :=
  let s := s.linkCells cells
  match cells with
  | h :: _ => s.setCell h { s.cell h with ref := 1 }
  | [] => s

/-- The packet under a head cell. -/
def State.bufPkt (s : State) (head : Nat) : Option BufPkt := Tbl.find s.switch.pkts head

/-- Writes the packet under a head cell. -/
def State.setPkt (s : State) (head : Nat) (b : BufPkt) : State := s.sw fun w => { w with pkts := Tbl.insert w.pkts head b }

/-- Frees every cell of a packet. -/
def State.freePkt (s : State) (head : Nat) (forced : Bool := false) (credit : Bool := true) : State :=
  match s.bufPkt head with
  | none => s
  | some b =>
    let s := s.sw fun w => { w with pkts := Tbl.drop w.pkts head }
    b.cells.foldl (fun s c => s.freeOne c forced credit) s

/-- One copy of a packet is done: REF falls by one, and the packet is freed when no copy is left and none is being sent (R238). -/
def State.decRef (s : State) (head : Nat) : State :=
  let x := s.cell head
  let s := s.setCell head { x with ref := x.ref - 1 }
  if x.ref ≤ 1 && !x.tx then s.freePkt head else s

/-- Moves a packet's cells from their account to another charge; the account is credited (R239, R260). -/
def State.recharge (s : State) (head charge : Nat) : State :=
  match s.bufPkt head with
  | none => s
  | some b => b.cells.foldl (fun s c =>
      let x := s.cell c
      (s.setCell c { x with acct := 0x3FF, charge := charge }).cellLeft x.acct) s

/-- Gives a packet's cells an owner and a state. -/
def State.own (s : State) (head owner st : Nat) : State :=
  match s.bufPkt head with
  | none => s
  | some b => s.modCells b.cells fun x => { x with owner := owner, state := st }

/-! Queues (R234, R252, R262, R291) -/

/-- A queue: key 32 × output + VC. -/
def State.queue (s : State) (k : Nat) : List PD := Tbl.read s.switch.queues [] k

/-- Cells held by a queue's packets. -/
def depthOf (q : List PD) : Nat := (q.map fun d => cellsOf d.flits).sum

/-- An output's scheduling state. -/
def State.outSt (s : State) (o : Nat) : OutSt := Tbl.read s.switch.outs {} o

def State.modOut (s : State) (o : Nat) (f : OutSt → OutSt) : State :=
  s.sw fun w => { w with outs := Tbl.write w.outs {} o (f (Tbl.read w.outs {} o)) }

/-- Whether a descriptor names a control packet, which is always one flit. -/
def PD.isCtl (d : PD) : Bool := d.flits == 1

/-- Whether a class has a queue whose head is of a lane's kind (R276, R278). -/
def State.laneHas (s : State) (o : Nat) (ctl : Bool) (c : Nat) : Bool :=
  (List.range 8).any fun i => match s.queue (32 * o + 8 * c + i) with
    | d :: _ => d.isCtl == ctl
    | [] => false

/-- The virtual time of a lane. -/
def vtime (o : Nat) (ctl : Bool) : Reg := if ctl then SCH_OUT_CVTIME o else SCH_OUT_DVTIME o

/-- The class state of a lane. -/
def OutSt.cls (x : OutSt) (ctl : Bool) (c : Nat) : ClassSt := (if ctl then x.ctl else x.data).getD c {}

def OutSt.setCls (x : OutSt) (ctl : Bool) (c : Nat) (y : ClassSt) : OutSt :=
  if ctl then { x with ctl := x.ctl.set c y } else { x with data := x.data.set c y }

/-- V of a lane as it stood at the start of this FCLK (R282). -/
def State.laneV (s : State) (o : Nat) (ctl : Bool) : Nat :=
  let x := s.outSt o
  let v := if ctl then x.ctlV else x.dataV
  if v.1 = s.now then v.2 else s.getR (vtime o ctl)

/-- A selection sets V (R280). -/
def State.setV (s : State) (o : Nat) (ctl : Bool) (f : Nat) : State :=
  let v := (s.now, s.laneV o ctl)
  (s.modOut o fun x => if ctl then { x with ctlV := v } else { x with dataV := v }).setR (vtime o ctl) f

/-- Wakes a class that had nothing, or lets it go idle (R280). -/
def State.wakeClass (s : State) (o : Nat) (ctl : Bool) (c : Nat) : State :=
  let y := (s.outSt o).cls ctl c
  let has := s.laneHas o ctl c
  if has && !y.backlogged then
    s.modOut o (·.setCls ctl c { y with backlogged := true, cand := none, s := s.laneV o ctl })
  else if !has && y.backlogged then s.modOut o (·.setCls ctl c { y with backlogged := false, cand := none })
  else s

/-- Raises the high-water fields of a control-class queue (R291). -/
def State.noteHwm (s : State) (k : Nat) : State :=
  if k % 32 ≥ 8 then s
  else
    let q := s.queue k
    let i := 8 * (k / 32) + k % 32
    let wait := match q with | d :: _ => s.now - d.since | [] => 0
    let s := s.set (SCH_CQ_HWM_HWM_DEPTH i) (max (s.get (SCH_CQ_HWM_HWM_DEPTH i)) (min 0xFFFF (depthOf q)))
    s.set (SCH_CQ_HWM_HWM_WAIT i) (max (s.get (SCH_CQ_HWM_HWM_WAIT i)) (min 0xFFFF wait))

/-- Marks or unmarks a queue (R262). -/
def State.markQueue (s : State) (k : Nat) : State :=
  let o := k / 32
  let v := k % 32
  let depth := depthOf (s.queue k)
  let on := s.get SWC_MARK_ON
  let off := min on (s.get SWC_MARK_OFF)
  let m := s.getR (SWC_CONG o)
  if bit m v then (if depth ≤ off then s.setR (SWC_CONG o) (putBits m v 1 0) else s)
  else if depth ≥ on then (s.setR (SWC_CONG o) (putBits m v 1 1)).count SWC_MARK_EVENTS_COUNT
  else s

/-- Replaces a queue's list: a new head starts its wait, marks and high-water fields follow, and the class wakes or goes idle. -/
def State.setQueue (s : State) (k : Nat) (q : List PD) : State :=
  let s := s.noteHwm k
  let old := (s.queue k).head?.map fun d => (d.head, d.gen)
  let q := match q with
    | [] => []
    | d :: ds => (if old = some (d.head, d.gen) then d else { d with since := s.now }) :: ds
  let s := s.sw fun w => { w with queues := Tbl.write w.queues [] k q }
  let s := (s.markQueue k).noteHwm k
  (s.wakeClass (k / 32) true (k % 32 / 8)).wakeClass (k / 32) false (k % 32 / 8)

/-- The input of the packet under a head cell. -/
def State.inputAt (s : State) (head : Nat) : Nat := ((s.bufPkt head).map (·.input)).getD 0

/-- Puts an element into a list behind those of its own or a smaller rank. -/
def joinAt {α : Type} (rank : α → Nat) (x : α) : List α → List α
  | [] => [x]
  | y :: ys => if rank x < rank y then x :: y :: ys else y :: joinAt rank x ys

/-- A descriptor of a packet. -/
def State.pdOf (s : State) (head flits vc : Nat) : PD := { head := head, gen := (s.cell head).gen, flits := flits, vc := vc, since := s.now }

/-- A descriptor joins a queue, among those that have joined in this FCLK in rotating order over the input ports (R252). -/
def State.enqueue (s : State) (o vc head flits : Nat) : State :=
  let k := 32 * o + vc
  let i := s.inputAt head
  let old := Tbl.read s.switch.joins {} k
  let j : Join := if old.n > 0 ∧ old.at_ = s.now then old else { at_ := s.now, base := (old.first + 1) % 35, first := i, n := 0 }
  let rank (x : Nat) : Nat := (x + 35 - j.base) % 35
  let j := { j with n := j.n + 1, first := if rank i < rank j.first then i else j.first }
  let q := s.queue k
  let keep := q.length - (j.n - 1)
  let s := s.sw fun w => { w with joins := Tbl.write w.joins {} k j }
  s.setQueue k (q.take keep ++ joinAt (fun d : PD => rank (s.inputAt d.head)) (s.pdOf head flits vc) (q.drop keep))

/-- Packet descriptors in use (R235). -/
def State.pdUsed (s : State) : Nat :=
  (s.switch.queues.map (·.2.length)).sum + (s.switch.flows.map (·.slots.length)).sum

/-! Discards (R224, R225, R265) -/

/-- Counts and records a discard, and offers its trace record (R428). -/
def State.noteDiscard (s : State) (reason : Nat) (p : Pkt) (input : Nat) : State :=
  let s :=
    if reason < 8 then
      ((s.count (RTE_DISC_COUNT reason)).setR RTE_LAST_DISC (p.destAddr + reason * 2 ^ 21 + input * 2 ^ 24)).setR64
        RTE_LAST_DISC_TIME s.ft
    else
      ((s.count (SWC_DISC_COUNT reason)).setR SWC_LAST_DISC (p.srcAddr + reason * 2 ^ 21 + input * 2 ^ 25)).setR64
        SWC_LAST_DISC_TIME s.ft
  let s := s.trace trDiscard (0x90 + input) reason p.destAddr (p.opcode + p.ctag * 256) p.srcAddr
  if reason = 3 then s.report 0x18 0 input else s

/-- Whether a discard of a reason sends a REFUSE (R225, R265). BUF_PARITY and the exceptions of FENCED and RSQ_OUTSIDE are decided by the
caller. -/
def refusable (reason : Nat) (p : Pkt) : Bool :=
  reason != 3 && reason != 9 && reason != 15 && p.cls != 3 && !p.neighbour

/-- An answer of this device to a packet (R210): ACK, RETRY or REFUSE, with its code and detail, from an endpoint selector. -/
def State.answerPkt (s : State) (p : Pkt) (op code detail sep plane epoch : Nat) : Pkt :=
  ({ data := false
     hdr := hdr15 p.srcAddr p.srcEp 3 plane s.ownAddr sep epoch op (s.getR PAT_GEN_LIVE) p.ctag ++ [0]
     pay := slice (leBytes 1 code ++ [0, 0, 0] ++ leBytes 4 (detail % 2 ^ 32) ++ leBytes 8 p.placeAddr) 0 48 } : Pkt).seal

/-- The internal input through which an endpoint's packets enter the switch. -/
def State.inputOf (s : State) (ep addr : Nat) : Nat :=
  if ep < 144 then 24 + gatewayOf ep
  else if ep = 0xC0 then 24 + (s.gatewayFrom (addr / 256 % 8)).getD (addr / 256 % 8)
  else if ep = 0xC8 then 32 else if ep = 0xD0 then 33 else 34

/-- The REFUSE of a discarded packet (R225): plane and epoch of the packet, from its destination endpoint or, in transit, the management
port (R210). A multicast packet has come to its destination where it is delivered here. -/
def State.refusal (s : State) (reason : Nat) (p : Pkt) (here : Bool) : Offer :=
  let sep := if here || (!p.mcast && p.destAddr == s.ownAddr) then p.destEp else 0xD8
  { input := s.inputOf sep p.placeAddr, pkt := s.answerPkt p 0x03 reason 0 sep p.plane p.epoch, orig := .none }

/-! Age (R231, R263) -/

/-- The fabric time in microseconds, 16 bits. -/
def State.usFt (s : State) : Nat := s.ft / 1650 % 65536

/-- Whether a packet is aged. -/
def State.aged (s : State) (p : Pkt) : Bool :=
  decide ((s.usFt + 65536 - p.age) % 65536 > max 1 (s.get SWC_AGE_LIMIT_LIMIT))

/-! Decision and commit (R221, R246). The parameter says what becomes of a REFUSE. -/

/-- How a discard's REFUSE is sent on. -/
abbrev Refuser := State → Offer → State

/-- Discards a packet in the buffer: counted, its copy released, its REFUSE sent when one is due. -/
def State.discardHead (send : Refuser) (s : State) (reason head : Nat) (refuse : Bool := true) (here : Bool := false) : State :=
  match s.bufPkt head with
  | none => s
  | some b =>
    let s := (s.noteDiscard reason b.pkt b.input).decRef head
    if refuse && refusable reason b.pkt then send s (s.refusal reason b.pkt here) else s

/-- Discards a packet that no copy has been made of. -/
def State.discardNew (send : Refuser) (s : State) (reason head : Nat) : State :=
  match s.bufPkt head with
  | none => s
  | some b =>
    let s := (s.noteDiscard reason b.pkt b.input).freePkt head
    if refusable reason b.pkt then send s (s.refusal reason b.pkt false) else s

/-- Whether a ROUTE basting is staged. -/
def State.routeStaged (s : State) : Bool := s.flag PAT_STATUS_STAGED && s.pat.staged.any (·.type == 3)

/-- Classes a packet of the non-current epoch as ahead or late (R229). -/
def State.classEpoch (s : State) (p : Pkt) (d : Decision) : State :=
  if s.routeStaged && p.epoch != s.curEpoch then
    if p.pgen = s.getR PAT_GEN_STAGED % 256 then s.set PAT_STATUS_EPOCH_AHEAD 1
    else if d.forward then s.count RTE_LATE_EPOCH_COUNT else s
  else s

/-- What the destination's side finds wrong with a packet for an internal output: 0 for nothing, else a discard reason. -/
def State.deliverCheck (s : State) (p : Pkt) (o : Nat) : Nat :=
  if o < 24 || p.neighbour then 0
  else if !p.served then 5
  else if p.destEp < 144 && s.gwFenced (gatewayOf p.destEp) then 14
  else 0

/-- The arrival port of a packet for the decision: external inputs only. -/
def arrOf (input : Nat) : Option Nat := if input < 24 then some input else none

/-- Queues a unicast packet for an output: owner, REF = 1, state COMMITTED. -/
def State.toOutput (s : State) (head o vc : Nat) : State :=
  match s.bufPkt head with
  | none => s
  | some b =>
    let s := s.own head (0x40 + o) 2
    let s := s.setCell head { s.cell head with ref := 1 }
    s.enqueue o vc head b.pkt.flits

/-! The resequencer (R258 to R261) -/

/-- Index of a flow's entry. -/
def State.flowOf (s : State) (p : Pkt) : Option Nat :=
  s.switch.flows.findIdx? fun f => f.srcAddr == p.srcAddr && f.srcEp == p.srcEp && f.sq == p.sq && f.destEp == p.destEp

def State.modFlow (s : State) (i : Nat) (f : Flow → Flow) : State :=
  s.sw fun w => { w with flows := w.flows.modify i f }

/-- The RETRY of a packet (R261). -/
def State.retryOf (s : State) (p : Pkt) : Offer :=
  { input := s.inputOf p.destEp p.placeAddr
    pkt := s.answerPkt p 0x02 0 0 p.destEp (s.planeFor p.srcAddr p.srcEp s.ownAddr p.destEp 0) s.curEpoch, orig := .none }

/-- Whether a descriptor's generation still matches its head cell (R269). -/
def State.pdLive (s : State) (d : PD) : Bool := (s.cell d.head).gen == d.gen && (s.bufPkt d.head).isSome

/-- Drops a descriptor whose packet was reclaimed (R265, R269). Nothing of the packet is left, so what the record says of it is a free value. -/
def State.dropStale (s : State) : State :=
  let (x, s) := s.draw
  let (y, s) := s.draw
  s.noteDiscard 15 { data := false, hdr := leBytes 8 x ++ leBytes 8 y, pay := [] } (x / 2 ^ 40 % 35)

/-- Delivers a packet the resequencer lets go: to the output of its endpoint. Without one the packet is discarded with FENCED, which sends no REFUSE
for a multicast packet but the skip ACK (R257, R265). -/
def State.rsqDeliver (send : Refuser) (s : State) (d : PD) : State :=
  match s.bufPkt d.head with
  | none => s.dropStale
  | some b =>
    let p := b.pkt
    if !s.pdLive d then s.dropStale
    else match s.epPort p.destEp p.placeAddr with
    | some (some o) =>
      let s := if (s.cell d.head).charge = 4 then s.modCells b.cells fun x => { x with charge := 2 } else s
      if p.mcast then (s.own d.head 0x70 2).enqueue o p.vc d.head p.flits else s.toOutput d.head o p.vc
    | _ =>
      let s := s.discardHead send 14 d.head (!p.mcast) true
      if p.mcast then
        send s { input := s.inputOf p.destEp p.placeAddr, orig := .none
                 pkt := s.answerPkt p 0x01 0 (2 ^ 31 + 1) p.destEp (s.planeFor p.srcAddr p.srcEp s.ownAddr p.destEp 0) s.curEpoch }
      else s

/-- Delivers the consecutive filled slots of a flow from EXPECTED on (R260). -/
def State.rsqRun (send : Refuser) : Nat → Nat → State → State
  | 0, _, s => s
  | n + 1, i, s =>
    match s.switch.flows[i]? with
    | none => s
    | some f =>
      match f.slots.find? (·.1 == f.expected) with
      | none => s
      | some x =>
        let s := s.modFlow i fun f => { f with expected := (f.expected + 1) % 65536, slots := f.slots.erase x }
        State.rsqRun send n i (s.rsqDeliver send x.2)

/-- What every arrival of a flow ends with: the filled slots from EXPECTED on are delivered, and the gap time runs while the slot at EXPECTED is empty
and later slots are filled (R260, R261). -/
def State.rsqGo (send : Refuser) (s : State) (i oldExpected : Nat) : State :=
  (State.rsqRun send 256 i s).modFlow i fun f =>
    if f.slots.isEmpty then { f with gapAt := none }
    else if f.expected = oldExpected ∧ f.gapAt.isSome then f
    else { f with gapAt := some s.now }

/-- Whether a sweep of an owner tag has begun and not ended: no new cell takes the tag (R268). -/
def State.tagSwept (s : State) (t : Nat) : Bool := s.switch.sweeps.any fun w => w.tags.contains t

/-- The entry a new flow takes: a fresh one, or the one idle longest among the empty ones idle for 100 µs (R261). -/
def State.flowVictim (s : State) : Option Nat :=
  let cands := (List.range s.switch.flows.length).filter fun i =>
    match s.switch.flows[i]? with
    | some f => f.slots.isEmpty && decide (s.now - f.lastAt ≥ fclk 100)
    | none => false
  let at_ (i : Nat) : Nat := ((s.switch.flows[i]?).map (·.lastAt)).getD 0
  cands.foldl (fun b i => match b with
    | none => some i
    | some j => if at_ i < at_ j then some i else some j) none

/-- The slot a filled or new entry gives a flow: its index and the state with the entry made. -/
def State.flowEntry (s : State) (p : Pkt) : Option (Nat × State) :=
  match s.flowOf p with
  | some i => some (i, s)
  | none =>
    let f : Flow := { srcAddr := p.srcAddr, srcEp := p.srcEp, sq := p.sq, destEp := p.destEp, expected := p.ctag, lastAt := s.now }
    if s.switch.flows.length < 4096 then
      some (s.switch.flows.length, s.sw fun w => { w with flows := w.flows ++ [f] })
    else
      match s.flowVictim with
      | some i => some (i, s.sw fun w => { w with flows := w.flows.set i f })
      | none => none

/-- Releases one copy of a packet without a REFUSE or a count. -/
def State.dropCopy (s : State) (head : Nat) : State :=
  match s.bufPkt head with
  | some b => if b.pkt.mcast then s.decRef head else s.freePkt head
  | none => s

/-- A packet with RSQ = 1 for an internal endpoint reaches the resequencer (R259 to R261). -/
def State.rsqArrive (send : Refuser) (s : State) (head : Nat) : State :=
  match s.bufPkt head with
  | none => s
  | some b =>
    let p := b.pkt
    match s.flowEntry p with
    | none => send (s.dropCopy head) (s.retryOf p)
    | some (i, s) =>
      let old := ((s.switch.flows[i]?).map (·.expected)).getD 0
      let adv := (p.ctag + 65536 - old) % 65536
      let exp := if 1 ≤ adv ∧ adv ≤ 255 then p.ctag else old
      let slots := ((s.switch.flows[i]?).map (·.slots)).getD []
      let past := slots.filter fun x => (x.1 + 65536 - exp) % 65536 > 255
      let s := s.modFlow i fun f => { f with expected := exp, lastAt := s.now
                                             slots := f.slots.filter fun x => (x.1 + 65536 - exp) % 65536 ≤ 255 }
      let s := past.foldl (fun s x => if s.pdLive x.2 then s.discardHead send 12 x.2.head false else s.dropStale) s
      let full := ((s.switch.flows[i]?).map fun f => f.slots.any (·.1 == p.psn)).getD false
      if (p.psn + 65536 - exp) % 65536 > 255 ∨ full then
        let s := s.setCell head { s.cell head with ref := max 1 (s.cell head).ref }
        (s.discardHead send 12 head true true).rsqGo send i old
      else if p.psn ≠ exp ∧ (s.ownedBy 0x78 + b.cells.length > s.get SWC_RSQ_LIMIT_CELLS ∨ s.tagSwept 0x78) then
        (send (s.dropCopy head) (s.retryOf p)).rsqGo send i old
      else
        let s := if p.mcast then s else s.setCell head { s.cell head with ref := 1 }
        let s := if p.psn = exp then (if p.mcast then s else s.own head 0x78 2) else (s.own head 0x78 2).recharge head 4
        (s.modFlow i fun f => { f with slots := f.slots ++ [(p.psn, s.pdOf head p.flits p.vc)] }).rsqGo send i old

/-- Commits a packet whose output has been decided (R246, R229, R264): discarded when aged or not deliverable, handed to the replicator or
the resequencer, or queued. One that the resequencer has let go before does not go to it again. -/
def State.commit (send : Refuser) (s : State) (head : Nat) (d : Decision) (again : Bool := false) : State :=
  match s.bufPkt head, d.out with
  | some b, some o =>
    let s := s.classEpoch b.pkt d
    let s := if d.reversed then s.count RTE_REVERSE_COUNT else s
    let s := if d.detour then s.count RTE_DETOUR_COUNT else s
    let s := s.setPkt head { b with sent := d.pkt }
    if s.aged b.pkt then s.discardNew send 8 head
    else if o = 35 then
      (s.own head 0x70 2).sw fun w => { w with repl := w.repl ++ [s.pdOf head b.pkt.flits b.pkt.vc] }
    else
      let r := s.deliverCheck b.pkt o
      if r ≠ 0 then s.discardNew send r head
      else if o ≥ 24 && b.pkt.rsq && !again then s.rsqArrive send head
      else s.toOutput head o (if o < 24 then d.pkt.vc else b.pkt.vc)
  | some _, none => s.discardNew send d.reason head
  | none, _ => s

/-- Decides a complete packet that arrived on an external input (R207, R208, R221, R246, R253). A neighbour packet on a port in SHUTDOWN is dropped
without a count (R388), and one with an opcode that is not for neighbours is discarded (R387). -/
def State.decideHead (send : Refuser) (s : State) (head : Nat) : State :=
  match s.bufPkt head with
  | none => s
  | some b =>
    let p := b.pkt
    if !p.hparOk then s.discardNew send 3 head
    else if p.toNeighbour then
      if p.neighbour ∧ b.input < 24 ∧ s.get (LNK_STATUS_STATE b.input) = 0xC then s.freePkt head
      else if p.neighbourOk then s.commit send head { out := some 34, pkt := p }
      else s.discardNew send 5 head
    else if p.mcast then s.commit send head { out := some 35, pkt := p }
    else s.commit send head (s.route p (arrOf b.input))

/-! Origination (R226, R231, R243, R262) -/

/-- The evaluation of R221 at the origin: every packet is discarded while the switch core is disabled; a neighbour packet of the management port
leaves on the port its tag names, and nothing else goes to the neighbour address (R208); a multicast packet goes to the replicator. -/
def State.originRoute (s : State) (p : Pkt) : Decision :=
  if !s.swcActive then { out := none, reason := 1, pkt := p }
  else if p.toNeighbour then
    if p.neighbourOk && p.srcEp == 0xD8 then { out := some (p.ctag % 32), pkt := p } else { out := none, reason := 5, pkt := p }
  else if p.mcast then { out := some 35, pkt := p }
  else s.route p none

/-- Cells of a job's set-aside in use: packets' cells and collective staging. -/
def State.asideUsed (s : State) (key : Nat) : Nat :=
  ((s.switch.pkts.filter fun b => b.2.aside == some key).map fun b => (b.2.cells.filter fun c => (s.cell c).charge == 3).length).sum +
    ((s.col.roles.filter fun r => r.2.job == some key).map (·.2.aside)).sum

/-- Cells left in the set-aside of a job. -/
def State.asideLeft (s : State) (job : Option Nat) : Nat := ((job.bind s.jobOf).map fun j => j.cells - s.asideUsed j.key).getD 0

/-- How many of an internal input's n cells come from its job's set-aside, which is drawn on first; none while the rest cannot be granted from the
shared region (R243). -/
def State.grantAside (s : State) (n : Nat) (job : Option Nat) : Option Nat :=
  let k := min n (s.asideLeft job)
  if k = n ∨ s.sharedFree ≥ n - k + s.recallCells then some k else none

/-- An origin discard (R226): counted under its reason; the party that originated the packet hears of it at the end of the command. -/
def State.originDiscard (s : State) (reason : Nat) (o : Offer) : State :=
  (s.noteDiscard reason o.pkt o.input).sw fun w => { w with failed := w.failed ++ [(o.pkt, o.orig, reason)] }

/-- Takes a granted packet into the buffer: age stamp, second evaluation, cells (some from its job's set-aside), commit. -/
def State.placeOffer (send : Refuser) (s : State) (o : Offer) (aside : Nat) : State :=
  let p := o.pkt.setH 72 16 s.usFt
  let d := s.originRoute p
  match d.out with
  | none => s.originDiscard d.reason o
  | some _ =>
    let (own, s) := State.allocN aside { state := 1, owner := o.input, charge := 3 } s
    let (rest, s) := State.allocN (cellsOf p.flits - aside) { state := 1, owner := o.input, charge := 2 } s
    let cells := own ++ rest
    let s := s.linkCells cells
    match cells with
    | [] => s
    | head :: _ =>
      let s := s.setPkt head { pkt := p, sent := p, input := o.input, origin := true, cells := cells
                               aside := if aside > 0 then o.job else none }
      s.commit send head d

/-- The queue a decision selects: key 32 × output + VC; none for the replicator. -/
def Decision.queueKey (d : Decision) (p : Pkt) : Option Nat :=
  match d.out with
  | some o => if o < 24 then some (32 * o + d.pkt.vc) else if o < 35 then some (32 * o + p.vc) else none
  | none => none

/-- Whether a queue is marked. -/
def State.marked (s : State) (k : Nat) : Bool := bit (s.getR (SWC_CONG (k / 32))) (k % 32)

/-- The next offer of an input that may be granted its cells: not held, and of class C0 or the first of its input. -/
def State.nextOffer (s : State) (input : Nat) : Option Offer :=
  let os := s.switch.offers.filter (·.input == input)
  match os with
  | x :: _ => if x.heldAt.isNone then some x else os.find? fun o => o.pkt.cls == 0 && o.heldAt.isNone
  | [] => none

/-- The waiting offer whose turn it is (R244): of those whose cells can be granted the one that came first; of several that came in the same FCLK the
lowest input, which loses the next such tie. With it, whether there was a tie. -/
def State.grantTurn (s : State) : Option (Offer × Bool) :=
  if s.switch.offers.isEmpty then none
  else
    let os := ((List.range 35).filterMap s.nextOffer).filter fun o => (s.grantAside (cellsOf o.pkt.flits) o.job).isSome
    let first := os.foldl (fun n o => min n o.came) ((os.head?.map (·.came)).getD 0)
    match os.filter fun o => o.came == first with
    | [] => none
    | [o] => some (o, false)
    | o :: o' :: _ => some (if s.switch.tieWon = some o.input then o' else o, true)

/-- Offers a packet at an internal input: an origin discard, held for a marked queue, waiting for cells, or taken at once. A packet of a class
other than C0 does not pass one that waits at the same input, and none passes one whose turn it is. -/
def State.offerWith (send : Refuser) (s : State) (o : Offer) : State :=
  let d := s.originRoute o.pkt
  match d.out with
  | none => s.originDiscard d.reason o
  | some _ =>
    let hold := match d.queueKey o.pkt with
      | some k => o.pkt.cls != 0 && s.marked k && s.get SWC_CONG_HOLD_HOLD != 0
      | none => false
    let o := { o with came := s.now }
    if hold then s.sw fun w => { w with offers := w.offers ++ [{ o with heldAt := some s.now }] }
    else
      let behind := (o.pkt.cls != 0 && s.switch.offers.any (·.input == o.input)) || s.grantTurn.isSome
      match (if behind then none else s.grantAside (cellsOf o.pkt.flits) o.job) with
      | some k => s.placeOffer send o k
      | none => s.sw fun w => { w with offers := w.offers ++ [o] }

/-- Offers a REFUSE, RETRY or ACK: of class C3, so it never causes another. -/
def State.offerC3 (s : State) (o : Offer) : State := s.offerWith (fun s _ => s) o

/-- Offers a packet at an internal input. -/
def State.offer (s : State) (o : Offer) : State := s.offerWith State.offerC3 o

/-- An answer of an endpoint of this device to a delivered packet (R210), by the plane rule of R216 and in the current epoch. -/
def State.answerOffer (s : State) (p : Pkt) (op code detail : Nat) : Offer :=
  { input := s.inputOf p.destEp p.placeAddr
    pkt := s.answerPkt p op code detail p.destEp (s.planeFor p.srcAddr p.srcEp s.ownAddr p.destEp 0) s.curEpoch
    orig := .endpoint }

/-- Sends an answer. -/
def State.answer (s : State) (p : Pkt) (op code detail : Nat) : State := s.offerC3 (s.answerOffer p op code detail)

/-- What the host bridge answers to a packet (R448). -/
def State.hostRefusal (s : State) (p : Pkt) : Offer := s.answerOffer p 0x03 0x10 0

/-- A fresh correlation tag of a source endpoint. -/
def State.newTag (s : State) (ep : Nat) : Nat × State :=
  let t := Tbl.read s.switch.ctags 0 ep
  (t, s.sw fun w => { w with ctags := Tbl.write w.ctags 0 ep ((t + 1) % 65536) })

/-! Multicast (R253 to R257) -/

/-- A packet's multicast group (R206). -/
def Pkt.mgroup (p : Pkt) : Nat := p.op 0x20 2

/-- ESC of a multicast copy on an external output (R222). -/
def State.mcastEsc (s : State) (p : Pkt) (input port : Nat) : Nat :=
  let d := s.portDim port
  if d = 4 ∨ d = 5 then
    let n := match s.ident with
      | some id => extent id 4
      | none => 1
    b2n ((s.arrDim (arrOf input) == some 4 && p.esc == 1) || s.crosses s.ownAddr n port)
  else 0

/-- VC of a multicast copy at a destination. -/
def State.mcastVc (s : State) (p : Pkt) (input dest : Nat) : Nat :=
  if dest < 24 then p.vc / 2 * 2 + s.mcastEsc p input dest else p.vc

/-- The switch output of a destination bit of a multicast packet. -/
def State.mcastOut (s : State) (p : Pkt) (dest : Nat) : Option Nat :=
  if dest < 24 then some dest
  else match s.epPort p.destEp p.placeAddr with
    | some (some o) => some o
    | _ => none

/-- Whether a destination is ready (R255). -/
def State.mcastReady (s : State) (p : Pkt) (input dest : Nat) : Bool :=
  match s.mcastOut p dest with
  | none => true
  | some o =>
    (decide (24 ≤ dest) || s.usable p.plane dest) &&
      decide ((s.queue (32 * o + s.mcastVc p input dest)).length < max 1 (s.get SWC_MC_CFG_READY))

/-- The skip ACK for a subtree (R257). -/
def State.skipAck (s : State) (p : Pkt) (count sep : Nat) : State :=
  s.offerC3 { input := s.inputOf sep p.placeAddr, orig := .none
              pkt := s.answerPkt p 0x01 0 (2 ^ 31 + count) sep (s.planeFor p.srcAddr p.srcEp s.ownAddr sep 0) s.curEpoch }

/-- Drops one copy of a multicast packet for a destination that is fenced or out of service: counted, REF falls, skip ACK (R257). -/
def State.dropMcast (s : State) (head dest : Nat) : State :=
  match s.bufPkt head with
  | none => s
  | some b =>
    let s := (s.noteDiscard 14 b.pkt b.input).decRef head
    if dest < 24 then s.skipAck b.pkt (s.get (SWC_MG_SUB_COUNT b.pkt.mgroup dest)) 0xD8 else s.skipAck b.pkt 1 b.pkt.destEp

/-- Queues one copy of a multicast packet. A local copy is checked at its endpoint and put in order when RSQ is set; an external copy that would
exceed the hop limit is discarded. -/
def State.mcastCopy (s : State) (head dest : Nat) (again : Bool := false) : State :=
  match s.bufPkt head with
  | none => s
  | some b =>
    let p := b.pkt
    if dest < 24 then
      if p.hops ≥ max 1 (s.get RTE_CFG_HOP_LIMIT) then s.discardHead State.offerC3 2 head
      else s.enqueue dest (s.mcastVc p b.input dest) head p.flits
    else
      match s.epPort p.destEp p.placeAddr with
      | none => s.discardHead State.offerC3 5 head true true
      | some none => s.dropMcast head 24
      | some (some o) =>
        if !p.served then s.discardHead State.offerC3 5 head true true
        else if s.deliverCheck p o ≠ 0 then s.dropMcast head 24
        else if p.rsq && !again then s.rsqArrive State.offerC3 head
        else s.enqueue o p.vc head p.flits

/-- The destinations of a packet's group (R254): bit p external port p, bit 24 the local endpoint. -/
def State.groupDests (s : State) (g : Nat) : Nat := s.get (SWC_MG_OUT_OUT g) + s.get (SWC_MG_CFG_LOCAL g) * 2 ^ 24

/-- Queues the copies of a residue for the given destinations while a descriptor is free; the rest stays in the residue (R255). -/
def State.serveDests (s : State) (head : Nat) (ds : List Nat) : State × List Nat :=
  ds.foldl (fun (acc : State × List Nat) d =>
    if acc.1.pdUsed < 196608 then (acc.1.mcastCopy head d, acc.2) else (acc.1, acc.2 ++ [d])) (s, [])

/-- Serves residue i: all its destinations when forced, else the ready ones. -/
def State.serveResidue (s : State) (i : Nat) (forced : Bool) : State :=
  match s.switch.residues[i]? with
  | none => s
  | some r =>
    match s.bufPkt r.head with
    | none => (s.sw fun w => { w with residues := w.residues.eraseIdx i }).dropStale
    | some b =>
      if (s.cell r.head).gen ≠ r.gen then (s.sw fun w => { w with residues := w.residues.eraseIdx i }).dropStale else
      let all := onesBelow 25 r.dests
      let go := all.filter fun d => forced || s.mcastReady b.pkt b.input d
      let rest := all.filter fun d => !(forced || s.mcastReady b.pkt b.input d)
      let s := s.sw fun w => { w with residues := w.residues.eraseIdx i }
      let (s, left) := s.serveDests r.head go
      let left := rest ++ left
      if left.isEmpty then s
      else s.sw fun w => { w with residues := w.residues.take i ++
            [{ r with dests := (left.map (2 ^ ·)).sum }] ++ w.residues.drop i }

/-- Replicates the first packet waiting at the replicator (R254, R255). -/
def State.replicate (s : State) : State :=
  match s.switch.repl with
  | [] => s
  | d :: rest =>
    let s := s.sw fun w => { w with repl := rest }
    let head := d.head
    match s.bufPkt head with
    | none => s.dropStale
    | some b =>
      if !s.pdLive d then s.dropStale else
      let p := b.pkt
      let g := p.mgroup
      let bad := decide (g ≥ 256) || !s.flag (SWC_MG_CFG_VALID g) ||
        (decide (b.input < 24) && s.get (SWC_MG_CFG_IN_PORT g) != b.input)
      if bad then s.discardNew State.offerC3 13 head
      else
        let all := onesBelow 25 (s.groupDests g)
        if all.isEmpty then s.freePkt head
        else
          let s := s.setCell head { s.cell head with ref := all.length }
          let go := all.filter (s.mcastReady p b.input)
          let rest := all.filter fun d => !s.mcastReady p b.input d
          let (s, left) := s.serveDests head go
          let left := rest ++ left
          if left.isEmpty then s
          else
            let s := if s.switch.residues.length ≥ 64 then s.serveResidue 0 true else s
            s.sw fun w => { w with residues := w.residues ++
              [{ head := head, gen := (s.cell head).gen, flits := p.flits, vc := p.vc, dests := (left.map (2 ^ ·)).sum }] }

/-- Removes a destination from every residue whose packet satisfies a test, one copy of each being dropped (R257). -/
def State.dropResidues (s : State) (dest : Nat) (test : Pkt → Bool) : State :=
  let hits (r : Residue) : Bool := bit r.dests dest && ((s.bufPkt r.head).map fun b => test b.pkt).getD false
  let gone := s.switch.residues.filter hits
  let s := s.sw fun w => { w with residues := (w.residues.map fun r =>
    if hits r then { r with dests := putBits r.dests dest 1 0 } else r).filter (·.dests != 0) }
  gone.foldl (fun s r => s.dropMcast r.head dest) s

/-- Clears a destination from every multicast group, in the live and the shadow copy (R257). -/
def State.clearGroups (s : State) (dest : Nat) : State :=
  (List.range 256).foldl (fun s g =>
    let f := if dest < 24 then SWC_MG_OUT_OUT g else SWC_MG_CFG_LOCAL g
    let lo := if dest < 24 then dest else 5
    let s := s.setR f.reg (putBits (s.getR f.reg) lo 1 0)
    match Tbl.find s.shadow f.reg.off with
    | some v => { s with shadow := Tbl.insert s.shadow f.reg.off (BitVec.ofNat 32 (putBits v.toNat lo 1 0)) }
    | none => s) s

/-! Leaving service, gateway fences (R223, R257, R267) -/

/-- Starts a reclaim sweep, or queues it behind the one that runs (R268). -/
def State.sweep (s : State) (tags : List Nat) : State :=
  let s := s.sw fun w => { w with sweeps := w.sweeps ++ [{ tags := tags, start := if w.sweeps.isEmpty then some s.now else none }] }
  s.set BPM_STATUS_SWEEP_BUSY 1

/-- Discards the open data packet of an input with INCOMPLETE: its cells are freed and the account is credited with what the sender deducted
(R247); the cells it had taken are credited unless they are recalled (R242). -/
def State.dropOpen (s : State) (port : Nat) : State :=
  match Tbl.find s.switch.opens port with
  | none => s
  | some o =>
    let hdr := o.flits.headD []
    let s := s.sw fun w => { w with opens := Tbl.drop w.opens port }
    let s := o.cells.foldl (fun s c => s.freeOne c false true) s
    let a := 32 * port + o.vc
    let s := s.noteDiscard 9 { data := true, hdr := hdr, pay := [] } port
    (s.owe a ((if field hdr 0x10 2 % 4096 > 2048 then 9 else cellsOf o.need) - o.cells.length)).loanCheck a

/-- Decides a queued unicast packet again (R223): the descriptor has left its queue. -/
def State.redecide (s : State) (head : Nat) : State :=
  match s.bufPkt head with
  | none => s
  | some b => s.commit State.offerC3 head (if b.pkt.neighbour then { out := none, reason := 1, pkt := b.pkt } else s.route b.pkt (arrOf b.input)) true

/-- Takes every packet out of a queue that satisfies a test and applies an effect to it, in queue order. -/
def State.purge (s : State) (k : Nat) (test : State → BufPkt → Bool) (eff : State → PD → BufPkt → State) : State :=
  let q := s.queue k
  let hit (d : PD) : Bool := match s.bufPkt d.head with
    | some b => s.pdLive d && test s b
    | none => false
  let busy := match (s.outSt (k / 32)).sending with
    | some x => fun d : PD => decide (x.pd = d)
    | none => fun _ => false
  let out := q.filter fun d => hit d && !busy d
  if out.isEmpty then s
  else
    let s := s.setQueue k (q.filter fun d => !(hit d && !busy d))
    out.foldl (fun s d => match s.bufPkt d.head with
      | some b => eff s d b
      | none => s) s

/-- Recomputes TX of a head cell: whether some output is sending its packet. -/
def State.refreshTx (s : State) (head : Nat) : State :=
  s.setCell head { s.cell head with tx := s.switch.outs.any fun o => match o.2.sending with
    | some x => x.pd.head == head
    | none => false }

/-- The end of a packet's transmission at an output, whole or cut short: TX clears and REF falls by one. -/
def State.endSending (s : State) (o : Nat) : State :=
  match (s.outSt o).sending with
  | none => s
  | some x => ((s.modOut o fun y => { y with sending := none }).refreshTx x.pd.head).decRef x.pd.head

/-- A port leaves service (R220, R223, R241, R247, R257, R267): RTE_PORT_UP clears; the open packet is discarded; loans drop to 0; queued unicast
packets are decided again; multicast copies are dropped; the input is swept. A packet in transmission goes on once the port has narrowed
(R178, R257); it is lost where the link drops its replay buffer. -/
def State.portDown (s : State) (p : Nat) : State :=
  let s := s.setR RTE_PORT_UP (putBits (s.getR RTE_PORT_UP) p 1 0)
  let s := s.modPort p fun x => { x with upAt := none }
  let s := s.dropOpen p
  let s := (List.range 32).foldl (fun s v => s.set (BPM_ACCT_LOAN (32 * p + v)) 0) s
  let s := (List.range 32).foldl (fun s v =>
    s.purge (32 * p + v) (fun _ b => b.pkt.mcast) fun s d _ => s.dropMcast d.head p) s
  let s := (s.dropResidues p fun _ => true).clearGroups p
  let s := (List.range 32).foldl (fun s v =>
    s.purge (32 * p + v) (fun _ _ => true) fun s d _ => s.redecide d.head) s
  s.sweep [p]

/-- Endpoints of this device leave service (R257): the local delivery of every group is cleared, and the copies that wait at the replicator for them
are dropped; those in queues are dropped at delivery (R267). -/
def State.endpointDown (s : State) (gone : Nat → Bool) : State := (s.dropResidues 24 fun p => gone p.destEp).clearGroups 24

/-- A mask on a port acts on its queues as a clear of RTE_PORT_UP does (R233). -/
def State.portMasked (s : State) (p : Nat) : State :=
  (List.range 32).foldl (fun s v =>
    s.purge (32 * p + v) (fun _ b => !b.pkt.mcast) fun s d _ => s.redecide d.head) s

/-- A NoC gateway is fenced (R203, R267): queued packets for its cores are dropped with FENCED, those for GDDR7 decided again, and its input and
output tags are swept. Its cores leave service as endpoints: the local deliveries of every group are cleared (R257). -/
def State.gatewayDown (s : State) (g : Nat) : State :=
  let s := (List.range 32).foldl (fun s v =>
    s.purge (32 * (24 + g) + v) (fun _ b => decide (b.pkt.destEp < 144)) fun s d b =>
      if b.pkt.mcast then s.dropMcast d.head 24 else s.discardHead State.offerC3 14 d.head) s
  let s := (List.range 32).foldl (fun s v =>
    s.purge (32 * (24 + g) + v) (fun _ _ => true) fun s d b =>
      if b.pkt.mcast then s.mcastCopy d.head 24 true else s.redecide d.head) s
  let s := s.endpointDown fun ep => decide (ep < 144) && gatewayOf ep == g || (s.gatewayFrom 0).isNone && ep == 0xC0
  s.sweep [24 + g, 0x40 + 24 + g]

/-! Sweeps and audits (R268 to R272) -/

/-- The packet, or the chain of staging cells, that a cell belongs to: its head cell. -/
def State.headOf (s : State) (c : Nat) : Option Nat :=
  match s.switch.pkts.find? fun p => p.2.cells.contains c with
  | some p => some p.1
  | none => match s.mem.gates.find? fun g => g.parked.any (·.cells.contains c) with
    | some g => ((g.parked.find? (·.cells.contains c)).bind (·.cells.head?))
    | none => match s.mem.forwards.find? (·.cells.contains c) with
      | some f => f.cells.head?
      | none => (s.col.roles.find? (·.2.cells.contains c)).bind (·.2.cells.head?)

/-- The cell's packet is discarded with BUF_PARITY (R248, R270): no output sends it on, its references are gone; a REFUSE goes only if its header
cell has not failed. -/
def State.dropBad (s : State) (head c : Nat) : State :=
  match s.bufPkt head with
  | none => s
  | some b =>
    let s := s.noteDiscard 10 b.pkt b.input
    let s := s.sw fun w => { w with outs := (w.outs.map fun o =>
      (o.1, if o.2.sending.any fun x => x.pd.head == head then { o.2 with sending := none } else o.2)).filter fun o => o.2 ≠ {} }
    if c ≠ head && refusable 10 b.pkt then s.offerC3 (s.refusal 10 b.pkt false) else s

/-- A parity error on a cell's metadata word or link word (R270): the cell goes to QUARANTINE, its packet is discarded, and the sweep of its owner
frees the rest of the chain. -/
def State.wordFails (s : State) (c : Nat) : State :=
  let x := s.cell c
  match s.switch.pkts.find? fun p => p.2.cells.contains c with
  | none =>
    match s.switch.opens.find? fun p => p.2.cells.contains c with
    | none => s.quarantine c 3
    | some (p, y) =>
      let s := s.noteDiscard 10 { data := true, hdr := y.flits.headD [], pay := [] } p
      let s := (s.sw fun w => { w with opens := Tbl.drop w.opens p }).owe (32 * p + y.vc) (cellsOf y.need - y.cells.length)
      (s.quarantine c 3).sweep [x.owner]
  | some (h, _) =>
    let s := (s.dropBad h c).sw fun w => { w with pkts := Tbl.drop w.pkts h }
    let s := s.setCell h { s.cell h with ref := 0, tx := false }
    (s.quarantine c 3).sweep [x.owner]

/-- The walk of a sweep judges one cell of a swept owner (R268): freed when nothing refers to its packet, else marked RECLAIM through its head, and
freed when its packet is. A cell of no packet and no staging is freed. -/
def State.sweepCell (s : State) (sw : Sweep) (c : Nat) : State × Sweep :=
  let x := s.cell c
  if x.state = 0 ∨ x.state = 3 ∨ !sw.tags.contains x.owner ∨ sw.fresh.contains c then (s, sw)
  else if x.wordBad then (s.wordFails c, sw)
  else match s.headOf c with
    | none => (s.freeOne c false true, sw)
    | some h =>
      let y := s.cell h
      if y.ref = 0 && !y.tx then
        (if (s.bufPkt h).isSome then s.freePkt h else s.freeOne c false true, sw)
      else if h = c then (s.setCell c { x with reclaim := true }, { sw with marked := sw.marked ++ [c] })
      else (s, sw)

/-- Walks n cells of the sweep that runs. -/
def State.sweepWalk (s : State) (n : Nat) : State :=
  match s.switch.sweeps with
  | [] => s
  | w :: ws =>
    let stop := min totalCells (w.pos + n)
    let cs := (s.switch.cells.map (·.1)).filter fun c => decide (w.pos ≤ c) && decide (c < stop)
    let (s, w) := cs.foldl (fun (a : State × Sweep) c => a.1.sweepCell a.2 c) (s, w)
    s.sw fun x => { x with sweeps := { w with pos := stop } :: ws }

/-- Frees by force the packet of a head cell that a sweep marked and that is still held (R269). -/
def State.forceFree (s : State) (c : Nat) : State :=
  let x := s.cell c
  if x.reclaim && !x.tx && x.state == 2 then (s.freePkt c true).count BPM_FORCED_COUNT else s

/-- Starts an audit (R271, R272). -/
def State.auditStart (s : State) : State :=
  let marking := match s.switch.lastMarking with
    | some t => decide (s.now - t ≥ fclk (1000 * max 1 (s.get BPM_LEAK_AGE_AGE)))
    | none => true
  let s := s.sw fun w => { w with audit := some { marking := marking }, auditAsked := false, auditStart := s.now
                                  lastMarking := if marking then some s.now else w.lastMarking }
  s.set BPM_STATUS_AUDIT_BUSY 1

/-- The walk of an audit passes one cell that is not FREE: the leak test, the forced free and the mark. -/
def State.auditCell (s : State) (a : Audit) (c : Nat) : State × Audit :=
  let x := s.cell c
  let s := s.sw fun w => { w with audit := w.audit.map fun b => { b with pos := c + 1 } }
  if x.state = 0 then (s, { a with free := a.free + 1 })
  else if x.state ≠ 3 && x.wordBad then (s.wordFails c, a)
  else
    let leak := a.marking && x.mark && x.state != 3 &&
      (x.owner < 0x23 || (0x40 ≤ x.owner && x.owner < 0x63) || x.owner == 0x70 || x.owner == 0x78)
    let a := if leak then { a with leaked := a.leaked + 1, first := some (a.first.getD c) } else a
    let s := if leak && a.leaked == 1 then (s.setR BPM_AUDIT_CELL c).set BPM_AUDIT_RESULT_OWNER x.owner else s
    if leak && s.flag BPM_CTRL_AUDIT_FREE && x.head && !x.tx then
      ((s.freePkt c true).count BPM_FORCED_COUNT, a)
    else (if a.marking then s.setCell c { x with mark := true } else s, a)

/-- Walks n cells of the audit that runs. -/
def State.auditWalk (s : State) (n : Nat) : State :=
  match s.switch.audit with
  | none => s
  | some a =>
    let stop := min totalCells (a.pos + n)
    let cs := (s.switch.cells.map (·.1)).filter fun c => decide (a.pos ≤ c) && decide (c < stop)
    let unlisted := (stop - a.pos) - cs.length
    let (s, a) := cs.foldl (fun (x : State × Audit) c => x.1.auditCell x.2 c) (s, { a with free := a.free + unlisted })
    s.sw fun w => { w with audit := w.audit.map fun b => { a with pos := stop, frees := b.frees, allocs := b.allocs } }

/-- c visits of the sampler to data-class queue i, 840 FCLK apart, the first at FCLK t0 (R290). -/
def State.sampleQueue (s : State) (i c t0 : Nat) : State :=
  let s := s.count (SCH_Q_SAMPLES_COUNT i) c
  match s.queue (32 * (i / 24) + (i % 24 + 8)) with
  | [] => s
  | d :: ds =>
    let depth := depthOf (d :: ds)
    let a := t0 - d.since
    let even := (c + 1) / 2
    let odd := c / 2
    let waits := even * (a / 16) + 105 * (even * (even - 1) / 2) + odd * ((a + 840) / 16) + 105 * (odd * (odd - 1) / 2)
    let s := (s.count (SCH_Q_DEPTH_SUM_COUNT i) (c * depth)).count (SCH_Q_WAIT_SUM_COUNT i) waits
    let s := s.set (SCH_Q_MAX_DEPTH_MAX i) (max (s.get (SCH_Q_MAX_DEPTH_MAX i)) (min 0xFFFF depth))
    s.set (SCH_Q_MAX_WAIT_MAX i) (max (s.get (SCH_Q_MAX_WAIT_MAX i)) (min 0xFFFF ((a + 840 * (c - 1)) / 16)))

/-- The sampler's visits in the n FCLK that have just passed, one a cycle (R290). -/
def State.sample (s : State) (n : Nat) : State :=
  if !s.flag SCH_CTRL_OBS_EN then s
  else
    let ptr := s.switch.samplePtr
    let s := (List.range (min n 840)).foldl (fun s k => s.sampleQueue ((ptr + k) % 840) ((n - k + 839) / 840) (s.now - n + k)) s
    s.sw fun w => { w with samplePtr := (ptr + n) % 840 }

/-- The switch core's part of the passing of n FCLK: the walks, at 16 cells a cycle, the sampler, and the head waits of the control-class
queues. -/
def State.switchPass (s : State) (n : Nat) : State :=
  let s := if s.switch.sweeps.isEmpty then s.auditWalk (16 * n) else s.sweepWalk (16 * n)
  let s := s.sample n
  (s.switch.queues.map (·.1)).foldl State.noteHwm s

end Sys2Proof.Machine
end

