-- ==== Sys2Proof/Machine/Memory.lean ====
section
/-! DEFINITION. Accesses to the device's local memories (R45, R141 to R147, R405): what fails and where, the shard registry's check of
writes (R356 to R358), and the events a failing access reports. A failing byte is named by a number: its local address, plus 2^48 when the
burst was good after a repeat (R146). -/

namespace Sys2Proof.Machine

open Sys2Proof

/-! The shard registry (R356, R358) -/

/-- Bytes of a slot of a registry entry. -/
def State.slotBytes (s : State) (e : Nat) : Nat := s.get (MEM_SHD_CFG_SLOT_UNITS e) * 65536

/-- Base of a registry entry. -/
def State.shdBase (s : State) (e : Nat) : Nat := s.get64 (MEM_SHD_BASE_BASE e) * 65536

/-- Whether a running job holds a core group. -/
def State.groupHeld (s : State) (g : Nat) : Bool := s.jobs.any fun j => j.ring.isSome && j.group == g

/-- Whether an entry is valid: VALID set and KIND not 0. -/
def State.shdValid (s : State) (e : Nat) : Bool := s.flag (MEM_SHD_CFG_VALID e) && s.get (MEM_SHD_CFG_KIND e) != 0

/-- Whether an entry's slots are checked: a valid PARAM or STATE entry whose GROUP a job holds. -/
def State.shdChecked (s : State) (e : Nat) : Bool :=
  s.flag (MEM_SHD_CFG_VALID e) && (s.get (MEM_SHD_CFG_KIND e) == 1 || s.get (MEM_SHD_CFG_KIND e) == 2) &&
    s.groupHeld (s.get (MEM_SHD_CFG_GROUP e))

/-- Start of the slot of a role of an entry: 0 CUR, 1 NEXT, 2 PREV. -/
def State.slotAt (s : State) (e role : Nat) : Nat :=
  s.shdBase e + (s.get (MEM_SHD_STATE_CUR e) + role) % 3 * s.slotBytes e

/-- Whether two ranges meet. -/
def meets (a n b m : Nat) : Bool := decide (a < b + m) && decide (b < a + n)

/-- The offset of the first byte of a range that lies in another. -/
def firstIn (a n b m : Nat) : Option Nat := if meets a n b m then some (b - a) else none

/-- The roles of an entry that refuse a write: CUR and PREV, and NEXT while PERMUTING, unless the write comes from the PERMUTE that set
it. -/
def State.closedRoles (s : State) (e : Nat) (perm : Option Nat) : List Nat :=
  if s.flag (MEM_SHD_STATE_PERMUTING e) && perm != some e then [0, 1, 2] else [0, 2]

/-- The first refused byte of a write to GDDR7: its offset and the entry. -/
def State.shardHit (s : State) (a n : Nat) (perm : Option Nat := none) : Option (Nat × Nat) :=
  let hits := ((List.range 64).filter s.shdChecked).flatMap fun e =>
    (s.closedRoles e perm).filterMap fun r => (firstIn a n (s.slotAt e r) (s.slotBytes e)).map fun off => (off, e)
  hits.foldl (fun b h => match b with
    | none => some h
    | some x => if h.1 < x.1 then some h else some x) none

/-- Counts and records a refused write (R358). -/
def State.noteRefused (s : State) (e status : Nat) : State :=
  let s := s.count MEM_SHD_REFUSED_COUNT
  if s.flag MEM_SHD_LAST_VALID then s
  else ((s.set MEM_SHD_LAST_ENTRY e).set MEM_SHD_LAST_STATUS status).set MEM_SHD_LAST_VALID 1

/-- A permitted write to a NEXT slot sets DIRTY. -/
def State.markDirty (s : State) (a n : Nat) : State :=
  ((List.range 64).filter s.shdChecked).foldl (fun s e =>
    if meets a n (s.slotAt e 1) (s.slotBytes e) then s.set (MEM_SHD_STATE_DIRTY e) 1 else s) s

/-! GDDR7 with its controllers (R142, R146, R405) -/

/-- The subsystem takes accesses: enabled, or finishing accesses it has accepted. -/
def State.memOpen (s : State) : Bool := s.flag MEM_CTRL_EN

/-- Whether a controller's memory is unavailable: it is fenced, or it did not train (R145). -/
def State.ctlDown (s : State) (c : Nat) : Bool := s.ctlFenced c || s.get (MEM_CH_STATUS_STATE c) != 2

/-- Offset of the first byte of a GDDR7 range on a controller whose memory is unavailable. -/
def State.downAt (s : State) (a n : Nat) : Option Nat :=
  ((List.range ((a + n + 255) / 256 - a / 256)).find? fun i => s.ctlDown (s.ctlOf ((a / 256 + i) * 256))).map
    fun i => (a / 256 + i) * 256 - a

/-- Start of the 64-byte burst of an address. -/
def burstOf (a : Nat) : Nat := a / 64 * 64

/-- The upset of a burst, or of a byte of SRAM, has been met. -/
def State.meetUpset (s : State) (a : Nat) : State :=
  { s with mem := { s.mem with upsets := s.mem.upsets.filter fun u =>
      if a < gddrSize then burstOf (u % 2 ^ 48) != burstOf a else u % 2 ^ 48 != a } }

/-- A burst that was good after a repeat, or one whose repeats were exhausted: counted and reported (R146). -/
def State.edcEvent (s : State) (a : Nat) (corrected : Bool) : State :=
  let s := s.meetUpset a
  let c := s.ctlOf a
  if corrected then (s.count (MEM_CH_EDC_CORR_COUNT c)).report 0x10 c (s.chanOf a)
  else (s.count (MEM_CH_EDC_UNCORR_COUNT c)).report 0x11 c (s.chanOf a)

/-- The address a failing byte names, and whether its burst was good after a repeat. -/
def badAddr (b : Nat) : Nat × Bool := (b % 2 ^ 48, decide (b ≥ 2 ^ 48))

/-- Writes GDDR7 bytes: those on unavailable controllers are dropped. -/
def State.gddrStore (s : State) (a : Nat) (bs : List Byte) : State :=
  if (s.downAt a bs.length).isNone then s.gddrWrite a bs
  else bs.zipIdx.foldl (fun s (b, i) => if s.ctlDown (s.ctlOf (a + i)) then s else s.gddrWrite (a + i) [b]) s

/-! Local ranges -/

/-- What reading a local range gives: the bytes before the first failure, and the failure's DMA status and offset. -/
structure ReadRes where
  bytes : List Byte
  fail : Option (Nat × Nat)
deriving DecidableEq, Repr

/-- The failing byte of a local range: the one a command names, else the first upset in it (R48, R146). -/
def State.badIn (s : State) (a n : Nat) (bad : Option Nat) : Option Nat :=
  match bad with
  | some b => some b
  | none => s.mem.upsets.find? fun u =>
      decide ((if a < gddrSize then burstOf a else a) ≤ u % 2 ^ 48) && decide (u % 2 ^ 48 < a + n)

/-- Reports a parity error of a core's SRAM at an offset (R397). -/
def State.sramParity (s : State) (L off : Nat) : State :=
  let s := s.meetUpset (sramBase + L * sramSize + off)
  match s.phys L with
  | some P => s.report 0x08 P off
  | none => s

/-- Reads a local range: stops at the first byte that fails (R48, R146, R405). -/
def State.readRange (s : State) (a n : Nat) (bad : Option Nat := none) : ReadRes × State :=
  match place a with
  | .sram L o =>
    match s.badIn a n bad with
    | some b =>
      let b := (badAddr b).1
      if a ≤ b ∧ b < a + n then
        ({ bytes := s.sramRead L o (b - a), fail := some (5, b - a) }, s.sramParity L (o + (b - a)))
      else ({ bytes := s.sramRead L o n, fail := none }, s)
    | none => ({ bytes := s.sramRead L o n, fail := none }, s)
  | .gddr a =>
    let down := s.downAt a n
    match s.badIn a n bad with
    | some b =>
      let (x, corr) := badAddr b
      let hit := decide (burstOf a ≤ x ∧ x < a + n) && decide (burstOf x - a < down.getD n)
      if hit && corr then
        let m := down.getD n
        ({ bytes := s.gddrRead a m, fail := down.map fun d => (6, d) }, s.edcEvent x true)
      else if hit then
        ({ bytes := s.gddrRead a (burstOf x - a), fail := some (6, burstOf x - a) }, s.edcEvent x false)
      else ({ bytes := s.gddrRead a (down.getD n), fail := down.map fun d => (6, d) }, s)
    | none => ({ bytes := s.gddrRead a (down.getD n), fail := down.map fun d => (6, d) }, s)
  | .nowhere => ({ bytes := [], fail := some (4, 0) }, s)

/-- Writes a local range: stores the bytes, and answers the status and offset of a GDDR7 write that fails. A burst whose write fails is
left undefined (R146). -/
def State.writeRange (s : State) (a : Nat) (bs : List Byte) (bad : Option Nat := none) : Option (Nat × Nat) × State :=
  let n := bs.length
  match place a with
  | .sram L o => (none, s.sramWrite L o bs)
  | .gddr a =>
    let s := s.markDirty a n
    let down := s.downAt a n
    let s := s.gddrStore a bs
    match s.badIn a n bad with
    | some b =>
      let (x, corr) := badAddr b
      if burstOf a ≤ x ∧ x < a + n then
        if corr then (down.map fun d => (6, d), s.edcEvent x true)
        else
          let s := s.edcEvent x false
          (some (6, burstOf x - a), s.gddrForget fun y => burstOf y == burstOf x)
      else (down.map fun d => (6, d), s)
    | none => (down.map fun d => (6, d), s)
  | .nowhere => (some (4, 0), s)

end Sys2Proof.Machine
end

