-- ==== Sys2Proof/Machine/Line.lean ====
section
/-! DEFINITION. The line coding of a lane: striping, the scrambler and the stuffer in both directions (R167 to R169), markers and their fill
(R170), the line form of a training frame (R174) and the test patterns (R197). -/

namespace Sys2Proof.Machine

open Sys2Proof

/-- The bits of bytes as they are serialised, least significant bit of each byte first (R167). -/
def lineBits (bs : List Byte) : List Bool := bs.flatMap fun b => (List.range 8).map (bit b.toNat ·)

/-- The bytes of bits; what is left of a last byte that is not whole is dropped. -/
def lineBytes : List Bool → List Byte
  | a :: b :: c :: d :: e :: f :: g :: h :: rest =>
    BitVec.ofNat 8 (([a, b, c, d, e, f, g, h].zip (List.range 8)).map fun x => b2n x.1 * 2 ^ x.2).sum :: lineBytes rest
  | _ => []

/-- The bytes of a flit on stripe i of w (R179). -/
def stripe (w i : Nat) (bs : List Byte) : List Byte :=
  ((bs.zip (List.range bs.length)).filter fun b => b.2 % w == i).map (·.1)

/-- The flit of the bytes of its stripes; empty when a stripe does not hold its share of 72 bytes. -/
def destripe (ls : List (List Byte)) : List Byte :=
  let w := ls.length
  if w = 0 || ls.any (fun x => decide (x.length * w ≠ 72)) then []
  else (List.range 72).map fun b => (ls.getD (b % w) []).getD (b / w) 0

/-! Scrambler and stuffer -/

/-- Seed of a lane's scrambler (R168). -/
def scrSeed (nonce lane mseq : Nat) : Nat :=
  ((nonce * 2 ^ 22) ^^^ (lane * 2 ^ 19) ^^^ (mseq * 2 ^ 5) ^^^ 0x15) % 2 ^ 58

/-- A coder at the first bit after a marker block (R168, R169). -/
def Coder.seeded (nonce lane mseq : Nat) : Coder := { scr := scrSeed nonce lane mseq }

/-- The next bit of the scrambler's sequence. -/
def Coder.key (c : Coder) : Nat := (c.scr / 2 ^ 38 + c.scr / 2 ^ 57) % 2

/-- The scrambler goes on by one bit. -/
def Coder.advance (c : Coder) : Coder := { c with scr := (2 * c.scr + c.key) % 2 ^ 58 }

/-- A line bit counts in the run (R169). -/
def Coder.see (c : Coder) (b : Bool) : Coder :=
  if b2n b = c.runBit then { c with run := c.run + 1 } else { c with runBit := b2n b, run := 1 }

/-- One data bit through the scrambler and the stuffer: the line bits. -/
def Coder.sendBit (c : Coder) (d : Bool) : List Bool × Coder :=
  let b := d != (c.key == 1)
  let c := c.advance.see b
  if c.run = 31 then ([b, !b], { c with runBit := b2n (!b), run := 1, stuffed := c.stuffed + 1 }) else ([b], c)

/-- Data bits through the scrambler and the stuffer. -/
def Coder.send : List Bool → Coder → List Bool × Coder
  | [], c => ([], c)
  | d :: ds, c =>
    let x := c.sendBit d
    let y := Coder.send ds x.2
    (x.1 ++ y.1, y.2)

/-- Line bits through the destuffer and the descrambler: the data bits and the number of stuff errors. -/
def Coder.receive : List Bool → Coder → List Bool × Nat × Coder
  | [], c => ([], 0, c)
  | b :: bs, c =>
    if c.run = 31 then
      let y := Coder.receive bs { c with runBit := b2n b, run := 1, stuffed := c.stuffed + 1 }
      (y.1, y.2.1 + b2n (b2n b == c.runBit), y.2.2)
    else
      let y := Coder.receive bs (c.advance.see b)
      ((b != (c.key == 1)) :: y.1, y.2.1, y.2.2)

/-! Markers (R170) -/

/-- CHK of a marker: CRC-8 over its bits 42 to 61 in the order they are sent. -/
def markerChk (m : Nat) : Nat :=
  (List.range 20).foldl (fun c i =>
    let top := (c / 128 + b2n (bit m (42 + i))) % 2
    let c := c * 2 % 256
    if top = 1 then c ^^^ 0x07 else c) 0

/-- The 72 bits of a marker as a number. -/
def markerWord (lane mseq x : Nat) : Nat :=
  let m := (2 ^ 41 - 2) + lane * 2 ^ 42 + 2 ^ 45 + mseq * 2 ^ 46 + x * 2 ^ 60
  m + 2 ^ 62 + markerChk m * 2 ^ 63 + 2 ^ 71

/-- A marker and its fill on a lane with s stuffed bits. -/
def markerLine (lane mseq x s : Nat) : List Bool :=
  (List.range 72).map (bit (markerWord lane mseq x) ·) ++ (List.range (72 * (1 + x) - s)).map fun i => i % 2 == 1

/-- Whether the CHK of a received marker is right, with its forty ones between zeros. -/
def markerHolds (bs : List Byte) : Bool :=
  let m := leNat bs
  bs.length == 9 && bits m 0 42 == 2 ^ 41 - 2 && bits m 63 8 == markerChk m

/-! Training frames and test patterns -/

/-- A training frame on the line: the sync, then each byte with the complement of its bit 7 (R174). -/
def frameLine (bs : List Byte) : List Bool :=
  false :: (List.replicate 40 true ++ false :: bs.flatMap fun b => lineBits [b] ++ [!bit b.toNat 7])

/-- The next bit of PRBS31, or of PRBS15, from the bits before it. -/
def prbsNext (short : Bool) (st : Nat) : Nat :=
  if short then (st / 2 ^ 14 + st / 2 ^ 13) % 2 else (st / 2 ^ 30 + st / 2 ^ 27) % 2

/-- The pattern's register after a bit. -/
def prbsShift (st b : Nat) : Nat := (2 * st + b) % 2 ^ 31

/-- n bits of a pattern. -/
def prbsSend (short : Bool) : Nat → Nat → List Bool × Nat
  | 0, st => ([], st)
  | n + 1, st =>
    let b := prbsNext short st
    let y := prbsSend short n (prbsShift st b)
    ((b == 1) :: y.1, y.2)

/-- One received bit at a pattern checker: the first bits load its register, the others are compared with the pattern that follows from it. -/
def Lane.prbsCheck (short : Bool) (x : Nat × Lane) (b : Bool) : Nat × Lane :=
  let l := x.2
  if l.prbsSeen < (if short then 15 else 31) then (x.1, { l with prbsRx := prbsShift l.prbsRx (b2n b), prbsSeen := l.prbsSeen + 1 })
  else
    let want := prbsNext short l.prbsRx
    (x.1 + b2n (b2n b != want), { l with prbsRx := prbsShift l.prbsRx want })

end Sys2Proof.Machine
end

