-- ==== Sys2Proof/Machine/Sched.lean ====
section
/-! DEFINITION. What an output sends in a slot: flits, trailers and line coding (R167 to R171, R179 to R184, R187, R188), control tokens,
weighted fair queueing and time gates (R275 to R289), and delivery at the internal outputs. Times inside an FCLK are in units of
1/264 ns: an FCLK is 160 of them, a flit at 64 Gb/s x8 is 297. -/

namespace Sys2Proof.Machine

open Sys2Proof

/-- Link states of R173. -/
def lkOff : Nat := 0x0
def lkDetect : Nat := 0x1
def lkConfig : Nat := 0x2
def lkSpeed : Nat := 0x3
def lkEq : Nat := 0x4
def lkDeskew : Nat := 0x5
def lkInit : Nat := 0x6
def lkActive : Nat := 0x7
def lkRetrain : Nat := 0x8
def lkLp1 : Nat := 0x9
def lkLp2 : Nat := 0xA
def lkLoopback : Nat := 0xB
def lkShutdown : Nat := 0xC
def lkFailed : Nat := 0xD
def lkFenced : Nat := 0xE

/-- The link state of a port. -/
def State.lst (s : State) (p : Nat) : Nat := s.get (LNK_STATUS_STATE p)

/-- Flit time of a port's trained speed and width (R160). -/
def State.flitTime (s : State) (p : Nat) : Nat :=
  297 * 2 ^ (2 - min 2 (s.get (LNK_STATUS_SPEED p))) * (if s.flag (LNK_STATUS_X4 p) then 2 else 1)

/-- Slot time of an output: an FCLK for an internal one. -/
def State.slotTime (s : State) (o : Nat) : Nat := if o < 24 then s.flitTime o else 160

/-- The time now. -/
def State.tu (s : State) : Nat := 160 * s.now

/-! Line coding (R167 to R171) -/

/-- The logical lanes that carry flits, stripe 0 first (R178, R179); in LP1 the first alone (R194). -/
def State.carriers (s : State) (p : Nat) : List Nat :=
  let all := if s.flag (LNK_STATUS_X4 p) then (List.range 4).map (· + 4 * b2n (s.flag (LNK_STATUS_UPPER_HALF p))) else List.range 8
  if (s.port p).onLane0 then all.take 1 else all

/-- The active transmit lanes of a port, stripe 0 first: on this side the logical number is the physical one (R159). -/
def State.txLanes (s : State) (p : Nat) : List Nat := (s.carriers p).map (8 * p + ·)

/-- The stripes of a flit on the active transmit lanes: lane, line bits, and the lane's coder after them. -/
def State.coded (s : State) (p : Nat) (bs : List Byte) : List (Nat × List Bool × Coder) :=
  let ls := s.txLanes p
  (ls.zip (List.range ls.length)).map fun x => (x.1, Coder.send (lineBits (stripe ls.length x.2 bs)) (s.lane x.1).tx)

/-- Passes a flit's 72 bytes through the lanes (R167): the line bits of each, and the coders gone on. -/
def State.lineFlit (s : State) (p : Nat) (bs : List Byte) : List (List Bool) × State :=
  let cs := s.coded p bs
  (cs.map (·.2.1), cs.foldl (fun s x => s.modLane x.1 fun l => { l with tx := x.2.2 }) s)

/-- The largest stuffed-bit count of a port's lanes since the last marker block. -/
def State.stuffMax (s : State) (p : Nat) : Nat := ((s.txLanes p).map fun l => (s.lane l).tx.stuffed).foldl max 0

/-- Whether the marker interval has ended (R171). -/
def State.markerDue (s : State) (p : Nat) : Bool := decide ((s.port p).slots ≥ 4096) || decide (s.stuffMax p ≥ 210)

/-- Sends a marker block on every active lane and reseeds the lanes (R168, R170, R171): answers the slots it takes. -/
def State.sendMarker (s : State) (p : Nat) : Nat × State :=
  let x := (s.stuffMax p + 71) / 72 - 1
  let m := (s.port p).mseq
  let s := s.emit (.marker p m x ((s.txLanes p).map fun l => markerLine (l % 8) m x (s.lane l).tx.stuffed))
  let s := if x > 0 then s.count (LNK_XSLACK_COUNT p) else s
  let s := (s.txLanes p).foldl (fun s l => s.modLane l fun y => { y with tx := Coder.seeded (s.port p).nonceTx (l % 8) m }) s
  (2 + x, s.modPort p fun q => { q with slots := 0, mseq := (m + 1) % 16384 })

/-! Flits (R179 to R184) -/

/-- The 72 bytes of a flit: payload and trailer (R179, R181). -/
def flitBytes (pay : List Byte) (ack vc cells type rgen : Nat) : List Byte :=
  let body := slice pay 0 64 ++ leBytes 4 (ack + vc * 2 ^ 12 + cells * 2 ^ 17 + type * 2 ^ 20 + rgen * 2 ^ 28)
  body ++ leBytes 4 (crc32c body)

/-- The sequence number a trailer acknowledges: the last received in order, 0xFFF before the first (R179). -/
def Port.ackSeq (q : Port) : Nat := if q.anyRx then (q.expected + 4095) % 4096 else 0xFFF

/-- Sends a flit on a port: it leaves, and its bits pass the line coding. -/
def State.putFlit (s : State) (p : Nat) (pay : List Byte) (vc cells type : Nat) : State :=
  let q := s.port p
  let bs := flitBytes pay q.ackSeq vc cells type q.txGen
  let (line, s) := s.lineFlit p bs
  let s := s.emit (.flit p bs line)
  s.modPort p fun q => { q with slots := q.slots + 1, idleSince := if type = 0 then q.idleSince else s.now }

/-- Sends a stomped flit: CRC inverted, no sequence number, nothing stored (R190). -/
def State.putStomped (s : State) (p : Nat) (pay : List Byte) : State :=
  let q := s.port p
  let bs := flitBytes pay q.ackSeq 0 0 2 q.txGen
  let bs := bs.take 68 ++ (bs.drop 68).map (· ^^^ 0xFF)
  let (line, s) := s.lineFlit p bs
  let s := s.emit (.stomped p bs line)
  s.modPort p fun q => { q with slots := q.slots + 1 }

/-- The credit a sequenced flit carries: one VC by rotating priority, up to 7 cells (R188). -/
def Port.carry (q : Port) : Nat × Nat × Port :=
  match ((List.range 32).map fun i => (q.owedPtr + i) % 32).find? fun v => decide (Tbl.read q.owed 0 v > 0) with
  | none => (0, 0, q)
  | some v =>
    let n := min 7 (Tbl.read q.owed 0 v)
    let owed := Tbl.write q.owed 0 v (Tbl.read q.owed 0 v - n)
    (v, n, { q with owed := owed, owedPtr := (v + 1) % 32, owedAt := if owed.isEmpty then none else q.owedAt })

/-- Sends a sequenced flit: it takes the next sequence number, is stored, and carries waiting credit (R182, R184, R188). -/
def State.sendSeq (s : State) (p type : Nat) (pay : List Byte) (lastOf : Option Nat) : State :=
  let (v, n, q) := if type = 3 then (0, 0, s.port p) else (s.port p).carry
  let st : Stored := { seq := q.txNext, type := type, pay := slice pay 0 64, vc := v, cells := n, lastOf := lastOf }
  let q := { q with txNext := (q.txNext + 1) % 4096, ackAt := if q.stored.isEmpty then s.now else q.ackAt, stored := q.stored ++ [st] }
  (s.setPort p q).putFlit p pay v n type

/-- Whether a sequenced flit may go: fewer than 1,024 outstanding (R182). -/
def State.seqRoom (s : State) (p : Nat) : Bool := decide ((s.port p).stored.length < 1024)

/-- Sends a CREDIT flit with every VC whose credit is waiting (R180, R188). -/
def State.sendCreditFlit (s : State) (p : Nat) : State :=
  let q := s.port p
  let pay := ((List.range 32).map fun v => leBytes 2 (v + 256 * min 255 (Tbl.read q.owed 0 v))).flatten
  let owed := (List.range 32).foldl (fun t v => Tbl.write t 0 v (Tbl.read t 0 v - 255)) q.owed
  (s.setPort p { q with owed := owed, owedAt := if owed.isEmpty then none else some s.now }).sendSeq p 3 pay none

/-- Whether waiting credit is due in a CREDIT flit: it has waited 64 ns (R188). -/
def State.creditDue (s : State) (p : Nat) : Bool :=
  match (s.port p).owedAt with
  | some t => decide (160 * (s.now - t) ≥ 16896)
  | none => false

/-- Queues an unsequenced flit. -/
def State.sendCtl (s : State) (p type : Nat) (pay : List Byte) : State :=
  s.modPort p fun q => { q with ctl := q.ctl ++ [{ type := type, pay := slice pay 0 64 }] }

/-! Live scheduling parameters (R283, R284, R286, R287) -/

/-- The live VCWEIGHT record of an output. -/
def State.vcweight (s : State) (o : Nat) : Option (List Byte) := (s.recs 0x04).find? fun r => field r 0 1 == o

def State.weight (s : State) (o c : Nat) : Nat := ((s.vcweight o).map (field · (2 + c) 1)).getD 64
def State.ovhPkt (s : State) (o : Nat) : Nat := ((s.vcweight o).map (field · 6 1)).getD 0
def State.ovhFlit (s : State) (o : Nat) : Nat := ((s.vcweight o).map (field · 7 1)).getD 0
def State.ctrlRate (s : State) (o : Nat) : Nat := ((s.vcweight o).map (field · 8 1)).getD 64
def State.ctrlBurst (s : State) (o : Nat) : Nat := ((s.vcweight o).map (field · 9 1)).getD 64

/-- Cost of a packet of f flits in class c (R279). -/
def State.cost (s : State) (o c f : Nat) : Nat := (64 * f + s.ovhPkt o + s.ovhFlit o * f) * (65536 / s.weight o c)

/-- The gate windows of an output: classes, start and length in FCLK. -/
def State.gates (s : State) (o : Nat) : List (Nat × Nat × Nat) :=
  ((s.recs 0x05).filter fun r => field r 0 1 == o && decide (o < 24)).map fun r => (field r 1 1, field r 2 3, field r 5 3)

/-- The index and record of the window in force at a fabric time, and the FCLK since its start (R287). -/
def State.window (s : State) (o : Nat) : Option (Nat × Nat × Nat × Nat) :=
  let gs := s.gates o
  let len := (gs.map (·.2.2)).sum
  if len = 0 then none
  else
    let t := s.ft % len
    match gs.findIdx? fun g => decide (g.2.1 ≤ t) && decide (t < g.2.1 + g.2.2) with
    | some i => match gs[i]? with
      | some g => some (i, g.1, g.2.2, t - g.2.1)
      | none => none
    | none => none

/-- Whether a class is open at an output (R287). -/
def State.gateOpen (s : State) (o c : Nat) : Bool :=
  match s.window o with
  | some (_, cl, _, _) => Machine.bit cl c
  | none => true

/-- Time left in the window at the slot that begins at time t, and time since the window began. -/
def State.windowLeft (s : State) (o t : Nat) : Option (Nat × Nat) :=
  match s.window o with
  | some (_, _, len, past) => let x := 160 * past + (t - s.tu); some (160 * len - x, x)
  | none => none

/-- Whether a packet of f flits may start in the slot at time t (R288, R289). -/
def State.fits (s : State) (o t c f : Nat) : Bool :=
  s.gateOpen o c &&
    match s.windowLeft o t with
    | none => true
    | some (left, past) =>
      let tf := s.slotTime o
      decide (f ≤ left / tf) ||
        (decide (1 < f) && decide (past < tf) &&
          (s.gates o).all fun g => !Machine.bit g.1 c || decide (160 * g.2.2 / tf < f))

/-! Control tokens (R277) -/

/-- Accounts the control tokens of an output up to a time. -/
def State.settleTok (s : State) (o t : Nat) : State :=
  let x := s.outSt o
  let tf := s.slotTime o
  if o < 24 ∧ !s.portUp o then s.modOut o fun x => { x with tokAt := t }
  else
    let k := (t - x.tokAt) / tf
    let s := s.set (SCH_OUT_TOKENS_T o) (tokensAfter (s.get (SCH_OUT_TOKENS_T o)) (s.ctrlRate o) (s.ctrlBurst o) k)
    s.modOut o fun x => { x with tokAt := x.tokAt + k * tf }

/-- Tokens as a read at a time shows them. -/
def State.tokens (s : State) (o t : Nat) : Nat := (s.settleTok o t).get (SCH_OUT_TOKENS_T o)

/-! Choice (R276 to R282, R288) -/

/-- Credit a decision may use: what is held, less what arrived in this FCLK (R282). -/
def State.creditFor (s : State) (p v : Nat) : Nat :=
  let q := s.port p
  s.get (LNK_CRED_CELLS p v) - (if q.credAt = s.now then Tbl.read q.credNew 0 v else 0)

/-- Whether a packet waits in its gateway's queue for a spare that is taking over the core of its selector (R350). -/
def State.awaitsSpare (s : State) (d : PD) : Bool :=
  match s.bufPkt d.head with
  | some b => !b.pkt.mcast && decide (b.pkt.destEp < 144) && (s.cdet b.pkt.destEp).takeover
  | none => false

/-- Whether the head of a queue is eligible in the slot at time t (R278). -/
def State.eligible (s : State) (o t : Nat) (d : PD) : Bool :=
  (if o ≥ 24 then !s.awaitsSpare d else decide (s.creditFor o d.vc ≥ cellsOf d.flits) && s.seqRoom o) && s.fits o t (d.vc / 8) d.flits

/-- The head of a queue if it is of the lane's kind. -/
def State.laneHead (s : State) (o vc : Nat) (ctl : Bool) : Option PD :=
  match s.queue (32 * o + vc) with
  | d :: _ => if d.isCtl = ctl then some d else none
  | [] => none

/-- Brings a class of a lane up to date at time t: a class whose gate is closed has no candidate and wakes when it opens; a candidate that is
still eligible stays; else the next eligible head by rotating priority takes F = S + cost (R278, R280). -/
def State.refreshClass (s : State) (o t : Nat) (ctl : Bool) (c : Nat) : State :=
  let y := (s.outSt o).cls ctl c
  if !s.gateOpen o c then s.modOut o (·.setCls ctl c { y with backlogged := false, cand := none })
  else if !s.laneHas o ctl c then s.modOut o (·.setCls ctl c { y with backlogged := false, cand := none })
  else
    let y := if y.backlogged then y else { y with backlogged := true, cand := none, s := s.laneV o ctl }
    let good (vc : Nat) : Option PD := match s.laneHead o vc ctl with
      | some d => if s.eligible o t d then some d else none
      | none => none
    let keep := match y.cand with
      | some (vc, h) => match good vc with
        | some d => d.head == h
        | none => false
      | none => false
    if keep then s.modOut o (·.setCls ctl c y)
    else
      match ((List.range 8).map fun i => 8 * c + (y.ptr + i) % 8).find? fun vc => (good vc).isSome with
      | some vc =>
        match good vc with
        | some d => s.modOut o (·.setCls ctl c { y with cand := some (vc, d.head), f := (y.s + s.cost o c d.flits) % 2 ^ 32
                                                        ptr := (vc + 1) % 8 })
        | none => s
      | none => s.modOut o (·.setCls ctl c { y with cand := none })

/-- Signed order of 32-bit tags (R281). -/
def tagLt (a b : Nat) : Bool := decide (toSigned 32 (a + 2 ^ 32 - b) < 0)

/-- The class a lane selects: smallest F, the lower class on a tie (R280, R282). -/
def State.laneClass (s : State) (o : Nat) (ctl : Bool) : Option Nat :=
  [0, 1, 2, 3].foldl (fun b c =>
    let y := (s.outSt o).cls ctl c
    if y.cand.isNone then b
    else match b with
      | none => some c
      | some d => if tagLt y.f ((s.outSt o).cls ctl d).f then some c else some d) none

/-- Refreshes both lanes of an output. -/
def State.refreshOut (s : State) (o t : Nat) : State :=
  [0, 1, 2, 3].foldl (fun s c => (s.refreshClass o t true c).refreshClass o t false c) s

/-- The candidate of a class: its queue, its descriptor, and the queue without it. -/
def State.candOf (s : State) (o : Nat) (ctl : Bool) (c : Nat) : Option (Nat × PD × List PD) :=
  match ((s.outSt o).cls ctl c).cand with
  | none => none
  | some (vc, _) =>
    match s.queue (32 * o + vc) with
    | [] => none
    | d :: rest => some (32 * o + vc, d, rest)

/-- Selects a class: its candidate leaves its queue, V and S follow (R280). -/
def State.takeCand (s : State) (o : Nat) (ctl : Bool) (c k : Nat) (rest : List PD) : State :=
  let y := (s.outSt o).cls ctl c
  ((s.setV o ctl y.f).modOut o (·.setCls ctl c { y with s := y.f, cand := none })).setQueue k rest

/-! Sending -/

/-- A packet as it leaves an output: a multicast copy takes its hop there (R253). -/
def State.leaving (s : State) (d : PD) (o : Nat) : Option Pkt :=
  (s.bufPkt d.head).map fun b =>
    if b.pkt.mcast then (if o < 24 then hopPkt b.pkt (d.vc % 2) b.pkt.wrev else b.pkt) else b.sent

/-- Flit i of a packet. -/
def Pkt.flit (p : Pkt) (i : Nat) : List Byte :=
  if p.data then (if i = 0 then slice p.hdr 0 64 else slice p.pay (64 * (i - 1)) 64) else slice (p.hdr ++ p.pay) 0 64

/-- A whole packet reaches an internal output: it waits for its endpoint, or is discarded with FENCED when its logical core has no physical
core (R267). The host bridge refuses what reaches it at once (R448). -/
def State.deliver (s : State) (o : Nat) (x : Sending) : State :=
  let input := ((s.bufPkt x.pd.head).map (·.input)).getD 0
  if o ≥ 24 && o < 32 && x.pkt.destEp < 144 && (s.phys x.pkt.destEp).isNone then
    let s := s.noteDiscard 14 x.pkt input
    let s := s.endSending o
    if x.pkt.mcast then s.skipAck x.pkt 1 x.pkt.destEp
    else if refusable 14 x.pkt then s.offerC3 (s.refusal 14 x.pkt true) else s
  else if x.pkt.destEp = 0xD0 ∧ !x.pkt.neighbour then (s.endSending o).offerC3 (s.hostRefusal x.pkt)
  else
    (s.sw fun w => { w with inbox := w.inbox ++ [{ output := o, input := input, pkt := x.pkt, ft := s.ft }] }).endSending o

/-- A flit of a packet leaves the device: it is never aged from then on (R264). -/
def State.leaves (s : State) (head : Nat) : State :=
  match s.bufPkt head with
  | some b => if b.left then s else s.setPkt head { b with left := true }
  | none => s

/-- The cell whose parity fails when an output reads it before flit i of a packet leaves, and whether it is the parity of a word of the manager's: the
bytes of a data packet are checked cell by cell (R248, R270). -/
def State.failingCell (s : State) (head i : Nat) : Option (Nat × Bool) :=
  if i % 4 ≠ 0 then none
  else match s.bufPkt head with
    | none => none
    | some b => match b.cells[i / 4]? with
      | none => none
      | some c =>
        let x := s.cell c
        if x.wordBad then some (c, true) else if x.badData && b.pkt.data then some (c, false) else none

/-- An output meets a failing cell of a packet whose descriptor it has taken off (R248, R270): nothing more of the packet is sent, and it is discarded
with BUF_PARITY; a REFUSE goes only if its header cell has not failed. -/
def State.cellFails (s : State) (d : PD) (o c : Nat) (word : Bool) : State :=
  if word then s.wordFails c
  else match s.bufPkt d.head with
    | none => s
    | some b =>
      let s := ((s.noteDiscard 10 b.pkt b.input).report 0x19 0 c).refreshTx d.head
      let s := s.decRef d.head
      if c ≠ d.head && refusable 10 b.pkt then s.offerC3 (s.refusal 10 b.pkt (decide (o ≥ 24))) else s

/-- Sends the next flit of the packet an output is sending, in the slot at time t. -/
def State.sendFlit (s : State) (o t : Nat) : State :=
  match (s.outSt o).sending with
  | none => s
  | some x =>
    let n := x.pd.flits
    let last := decide (x.sent + 1 ≥ n)
    let s := if o < 24 then
        (s.leaves x.pd.head).sendSeq o (if x.pkt.data then 1 else 2) (x.pkt.flit x.sent) (if last then some x.pkt.epoch else none)
      else s
    let s := s.modOut o fun y => { y with sending := some { x with sent := x.sent + 1 } }
    if !last then s
    else if o < 24 then
      let overran := match x.ends with
        | some e => !x.preSeam && decide (160 * s.ft + (t - s.tu) + s.slotTime o > e)
        | none => false
      (if overran then s.count (SCH_GATE_OVERRUN_COUNT o) else s).endSending o
    else s.deliver o { x with sent := x.sent + 1 }

/-- Begins a packet: credit is deducted, TX set, and its first flit sent (R187, R238). -/
def State.begin (s : State) (o t : Nat) (d : PD) (p : Pkt) : State :=
  let s := if o < 24 then s.set (LNK_CRED_CELLS o d.vc) (s.get (LNK_CRED_CELLS o d.vc) - cellsOf d.flits) else s
  let ends := match s.windowLeft o t with
    | some (left, _) => if p.data then some (160 * s.ft + (t - s.tu) + left) else none
    | none => none
  let s := s.modOut o fun y => { y with sending := some { pd := d, pkt := p, sent := 0, ends := ends } }
  (s.refreshTx d.head).sendFlit o t

/-- Sends a control packet between the flits of a data packet. -/
def State.sendBetween (s : State) (o t : Nat) (d : PD) (p : Pkt) : State :=
  let old := (s.outSt o).sending
  let s := (s.modOut o fun y => { y with sending := none }).begin o t d p
  s.modOut o fun y => { y with sending := old }

/-- Whether the data packet in progress lets a control packet take the slot at time t: the rest of it still fits the window in force (R288, R289). -/
def State.ctlFits (s : State) (o t : Nat) : Bool :=
  match (s.outSt o).sending, s.windowLeft o t with
  | some x, some (left, _) => decide (s.slotTime o * (x.pd.flits - x.sent + 1) ≤ left)
  | _, _ => true

/-- Whether the head of a queue is found reclaimed or aged, and the state in which it has been dropped (R264, R269). -/
def State.oldHead (s : State) (k : Nat) (d : PD) (rest : List PD) : Option State :=
  match s.bufPkt d.head with
  | none => some (s.setQueue k rest).dropStale
  | some b =>
    if !s.pdLive d then some (s.setQueue k rest).dropStale
    else if s.aged b.pkt && !b.left then some ((s.setQueue k rest).discardHead State.offerC3 8 d.head true (decide (k ≥ 768)))
    else none

/-- Whether the head of a queue goes without being sent, and the state in which it has gone: reclaimed, aged, or with a cell that fails (R248). -/
def State.rejectHead (s : State) (o k : Nat) (d : PD) (rest : List PD) : Option State :=
  (s.oldHead k d rest).orElse fun _ => (s.failingCell d.head 0).map fun x => (s.setQueue k rest).cellFails d o x.1 x.2

/-- The lanes' part of a slot (R277): the control lane, the data packet in progress, or a new data packet. A packet with a failing cell and a
candidate that leaves its queue without being sent are dropped and the choice made again (R248, R264, R269, R280). Answers whether the slot
was used. -/
def State.laneSlot : Nat → Nat → Nat → State → Bool × State
  | 0, _, _, s => (false, s)
  | n + 1, o, t, s =>
    match (s.outSt o).sending.bind fun x => (s.failingCell x.pd.head x.sent).map fun c => (x.pd, c) with
    | some (d, c, word) => State.laneSlot n o t ((s.modOut o fun y => { y with sending := none }).cellFails d o c word)
    | none =>
      let s := s.refreshOut o t
      let busy := (s.outSt o).sending.isSome
      let data := (busy && (decide (o ≥ 24) || s.seqRoom o)) || (!busy && (s.laneClass o false).isSome)
      let tokens := s.get (SCH_OUT_TOKENS_T o)
      let ctl := if s.ctlFits o t && (!data || decide (tokens ≥ 256)) then s.laneClass o true else none
      let new := if ctl.isNone && !busy then s.laneClass o false else none
      match ctl.orElse fun _ => new with
      | none => if busy && data then (true, s.sendFlit o t) else (false, s)
      | some c =>
        match s.candOf o ctl.isSome c with
        | none => (false, s)
        | some (k, d, rest) =>
          match s.rejectHead o k d rest, s.leaving d o with
          | some s, _ => State.laneSlot n o t s
          | none, none => (false, s)
          | none, some p =>
            let s := s.takeCand o ctl.isSome c k rest
            if ctl.isSome then (true, (s.set (SCH_OUT_TOKENS_T o) (tokens - 256)).sendBetween o t d p) else (true, s.begin o t d p)

end Sys2Proof.Machine
end

