-- ==== Sys2Proof/Machine/Link.lean ====
section
/-! DEFINITION. The link layer's operations: port states (R173), training frames (R174 to R176), narrowing (R178), the receiver and the
transmitter of R183 and R184, credits (R187, R188), reassembly (R245 to R247) and low power (R194, R195). -/

namespace Sys2Proof.Machine

open Sys2Proof

/-- A field of a port's PORTMAP record (R23). -/
def State.pmap (s : State) (p off n : Nat) : Nat := ((s.portmap p).map (field · off n)).getD 0

/-- The lanes of a port. -/
def portLanes (p : Nat) : List Nat := (List.range 8).map (8 * p + ·)

/-! Training frames (R174) -/

/-- CRC-16 of a training frame. -/
def frameCrc (bs : List Byte) : Nat := crcMsb 16 0x1021 0xFFFF bs

/-- Whether a received training frame is good: 32 bytes, its CRC16 right, and of a type. -/
def frameGood (bs : List Byte) (type : Nat) : Bool :=
  bs.length == 32 && field bs 30 2 == frameCrc (bs.take 30) && field bs 0 1 == type

/-- CAPS of a port (R174). -/
def State.caps (s : State) (p : Nat) : Nat :=
  2 ^ (s.pmap p 3 1 + 1) - 1 + (if s.pmap p 4 1 = 4 then 0x80 else 0)

/-- LANE_MASK of a port: the logical lanes received with FOM at least the minimum, fenced lanes excluded (R174, R405). -/
def State.laneMask (s : State) (p : Nat) : Nat :=
  ((portLanes p).map fun l =>
    if s.flag (LANE_STATUS_LOCK l) && !s.laneFenced l && decide (s.get (LANE_STATUS_FOM l) ≥ s.get (LNK_FOM_MIN_FOM p)) then
      2 ^ s.get (LANE_STATUS_LOGICAL l) else 0).sum

/-- A training frame of a lane: type, equaliser request and status (R174). -/
def State.frame (s : State) (l type eqReq eqStat : Nat) : List Byte :=
  let p := l / 8
  let body := leBytes 1 type ++ leBytes 1 (l % 8) ++ leBytes 1 p ++ leBytes 1 (s.caps p) ++ leBytes 4 s.ownAddr ++
    leBytes 4 (s.getR (PWR_ID_HASH 0)) ++ leBytes 4 (s.getR (PWR_ID_HASH 1)) ++ leBytes 4 (s.port p).nonceTx ++
    leBytes 1 eqReq ++ leBytes 1 eqStat ++ leBytes 1 (s.get (LANE_STATUS_FOM l)) ++ leBytes 1 (s.laneMask p) ++
    [0, 0, 0, 0, 0, 0]
  body ++ leBytes 2 (frameCrc body)

/-- Sends a frame on a lane (R174). -/
def State.sendFrame (s : State) (l : Nat) (bs : List Byte) : State := s.emit (.frame l bs (frameLine bs))

/-- Sends a frame on every lane of a list. -/
def State.sendFrames (s : State) (ls : List Nat) (type : Nat) : State :=
  ls.foldl (fun s l => s.sendFrame l (s.frame l type 0 0)) s

/-! Port states (R173) -/

/-- Whether a link state counts as in service. -/
def lkUp (st : Nat) : Bool := st == lkActive || st == lkLp1 || st == lkLp2

/-- A port comes into service: when it is the lost syntonization source, its offset is measured again (R391). -/
def State.sourceBack (s : State) (p : Nat) : State :=
  if s.get PWR_CLK_STATUS_STATE = 3 ∧ s.get PWR_CLK_STATUS_PORT = p then
    { s with clock := { s.clock with measureAt := some s.now, lostAt := none } }
  else s

/-- Enters a link state: tokens are settled, STATE and UP follow, the LINK record is offered, and the switch hears of a port that comes into
or leaves service. -/
def State.goPort (s : State) (p st : Nat) : State :=
  let was := s.portUp p
  let s := s.settleTok p s.tu
  let s := (s.set (LNK_STATUS_STATE p) st).set (LNK_STATUS_UP p) (b2n (lkUp st))
  let s := s.modPort p fun q => { q with stepAt := s.now, idleSince := s.now }
  let s := s.trace trLink (0x90 + p) st 0 (s.get (LNK_STATUS_FAIL_CODE p)) 0
  if was && !lkUp st then s.portDown p
  else if !was && lkUp st then
    ((s.modPort p fun q => { q with upAt := some s.now }).modOut p fun o => { o with tokAt := s.tu }).sourceBack p
  else s

/-- RTE_UP_HOLD in FCLK (R220). -/
def State.upHold (s : State) : Nat := fclk (max 1 (s.get RTE_UP_HOLD_HOLD))

/-- A port that has held for RTE_UP_HOLD is taken into service (R220). -/
def State.portHeld (s : State) (p : Nat) : State :=
  (s.modPort p fun q => { q with upAt := none }).setR RTE_PORT_UP (putBits (s.getR RTE_PORT_UP) p 1 1)

/-- A port drops its credit counts, its replay buffer and what waits to be sent (R188); its lanes carry no flits any more. -/
def State.dropLink (s : State) (p : Nat) : State :=
  let s := s.endSending p
  let s := (List.range 32).foldl (fun s v => s.setR (LNK_CRED p v) 0) s
  let s := (portLanes p).foldl (fun s l => s.set (LANE_STATUS_ACTIVE l) 0) s
  s.modPort p fun q => { q with stored := [], replayFrom := none, replayStart := false, ctl := [], owed := [], owedAt := none
                                credNew := [], rxWait := false, lpAsked := 0, autoDue := false, lpEnter := 0, onLane0 := false
                                waking := none, relocked := false, credSent := false, credSeen := false
                                farLoop := false, loopAsked := false, selfReady := false, peerReady := false, goodMarkers := 0 }

/-- A port fails (R173): FAIL_CODE, lanes idle, credits and replay buffer dropped, the event reported (R397). -/
def State.failPort (s : State) (p code : Nat) : State :=
  let s := s.set (LNK_STATUS_FAIL_CODE p) code
  let s := (s.goPort p lkFailed).dropLink p
  let s := (s.emit (.idle p)).count (LNK_DOWN_COUNT_COUNT p)
  if code = 4 ∨ code = 8 ∨ code = 0xC then s else s.report 0x02 p code

/-- A port goes to OFF: lanes idle, credits and replay buffer dropped. -/
def State.portOff (s : State) (p : Nat) : State := (((s.goPort p lkOff).dropLink p).emit (.idle p)).set (LNK_CTRL_ENABLE_PENDING p) 0

/-- A port enters DETECT: a new NONCE, the lanes' training state cleared, IDENT frames sent at 16 Gb/s on all 8 lanes (R168, R173). -/
def State.enterDetect (s : State) (p : Nat) : State :=
  let (n, s) := s.draw
  let s := (s.goPort p lkDetect).dropLink p
  let s := s.modPort p fun q => { q with nonceTx := n % 2 ^ 32, goodMarkers := 0 }
  let s := (portLanes p).foldl (fun s l =>
    ((s.set (LANE_STATUS_FAULT l) 0).set (LANE_STATUS_LOCK l) 0).modLane l fun x =>
      { x with goodFrames := 0, peerLane := none, bestFom := 0, flat := 0, lowFom := 0, badMarkers := 0 }) s
  s.sendFrames (portLanes p) 1

/-- Enters LOOPBACK: the pattern generators of the lanes that send one start from a register that is not zero, the checkers load anew (R197). -/
def State.enterLoop (s : State) (p : Nat) : State :=
  (portLanes p).foldl (fun s l =>
    if s.flag (LANE_CTRL_PRBS_TX l) then
      let (n, s) := s.draw
      s.modLane l fun x => { x with prbsTx := n % (2 ^ 15 - 1) + 1, prbsSeen := 0 }
    else s.modLane l fun x => { x with prbsSeen := 0 }) (s.goPort p lkLoopback)

/-- Begins the training of an enabled port: OFF without a PORTMAP record, a near-end loopback at once, else DETECT (R173, R197). -/
def State.startPort (s : State) (p : Nat) : State :=
  let loop := s.get (LNK_CTRL_LOOP p)
  if loop = 1 ∨ loop = 2 then s.enterLoop p
  else if (s.portmap p).isNone then s
  else s.enterDetect p

/-- Ports powered up in the last 100 µs (R385). -/
def State.recentPower (s : State) : Nat :=
  ((List.range 24).filter fun p => (s.port p).powered && decide (s.now - (s.port p).powerAt < fclk 100)).length

/-- Powers up a port's analog stages if its turn has come, and starts it; else it waits in OFF (R385). -/
def State.powerPort (s : State) (p : Nat) : State :=
  if (s.port p).powered then s.startPort p
  else
    let ahead := (List.range p).any fun i => (s.port i).waitPower
    if ahead || decide (s.recentPower ≥ 4) then s.modPort p fun q => { q with waitPower := true }
    else (s.modPort p fun q => { q with waitPower := false, powered := true, powerAt := s.now }).startPort p

/-- A fence of a port (R405): lanes idle at once, everything dropped, FENCED. -/
def State.fencePort (s : State) (p : Nat) : State :=
  let s := s.setR FLT_FENCE_PORT (putBits (s.getR FLT_FENCE_PORT) p 1 1)
  let s := if s.portUp p then s else s.portDown p
  let s := s.modPort p fun q => { q with waitPower := false }
  let s := (s.goPort p lkFenced).dropLink p
  (s.emit (.idle p)).set (LNK_CTRL_ENABLE_PENDING p) 0

/-! Lane faults and narrowing (R166, R178) -/

/-- The physical lane that received a logical lane's data. -/
def State.logicalLane (s : State) (p k : Nat) : Nat :=
  ((portLanes p).find? fun l => s.get (LANE_STATUS_LOGICAL l) == k).getD (8 * p + k)

/-- Whether four logical lanes from k on are free of faults and fences. -/
def State.halfGood (s : State) (p k : Nat) : Bool :=
  (List.range 4).all fun i => let l := s.logicalLane p (k + i); !s.flag (LANE_STATUS_FAULT l) && !s.laneFenced l

/-- Enters RETRAIN to narrow to one half of the logical lanes. -/
def State.narrow (s : State) (p : Nat) (upper : Bool) : State :=
  let s := s.goPort p lkRetrain
  let s := ((s.set (LNK_STATUS_X4 p) 1).set (LNK_STATUS_UPPER_HALF p) (b2n upper)).modPort p fun q => { q with goodMarkers := 0 }
  let s := (List.range 8).foldl (fun s k => s.set (LANE_STATUS_ACTIVE (s.logicalLane p k)) (b2n (decide (k ≥ 4) == upper))) s
  s.sendFrames ((List.range 4).map fun i => 8 * p + i + 4 * b2n upper) 5

/-- Whether both ends of a port allow narrowing. -/
def State.mayNarrow (s : State) (p : Nat) : Bool :=
  !s.flag (LNK_STATUS_X4 p) && s.pmap p 4 1 == 4 && Machine.bit (s.port p).peerCaps 7

/-- What a lane that has faulted or been fenced means for its port: narrowing, or LANE_FAULT (R178). -/
def State.laneLost (s : State) (l : Nat) : State :=
  let p := l / 8
  if !(s.lst p == lkActive || s.lst p == lkLp1) || !s.flag (LANE_STATUS_ACTIVE l) then s
  else if s.mayNarrow p && s.halfGood p 0 then s.narrow p false
  else if s.mayNarrow p && s.halfGood p 4 then s.narrow p true
  else s.failPort p 0xA

/-- A lane faults in service (R166, R397). -/
def State.laneFault (s : State) (l : Nat) : State :=
  let s := (s.set (LANE_STATUS_FAULT l) 1).report 0x03 l (s.get (LANE_STATUS_FOM l))
  s.laneLost l

/-- A fence of a lane (R405). -/
def State.fenceLane (s : State) (l : Nat) : State :=
  let r := FLT_FENCE_LANE (l / 32)
  (s.setR r (putBits (s.getR r) (l % 32) 1 1)).laneLost l

/-! INIT and credits (R182, R187, R241) -/

/-- Initial credits of every VC: LOAN = STEP when the grant rule holds, and L − U owed (R241). -/
def State.initCredits (s : State) (p : Nat) : State :=
  (List.range 32).foldl (fun s v =>
    let a := 32 * p + v
    let s := s.set (BPM_ACCT_LOAN a) 0
    let loan := if s.sharedFree ≥ s.floorCells + s.loanStep then s.loanStep else 0
    let s := s.set (BPM_ACCT_LOAN a) loan
    s.modPort p fun q => { q with owed := Tbl.write q.owed 0 v (9 + loan - s.inUse a), owedAt := some s.now }) s

/-- A port enters INIT: sequence numbers and counts cleared, initial credits due (R182, R187). -/
def State.enterInit (s : State) (p : Nat) : State :=
  let s := s.goPort p lkInit
  let s := (List.range 32).foldl (fun s v => s.setR (LNK_CRED p v) 0) s
  let s := s.modPort p fun q =>
    { q with expected := 0, rxGen := 0, skip := 0, rxWait := false, resend := 0, anyRx := false, txNext := 0, txGen := 0, stored := []
             replayFrom := none, replayStart := false, replays := 0, ctl := [], credSent := false, credSeen := false, lpAsked := 0 }
  s.initCredits p

/-- Leaves INIT, or the exit from LP2 once the lanes are aligned, when both ends' initial credits have been received (R173, R194). -/
def State.initDone (s : State) (p : Nat) : State :=
  let q := s.port p
  if !(q.credSent && q.credSeen) then s
  else if s.lst p = lkInit then s.goPort p lkActive
  else if s.lst p = lkLp2 ∧ q.relocked ∧ q.goodMarkers ≥ 1 then (s.goPort p lkActive).modPort p fun q => { q with relocked := false }
  else s

/-- Adds received credit to a VC's count; what exceeds 1,023 is discarded and counted (R188). -/
def State.addCredit (s : State) (p v n : Nat) : State :=
  if n = 0 then s
  else
    let c := s.get (LNK_CRED_CELLS p v) + n
    let s := if c > 1023 then s.count (LNK_PROTO_ERR_COUNT p) else s
    let s := s.set (LNK_CRED_CELLS p v) (min 1023 c)
    s.modPort p fun q =>
      let new := if q.credAt = s.now then q.credNew else []
      { q with credAt := s.now, credNew := Tbl.write new 0 v (Tbl.read new 0 v + n) }

/-! Transmitter (R184) -/

/-- Starts a replay from a sequence number; too many without progress fail the port. -/
def State.replayLink (s : State) (p from_ : Nat) : State :=
  let s := (s.count (LNK_REPLAY_COUNT p)).modPort p fun q =>
    { q with txGen := (q.txGen + 1) % 16, replayFrom := some from_, replayStart := true, replays := q.replays + 1, ackAt := s.now }
  if (s.port p).replays > s.get (LNK_RETRY_CFG_RETRY_LIMIT p) then s.failPort p 7 else s

/-- The oldest stored sequence number, or the next one. -/
def Port.oldest (q : Port) : Nat := match q.stored with | x :: _ => x.seq | [] => q.txNext

/-- Releases every stored flit up to an acknowledged sequence number (R184). -/
def State.ackUpTo (s : State) (p a : Nat) : State :=
  let q := s.port p
  match q.stored.findIdx? (·.seq == a) with
  | none => s
  | some i =>
    let rest := q.stored.drop (i + 1)
    let gone := (q.stored.take (i + 1)).map (·.seq)
    s.setPort p { q with stored := rest, ackAt := s.now, replays := 0
                         replayFrom := match q.replayFrom with
                           | some f =>
                             if !gone.contains f then some f
                             else match rest with
                               | x :: _ => some x.seq
                               | [] => if q.replayStart then some q.txNext else none
                           | none => none }

/-- A protocol error that fails the port (R183, R184): counted, PROTOCOL. -/
def State.protocolError (s : State) (p : Nat) : State := (s.count (LNK_PROTO_ERR_COUNT p)).failPort p 0xB

/-- A NAK reaches the transmitter (R184). -/
def State.takeNak (s : State) (p e g : Nat) : State :=
  let q := s.port p
  if g ≠ q.txGen then s
  else if (e + 4096 - q.oldest) % 4096 > q.stored.length then s.protocolError p
  else s.replayLink p e

/-! Receiver (R183) -/

/-- Parts of a received flit. -/
def flitT (bs : List Byte) : Nat := field bs 64 8
def flitAck (bs : List Byte) : Nat := bits (flitT bs) 0 12
def flitCrVc (bs : List Byte) : Nat := bits (flitT bs) 12 5
def flitCrN (bs : List Byte) : Nat := bits (flitT bs) 17 3
def flitType (bs : List Byte) : Nat := bits (flitT bs) 20 4
def flitGen (bs : List Byte) : Nat := bits (flitT bs) 28 4
def flitCrc (bs : List Byte) : Nat := bits (flitT bs) 32 32

/-- The verdict of R181. -/
inductive Verdict where
  | good | stomped | bad
deriving DecidableEq, Repr

def verdict (bs : List Byte) : Verdict :=
  if bs.length ≠ 72 then .bad
  else if flitCrc bs = crc32c (bs.take 68) then .good
  else if flitCrc bs = crc32c (bs.take 68) ^^^ 0xFFFFFFFF then .stomped
  else .bad

/-- Types that the table of R180 defines, and those of them that are sequenced. -/
def typeKnown (t : Nat) : Bool := t ≤ 3 || (8 ≤ t && t ≤ 0xB) || t == 0xF
def typeSeq (t : Nat) : Bool := t == 1 || t == 2 || t == 3

/-- Sends a NAK in the next slot (R183). -/
def State.sendNak (s : State) (p : Nat) : State :=
  let q := s.port p
  (s.sendCtl p 8 (leBytes 2 q.expected ++ leBytes 1 q.rxGen)).modPort p fun q => { q with nakAt := s.now }

/-- A stomped or bad flit (R183): counted in RX_RUN; a bad one is answered with a NAK and RX_WAIT. -/
def State.rxBad (s : State) (p : Nat) (stomped : Bool) : State :=
  if (s.port p).rxWait then s
  else if stomped then s.count (LNK_STOMP_COUNT p)
  else
    let s := s.count (LNK_CRC_ERR_COUNT p)
    let s := s.report 0x01 p (s.getR (LNK_CRC_ERR p))
    (s.sendNak p).modPort p fun q => { q with rxWait := true, resend := 0 }

/-- Whether a port receives flits: INIT, ACTIVE, LP1, SHUTDOWN, a loopback, or the end of an exit from LP2. -/
def State.rxOn (s : State) (p : Nat) : Bool :=
  let st := s.lst p
  !s.fatal && (st == lkInit || st == lkActive || st == lkLp1 || st == lkShutdown || st == lkLoopback ||
    (st == lkLp2 && (s.port p).relocked && decide ((s.port p).goodMarkers ≥ 1)))

/-- The received lanes that carry flits, stripe 0 first. -/
def State.rxLanes (s : State) (p : Nat) : List Nat := (s.carriers p).map (s.logicalLane p)

/-- The line bits in which a received flit came, by lane: those given, or those that the partner's coders make of its bytes. -/
def State.rxBits (s : State) (p : Nat) (rx : RxFlit) : List (Nat × List Bool) :=
  let ls := s.rxLanes p
  match rx with
  | .line bs => ls.zip bs
  | .bytes bs =>
    (ls.zip (List.range ls.length)).map fun x => (x.1, (Coder.send (lineBits (stripe ls.length x.2 bs)) (s.lane x.1).rx).1)

/-- The receive side of the line coding (R167, R169): destuffed, descrambled and merged bytes, the verdict, and the lanes' coders gone on. A stuff
error is counted on its lane, and the flit that holds it fails its CRC. -/
def State.rxIn (s : State) (p : Nat) (rx : RxFlit) : List Byte × Verdict × State :=
  let ls := s.rxLanes p
  match rx with
  | .bytes bs =>
    (bs, verdict bs, (ls.zip (List.range ls.length)).foldl (fun s x =>
      s.modLane x.1 fun l => { l with rx := (Coder.send (lineBits (stripe ls.length x.2 bs)) l.rx).2 }) s)
  | .line bits =>
    let xs := (ls.zip bits).map fun x => (x.1, Coder.receive x.2 (s.lane x.1).rx)
    let bs := if xs.length = ls.length then destripe (xs.map fun x => lineBytes x.2.1) else []
    (bs, if xs.any fun x => decide (x.2.2.1 > 0) then .bad else verdict bs, xs.foldl (fun s x =>
      let s := s.modLane x.1 fun l => { l with rx := x.2.2.2 }
      s.set (LANE_ERR_LINE_STUFF x.1) (satAdd 16 (s.get (LANE_ERR_LINE_STUFF x.1)) x.2.2.1)) s)

/-- Line bits reach the pattern checker of a lane: each wrong one is counted (R197). -/
def State.checkBits (s : State) (l : Nat) (bs : List Bool) : State :=
  if !s.flag (LANE_CTRL_PRBS_CHK l) then s
  else
    let (n, x) := bs.foldl (Lane.prbsCheck (s.flag (LANE_CTRL_PATTERN l))) (0, s.lane l)
    (s.modLane l fun _ => x).set (LANE_ERR_PRBS_COUNT l) (satAdd 32 (s.get (LANE_ERR_PRBS_COUNT l)) n)

/-- What a flit's time brings to a port in LOOPBACK (R197): the pattern checkers get each lane's bits; the partner's end sends every received lane
back; without a test pattern the CRC is checked. -/
def State.rxLoop (s : State) (p : Nat) (rx : RxFlit) : State :=
  let xs := s.rxBits p rx
  let u := xs.foldl (fun s x => s.checkBits x.1 x.2) s
  if (s.port p).farLoop then xs.foldl (fun s x => s.emit (.bits x.1 x.2)) u
  else if (portLanes p).any fun l => s.flag (LANE_CTRL_PRBS_TX l) || s.flag (LANE_CTRL_PRBS_CHK l) then u
  else
    let (_, v, u) := u.rxIn p rx
    if v = .bad then u.count (LNK_CRC_ERR_COUNT p) else u

/-- What every good flit does: its acknowledgement is taken, and traffic other than NULL ends the port's idleness (R184, R195). -/
def State.rxGood (s : State) (p : Nat) (bs : List Byte) : State :=
  let s := s.ackUpTo p (flitAck bs)
  if flitType bs = 0 then s else s.modPort p fun q => { q with idleSince := s.now }

/-- Receives a flit as far as its verdict and type: its bytes, or `none` when the flit is not one that reaches the layers above as the wanted
type. -/
def State.rxFlit (s : State) (p : Nat) (rx : RxFlit) (want : Nat) : State × Option (List Byte) :=
  if !s.rxOn p then (s, none)
  else if s.lst p = lkLoopback then (s.rxLoop p rx, none)
  else
    let (bs, v, s) := s.rxIn p rx
    match v with
    | .stomped => (s.rxBad p true, none)
    | .bad => (s.rxBad p false, none)
    | .good =>
      if !typeKnown (flitType bs) then ((s.rxGood p bs).count (LNK_PROTO_ERR_COUNT p), none)
      else if flitType bs ≠ want then (s, none)
      else (s.rxGood p bs, some bs)

/-- Whether a good sequenced flit would be delivered (R183): RX_RUN, current generation, nothing to skip. -/
def Port.inOrder (q : Port) (bs : List Byte) : Bool := !q.rxWait && q.rxGen == flitGen bs && q.skip == 0

/-- Receives a good sequenced flit (R183): whether it is delivered; its credit is applied once. -/
def State.rxSeq (s : State) (p : Nat) (bs : List Byte) : State × Bool :=
  let q := s.port p
  if q.rxWait || q.rxGen != flitGen bs then (s, false)
  else if q.skip > 0 then (s.setPort p { q with skip := q.skip - 1 }, false)
  else ((s.setPort p { q with expected := (q.expected + 1) % 4096, anyRx := true }).addCredit p (flitCrVc bs) (flitCrN bs), true)

/-! Reassembly and commit of received packets (R245 to R250) -/

/-- A data packet of an input is complete: its cells are linked and it is decided (R246). -/
def State.completeOpen (s : State) (p : Nat) : State :=
  match Tbl.find s.switch.opens p with
  | none => s
  | some o =>
    let s := s.sw fun w => { w with opens := Tbl.drop w.opens p }
    let pkt : Pkt := { data := true, hdr := o.flits.headD [], pay := (o.flits.drop 1).flatten }
    match o.cells with
    | [] => s
    | head :: _ =>
      let s := s.setPkt head { pkt := pkt, sent := pkt, input := p, origin := false, cells := o.cells }
      s.decideHead State.offerC3 head

/-- A header flit of a data packet is accepted (R245 to R247). -/
def State.dataHeader (s : State) (p : Nat) (hdr : List Byte) : State :=
  let s := s.dropOpen p
  let h : Pkt := { data := true, hdr := hdr, pay := [] }
  let a := 32 * p + h.vc
  if h.byteCount > 2048 then ((s.noteDiscard 9 h p).owe a 9).loanCheck a
  else
    let (c, s) := s.allocAcct a
    let x : OpenPkt := { cells := [c], vc := h.vc, flits := [hdr], need := h.flits, lastAt := s.now }
    let s := (s.linkCells [c]).sw fun w => { w with opens := Tbl.insert w.opens p x }
    if h.flits ≤ 1 then s.completeOpen p else s

/-- A payload flit of a data packet is accepted; one without an open packet is dropped. -/
def State.dataPayload (s : State) (p : Nat) (pay : List Byte) : State :=
  match Tbl.find s.switch.opens p with
  | none => s
  | some o =>
    let n := o.flits.length
    let (cells, s) := if n % 4 = 0 then
        let (c, s) := s.allocAcct (32 * p + o.vc)
        (o.cells ++ [c], s.linkCells (o.cells ++ [c]))
      else (o.cells, s)
    let s := s.sw fun w => { w with opens := Tbl.insert w.opens p { o with cells := cells, flits := o.flits ++ [pay], lastAt := s.now } }
    if n + 1 ≥ o.need then s.completeOpen p else s

/-! Low power (R195, R196) -/

/-- Whether a port may ask for or accept low power: no outstanding sequenced flit, no credit waiting, nothing queued. -/
def State.quiet (s : State) (p : Nat) : Bool :=
  (s.port p).stored.isEmpty && (s.port p).owed.isEmpty && (s.port p).replayFrom.isNone

/-- The live SYNTON record (R389). -/
def State.synton (s : State) : Option (List Byte) := (s.recs 0x0C).head?

/-- Whether a port must not enter LP2: the syntonization source, or an optical channel (R163, R196). -/
def State.noLp2 (s : State) (p : Nat) : Bool :=
  ((s.synton.map fun r => field r 0 1 == p).getD false) || Machine.bit (s.pmap p 6 2) 0

/-- The low-power state that LNK_CTRL.LP asks for, 0 for none: a port that must not enter LP2 does not ask for it. -/
def State.lpWant (s : State) (p : Nat) : Nat :=
  let k := min 2 (s.get (LNK_CTRL_LP p))
  if k = 2 ∧ s.noLp2 p then 0 else k

/-- Whether a port's own setting allows a low-power state. -/
def State.lpAllows (s : State) (p k : Nat) : Bool :=
  if k = 1 then decide (s.get (LNK_CTRL_LP p) ≥ 1) || s.flag (LNK_CTRL_LP1_AUTO p) else s.lpWant p == 2

/-- Enters LP1, where every lane but logical lane 0 goes idle, or LP2, where all do and recovery stops (R194). -/
def State.enterLp (s : State) (p k : Nat) : State :=
  let others := (s.txLanes p).drop 1
  let s := (s.goPort p (if k = 1 then lkLp1 else lkLp2)).modPort p fun q =>
    { q with lpAsked := 0, autoDue := false, lpEnter := 0, onLane0 := k == 1, waking := none, relocked := false }
  if k = 1 then others.foldl (fun s l => s.emit (.idleLane l)) s
  else (portLanes p).foldl (fun s l => s.set (LANE_STATUS_LOCK l) 0) (s.emit (.idle p))

/-- WAKE has passed in one direction or the other: all lanes resume (R195). -/
def State.lanesResume (s : State) (p : Nat) : State :=
  let s := s.modPort p fun q => { q with onLane0 := false }
  if s.lst p = lkLp1 then s.goPort p lkActive else s

/-- Leaves LP1 at this end's wish: WAKE goes on lane 0 in the next slot (R195). -/
def State.wakeLp1 (s : State) (p : Nat) : State :=
  if (s.port p).ctl.any fun u => u.type == 0xA && field u.pay 0 1 == 5 then s else s.sendCtl p 0xA (leBytes 1 5)

/-- Begins the exit from LP2 at this end's wish, with the burst (R195). -/
def State.wakeLp2 (s : State) (p : Nat) : State :=
  if (s.port p).waking.isSome || (s.port p).relocked then s
  else (s.emit (.burst p)).modPort p fun q => { q with waking := some s.now }

end Sys2Proof.Machine
end

