-- ==== Sys2Proof/Machine/Num.lean ====
section
/-! DEFINITION. The number formats of spec/04: the exact value of a code, the rounding step of R118 to R120, the conversions of
R122, R123, R126 and R127, exact sums and products, the random draw of R124, and the approximations of R135. -/

namespace Sys2Proof.Machine

/-- The exact value of a code: NaN, a signed infinity, or (-1)^neg times m times 2^e. -/
inductive Val where
  | nan
  | inf (neg : Bool)
  | fin (neg : Bool) (m : Nat) (e : Int)
deriving DecidableEq, Repr

/-- The five exception flags of R136. -/
structure Flags where
  inv : Bool := false
  dz : Bool := false
  ovf : Bool := false
  unf : Bool := false
  inx : Bool := false
deriving DecidableEq, Repr

/-- Sticky union of flags. -/
def Flags.or (a b : Flags) : Flags :=
  ⟨a.inv || b.inv, a.dz || b.dz, a.ovf || b.ovf, a.unf || b.unf, a.inx || b.inx⟩

/-- The five flags as bits [4:0] of CORE_EXC. -/
def Flags.toBits (f : Flags) : Nat := b2n f.inv + 2 * b2n f.dz + 4 * b2n f.ovf + 8 * b2n f.unf + 16 * b2n f.inx

/-- A floating format: exponent and mantissa widths, bias, whether e = all-ones encodes infinity and NaN, largest finite code,
canonical NaN, and whether it has -0 (R111, R112). -/
structure FloatFmt where
  ebits : Nat
  mbits : Nat
  bias : Nat
  ieee : Bool
  maxCode : Nat
  nanCode : Nat
  negZero : Bool
deriving DecidableEq, Repr

/-- The floating formats of R111 by code. -/
def floatFmt : Nat → Option FloatFmt
  | 0x0 => some ⟨8, 23, 127, true, 0x7F7FFFFF, 0x7FC00000, true⟩
  | 0x1 => some ⟨8, 7, 127, true, 0x7F7F, 0x7FC0, true⟩
  | 0x2 => some ⟨5, 10, 15, true, 0x7BFF, 0x7E00, true⟩
  | 0x3 => some ⟨4, 3, 7, false, 0x7E, 0x7F, true⟩
  | 0x4 => some ⟨5, 2, 15, true, 0x7B, 0x7E, true⟩
  | 0x5 => some ⟨3, 2, 3, false, 0x1F, 0x20, false⟩
  | 0x6 => some ⟨2, 3, 1, false, 0x1F, 0x20, false⟩
  | 0x7 => some ⟨2, 1, 1, false, 0x7, 0x8, false⟩
  | _ => none

/-- Width in bits of the integer formats of R111 by code. -/
def intWidth : Nat → Option Nat
  | 0x8 => some 32 | 0x9 => some 16 | 0xA => some 8 | 0xB => some 4 | _ => none

/-- Element width of the block-scaled formats of R114 by code. -/
def bsWidth : Nat → Option Nat
  | 0xC => some 8 | 0xD => some 6 | 0xE => some 4 | _ => none

/-- Width in bits of one element of a format. -/
def elemBits (fmt : Nat) : Nat :=
  match fmt with
  | 0x0 => 32 | 0x1 => 16 | 0x2 => 16 | 0x3 => 8 | 0x4 => 8 | 0x5 => 6 | 0x6 => 6 | 0x7 => 4
  | 0x8 => 32 | 0x9 => 16 | 0xA => 8 | 0xB => 4 | 0xC => 8 | 0xD => 6 | 0xE => 4 | _ => 0

/-- Whether a code is a NaN of the format (R111). -/
def floatIsNan (f : FloatFmt) (c : Nat) : Bool :=
  let e := bits c f.mbits f.ebits
  let m := bits c 0 f.mbits
  if f.ieee then e == 2 ^ f.ebits - 1 && m != 0
  else if f.negZero then e == 2 ^ f.ebits - 1 && m == 2 ^ f.mbits - 1
  else c % 2 ^ (f.ebits + f.mbits + 1) == 2 ^ (f.ebits + f.mbits)

/-- The value of a floating code (R112). -/
def decodeFloat (f : FloatFmt) (c : Nat) : Val :=
  let s := bit c (f.ebits + f.mbits)
  let e := bits c f.mbits f.ebits
  let m := bits c 0 f.mbits
  if floatIsNan f c then .nan
  else if f.ieee && e == 2 ^ f.ebits - 1 then .inf s
  else if e == 0 then .fin s m (1 - (f.bias : Int) - f.mbits)
  else .fin s (2 ^ f.mbits + m) ((e : Int) - f.bias - f.mbits)

/-- The value of an integer. -/
def intVal (i : Int) : Val := .fin (i < 0) i.natAbs 0

/-- The value of a block-scaled element q (a code of n bits) under scale byte s (R114). -/
def decodeBs (n s q : Nat) : Val :=
  if s = 0xFF ∨ q % 2 ^ n = 2 ^ (n - 1) then .nan
  else
    let i := toSigned n q
    .fin (i < 0) i.natAbs ((s : Int) - 127 - ((n : Int) - 2))

/-- The value of a code of any format; the scale byte counts for block-scaled formats only. -/
def decodeVal (fmt scale code : Nat) : Val :=
  match floatFmt fmt with
  | some f => decodeFloat f code
  | none =>
    match intWidth fmt with
    | some w => intVal (toSigned w code)
    | none => decodeBs ((bsWidth fmt).getD 8) scale code

/-- Floor of the base-2 logarithm of m times 2^e, m nonzero. -/
def Val.exponent (m : Nat) (e : Int) : Int := (Nat.log2 m : Int) + e

/-- Rounding to the grid of step 2^q (R118): the multiple chosen and whether the step was inexact. Mode 0 nearest even, 1 toward
zero, 2 stochastic with the draw r. -/
def roundGrid (mode r m : Nat) (e q : Int) : Nat × Bool :=
  if q ≤ e then (m * 2 ^ (e - q).toNat, false)
  else
    let sh := (q - e).toNat
    let k := m / 2 ^ sh
    let rem := m % 2 ^ sh
    if rem = 0 then (k, false)
    else
      let up :=
        match mode with
        | 0 => decide (2 * rem > 2 ^ sh) || (decide (2 * rem = 2 ^ sh) && k % 2 == 1)
        | 1 => false
        | _ => decide (r < rem * 65536 / 2 ^ sh)
      (if up then k + 1 else k, true)

/-- Whether k times 2^q exceeds the value of the largest finite code of a floating format. -/
def aboveMax (f : FloatFmt) (k : Nat) (q : Int) : Bool :=
  match decodeFloat f f.maxCode with
  | .fin _ m e => if q ≤ e then decide (k > m * 2 ^ (e - q).toNat) else decide (k * 2 ^ (q - e).toNat > m)
  | _ => false

/-- The sign bit of a format at its place. -/
def signCode (f : FloatFmt) (neg : Bool) : Nat := b2n neg * 2 ^ (f.ebits + f.mbits)

/-- The code of a zero of the given sign: formats without -0 have +0 alone (R120). -/
def zeroCode (f : FloatFmt) (neg : Bool) : Nat := if f.negZero then signCode f neg else 0

/-- Overflow in a floating target (R119): largest finite, or the canonical NaN when OVF = 1. -/
def overflowCode (f : FloatFmt) (ovf neg : Bool) : Nat := if ovf then f.nanCode else signCode f neg + f.maxCode

/-- The code of the magnitude k times 2^q, known to be representable. -/
def encodeMag (f : FloatFmt) (k : Nat) (q : Int) : Nat :=
  let k' := if k = 2 ^ (f.mbits + 1) then 2 ^ f.mbits else k
  let q' := if k = 2 ^ (f.mbits + 1) then q + 1 else q
  if k' < 2 ^ f.mbits then k'
  else (q' + f.mbits + f.bias).toNat * 2 ^ f.mbits + (k' - 2 ^ f.mbits)

/-- One rounding step of an exact nonzero magnitude into a floating format (R118 to R120). -/
def roundFloat (f : FloatFmt) (mode r : Nat) (ovf neg : Bool) (m : Nat) (e : Int) : Nat × Flags :=
  let emin : Int := 1 - (f.bias : Int)
  let ex := Val.exponent m e
  let q := max ex emin - f.mbits
  let (k, inx) := roundGrid mode r m e q
  if aboveMax f k q then (overflowCode f ovf neg, { ovf := true, inx := true })
  else if k = 0 then (zeroCode f neg, { unf := true, inx := true })
  else (signCode f neg + encodeMag f k q, { unf := inx && decide (ex < emin), inx := inx })

/-- Conversion of a value into a floating format, special values of R126 included. -/
def toFloat (f : FloatFmt) (mode r : Nat) (ovf : Bool) : Val → Nat × Flags
  | .nan => (f.nanCode, {})
  | .inf neg =>
    if f.ieee then (signCode f neg + (2 ^ f.ebits - 1) * 2 ^ f.mbits, {})
    else (overflowCode f ovf neg, { ovf := true })
  | .fin neg m e => if m = 0 then (zeroCode f neg, {}) else roundFloat f mode r ovf neg m e

/-- Conversion of a value into a w-bit integer (R119, R126, R127). -/
def toInt (w mode r : Nat) : Val → Nat × Flags
  | .nan => (0, { inv := true })
  | .inf neg => (if neg then 2 ^ (w - 1) else 2 ^ (w - 1) - 1, { ovf := true })
  | .fin neg m e =>
    let (k, inx) := roundGrid mode r m e 0
    let lim := if neg then 2 ^ (w - 1) else 2 ^ (w - 1) - 1
    if k > lim then (if neg then 2 ^ (w - 1) else 2 ^ (w - 1) - 1, { ovf := true, inx := true })
    else (ofSigned w (if neg then -(k : Int) else k), { inx := inx })

/-- FP32, the format every sum is kept in. -/
def fp32 : FloatFmt := ⟨8, 23, 127, true, 0x7F7FFFFF, 0x7FC00000, true⟩

/-- One rounding to nearest even into FP32. -/
def rn32 (ovf : Bool) (v : Val) : Nat × Flags := toFloat fp32 0 0 ovf v

/-- An FP32 code as the device writes it: every NaN is the canonical one (R117). -/
def canon32 (c : Nat) : Nat := if floatIsNan fp32 c then fp32.nanCode else c

/-- The value of an FP32 code. -/
def val32 (c : Nat) : Val := decodeFloat fp32 c

/-- Exact sum of two values: infinities of opposite sign give NaN and INVALID; an exact zero is +0 unless both addends are -0
(R120, R129). -/
def addVal : Val → Val → Val × Bool
  | .nan, _ => (.nan, false)
  | _, .nan => (.nan, false)
  | .inf a, .inf b => if a = b then (.inf a, false) else (.nan, true)
  | .inf a, .fin _ _ _ => (.inf a, false)
  | .fin _ _ _, .inf b => (.inf b, false)
  | .fin s m e, .fin t n f =>
    let g := min e f
    let x : Int := (m * 2 ^ (e - g).toNat : Nat)
    let y : Int := (n * 2 ^ (f - g).toNat : Nat)
    let z := (if s then -x else x) + (if t then -y else y)
    if z = 0 then (.fin (s && t && m == 0 && n == 0) 0 0, false) else (.fin (z < 0) z.natAbs g, false)

/-- The opposite value. -/
def negVal : Val → Val
  | .nan => .nan
  | .inf s => .inf (!s)
  | .fin s m e => .fin (!s) m e

/-- Exact product (R128): 0 times an infinity gives NaN and INVALID. -/
def mulVal : Val → Val → Val × Bool
  | .nan, _ => (.nan, false)
  | _, .nan => (.nan, false)
  | .inf s, .inf t => (.inf (s != t), false)
  | .inf s, .fin t n _ => if n = 0 then (.nan, true) else (.inf (s != t), false)
  | .fin s m _, .inf t => if m = 0 then (.nan, true) else (.inf (s != t), false)
  | .fin s m e, .fin t n f => (.fin (s != t) (m * n) (e + f), false)

/-- FP32 sum of two FP32 codes with one rounding to nearest even. -/
def add32 (ovf : Bool) (a b : Nat) : Nat × Flags :=
  let (v, inv) := addVal (val32 a) (val32 b)
  let (c, f) := rn32 ovf v
  (c, { f with inv := inv })

/-- FP32 product of two FP32 codes with one rounding to nearest even. -/
def mul32 (ovf : Bool) (a b : Nat) : Nat × Flags :=
  let (v, inv) := mulVal (val32 a) (val32 b)
  let (c, f) := rn32 ovf v
  (c, { f with inv := inv })

/-- Whether a finite value is less than another (exact comparison of dyadic numbers). -/
def finLt (s : Bool) (m : Nat) (e : Int) (t : Bool) (n : Nat) (f : Int) : Bool :=
  let g := min e f
  let x : Int := (m * 2 ^ (e - g).toNat : Nat)
  let y : Int := (n * 2 ^ (f - g).toNat : Nat)
  decide ((if s then -x else x) < (if t then -y else y))

/-- Order of two values that are not NaN. -/
def valLt : Val → Val → Bool
  | .nan, _ => false
  | _, .nan => false
  | .inf a, .inf b => a && !b
  | .inf a, .fin _ _ _ => a
  | .fin _ _ _, .inf b => !b
  | .fin s m e, .fin t n f => finLt s m e t n f

/-- Equality of two values that are not NaN; +0 and -0 are equal. -/
def valEq (a b : Val) : Bool :=
  match a, b with
  | .nan, _ => false
  | _, .nan => false
  | a, b => !valLt a b && !valLt b a

/-- Order of VMAX and VMIN: -0 is less than +0 (R135). -/
def valLtSigned (a b : Val) : Bool :=
  match a, b with
  | .fin s 0 _, .fin t 0 _ => s && !t
  | a, b => valLt a b

/-- The scale code of R123 for the largest exponent of a block, before the second trial. -/
def bsScale (vs : List Val) : Option Nat :=
  let es := vs.filterMap (fun v => match v with | .fin _ m e => if m = 0 then none else some (Val.exponent m e) | _ => none)
  match es with
  | [] => none
  | e :: es => some (min (es.foldl max e + 127).toNat 254)

/-- One element of a block under a scale code: its code and flags (R114, R119, R120, R123). -/
def bsElem (n mode r : Nat) (ovf : Bool) (s : Nat) (v : Val) : Nat × Flags :=
  let lim := 2 ^ (n - 1) - 1
  let sat (neg : Bool) := if ovf then 2 ^ (n - 1) else ofSigned n (if neg then -(lim : Int) else lim)
  match v with
  | .nan => (2 ^ (n - 1), {})
  | .inf neg => (sat neg, { ovf := true })
  | .fin neg m e =>
    let q : Int := (s : Int) - 127 - ((n : Int) - 2)
    let (k, inx) := roundGrid mode r m e q
    if k > lim then (sat neg, { ovf := true, inx := true })
    else (ofSigned n (if neg then -(k : Int) else k), { inx := inx, unf := m != 0 && k == 0 })

/-- The magnitude a finite element rounds to under a scale code, for the trial of R123. -/
def bsMag (n mode r s : Nat) : Val → Nat
  | .fin _ m e => (roundGrid mode r m e ((s : Int) - 127 - ((n : Int) - 2))).1
  | _ => 0

/-- Conversion of one block of values into a block-scaled format: the scale byte, the element codes and the flags of each element
(R123). Each element comes with its draw. -/
def toBlock (n mode : Nat) (ovf : Bool) (vs : List (Val × Nat)) : Nat × List (Nat × Flags) :=
  match bsScale (vs.map (·.1)) with
  | none => (0, vs.map (fun p => bsElem n mode p.2 ovf 0 p.1))
  | some s =>
    let full := vs.any (fun p => decide (bsMag n mode p.2 s p.1 ≥ 2 ^ (n - 1)))
    let s' := if full && decide (s < 254) then s + 1 else s
    (s', vs.map (fun p => bsElem n mode p.2 ovf s' p.1))

/-- One word of the generator's mixing (R124), modulo 2^64. -/
def mixWord (v : Nat) : Nat :=
  let v := v ^^^ (v / 2 ^ 31)
  let v := v * 0x9E6C63D0676A9A99 % 2 ^ 64
  let v := v ^^^ (v / 2 ^ 29)
  let v := v * 0xD2B74407B1CE6E93 % 2 ^ 64
  v ^^^ (v / 2 ^ 32)

/-- The 16-bit draw of R124. -/
def draw16 (seed step tensor index : Nat) : Nat :=
  let h := mixWord (seed % 2 ^ 64 ^^^ 0x4B5A58524E470001)
  let h := mixWord (h ^^^ (step % 2 ^ 48))
  let h := mixWord (h ^^^ (tensor % 2 ^ 32))
  let h := mixWord (h ^^^ (index % 2 ^ 48 / 4))
  h / 2 ^ (16 * (index % 4)) % 65536

/-- Largest square root: the greatest r with r * r at most n, by bits from the top. -/
def isqrtBits : Nat → Nat → Nat → Nat
  | 0, _, r => r
  | b + 1, n, r =>
    let r' := r + 2 ^ b
    isqrtBits b n (if r' * r' ≤ n then r' else r)

/-- Integer square root. -/
def isqrt (n : Nat) : Nat := isqrtBits (Nat.log2 n / 2 + 1) n 0

/-- One term and the partial sum of the exponential series in fixed point. -/
def expTerms (one y : Nat) : Nat → Nat → Nat → Nat → Nat
  | 0, _, _, sum => sum
  | fuel + 1, i, term, sum =>
    let t := term * y / one / i
    expTerms one y fuel (i + 1) t (sum + t)

/-- Repeated squaring in fixed point. -/
def squareTimes (one : Nat) : Nat → Nat → Nat
  | 0, x => x
  | n + 1, x => squareTimes one n (x * x / one)

/-- exp of a positive fixed-point number of 320 fraction bits, below 128: scaled down by 2^8, summed, squared back. -/
def expFixed (y : Nat) : Nat :=
  let one := 2 ^ 320
  squareTimes one 8 (expTerms one (y / 2 ^ 8) 90 1 one one)

/-- A positive magnitude on the FP32 grid of its own exponent: the grid member at or below num / den and the grid step. -/
def gridBelow (num den : Nat) : Nat × Int :=
  let ex : Int := if num ≥ den then (Nat.log2 (num / den) : Int)
    else
      let c := Nat.log2 (den / num)
      if num * 2 ^ c ≥ den then -(c : Int) else -(c : Int) - 1
  let q : Int := max ex (-126) - 23
  let k := if q ≥ 0 then num / (den * 2 ^ q.toNat) else num * 2 ^ (-q).toNat / den
  (k, q)

/-- An approximate result: the grid member chosen by a pick around num / den, within the bound the spec gives: picks 0 and 1 are the
two neighbours, 2 and 3 the next ones out (R55, R135). Below the normal range only the neighbours are within bound. -/
def approxResult (ovf neg : Bool) (pick num den : Nat) : Nat × Flags :=
  let (k, q) := gridBelow num den
  let tiny := decide (k < 2 ^ 23)
  let pick := if tiny then pick % 2 else pick % 4
  let k' := match pick with | 0 => k | 1 => k + 1 | 2 => if k ≤ 2 ^ 23 then k else k - 1 | _ => k + 2
  if aboveMax fp32 k' q then
    if aboveMax fp32 k q then (overflowCode fp32 ovf neg, { ovf := true, inx := true })
    else (signCode fp32 neg + fp32.maxCode, { inx := true })
  else if k' = 0 then (signCode fp32 neg, { unf := true, inx := true })
  else
    let c := if k' > 2 ^ 24 then encodeMag fp32 (k' / 2) (q + 1) else encodeMag fp32 k' q
    (signCode fp32 neg + c, { inx := true, unf := tiny })

/-- VEXP of an FP32 code (R56, R135). The bits inside the 2 ulp bound are a fixed function of the input that the spec does not
give: a free value. -/
def vexp (ovf : Bool) (c : Nat) : Nat × Flags :=
  let pick := (Config.vexpPick c).toNat
  match val32 c with
  | .nan => (fp32.nanCode, {})
  | .inf false => (c, {})
  | .inf true => (0, {})
  | .fin neg m e =>
    if m = 0 then (0x3F800000, {})
    else if bits c 23 8 = 0 then (0x3F800000, { inx := true })
    else if Val.exponent m e ≥ 7 then
      if neg then approxResult ovf false (pick % 2) 1 (2 ^ 200) else (overflowCode fp32 ovf false, { ovf := true, inx := true })
    else
      let y := if e + 320 ≥ 0 then m * 2 ^ (e + 320).toNat else m / 2 ^ (-(e + 320)).toNat
      let x := expFixed y
      if neg then approxResult ovf false pick (2 ^ 320) x else approxResult ovf false pick x (2 ^ 320)

/-- VRCP of an FP32 code (R56, R135): exact for a power of two with a normal result, otherwise one of the two neighbours of the exact
result, which one being a free value. -/
def vrcp (ovf : Bool) (c : Nat) : Nat × Flags :=
  match val32 c with
  | .nan => (fp32.nanCode, {})
  | .inf neg => (signCode fp32 neg, {})
  | .fin neg m e =>
    if m = 0 then (signCode fp32 neg + 0x7F800000, { dz := true })
    else
      let num := if e ≤ 0 then 2 ^ (-e).toNat else 1
      let den := if e ≤ 0 then m else m * 2 ^ e.toNat
      let ex := Val.exponent m e
      if 2 ^ Nat.log2 m = m ∧ -ex ≥ -126 ∧ -ex ≤ 127 then (signCode fp32 neg + (127 - ex).toNat * 2 ^ 23, {})
      else approxResult ovf neg ((Config.vrcpPick c).toNat % 2) num den

/-- VRSQ of an FP32 code (R56, R135): exact for 2^(2k), otherwise within 2 ulp of the exact result; the bits inside the bound are
a free value. -/
def vrsq (ovf : Bool) (c : Nat) : Nat × Flags :=
  match val32 c with
  | .nan => (fp32.nanCode, {})
  | .inf false => (0, {})
  | .inf true => (fp32.nanCode, { inv := true })
  | .fin neg m e =>
    if m = 0 then (signCode fp32 neg + 0x7F800000, { dz := true })
    else if neg then (fp32.nanCode, { inv := true })
    else
      let ex := Val.exponent m e
      if 2 ^ Nat.log2 m = m ∧ ex % 2 = 0 then ((127 - ex / 2).toNat * 2 ^ 23, {})
      else
        let m' := if e % 2 = 0 then m else 2 * m
        let e' := if e % 2 = 0 then e else e - 1
        let root := isqrt (m' * 2 ^ 400)
        let h := e' / 2
        if h ≤ 0 then approxResult ovf false (Config.vrsqPick c).toNat (2 ^ 200 * 2 ^ (-h).toNat) root
        else approxResult ovf false (Config.vrsqPick c).toNat (2 ^ 200) (root * 2 ^ h.toNat)

/-- The elements of width w packed least-significant-first in bytes (R115). -/
def unpackElems (w n : Nat) (bs : List Byte) : List Nat :=
  let v := leNat bs
  (List.range n).map (fun i => bits v (w * i) w)

/-- Elements of width w packed least-significant-first into whole bytes (R115). -/
def packElems (w : Nat) (cs : List Nat) : List Byte :=
  let v := (cs.foldr (fun c a => a * 2 ^ w + c % 2 ^ w) 0)
  leBytes ((w * cs.length + 7) / 8) v

end Sys2Proof.Machine
end

