-- ==== Sys2Proof/Machine/Operands.lean ====
section
/-! DEFINITION. The operand forms of the sequencer's instructions (R60, R61, R89): the fields of the word, the registers of R57, the
immediate, and the SRAM accesses of the engines. -/

namespace Sys2Proof.Machine

open Sys2Proof

/-! Fields of the instruction word (R60, R61) -/

def wClass (w : Nat) : Nat := bits w 60 4
def wPneg (w : Nat) : Bool := bit w 59
def wPred (w : Nat) : Nat := bits w 56 3
def wOp (w : Nat) : Nat := bits w 48 8
def wD (w : Nat) : Nat := bits w 43 5
def wA (w : Nat) : Nat := bits w 38 5
def wB (w : Nat) : Nat := bits w 33 5
/-- Bit [32]: the immediate takes the place of a register, or in CTRL a register that of the immediate. -/
def wSel (w : Nat) : Bool := bit w 32
def wImm (w : Nat) : Nat := bits w 0 32
/-- The c register field of VXU and COND. -/
def wC (w : Nat) : Nat := bits w 28 5
/-- The sign-extended immediate as a 64-bit value. -/
def wSext (w : Nat) : Nat := ofSigned 64 (toSigned 32 (wImm w))
/-- The accumulator tile of MMA, DRAIN and MMAZ. -/
def wTile (w : Nat) : Nat := bits w 43 2
/-- The predicate register of the PRED class and of BCLASS. -/
def wPd (w : Nat) : Nat := bits w 43 3

/-! General, predicate and vector registers, accumulator tiles, event counters (R57) -/

/-- A general register; G0 reads as zero. -/
def Core.gval (c : Core) (r : Nat) : Nat := if r = 0 then 0 else Tbl.read c.g 0 r

/-- Writes a general register; a write of G0 is discarded. -/
def Core.setG (c : Core) (r v : Nat) : Core := if r = 0 then c else { c with g := Tbl.write c.g 0 r (v % 2 ^ 64) }

/-- A predicate register; P0 is always true. -/
def Core.pval (c : Core) (i : Nat) : Bool := i == 0 || bit c.p i

/-- Writes a predicate register; a write of P0 is discarded. -/
def Core.setP (c : Core) (i : Nat) (b : Bool) : Core := if i = 0 then c else { c with p := putBits c.p i 1 (b2n b) }

/-- n zero words. -/
def zeros (n : Nat) : List Nat := List.replicate n 0

/-- A vector register: 64 lanes of 32 bits. -/
def Core.vreg (c : Core) (i : Nat) : List Nat := Tbl.read c.v (zeros 64) i

/-- Writes a vector register. -/
def Core.setV (c : Core) (i : Nat) (x : List Nat) : Core := { c with v := Tbl.write c.v (zeros 64) i x }

/-- A vector register as 256 bytes. -/
def Core.vbytes (c : Core) (i : Nat) : List Byte := ((c.vreg i).map (leBytes 4)).flatten

/-- 64 lanes from 256 bytes. -/
def lanesOf (bs : List Byte) : List Nat := (List.range 64).map fun i => field bs (4 * i) 4

/-- An accumulator tile: 128 rows of 32 columns, by 32 row + column. -/
def Core.tile (c : Core) (i : Nat) : List Nat := Tbl.read c.acc (zeros 4096) i

/-- Writes an accumulator tile. -/
def Core.setTile (c : Core) (i : Nat) (x : List Nat) : Core := { c with acc := Tbl.write c.acc (zeros 4096) i x }

/-- Clears an accumulator tile. -/
def Core.clearTile (c : Core) (i : Nat) : Core := c.setTile i (zeros 4096)

/-- An event counter. -/
def Core.evtVal (c : Core) (i : Nat) : Nat := Tbl.read c.evt 0 i

/-- Adds to an event counter, which wraps at 32 bits (R70). -/
def Core.addEvt (c : Core) (i n : Nat) : Core :=
  { c with evt := Tbl.write c.evt 0 i ((c.evtVal i + n) % 2 ^ 32) }

/-- Adds to an event counter of a logical core. -/
def State.addEvt (s : State) (L i n : Nat) : State := s.modCore L fun c => c.addEvt i n

/-- An increment that comes from another core or device: it is also added to the accumulator of the replay log (R342). -/
def State.extEvt (s : State) (L i n : Nat) : State :=
  (s.addEvt L i n).modDet L fun d => { d with acc := Tbl.write d.acc 0 i ((Tbl.read d.acc 0 i + n) % 2 ^ 32) }

/-- Whether an EVWAIT target is reached: EVT minus target is not negative as a signed 32-bit difference (R61, R70). -/
def evtReached (val target : Nat) : Bool := decide (0 ≤ toSigned 32 (val + 2 ^ 32 - target % 2 ^ 32))

/-! Operand forms -/

/-- The second operand of SCALAR and PRED: register b, or the sign-extended immediate when bit [32] is set. -/
def Core.opB (c : Core) (w : Nat) : Nat := if wSel w then wSext w else c.gval (wB w)

/-- The general registers the second operand reads. -/
def opBReads (w : Nat) : List Nat := if wSel w then [] else [wB w]

/-- The address of LDST: register a plus the sign-extended byte offset. -/
def Core.ldstAddr (c : Core) (w : Nat) : Nat := (c.gval (wA w) + wSext w) % 2 ^ 64

/-! SRAM as an engine sees it -/

/-- SRAM bytes with one pending store laid over them. -/
def overlay (a : Nat) (bs : List Byte) (st : Nat × List Byte) : List Byte :=
  if st.1 + st.2.length ≤ a ∨ a + bs.length ≤ st.1 then bs
  else (List.range bs.length).map fun i =>
    if st.1 ≤ a + i ∧ a + i < st.1 + st.2.length then st.2.getD (a + i - st.1) 0 else bs.getD i 0

/-- The stores of one engine that are not yet visible to the others (R62). -/
def Core.storesOf (c : Core) (e : Engine) : List (Nat × List Byte) :=
  ((c.ops.filter (·.eng == e)).map (·.stores)).flatten

/-- n bytes of a core's SRAM as one of its engines reads them: its own stores in their order, those of the others once visible. -/
def State.engRead (s : State) (L : Nat) (e : Engine) (a n : Nat) : List Byte :=
  ((s.core L).storesOf e).foldl (overlay a) (s.sramRead L a n)

/-- The job that holds a logical core. -/
def State.coreJob (s : State) (L : Nat) : Option Job := (s.core L).job.bind s.jobOf

/-- The SRAM grant of a logical core's job, from offset 0 (R76). -/
def State.grant (s : State) (L : Nat) : Nat := ((s.coreJob L).map (·.sram)).getD 0

end Sys2Proof.Machine
end

