-- ==== Sys2Proof/Machine/Flags.lean ====
section
/-! DEFINITION. The exception flags of R136 to R138: how an operation's flags reach CORE_EXC, CORE_EXC_ADDR and CORE_EXC_COUNT. -/

namespace Sys2Proof.Machine

open Sys2Proof

/-- The union of a list of flags. -/
def Flags.union (fs : List Flags) : Flags := fs.foldl Flags.or {}

/-- Sets the sticky flags of a logical core (R136). -/
def State.stickFlags (s : State) (L : Nat) (f : Flags) : State :=
  s.setR (CORE_EXC L) (s.getR (CORE_EXC L) ||| f.toBits)

/-- Records where the first INVALID came from (R137): engine 0 MXE or 1 VXU, and an SRAM offset. -/
def State.firstInvalid (s : State) (L eng off : Nat) : State :=
  if s.flag (CORE_EXC_INVALID L) then s
  else ((s.set (CORE_EXC_FIRST_ENGINE L) eng).set (CORE_EXC_ADDR_OFFSET L) off).set (CORE_EXC_ADDR_VALID L) 1

/-- Everything an operation's flags do: the first source when it raised INVALID, the sticky flags, and the count of invalid output
elements (R136 to R138). -/
def State.raise (s : State) (L : Nat) (f : Flags) (eng off invalids : Nat) : State :=
  let s := if f.inv then s.firstInvalid L eng off else s
  (s.stickFlags L f).count (CORE_EXC_COUNT_COUNT L) invalids

/-- Number of elements whose flags hold INVALID. -/
def invalidCount (fs : List Flags) : Nat := (fs.filter (·.inv)).length

/-- The SRAM offset of the instruction a core issues, the source R137 gives for the VXU. -/
def State.wordAt (s : State) (L : Nat) : Nat := s.get (SEQ_PROG_BASE_BASE L) * 8 + 8 * s.get (SEQ_PC_INDEX L)

end Sys2Proof.Machine
end

