-- ==== Sys2Proof/Machine/ShardOps.lean ====
section
/-! DEFINITION. Changes of a shard registry entry: the swap of R359, the roll-back of R360 and the gather record of R362. -/

namespace Sys2Proof.Machine

open Sys2Proof

/-- The version of an entry changes, and its present layout epoch becomes the previous one. -/
def State.swapSlots (s : State) (e : Nat) : State :=
  let s := s.set (MEM_SHD_STATE_CUR e) ((s.get (MEM_SHD_STATE_CUR e) + 1) % 3)
  let s := s.countWrap (MEM_SHD_VERSION_VERSION e)
  s.set (MEM_SHD_EPOCH_PREV_EPOCH e) (s.get (MEM_SHD_EPOCH_EPOCH e))

/-- The swap of an entry (R359): the next slot becomes the current one. -/
def State.swapEntry (s : State) (e step : Nat) : State :=
  let s := (s.swapSlots e).set64 (MEM_SHD_SWAP_STEP_STEP e) step
  (s.set (MEM_SHD_STATE_DIRTY e) 0).set (MEM_SHD_STATE_ROLLED e) 0

/-- A step barrier of a group swaps every dirty PARAM and STATE entry of it (R359). -/
def State.swapGroup (s : State) (g step : Nat) : State :=
  ((List.range 64).filter fun e =>
    s.shdChecked e && s.get (MEM_SHD_CFG_GROUP e) == g && s.flag (MEM_SHD_STATE_DIRTY e)).foldl
      (fun s e => s.swapEntry e step) s

/-- The roll-back of an entry (R360). -/
def State.rollbackEntry (s : State) (e : Nat) : State :=
  let s := s.set (MEM_SHD_STATE_CUR e) ((s.get (MEM_SHD_STATE_CUR e) + 2) % 3)
  let s := s.set (MEM_SHD_VERSION_VERSION e) (s.get (MEM_SHD_VERSION_VERSION e) + 2 ^ 32 - 1)
  let s := s.set (MEM_SHD_EPOCH_EPOCH e) (s.get (MEM_SHD_EPOCH_PREV_EPOCH e))
  (s.set (MEM_SHD_STATE_DIRTY e) 0).set (MEM_SHD_STATE_ROLLED e) 1

/-- The valid entry of a group that holds a tensor, of one of the kinds given. -/
def State.shdEntry (s : State) (group tensor : Nat) (kinds : List Nat) : Option Nat :=
  (List.range 64).find? fun e =>
    s.shdValid e && kinds.contains (s.get (MEM_SHD_CFG_KIND e)) && s.get (MEM_SHD_CFG_GROUP e) == group &&
      s.getR (MEM_SHD_TENSOR e) == tensor

/-- The gather record of an entry at step s (R362): whether the gather runs. -/
def State.gatherRecord (s : State) (e step : Nat) : Bool × State :=
  if s.get (MEM_SHD_STATE_G_VALID e) = 0 ∨ s.get64 (MEM_SHD_G_STEP_STEP e) ≠ step then
    let s := s.set64 (MEM_SHD_G_STEP_STEP e) step
    let s := s.setR (MEM_SHD_G_VERSION e) (s.getR (MEM_SHD_VERSION e))
    let s := s.set (MEM_SHD_STATE_G_EPOCH e) (s.get (MEM_SHD_EPOCH_EPOCH e))
    (true, s.set (MEM_SHD_STATE_G_VALID e) 1)
  else
    (s.getR (MEM_SHD_G_VERSION e) == s.getR (MEM_SHD_VERSION e) &&
      s.get (MEM_SHD_STATE_G_EPOCH e) == s.get (MEM_SHD_EPOCH_EPOCH e), s)

end Sys2Proof.Machine
end

