-- ==== Sys2Proof/Machine/RaccOps.lean ====
section
/-! DEFINITION. The RACC front end (R148 to R156): translation (R374), the range check, the rank gate with its records and tombstones, and
the adders. -/

namespace Sys2Proof.Machine

open Sys2Proof

/-! Delivered packets -/

/-- Where a delivered packet waits: its output, endpoint and class. Packets of different classes or for different endpoints do not wait for
one another (R213). -/
def Inb.lane (x : Inb) : Nat := (x.output * 256 + x.pkt.destEp) * 4 + x.pkt.cls

/-- The earliest delivered packet that is the first of its lane and passes a test. -/
def firstInb : List Inb → List Nat → (Inb → Bool) → Option Inb
  | [], _, _ => none
  | x :: xs, seen, ok => if !seen.contains x.lane && ok x then some x else firstInb xs (x.lane :: seen) ok

/-- Takes the earliest delivered packet that passes a test off its output. -/
def State.takeInb (s : State) (ok : Inb → Bool) : Option (Inb × State) :=
  if s.fatal then none
  else match firstInb s.switch.inbox [] ok with
    | some x => some (x, s.sw fun w => { w with inbox := w.inbox.erase x })
    | none => none

/-! Fields of a RACC packet (R211) -/

def Pkt.rRank (p : Pkt) : Nat := p.op 0x20 2
def Pkt.rEpoch (p : Pkt) : Nat := p.op 0x22 2
def Pkt.rChunk (p : Pkt) : Nat := p.op 0x24 4
def Pkt.rFirst (p : Pkt) : Nat := p.op 0x28 2
def Pkt.rCount (p : Pkt) : Nat := p.op 0x2A 2 + 1
def Pkt.rStep (p : Pkt) : Nat := p.op 0x2C 2
def Pkt.rNotify (p : Pkt) : Option (Nat × Nat) := if bit (p.op 0x2F 1) 5 then some (p.op 0x2E 1, p.op 0x2F 1 % 32) else none
def Pkt.rLength (p : Pkt) : Nat := p.op 0x30 4
def Pkt.rDst (p : Pkt) : Nat := p.op 0x34 6
/-- The packet's number within its descriptor. -/
def Pkt.rK (p : Pkt) : Nat := (p.addr - p.rDst) / 2048
/-- Packets of a descriptor. -/
def raccPackets (len : Nat) : Nat := (len + 2047) / 2048

/-! Gate entries -/

/-- Changes the GDDR7 subsystem's state. -/
def State.modMem (s : State) (f : MemState → MemState) : State := { s with mem := f s.mem }

/-- The gate entry of a key, open or a tombstone. -/
def State.gateOf (s : State) (chunk tag : Nat) : Option Gate := s.mem.gates.find? fun g => g.chunk == chunk && g.tag == tag

/-- Replaces the entry of a key. -/
def State.putGate (s : State) (g : Gate) : State :=
  s.modMem fun m => { m with gates := m.gates.map fun x => if x.chunk == g.chunk && x.tag == g.tag then g else x }

/-- Gate timeout and tombstone life in FCLK. -/
def State.gateTime (s : State) : Nat := fclk (max 1 (s.get MEM_GATE_TIMEOUT_TIME))

/-- Staging cells held (MEM_RACC_STATE). -/
def State.staging (s : State) : Nat := s.ownedBy 0x88

/-- Staging cells for a packet, if they can be had (R154, R243): none while the front end's cells are swept (R268). -/
def State.stageCells (s : State) (p : Pkt) : Option (List Nat × State) :=
  let n := cellsOf p.flits
  if s.staging + n > s.get MEM_STAGE_LIMIT_CELLS ∨ s.sharedFree < n + s.recallCells ∨ s.tagSwept 0x88 then none
  else
    let (cs, s) := State.allocN n { state := 2, owner := 0x88, charge := 5 } s
    some (cs, s.holdChain cs)

/-- Staging cells go back at once. -/
def State.unstage (s : State) (cs : List Nat) : State := cs.foldl (fun s c => s.freeOne c false false) s

/-! Translation (R374) -/

/-- The range of a translation entry on this device. -/
def State.xlRange (s : State) (x : Nat) : Nat × Nat :=
  (s.get64 (MEM_XLATE_OLD_BASE x) * 2048, s.get (MEM_XLATE_LEN_UNITS x) * 2048)

/-- The ACTIVE entries of an epoch. -/
def State.xlActive (s : State) (epoch : Nat) : List Nat :=
  (List.range 64).filter fun x => s.flag (MEM_XLATE_CTRL_VALID x) && s.flag (MEM_XLATE_CTRL_ACTIVE x) &&
    s.get (MEM_XLATE_CTRL_OLD_EPOCH x) == epoch

/-- Whether layout epoch a is older than b, as a signed 16-bit difference (R367). -/
def epochOlder (a b : Nat) : Bool := decide (toSigned 16 (a + 65536 - b % 65536) < 0)

/-- What translation makes of a packet. -/
inductive Xlated where
  | keep
  | moved (p : Pkt)
  | away (p : Pkt) (dev : Nat)
  | stale

/-- A packet with its address, its descriptor's DST and its layout epoch replaced. -/
def Pkt.rMove (p : Pkt) (addr dst epoch : Nat) : Pkt :=
  ({ p with hdr := spliceAt (spliceAt (spliceAt p.hdr 0x18 (leBytes 6 addr)) 0x34 (leBytes 6 dst)) 0x22 (leBytes 2 epoch) }).seal

/-- The translation of a packet. -/
def State.xlate (s : State) (p : Pkt) : Xlated :=
  if (s.gateOf p.rChunk p.rStep).isSome then .keep
  else
    let act := s.xlActive p.rEpoch
    let inside (x : Nat) : Bool :=
      let (b, n) := s.xlRange x
      decide (b ≤ p.rDst) && decide (p.rDst + p.rLength ≤ b + n)
    let touches (x : Nat) : Bool := let (b, n) := s.xlRange x; meets p.rDst p.rLength b n
    match act.find? inside with
    | some x =>
      let b := (s.xlRange x).1
      let nb := s.get64 (MEM_XLATE_NEW_BASE x) * 2048
      let q := p.rMove (p.addr + nb - b) (p.rDst + nb - b) ((p.rEpoch + 1) % 65536)
      let dev := s.get (MEM_XLATE_NODE_NEW_ADDR x)
      if dev = s.ownAddr then .moved q else .away q dev
    | none => if epochOlder p.rEpoch (s.get MEM_LAYOUT_EPOCH) || act.any touches then .stale else .keep

/-! The adders (R151) -/

/-- The sum of one burst of 16 elements or fewer: the new codes and what the additions raised, with the elements that turned NaN. -/
def addBurst (old new : List Nat) : List Nat × Flags × List Nat :=
  let rs := old.zipWith (fun m v => (m, add32 false m v)) new
  (rs.map fun r => r.2.1, Flags.union (rs.map fun r => r.2.2),
    (rs.zip (List.range rs.length)).filterMap fun (r, i) => if floatIsNan fp32 r.2.1 && !floatIsNan fp32 r.1 then some i else none)

/-- Notes an element that rank r turned NaN: the first rank in order, the lowest element of it. -/
def Gate.noteNan (g : Gate) (rank e : Nat) : Gate :=
  match g.nanRank with
  | none => { g with nanRank := some rank, nanElem := e }
  | some r => if r = rank ∧ e < g.nanElem then { g with nanElem := e } else g

/-- Applies the bursts of a packet from its address on; stops at a burst that cannot be read (R153). -/
def State.addPacket (bad : Option Nat) : List Nat → Pkt → Gate → State → Bool × Gate × State
  | [], _, g, s => (true, g, s)
  | i :: is, p, g, s =>
    let a := p.addr + 64 * i
    let vals := (p.payload.drop (64 * i)).take 64
    let n := vals.length
    let hit := match s.badIn a n bad with
      | some b => if burstOf a == burstOf (badAddr b).1 then some (badAddr b).2 else none
      | none => none
    let down := s.ctlDown (s.ctlOf a)
    if down then (false, g, s)
    else if hit = some false then (false, g, s.edcEvent a false)
    else
      let s := if hit = some true then s.edcEvent a true else s
      let words (bs : List Byte) : List Nat := (List.range (n / 4)).map fun j => field bs (4 * j) 4
      let (sum, f, nans) := addBurst (words (s.gddrRead a n)) (words vals)
      let g := { g with invalid := g.invalid || f.inv, overflow := g.overflow || f.ovf }
      let g := nans.foldl (fun g j => g.noteNan p.rRank ((a - g.dst) / 4 + j)) g
      let s := (s.markDirty a n).gddrWrite a ((sum.map (leBytes 4)).flatten)
      State.addPacket bad is p g s

/-! Records and closing (R152, R153) -/

/-- Elements of the entry's range that hold NaN. -/
def State.nanCount (s : State) (g : Gate) : Nat :=
  ((List.range (g.length / 4)).filter fun i => floatIsNan fp32 (leNat (s.gddrRead (g.dst + 4 * i) 4))).length

/-- Writes a RACC record. With no NaN rank the element field is a free value. -/
def State.raccRecord (s : State) (g : Gate) (status : Nat) : State :=
  let (x, s) := if g.nanRank.isNone then s.draw else (g.nanElem, s)
  let info := if status = 1 then g.first + g.next else g.nanRank.getD 0xFFFF
  let row := leBytes 4 g.chunk ++ leBytes 1 status ++ leBytes 1 (b2n g.invalid + 2 * b2n g.overflow) ++ leBytes 2 info ++
    leBytes 4 (s.nanCount g) ++ leBytes 2 x ++ leBytes 2 g.tag
  let size := 2 ^ min 16 (max 4 (s.get64 MEM_RACC_RING_LOG2_ENTRIES))
  let a := s.get64 MEM_RACC_RING_BASE * 64 + 16 * (s.get MEM_RACC_PROD_PROD % size)
  let s := if a + 16 ≤ gddrSize then (s.writeRange a row).2 else s
  s.countWrap MEM_RACC_PROD_PROD

/-- Closes a gate entry: the record, the notification when every rank is done, the parked cells to the sweep, a tombstone. -/
def State.closeGate (s : State) (g : Gate) (status : Nat) : State :=
  let s := s.raccRecord g status
  let s := match g.notify with
    | some (L, e) => if status = 0 ∧ L < 144 then s.extEvt L e 1 else s
    | none => s
  let s := s.putGate { g with closed := some (s.now + s.gateTime), parked := [] }
  (s.modCells (g.parked.map (·.cells)).flatten fun c => { c with ref := 0 }).sweep [0x88]

/-- Applies one packet of the entry's awaited rank; a failed read closes the entry with MEM_EDC. -/
def State.applyRacc (s : State) (bad : Option Nat) (g : Gate) (p : Pkt) : Option Gate × State :=
  let n := (p.byteCount + 63) / 64
  match State.addPacket bad (List.range n) p g s with
  | (true, g, s) => (some { g with applied := g.applied + 1 }, s)
  | (false, g, s) => (none, s.closeGate g 2)

/-- Applies the parked packets of the awaited rank, in packet order. -/
def State.applyParked : List Parked → Gate → State → Option Gate × State
  | [], g, s => (some g, s)
  | x :: xs, g, s =>
    let s := s.unstage x.cells
    match s.applyRacc none { g with parked := g.parked.erase x } x.pkt with
    | (some g, s) => State.applyParked xs g s
    | (none, s) => (none, s)

/-- Advances the entry while its awaited rank is complete: parked packets of the new rank are applied; the last rank closes it. n bounds the
ranks. -/
def State.advanceGate : Nat → Gate → State → State
  | 0, g, s => s.putGate g
  | n + 1, g, s =>
    if g.applied < raccPackets g.length then s.putGate g
    else
      let g := { g with next := g.next + 1, applied := 0, lastAt := s.now }
      if g.next ≥ g.count then s.closeGate g 0
      else
        match State.applyParked (g.parked.filter fun x => x.rank == g.first + g.next) g s with
        | (some g, s) => State.advanceGate n g s
        | (none, s) => s

/-! Arrival (R149, R150, R154) -/

/-- A packet refused by the range check or the gate. -/
def State.raccReject (s : State) (p : Pkt) (detail : Nat) : State := (s.answer p 0x03 0x10 detail).count MEM_RACC_REJECT_COUNT

/-- Whether a packet's descriptor range is well formed and lies in a running job's GDDR7 range. -/
def State.raccRange (s : State) (p : Pkt) : Bool :=
  p.rDst % 2048 == 0 && decide (1 ≤ p.rLength) && decide (p.rLength ≤ 65536) && p.rLength % 64 == 0 &&
    decide (p.rDst ≤ p.addr) && decide (p.addr + p.byteCount ≤ p.rDst + p.rLength) && p.addr % 2048 == 0 &&
    p.byteCount == min 2048 (p.rDst + p.rLength - p.addr) &&
    s.jobs.any fun j => j.ring.isSome && decide (j.gBase ≤ p.rDst) && decide (p.rDst + p.rLength ≤ j.gBase + j.gLen)

/-- A packet meets an open entry of its key. -/
def State.raccGate (s : State) (bad : Option Nat) (g : Gate) (p : Pkt) : State :=
  if g.first ≠ p.rFirst ∨ g.count ≠ p.rCount ∨ g.length ≠ p.rLength ∨ g.dst ≠ p.rDst ∨ p.rRank < g.first ∨ g.first + g.count ≤ p.rRank then
    s.raccReject p 0
  else if g.got.contains (p.rRank, p.rK) || decide (p.rRank < g.first + g.next) then
    (s.answer p 0x01 0 0).count MEM_RACC_DUP_COUNT
  else
    let g' := { g with got := g.got ++ [(p.rRank, p.rK)] }
    if p.rRank = g.first + g.next then
      let (r, s) := (s.putGate { g' with lastAt := s.now }).applyRacc bad { g' with lastAt := s.now } p
      let s := match r with
        | some g => State.advanceGate (g.count + 1) g s
        | none => s
      s.answer p 0x01 0 0
    else
      match s.stageCells p with
      | none => (s.answer p 0x02 0 0).count MEM_RACC_RETRY_COUNT
      | some (cs, s) =>
        (s.putGate { g' with parked := g'.parked ++ [{ rank := p.rRank, k := p.rK, pkt := p, cells := cs }] }).answer p 0x01 0 0

/-- A packet meets no entry of its key: it opens one, if the gate has room and the packet can be applied or staged. -/
def State.raccOpen (s : State) (bad : Option Nat) (p : Pkt) : State :=
  if p.rRank < p.rFirst ∨ p.rFirst + p.rCount ≤ p.rRank ∨ p.rFirst + p.rCount > 65536 then s.raccReject p 0
  else if s.mem.gates.length ≥ 1024 then (s.answer p 0x02 0 0).count MEM_RACC_RETRY_COUNT
  else
    let g : Gate := { chunk := p.rChunk, tag := p.rStep, first := p.rFirst, count := p.rCount, length := p.rLength, dst := p.rDst
                      epoch := p.rEpoch, next := 0, lastAt := s.now, notify := p.rNotify }
    if p.rRank ≠ p.rFirst ∧ (s.stageCells p).isNone then (s.answer p 0x02 0 0).count MEM_RACC_RETRY_COUNT
    else (s.modMem fun m => { m with gates := m.gates ++ [g] }).raccGate bad g p

/-- A packet past translation: the range check with the registry's, then the gate (R149, R150, R358). -/
def State.raccEnter (s : State) (bad : Option Nat) (p : Pkt) : State :=
  if !s.raccRange p then s.raccReject p 0
  else match s.shardHit p.addr p.byteCount with
  | some (_, e) => (s.noteRefused e 0x30).raccReject p (0x30000000 + e)
  | none => match s.gateOf p.rChunk p.rStep with
    | some g => if g.closed.isSome then (s.answer p 0x01 0 0).count MEM_RACC_DUP_COUNT else s.raccGate bad g p
    | none => s.raccOpen bad p

/-- Forwards a packet to its new owner: this device's front end becomes the source, so that the answer returns here (R374). -/
def State.raccForward (s : State) (p q : Pkt) (dev : Nat) : State :=
  match s.stageCells p with
  | none => (s.answer p 0x02 0 0).count MEM_RACC_RETRY_COUNT
  | some (cs, s) =>
    let (t, s) := s.newTag 0xC0
    let f := s.mkData dev 0xC0 0xC0 0x42 t (some q.plane) 4 q.psn q.sq q.addr ((q.hdr.drop 0x20).take 31) q.payload
    let s := s.modMem fun m => { m with forwards := m.forwards ++ [{ ctag := t, pkt := p, cells := cs }] }
    (s.offer { input := s.inputOf 0xC0 q.addr, pkt := f, orig := .endpoint }).count MEM_XLATE_FWD_COUNT

/-- A RACC packet at the front end (R149, R150, R374). -/
def State.raccArrive (s : State) (bad : Option Nat) (p : Pkt) : State :=
  match s.xlate p with
  | .keep => s.raccEnter bad p
  | .moved q => s.raccEnter bad q
  | .away q dev => s.raccForward p q dev
  | .stale => (s.answer p 0x03 0x10 0).count MEM_XLATE_STALE_COUNT

/-- The answer of a new owner to a forwarded packet goes on to the packet's sender (R374). -/
def State.forwardAnswer (s : State) (p : Pkt) : State :=
  match s.mem.forwards.find? fun f => f.ctag == p.ctag with
  | none => s
  | some f =>
    let s := (s.modMem fun m => { m with forwards := m.forwards.erase f }).unstage f.cells
    s.answer f.pkt p.opcode (field p.pay 0 1) (field p.pay 4 4)

/-! Training and shutdown (R144, R145, R408) -/

/-- Shows whether a controller is in TRAINING. -/
def State.showTraining (s : State) : State :=
  s.set MEM_STATUS_TRAIN_BUSY (b2n ((List.range 24).any fun c => s.get (MEM_CH_STATUS_STATE c) == 1))

/-- The checks of an enable of the GDDR7 subsystem (R145): the refusal code, 0 for none. -/
def State.memRefuse (s : State) : Nat :=
  let st (c : Nat) : Nat := s.get (MEM_CH_STATUS_STATE c)
  if (List.range 24).any fun c => st c == 0 || st c == 1 then 1
  else if s.hashedUnits ≠ 0 ∧ ((List.range 24).any fun c => st c == 3 || st c == 5) then 2
  else 0

/-- Takes an enable of the GDDR7 subsystem (R145, R409). -/
def State.memEnable (s : State) : State :=
  let r := s.memRefuse
  if r = 0 then s.set MEM_CTRL_EN 1 else (s.set MEM_CTRL_EN 0).set MEM_STATUS_REFUSE r

end Sys2Proof.Machine
end

