-- ==== Sys2Proof/Machine/Desc.lean ====
section
/-! DEFINITION. A descriptor of a core's DMA (R64, R65, R68): its fields, its queue, and its completion record. -/

namespace Sys2Proof.Machine

open Sys2Proof

/-! Descriptor fields (R65) -/

def Desc.op (d : Desc) : Nat := field d.bytes 0x00 1
def Desc.fence (d : Desc) : Bool := bit (field d.bytes 0x01 1) 0
def Desc.crec (d : Desc) : Bool := bit (field d.bytes 0x01 1) 1
def Desc.evt (d : Desc) : Nat := field d.bytes 0x02 1
/-- The plane a descriptor forces; none spreads by flow. -/
def Desc.plane (d : Desc) : Option Nat :=
  match field d.bytes 0x03 1 with
  | 0 => some 0
  | 1 => some 1
  | _ => none
def Desc.len (d : Desc) : Nat := field d.bytes 0x04 4
def Desc.src (d : Desc) : Nat := field d.bytes 0x08 8
def Desc.dst (d : Desc) : Nat := field d.bytes 0x10 8
def Desc.dev (d : Desc) : Nat := field d.bytes 0x18 4 % 2 ^ 21
def Desc.sel (d : Desc) : Nat := field d.bytes 0x1B 1
def Desc.tag (d : Desc) : Nat := field d.bytes 0x1C 4
def Desc.rank (d : Desc) : Nat := field d.bytes 0x20 2
def Desc.lepoch (d : Desc) : Nat := field d.bytes 0x22 2
def Desc.chunk (d : Desc) : Nat := field d.bytes 0x24 4
def Desc.mgroup (d : Desc) : Nat := field d.bytes 0x28 2
def Desc.tensor (d : Desc) : Nat := field d.bytes 0x2C 4
/-- OP_EXT as one number. -/
def Desc.ext (d : Desc) : Nat := field d.bytes 0x30 16

/-! Queues -/

/-- A queue of a core. -/
def State.queueOf (s : State) (L q : Nat) : List Desc := (s.core L).queues.getD q []

/-- Replaces a queue of a core. -/
def State.setDescs (s : State) (L q : Nat) (ds : List Desc) : State := s.modCore L fun c => { c with queues := c.queues.set q ds }

/-- A descriptor of a queue by its number. -/
def State.desc (s : State) (L q number : Nat) : Option Desc := (s.queueOf L q).find? (·.number == number)

/-- Changes a descriptor. -/
def State.modDesc (s : State) (L q number : Nat) (f : Desc → Desc) : State :=
  s.setDescs L q ((s.queueOf L q).map fun d => if d.number == number then f d else d)

/-- Whether everything a descriptor does has taken place. -/
def Desc.ready (d : Desc) : Bool :=
  d.finished || (d.started && !d.held && d.todo.isEmpty && d.outst.isEmpty && d.groups.isEmpty && (d.phase == 0 || d.status != 0))

/-- The completion record of a descriptor. -/
def Desc.record (d : Desc) (q : Nat) : List Byte :=
  leBytes 4 d.tag ++ leBytes 1 d.status ++ leBytes 1 q ++ leBytes 2 (min 0xFFFF d.skipped) ++
    leBytes 4 (if [0x00, 0x0B, 0x20, 0x21].contains d.status then d.len else d.failOff) ++ leBytes 4 d.detail

end Sys2Proof.Machine
end

