-- ==== Sys2Proof/Machine/Replay.lean ====
section
/-! DEFINITION. Checkpoints, the replay log and the beginning of a core replay (R341 to R347), and how a core's failure reaches its job. -/

namespace Sys2Proof.Machine

open Sys2Proof

/-! The job's end status (R456) -/

/-- A core reports an end status to its job. -/
def State.endOn (s : State) (L code : Nat) : State :=
  match (s.core L).job with
  | some k => s.modJob k fun j => { j with ends := j.ends ++ [(L, code)] }
  | none => s

/-- The status of the lowest logical core that reported one. -/
def lowestEnd (es : List (Nat × Nat)) : Option (Nat × Nat) :=
  es.foldl (fun a e => match a with | none => some e | some x => if e.1 < x.1 then some e else some x) none

/-! The replay log (R342) -/

/-- The key of the instruction a core issues next: its segment and the instructions issued in it. -/
def CoreDet.key (d : CoreDet) : Nat := d.seg * 2 ^ 40 + d.count

/-- The logged item of a key. -/
def State.logFind (s : State) (L number : Nat) : Option LogItem := (s.cdet L).log.find? (·.number == number)

/-- Shows the number of log entries. -/
def State.showLog (s : State) (L : Nat) : State := s.set (DET_CORE_LOG_USED L) (min 512 (s.cdet L).log.length)

/-- Logs an item: an item of a replay that is logged already stays as it is, and a full log makes the segment unsafe. -/
def State.logAdd (s : State) (L : Nat) (it : LogItem) : State :=
  if (s.logFind L it.number).isSome then s
  else if (s.cdet L).log.length ≥ 512 then s.set (DET_CORE_REPLAY_UNSAFE L) 1
  else (s.modDet L fun d => { d with log := d.log ++ [it] }).showLog L

/-- Changes a logged item. -/
def State.logSet (s : State) (L number : Nat) (f : LogItem → LogItem) : State :=
  s.modDet L fun d => { d with log := d.log.map fun it => if it.number == number then f it else it }

/-- Whether a DMA operation is logged (R342). -/
def loggedOp (op : Nat) : Bool :=
  (0x10 ≤ op && op ≤ 0x14) || (0x20 ≤ op && op ≤ 0x28) || (0x30 ≤ op && op ≤ 0x33)

/-- Whether a DMA operation is a role of the collective engine: a collective descriptor or COMBINE_RECV. -/
def roleOp (op : Nat) : Bool := (0x20 ≤ op && op ≤ 0x28) || op == 0x32

/-! Checkpoints (R341) -/

/-- Whether a core is quiet: its DMA queues are empty and no SRAM write of its engines is outstanding. -/
def Core.quiet (c : Core) : Bool := c.queues.all (·.isEmpty) && c.ops.all (·.stores.isEmpty)

/-- The record of a core's present state. -/
def State.ckptOf (s : State) (L : Nat) : Ckpt :=
  let c := s.core L
  let step := match s.coreJob L with
    | some j => if j.ring.isSome then s.get64 (DET_STEP_STEP j.group) else 0
    | none => 0
  { g := c.g, p := c.p, loops := c.loops, pc := s.get (SEQ_PC_INDEX L), evt := c.evt
    cprod := (List.range 4).map fun q => s.getR (CORE_DMA_CPROD L q)
    exc := s.getR (CORE_EXC L), excAddr := s.getR (CORE_EXC_ADDR L), excCount := s.getR (CORE_EXC_COUNT L), step := step }

/-- A replay reaches the count at the fault: the log goes on as a normal log (R344). -/
def State.caughtUp (s : State) (L : Nat) : State :=
  if s.flag (DET_CORE_REPLAY_REPLAYING L) then
    ((s.set (DET_CORE_REPLAY_REPLAYING L) 0).modDet L fun d => { d with replayStep := none }).count DET_REPLAYS_COUNT
  else s

/-- Takes a checkpoint: the log, the accumulators and the counts start anew. -/
def State.takeCkpt (s : State) (L : Nat) : State :=
  let s := s.caughtUp L
  let ck := s.ckptOf L
  let s := s.modDet L fun d =>
    { d with ckpt := some ck, badCkpt := false, seg := d.seg + 1, log := [], acc := [], count := 0
             dcount := [0, 0, 0, 0], faultCount := 0 }
  let s := (s.set (DET_CORE_REPLAY_UNSAFE L) 0).set (DET_CORE_REPLAY_ATTEMPTS L) 0
  (s.showLog L).set (DET_CORE_LOG_CKPT_INDEX L) ck.pc

/-- Restores a checkpoint: each EVT becomes its value at the checkpoint plus the increments that came from others since. -/
def State.restoreCkpt (s : State) (L : Nat) (ck : Ckpt) : State :=
  let acc := (s.cdet L).acc
  let evt := (List.range 32).foldl (fun (t : Tbl Nat) i =>
    Tbl.write t 0 i ((Tbl.read ck.evt 0 i + Tbl.read acc 0 i) % 2 ^ 32)) []
  let s := s.modCore L fun c =>
    { c with g := ck.g, p := ck.p, loops := ck.loops, evt := evt, ops := [], wait := none, wActive := none, wShadow := none }
  let s := (List.range 4).foldl (fun s q => s.setR (CORE_DMA_CPROD L q) (ck.cprod.getD q 0)) s
  let s := ((s.setR (CORE_EXC L) ck.exc).setR (CORE_EXC_ADDR L) ck.excAddr).setR (CORE_EXC_COUNT L) ck.excCount
  let s := s.modDet L fun d => { d with count := 0, dcount := [0, 0, 0, 0], replayStep := some ck.step }
  s.set (SEQ_PC_INDEX L) ck.pc

/-! Replay (R344, R347) -/

/-- Most replays of one segment (R347, R349). -/
def State.replayLimit (s : State) (P : Nat) : Nat :=
  let row := ((s.recs 0x07).find? fun r => field r 0 1 == P / 10).map (field · 2 1)
  match row with
  | some n => if n = 0 then max 1 (s.get DET_CFG_REPLAY_LIMIT) else n
  | none => max 1 (s.get DET_CFG_REPLAY_LIMIT)

/-- The flows of a core's packets await no answers any more (R73, R346). -/
def State.forgetFlows (s : State) (L : Nat) : State :=
  { s with switch := { s.switch with psn := s.switch.psn.map fun f => if f.srcEp == L then { f with outst := [] } else f } }

/-- The engines of a core are cleared: nothing is left of its program but the job that holds it. -/
def State.clearCore (s : State) (L : Nat) : State :=
  (s.forgetFlows L).setCore L { job := (s.core L).job }

/-- A core leaves SHUTDOWN for OFF (R73): its engines are cleared. A core started by hand is its own job, which ends. -/
def State.endShut (s : State) (L : Nat) : State :=
  let s := match s.coreJob L with
    | some j => if j.ring.isNone then ({ s with jobs := s.jobs.erase j }.modCore L fun c => { c with job := none }) else s
    | none => s
  ((s.clearCore L).set (CORE_CTRL_ENABLE_PENDING L) 0).setCst L stOff

/-- What the log holds of a descriptor when a replay begins (R342, R345): one whose role runs on the collective engine is running, one whose role has
ended is completed with its record, and the status of an RSIGNAL that has been answered is kept. -/
def LogItem.cut (it : LogItem) (q : Nat) (d : Desc) : LogItem :=
  if d.held then { it with st := .running }
  else if d.finished && roleOp d.op then { it with st := .completed, record := d.record q }
  else if d.ready && d.op == 0x14 then { it with ctag := none, record := d.record q }
  else it

/-- The queues at the start of a replay: the log takes over what it holds of them; the descriptors are aborted without a record (R344). -/
def State.cutQueues (s : State) (L : Nat) : State :=
  let s := (List.range 4).foldl (fun s q => (s.queueOf L q).foldl (fun s d => s.logSet L d.number fun it => it.cut q d) s) s
  (s.forgetFlows L).modCore L fun c => { c with queues := [[], [], [], []], ops := [], wait := none }

/-- A replay that cannot run is counted (R347). -/
def State.noReplay (s : State) : State := (s.set DET_STATUS_REPLAY_LOST 1).count DET_LOST_COUNT

/-- A job whose core cannot replay ends with REPLAY_LOST. -/
def State.replayLost (s : State) (L : Nat) : State := (s.endOn L 0x51).noReplay

/-- FCLK cycles in which the grant is zeroed and the program copied (R48, R348). -/
def replayCycles (progLen : Nat) : Nat := 512 + (progLen + 63) / 64

/-- Begins a replay of the core's segment, on its own core or on the spare. -/
def State.startReplay (s : State) (L : Nat) (j : Job) (takeover : Bool) : State :=
  let s := s.cutQueues L
  let s := s.set (DET_CORE_REPLAY_REPLAY_GEN L) (s.get (DET_CORE_REPLAY_REPLAY_GEN L) + 1)
  let s := s.set (DET_CORE_REPLAY_ATTEMPTS L) (min 15 (s.get (DET_CORE_REPLAY_ATTEMPTS L) + 1))
  let s := s.setCst L stFaulted
  let s := s.trace trReplay L (s.get (DET_CORE_REPLAY_REPLAY_GEN L)) (s.get (DET_CORE_LOG_CKPT_INDEX L))
    (max (s.cdet L).faultCount (s.cdet L).count) ((s.phys L).getD 0)
  s.modDet L fun d =>
    { d with faultCount := max d.faultCount d.count, resumeAt := some (s.now + replayCycles j.progLen), takeover := takeover }

/-- Replays a core after a contained error, where it can (R344, R347). -/
def State.replayCore (s : State) (L : Nat) : State :=
  let s := s.setCst L stFaulted
  match s.coreJob L with
  | none => s
  | some j =>
    if j.ring.isNone then s.noReplay
    else match s.phys L with
      | none => (s.endOn L 0x50).noReplay
      | some P =>
        if s.flag (DET_CORE_REPLAY_UNSAFE L) then s.replayLost L
        else if (s.cdet L).badCkpt || (s.cdet L).ckpt.isNone then (s.replayLost L).report 0x0A 0 L
        else if s.get (DET_CORE_REPLAY_ATTEMPTS L) ≥ s.replayLimit P then s.report 0x09 P L
        else s.startReplay L j false

/-! Sequencer faults (R63) -/

/-- Puts a core into FAULTED with a fault code and the index of the instruction. -/
def State.seqFault (s : State) (L code : Nat) : State :=
  let s := (s.set (SEQ_FAULT_CODE L) code).set (SEQ_FAULT_PC_INDEX L) (s.get (SEQ_PC_INDEX L))
  s.setCst L stFaulted

/-- A program fault: it ends the job and is no hardware fault. -/
def State.programFault (s : State) (L code : Nat) : State := (s.seqFault L code).endOn L code

/-- A parity error on a fetch or an operand read at an SRAM offset: reported, and the core replays. -/
def State.parityFault (s : State) (L code off : Nat) : State :=
  let s := s.seqFault L code
  let s := match s.phys L with
    | some P => s.report 0x08 P off
    | none => s
  s.replayCore L

end Sys2Proof.Machine
end

