-- ==== Sys2Proof/Machine/Fault.lean ====
section
/-! DEFINITION. The fault collector (R397 to R403, R413, R415, R416): windows, lasting reports, the log; fences (R405) with the takeover by a
spare (R350); the fatal decision (R410); and settle, which every command ends with. -/

namespace Sys2Proof.Machine

open Sys2Proof

/-! Sources (R397) -/

/-- A fault source: its class (0 corrected, 1 uncorrected-contained, 2 fatal), the kind of the unit counted (1 lane, 2 port, 3 physical core,
4 gateway, 5 controller, 0 device), the default threshold and window in microseconds, the default action (0 NOTIFY, 1 FENCE, 2 FATAL) and
the actions a FAULTWIN record may name. -/
structure Source where
  cls : Nat
  kind : Nat
  n : Nat
  w : Nat
  act : Nat
  acts : List Nat
deriving DecidableEq, Repr

/-- The table of R397. -/
def source (code : Nat) : Option Source :=
  match code with
  | 0x01 => some ⟨0, 2, 1000, 1000000, 0, [0, 1]⟩
  | 0x02 => some ⟨1, 2, 4, 60000000, 1, [0, 1]⟩
  | 0x03 => some ⟨0, 1, 2, 10000000, 1, [0, 1]⟩
  | 0x04 => some ⟨1, 2, 1, 1000000, 0, [0, 1]⟩
  | 0x08 => some ⟨1, 3, 3, 1000000, 1, [0, 1]⟩
  | 0x09 => some ⟨1, 3, 1, 1, 1, []⟩
  | 0x0A => some ⟨1, 0, 4, 1000000, 0, [0, 2]⟩
  | 0x0C => some ⟨1, 4, 2, 1000000, 1, [0, 1, 2]⟩
  | 0x10 => some ⟨0, 5, 10000, 1000000, 0, [0, 1]⟩
  | 0x11 => some ⟨1, 5, 8, 1000000, 0, [0, 1]⟩
  | 0x18 => some ⟨1, 0, 16, 1000000, 2, [0, 2]⟩
  | 0x19 => some ⟨1, 0, 16, 1000000, 2, [0, 2]⟩
  | 0x1A => some ⟨0, 0, 4, 1000000, 2, [0, 2]⟩
  | 0x1B => some ⟨0, 0, 4, 1000000, 2, [0, 2]⟩
  | 0x1C => some ⟨1, 0, 16, 1000000, 2, [0, 2]⟩
  | 0x1D => some ⟨1, 0, 2, 600000000, 2, [0, 2]⟩
  | 0x20 => some ⟨1, 0, 16, 1000000, 2, [0, 2]⟩
  | 0x30 => some ⟨2, 0, 1, 1, 2, []⟩
  | 0x31 => some ⟨2, 0, 1, 1, 2, []⟩
  | 0x32 => some ⟨2, 0, 1, 1, 2, []⟩
  | 0x33 => some ⟨2, 0, 1, 1, 2, []⟩
  | 0x34 => some ⟨2, 0, 1, 1, 2, []⟩
  | 0x35 => some ⟨2, 0, 1, 1, 2, []⟩
  | _ => none

/-- Threshold, window and action in force for a source under a list of FAULTWIN records (R401). -/
def ruleOf (recs : List (List Byte)) (code : Nat) (x : Source) : Nat × Nat × Nat :=
  match recs.find? fun r => field r 0 1 == code with
  | some r => (field r 2 2, field r 4 4, field r 1 1 % 4)
  | none => (x.n, x.w, x.act)

/-! Fences (R405) -/

/-- Whether a unit of a kind is fenced. -/
def State.unitFenced (s : State) (kind i : Nat) : Bool :=
  if kind = 1 then s.laneFenced i else if kind = 2 then s.portFenced i else if kind = 3 then s.coreFenced i
  else if kind = 4 then s.gwFenced i else if kind = 5 then s.ctlFenced i else false

/-- The number of units of a kind. -/
def unitCount (kind : Nat) : Nat :=
  if kind = 1 then 192 else if kind = 2 then 24 else if kind = 3 then 160 else if kind = 4 then 8 else if kind = 5 then 24 else 0

/-- Shows whether a takeover is under way. -/
def State.showTakeover (s : State) : State := s.set DET_STATUS_TAKEOVER_BUSY (b2n ((List.range 144).any fun L => (s.cdet L).takeover))

/-- The spare of a physical core's row that can take over, if the row's policy allows it (R349, R350). -/
def State.spareFor (s : State) (P : Nat) : Option Nat :=
  let x := P / 10 * 10 + 9
  let mode := ((s.recs 0x07).find? fun r => field r 0 1 == P / 10).map (field · 1 1)
  if P % 10 < 9 ∧ mode = some 1 ∧ !s.coreFenced x ∧ (s.carried x).isNone then some x else none

/-- A logical core loses its physical core (R44, R257, R347, R405): FENCED, its endpoint out of service; a job that it runs cannot replay it and ends
with CORE_LOST. -/
def State.unmap (s : State) (L : Nat) : State :=
  let s := ((s.set (CORE_MAP_VALID L) 0).set (CORE_CTRL_ENABLE_PENDING L) 0).set (CORE_STATUS_SPARE_ACTIVE L) 0
  let s := s.modCore L fun c => { c with ops := [], wait := none }
  let s := (s.modDet L fun d => { d with resumeAt := none, takeover := false }).endpointDown (· == L)
  let s := (s.setCst L stFenced).showTakeover
  if (s.core L).job.isSome then (s.endOn L 0x50).noReplay else s

/-- A byte of a program image: one that no memory gives is undefined. -/
def State.imageByte (s : State) (a : Nat) : Byte :=
  match place a with
  | .gddr x => if s.ctlDown (s.ctlOf x) then Config.gddrByte s.gddrGen x else s.gddrByte x
  | .sram L o => (s.sramRead L o 1).headD 0
  | .nowhere => Config.gddrByte s.gddrGen a

/-- Copies a job's program image to the top of a core's grant. -/
def State.copyProgram (s : State) (j : Job) (L : Nat) : State :=
  s.sramWrite L (j.sram - j.progLen) ((List.range j.progLen).map fun i => s.imageByte (j.progAddr + i))

/-- A spare takes over a logical core (R350): the mapping moves, the spare's SRAM is zeroed, and a core of a running job that has not ended
replays; one that waits for the start barrier gets its program again; one started by hand stays in FAULTED (R347). A shutdown ends at once (R409). -/
def State.takeOver (s : State) (L Q : Nat) : State :=
  let s := ((s.set (CORE_MAP_PROW L) (Q / 10)).set (CORE_MAP_PCOL L) (Q % 10)).set (CORE_MAP_PHYS L) Q
  let s := ((s.set (CORE_STATUS_SPARE_ACTIVE L) 1).set (CORE_PHYS_LOGICAL Q) L).set (CORE_PHYS_CARRIES Q) 1
  let s := (s.sramZero Q).count DET_TAKEOVERS_COUNT
  let st := s.cst L
  if st = stShutdown then s.endShut L
  else if !(st == stRun || st == stHalted || st == stFaulted) then
    match s.coreJob L with
    | some j => if j.launched ∧ st = stIdle then s.copyProgram j L else s
    | none => s
  else match s.coreJob L with
    | none => s
    | some j =>
      if j.ends.any (·.1 == L) then s
      else if j.ring.isNone then (s.setCst L stFaulted).noReplay
      else if s.flag (DET_CORE_REPLAY_UNSAFE L) then (s.setCst L stFaulted).replayLost L
      else if (s.cdet L).badCkpt || (s.cdet L).ckpt.isNone then ((s.setCst L stFaulted).replayLost L).report 0x0A 0 L
      else (s.startReplay L j true).showTakeover

/-- A fence of a physical core (R405): takeover where the row has a spare, else its logical core is unmapped. -/
def State.fenceCore (s : State) (P : Nat) (spare : Bool) : State :=
  let r := FLT_FENCE_CORE (P / 32)
  let s := (s.setR r (putBits (s.getR r) (P % 32) 1 1)).set (CORE_PHYS_FENCED P) 1
  match s.carried P with
  | none => s
  | some L =>
    let s := s.set (CORE_PHYS_CARRIES P) 0
    match (if spare then s.spareFor P else none) with
    | some Q => s.takeOver L Q
    | none => s.unmap L

/-- A fence of a NoC gateway (R203, R267, R405): the 20 physical cores of its rows, without takeover, and its queues. -/
def State.fenceGateway (s : State) (g : Nat) : State :=
  let s := s.setR FLT_FENCE_UNIT (putBits (s.getR FLT_FENCE_UNIT) g 1 1)
  let s := (List.range 20).foldl (fun s i => if s.coreFenced (20 * g + i) then s else s.fenceCore (20 * g + i) false) s
  s.gatewayDown g

/-- Whether a range of GDDR7 meets a controller. -/
def State.meetsCtl (s : State) (a n c : Nat) : Bool :=
  (List.range ((a + n + 255) / 256 - a / 256)).any fun i => s.ctlOf ((a / 256 + i) * 256) == c

/-- A fence of a controller (R405): open gate entries whose range meets it close with MEM_EDC. -/
def State.fenceCtl (s : State) (c : Nat) : State :=
  let s := s.setR FLT_FENCE_UNIT (putBits (s.getR FLT_FENCE_UNIT) (8 + c) 1 1)
  let s := (s.set (MEM_CH_STATUS_STATE c) 5).showTraining
  (s.mem.gates.filter fun g => g.closed.isNone && s.meetsCtl g.dst g.length c).foldl (fun s g => s.closeGate g 2) s

/-- Fences a unit. -/
def State.fenceUnit (s : State) (kind i : Nat) : State :=
  if kind = 1 then s.fenceLane i else if kind = 2 then s.fencePort i else if kind = 3 then s.fenceCore i true
  else if kind = 4 then s.fenceGateway i else if kind = 5 then s.fenceCtl i else s

/-! Counting (R399) and the log (R415) -/

/-- Counts an event against its window: whether it completes the threshold. -/
def State.countEvent (s : State) (e : FaultEv) (n w : Nat) : Bool × State :=
  let k := 256 * e.src + e.inst
  let s := s.count (FLT_SRC_COUNT_COUNT e.src)
  let x := (Tbl.find s.fault.wins k).getD { count := 0, start := 0 }
  let x : FaultWin := if x.count = 0 ∨ s.usNow - x.start ≥ w then { count := 1, start := s.usNow } else { x with count := min 65535 (x.count + 1) }
  let hit := decide (x.count ≥ n)
  let x := if hit then { x with count := 0 } else x
  (hit, { s with fault := { s.fault with wins := Tbl.insert s.fault.wins k x } })

/-- Writes a log entry and offers its trace record. -/
def State.logFault (s : State) (e : FaultEv) (cls : Nat) (lasting fenced : Bool) : State :=
  let i := s.getR FLT_LOG_PROD % 64
  let s := s.setR64 (FLT_LOG_TIME i) s.ft
  let s := s.setR (FLT_LOG_INFO i) (e.src + cls * 2 ^ 8 + b2n lasting * 2 ^ 10 + b2n fenced * 2 ^ 11 + e.inst % 256 * 2 ^ 16)
  let s := (s.setR (FLT_LOG_DETAIL i) e.detail).countWrap FLT_LOG_PROD_PROD
  let s := if (s.getR FLT_LOG_PROD + 2 ^ 32 - s.fault.overrunBase) % 2 ^ 32 > 64 then s.set FLT_STATUS_LOG_OVERRUN 1 else s
  s.trace trFault 0xD8 e.src e.inst e.detail (cls + 4 * b2n lasting + 8 * b2n fenced)

/-- Starts or extends the FAULT_N pulse (R412). DESIGN CHOICE: it lasts 20 µs, the least the rule allows. Log 205. -/
def State.pulse (s : State) : State :=
  { s.set FLT_FAULTN_PULSING 1 with fault := { s.fault with pulseEnd := some (s.now + fclk 20) } }

/-! The fatal decision (R191, R410, R433) -/

/-- The trace unit at the fatal decision. -/
def State.traceFatal (s : State) : State :=
  let st := s.get OBS_TRACE_STATUS_STATE
  if st = 0 ∨ st = 4 then s
  else
    let stop := (s.tracePiece.map fun p => bit (field p 0x14 1) 1).getD false
    let s := if stop then s.traceFire 3 none else s
    let s := State.traceDrain s.obs.staged.length s
    (s.set OBS_TRACE_STATUS_STATE 4).raiseVec 5

/-- Three FATAL flits and electrical idle on a port in ACTIVE or LP1. -/
def State.fatalFlits (s : State) (code p : Nat) : State :=
  if s.lst p = lkActive ∨ s.lst p = lkLp1 then
    let pay := leBytes 4 s.ownAddr ++ leBytes 1 code ++ [0, 0, 0] ++ leBytes 8 s.ft
    ((List.range 3).foldl (fun s _ => s.putFlit p pay 0 0 0xF) s).emit (.idle p)
  else s

/-- Clears every ENABLE_PENDING bit (R409). -/
def State.clearPending (s : State) : State :=
  let s := (List.range 144).foldl (fun s L => s.set (CORE_CTRL_ENABLE_PENDING L) 0) s
  let s := (List.range 24).foldl (fun s p => s.set (LNK_CTRL_ENABLE_PENDING p) 0) s
  let s := (List.range 64).foldl (fun s d => s.set (COL_DOM_CTRL_ENABLE_PENDING d) 0) s
  ((s.set COL_CTRL_ENABLE_PENDING 0).set MEM_CTRL_ENABLE_PENDING 0).set OBS_TRACE_CTRL_ENABLE_PENDING 0

/-- The fatal decision with a cause. -/
def State.fatalDecision (s : State) (e : FaultEv) : State :=
  let s := s.set FLT_STATUS_FATAL 1
  let s := ((s.set FLT_FATAL_CAUSE_SOURCE e.src).set FLT_FATAL_CAUSE_INSTANCE e.inst).set FLT_FATAL_CAUSE_VALID 1
  let s := s.setR64 FLT_FATAL_TIME s.ft
  let s := (List.range 24).foldl (fun s p => s.fatalFlits e.src p) s
  let s := s.clearPending.pulse
  let s := if s.flag FLT_FAULTN_HOLD_ON_FATAL then s.set FLT_FAULTN_DRIVE 1 else s
  s.traceFatal

/-! Batches (R403) -/

/-- An event judged: its class, whether it was counted to its threshold, its action. -/
structure Judged where
  ev : FaultEv
  cls : Nat
  kind : Nat
  lasting : Bool
  act : Nat
deriving DecidableEq, Repr

/-- Ascending source codes, in order of arrival. -/
def insertEv (e : FaultEv) : List FaultEv → List FaultEv
  | [] => [e]
  | x :: xs => if e.src < x.src then e :: x :: xs else x :: insertEv e xs

/-- Judges the events of a batch in order. Events of a fenced instance are not counted. -/
def State.judge (s : State) (es : List FaultEv) : List Judged × State :=
  es.foldl (fun (a : List Judged × State) e =>
    match e.fence, source e.src with
    | some kind, _ => if a.2.unitFenced kind e.inst then a else (a.1 ++ [{ ev := e, cls := 0, kind := kind, lasting := false, act := 1 }], a.2)
    | none, some x =>
      if a.2.unitFenced x.kind e.inst then a
      else
        let (n, w, act) := ruleOf (a.2.recs 0x0A) e.src x
        let (hit, s) := a.2.countEvent e n w
        let lasting := hit && x.cls != 2
        let s := if lasting then (s.count (FLT_SRC_LASTING_COUNT e.src)).set FLT_STATUS_LASTING 1 else s
        let s := if x.cls = 0 then s.set FLT_STATUS_CORRECTED 1 else if x.cls = 1 then s.set FLT_STATUS_CONTAINED 1 else s
        let s := if lasting && s.flag FLT_FAULTN_PULSE_ON_LASTING then s.pulse else s
        (a.1 ++ [{ ev := e, cls := x.cls, kind := x.kind, lasting := lasting, act := act }], s)
    | none, none => a) ([], s)

/-- Whether a judged event makes the fatal decision. -/
def Judged.fatal (j : Judged) : Bool := j.cls == 2 || (j.lasting && j.act == 2)

/-- Whether a judged event fences its unit. -/
def Judged.fences (j : Judged) : Bool := j.ev.fence.isSome || (j.lasting && j.act == 1)

/-- Whether a judged event raises the fault interrupt (R416); the fatal decision raises it when the safe state is reached. -/
def State.faultInt (s : State) (j : Judged) : Bool :=
  (j.cls == 0 && j.ev.fence.isNone && s.flag FLT_CTRL_INT_CORRECTED) || (j.cls == 1 && s.flag FLT_CTRL_INT_CONTAINED) ||
    ((j.lasting || j.ev.fence.isSome) && s.flag FLT_CTRL_INT_LASTING)

/-- Acts on a judged event: the log entry, the fence, the interrupt. A unit is fenced once, and a fatal decision of the batch fences nothing. -/
def State.act (s : State) (decided : Bool) (j : Judged) : State :=
  let fence := j.fences && !decided && !s.unitFenced j.kind j.ev.inst
  if j.ev.fence.isSome && !fence && !decided then s
  else
    let s := s.logFault j.ev j.cls j.lasting fence
    let s := if s.faultInt j then s.raiseVec 0 else s
    if fence then (s.set FLT_STATUS_FENCED 1).fenceUnit j.kind j.ev.inst else s

/-- The events of one batch: after the decision only fatal ones count, in MORE (R413). -/
def State.batch (s : State) (es : List FaultEv) : State :=
  let fatals (n : Nat) (s : State) : State := if n = 0 then s else s.count FLT_FATAL_CAUSE_MORE n
  if s.fatal then fatals ((es.filter fun e => (source e.src).any (·.cls == 2)).length) s
  else
    let (js, s) := s.judge (es.foldl (fun l e => insertEv e l) [])
    match js.filter (·.fatal) with
    | [] => js.foldl (fun s j => s.act false j) s
    | x :: xs => (fatals xs.length (js.foldl (fun s j => s.act true j) s)).fatalDecision x.ev

/-- Takes up the fault reports of a command; a fence may make further ones. n bounds the rounds. -/
def State.takeFaults : Nat → State → State
  | 0, s => { s with fault := { s.fault with queue := [] } }
  | n + 1, s =>
    match s.fault.queue with
    | [] => s
    | es => State.takeFaults n ({ s with fault := { s.fault with queue := [] } }.batch es)

/-- What every command ends with: the fault collector takes up its reports, and origin discards that no party waits for are dropped (R226). -/
def State.settle (s : State) : State := (State.takeFaults 64 s).sw fun w => { w with failed := [] }

/-- The outcome of a command that goes on. -/
def done (s : State) : Host.Outcome State Fault Refusal := .next s.settle

end Sys2Proof.Machine
end

