-- ==== Sys2Proof/Machine/CoreOps.lean ====
section
/-! DEFINITION. How the sequencer issues one instruction (R58 to R63): fetch, the checks of the word, the predicate, the scoreboard,
the effect, and what follows it: the next index, loop ends and faults. Every instruction's meaning is this one operation with the
instruction's class and code, its unused fields, the registers it uses and its effect. -/

namespace Sys2Proof.Machine

open Sys2Proof

/-- The registers an instruction reads or writes, for the scoreboard (R59). -/
structure Uses where
  g : List Nat := []
  p : List Nat := []
  v : List Nat := []
  acc : List Nat := []
deriving DecidableEq, Repr

/-- What the effect of an instruction comes to. -/
inductive Eff where
  /-- It retires and the program goes on n words further. -/
  | next (s : State) (n : Nat)
  /-- It retires and the program goes on at an index. -/
  | jump (s : State) (pc : Nat)
  /-- A program fault. -/
  | fault (code : Nat)
  /-- A parity error on an operand read at an SRAM offset. -/
  | parity (off : Nat)
  /-- It does not issue in this cycle, for the stall reason of R419. -/
  | stall (reason : Nat)

/-- The OP codes defined for each class (R61, R89). -/
def definedOp (cls op : Nat) : Bool :=
  match cls with
  | 0 => op < 4 | 1 => op < 13 | 2 => op < 4 | 3 => op < 3 | 4 => op < 16 | 5 => op < 1 | 6 => op < 6 | 7 => op < 6
  | 8 => op < 8 | _ => false

/-- Whether the operand bits outside the fields listed, as (lowest bit, width), are zero. -/
def onlyFields (w : Nat) (fs : List (Nat × Nat)) : Bool :=
  fs.foldl (fun x f => putBits x f.1 f.2 0) (w % 2 ^ 48) == 0

/-- Whether an engine has still to write a register the instruction uses. -/
def Core.conflict (c : Core) (u : Uses) : Bool :=
  c.ops.any fun o => o.gs.any u.g.contains || o.ps.any u.p.contains || o.vs.any u.v.contains || o.accs.any u.acc.contains

/-- Ends of loop bodies at an index: a loop with iterations left goes back to its first word, a finished one is popped. -/
def loopEnd : List Loop → Nat → List Loop × Nat
  | [], pc => ([], pc)
  | l :: ls, pc =>
    if l.stop = pc then
      if 1 < l.left then ({ l with left := l.left - 1 } :: ls, l.start) else loopEnd ls pc
    else (l :: ls, pc)

/-- Whether a loop's body runs from the loop buffer and holds an index (R58). -/
def Loop.buffers (l : Loop) (pc : Nat) : Bool := l.stop - l.start ≤ 64 && l.start ≤ pc && pc < l.stop

/-- The word of an index in the loop buffer. -/
def buffered (ls : List Loop) (pc : Nat) : Option Nat :=
  ls.findSome? fun l => if l.buffers pc then Tbl.find l.words pc else none

/-- A fetched word enters the loop buffers whose bodies hold it. -/
def bufferWord (ls : List Loop) (pc w : Nat) : List Loop :=
  ls.map fun l => if l.buffers pc then { l with words := Tbl.insert l.words pc w } else l

/-- The sequencer does not issue: the reason shows in CORE_STATUS. -/
def State.stallCore (s : State) (L reason : Nat) : State :=
  (s.set (CORE_STATUS_STALL L) reason).set (CORE_STATUS_STALLED L) 1

/-- The stall reason of a core that waits (R74, R419): SYNC; TICKET for a wait on the completion event of one of its collectives;
SEQUENCER for SFENCE and for the engines to empty. -/
def Core.waitStall (c : Core) : Option Nat :=
  match c.wait with
  | none => none
  | some (.evwait e _) =>
    if c.queues.flatten.any fun d => 0x20 ≤ field d.bytes 0 1 && field d.bytes 0 1 ≤ 0x28 && field d.bytes 2 1 == e then some 4 else some 3
  | some (.gbar _) => some 3
  | some (.dmawait _) => some 3
  | some .sfence => some 5
  | some .halt => some 5

/-- An instruction retires: the next index, the count of R342, the cycle counted as busy; issue holds when it waits. -/
def State.retire (s : State) (L : Nat) (loops : List Loop) (pc : Nat) : State :=
  let s := s.modCore L fun c => { c with loops := loops }
  let s := (s.set (SEQ_PC_INDEX L) pc).set (CORE_STATUS_STALLED L) 0
  let s := (s.modDet L fun d => { d with count := d.count + 1 }).busy (4 * L) 1
  match (s.core L).waitStall with
  | some r => s.stallCore L r
  | none => s

/-- Retires and goes on n words further, loop ends included. -/
def State.goOn (s : State) (L n : Nat) : State :=
  let (loops, pc) := loopEnd (s.core L).loops ((s.get (SEQ_PC_INDEX L) + n) % 2 ^ 18)
  s.retire L loops pc

/-- Carries out what an effect comes to. DESIGN CHOICE: R61 does not say what a jump target above the 18-bit index gives, nor what a jump does
to the loops it leaves: the target counts modulo 2^18 and the loop stack stays as it is. Log 33. -/
def finish (L : Nat) (s : State) : Eff → State
  | .next t n => t.goOn L n
  | .jump t pc => t.retire L (t.core L).loops (pc % 2 ^ 18)
  | .fault code => s.programFault L code
  | .parity off => s.parityFault L 0x07 off
  | .stall reason => s.stallCore L reason

/-- Whether the sequencer of a core can issue: in RUN, with nothing holding issue, before the fatal decision. -/
def State.canIssue (s : State) (L : Nat) : Bool :=
  !s.fatal && s.cst L == stRun && (s.core L).wait.isNone

/-- The word at the program counter: from the loop buffer, or fetched. -/
def State.wordOf (s : State) (L : Nat) : Nat :=
  match buffered (s.core L).loops (s.get (SEQ_PC_INDEX L)) with
  | some w => w
  | none => leNat (s.sramRead L (s.wordAt L) 8)

/-- Why the word at the program counter cannot be had: beyond the grant, or a parity error in its bytes (R48, R63). -/
def State.fetchFault (s : State) (L : Nat) (bad : Option Nat) : Option Nat :=
  if (buffered (s.core L).loops (s.get (SEQ_PC_INDEX L))).isSome then none
  else if s.wordAt L + 8 > s.grant L then some 0x04
  else match bad with
    | some a => if s.wordAt L ≤ a ∧ a < s.wordAt L + 8 then some 0x06 else none
    | none => none

/-- The word past fetch: into the loop buffer when its body is held there. -/
def State.fetched (s : State) (L w : Nat) : State :=
  s.modCore L fun c => { c with loops := bufferWord c.loops (s.get (SEQ_PC_INDEX L)) w }

/-- Whether the predicate of a word holds (R60). -/
def Core.holds (c : Core) (w : Nat) : Bool := c.pval (wPred w) != wPneg w

/-- The issue of the instruction at the program counter of core L, if it is the one of this class and code: bad names an SRAM byte
that fails parity. -/
def issue (L : Nat) (bad : Option Nat) (cls op : Nat) (legal : Nat → Bool) (uses : Nat → Uses) (eff : Nat → State → Eff)
    (s : State) : State :=
  if !s.canIssue L then s
  else match s.fetchFault L bad with
    | some 0x06 => s.parityFault L 0x06 (bad.getD 0)
    | some code => s.programFault L code
    | none =>
      let w := s.wordOf L
      if wClass w ≥ 9 then s.programFault L 0x01
      else if !definedOp (wClass w) (wOp w) then s.programFault L 0x02
      else if wClass w != cls || wOp w != op then s
      else if !legal w then s.programFault L 0x03
      else
        let s := s.fetched L w
        let c := s.core L
        if c.conflict { p := [wPred w] } then s.stallCore L 5
        else if !c.holds w then s.goOn L 1
        else if c.conflict (uses w) then s.stallCore L 5
        else finish L s (eff w s)

/-- The check of an SRAM access of n bytes at a 64-bit address (R63): the fault code, a parity error, or none. -/
def State.accessFault (s : State) (L : Nat) (bad : Option Nat) (a n align : Nat) : Option Eff :=
  if a % align ≠ 0 then some (.fault 0x03)
  else if a + n > s.grant L then some (.fault 0x04)
  else match bad with
    | some b => if a ≤ b ∧ b < a + n then some (.parity b) else none
    | none => none

/-- The check of an SRAM write: no parity is read. -/
def State.storeFault (s : State) (L a n align : Nat) : Option Eff := s.accessFault L none a n align

/-- The first of several checks that fails, else the effect. -/
def orElse : List (Option Eff) → Eff → Eff
  | [], e => e
  | some e :: _, _ => e
  | none :: cs, e => orElse cs e

/-- An instruction starts on an engine: the registers and bytes it has still to make visible. -/
def State.startOp (s : State) (L : Nat) (o : EngOp) : State := s.modCore L fun c => { c with ops := c.ops ++ [o] }

/-- The oldest operation of an engine ends: its stores become visible to every engine and to the DMA (R62). -/
def State.endOp (s : State) (L : Nat) (e : Engine) : State :=
  match (s.core L).ops.find? (·.eng == e) with
  | none => s
  | some o =>
    let s := o.stores.foldl (fun s st => s.sramWrite L st.1 st.2) s
    s.modCore L fun c => { c with ops := c.ops.erase o }

end Sys2Proof.Machine
end

