-- ==== Sys2Proof/Machine/Matrix.lean ====
section
/-! DEFINITION. The arithmetic of the matrix engine: tiles and activation rows as values (R50, R82 to R87, R115), products and group sums
in the fixed order of R128 to R132, and the conversion of DRAIN (R116). -/

namespace Sys2Proof.Machine

open Sys2Proof

/-! Formats (R50) -/

/-- The row of R50 a format belongs to as a matrix operand: 0 the 8-bit and 6-bit row, 1 the 4-bit row, 2 BF16 and FP16, 3 FP32. -/
def mxeRow (fmt : Nat) : Option Nat :=
  match fmt with
  | 0x3 | 0x4 | 0xA | 0xC | 0x5 | 0x6 | 0xD => some 0
  | 0x7 | 0xB | 0xE => some 1
  | 0x1 | 0x2 => some 2
  | 0x0 => some 3
  | _ => none

/-- The row of a weight format: FMT_W 0x8 beside 0x0 stands for FP32 in three passes (R61). -/
def mxeRowW (fmt : Nat) : Option Nat := if fmt = 0x8 then some 3 else mxeRow fmt

/-- The storage format of a weight format code. -/
def weightFmt (fmt : Nat) : Nat := if fmt = 0x8 then 0x0 else fmt

/-- Dense depth K of a row of R50. -/
def denseK (row : Nat) : Nat := match row with | 0 => 32 | 1 => 64 | _ => 16

/-- Depth a tile covers: a compressed tile covers twice the dense depth (R82). -/
def tileK (row mode : Nat) : Nat := if mode = 0 then denseK row else 2 * denseK row

/-- Group size, kept values per group and index width of a sparsity mode (R83). -/
def sparseShape (mode : Nat) : Nat × Nat × Nat :=
  match mode with
  | 1 => (4, 2, 2) | 2 => (8, 4, 3) | _ => (32, 8, 5)

/-- Kept values per column. -/
def keptPer (row mode : Nat) : Nat :=
  if mode = 0 then denseK row else let (g, k, _) := sparseShape mode; tileK row mode / g * k

/-- Index bytes per column. -/
def indexBytes (row mode : Nat) : Nat :=
  if mode = 0 then 0 else let (g, k, w) := sparseShape mode; tileK row mode / g * k * w / 8

/-- Bytes of the values block, the index block and the scale bytes of a tile. -/
def valueBytes (fmt row mode : Nat) : Nat := 32 * keptPer row mode * elemBits fmt / 8
def scaleCount (fmt row mode : Nat) : Nat := if (bsWidth fmt).isSome then 32 * (tileK row mode / 32) else 0
/-- DESIGN CHOICE: R50 gives an FP32 tile 1 KiB a pass and does not say where the bytes of each pass lie: the tile is 512 words of 4 bytes, read once.
Log 39. -/
def tileBytes (fmt row mode : Nat) : Nat :=
  valueBytes fmt row mode + 32 * indexBytes row mode + scaleCount fmt row mode

/-- Bytes of an activation row (R50, R82, R115). DESIGN CHOICE: an FP32 row is 16 words of 4 bytes, read once for every pass. Log 39. -/
def actBytes (fmt k : Nat) : Nat := k * elemBits fmt / 8 + (if (bsWidth fmt).isSome then k / 32 else 0)

/-! Values -/

/-- The dense positions of a column's kept values, ascending: every position of a dense tile, else those of the index fields (R83). -/
def keptAt (row mode : Nat) (bs : List Byte) (fmt col : Nat) : List Nat :=
  if mode = 0 then List.range (denseK row)
  else
    let (g, k, w) := sparseShape mode
    let per := indexBytes row mode
    let x := field bs (valueBytes fmt row mode + col * per) per
    ((List.range (tileK row mode / g)).map fun i =>
      (List.range k).map fun j => g * i + bits x ((i * k + j) * w) w).flatten

/-- Whether the indices of every group of a compressed tile ascend (R83). -/
def indicesAscend (fmt row mode : Nat) (bs : List Byte) : Bool :=
  (List.range 32).all fun c =>
    let ps := keptAt row mode bs fmt c
    (List.range (ps.length - 1)).all fun i => decide (ps.getD i 0 < ps.getD (i + 1) 0)

/-- A column of a tile: dense position and value of each kept weight. -/
def tileColumn (t : WTile) (row col : Nat) : List (Nat × Val) :=
  let n := keptPer row t.mode
  let codes := (unpackElems (elemBits t.fmt) (32 * n) (t.bytes.take (valueBytes t.fmt row t.mode))).drop (col * n)
  let groups := tileK row t.mode / 32
  let scales := valueBytes t.fmt row t.mode + 32 * indexBytes row t.mode
  ((keptAt row t.mode t.bytes t.fmt col).zip (codes.take n)).map fun p =>
    (p.1, decodeVal t.fmt (field t.bytes (scales + col * groups + p.1 / 32) 1) p.2)

/-- The values of an activation row of depth k. -/
def actVals (fmt k : Nat) (bs : List Byte) : List Val :=
  let n := k * elemBits fmt / 8
  (List.range k).zipWith (fun i c => decodeVal fmt (field bs (n + i / 32) 1) c) (unpackElems (elemBits fmt) k (bs.take n))

/-! One accumulator element -/

/-- Whether a value is infinite. -/
def Val.isInf : Val → Bool
  | .inf _ => true
  | _ => false

/-- Whether a value is an infinity or NaN. -/
def Val.special : Val → Bool
  | .fin _ _ _ => false
  | _ => true

/-- What one group adds: its sum, its flags, and where an invalid operation in it came from: false the activation, true the weight. -/
structure GSum where
  v : Val
  flags : Flags := {}
  src : Option Bool := none

/-- The operand of a position that is infinite: the activation is taken before the weight (R137). -/
def infSide (a : Val) : Bool := !a.isInf

/-- The first position of a list of operand pairs that satisfies a test, as the side its infinity came from. -/
def sideOf (f : Val × Val → Bool) (ps : List (Val × Val)) : Option Bool := (ps.find? f).map fun p => infSide p.1

/-- The side of the first invalid product, else of the first infinite product. -/
def invalidSide (ps : List (Val × Val)) : Option Bool :=
  match sideOf (fun p => (mulVal p.1 p.2).2) ps with
  | some b => some b
  | none => sideOf (fun p => (mulVal p.1 p.2).1.isInf) ps

/-- The exact sum of finite values: +0 when it is zero, unless every one is -0. -/
def exactSum (vs : List Val) : Val :=
  match vs with
  | [] => .fin false 0 0
  | v :: vs => vs.foldl (fun a b => (addVal a b).1) v

/-- The sum of a group of products of the 8-bit, 6-bit and 4-bit formats (R129). -/
def groupSum (ps : List (Val × Val)) : GSum :=
  let prods := ps.map fun p => mulVal p.1 p.2
  let vs := prods.map (·.1)
  let pos := vs.any (· == .inf false)
  let neg := vs.any (· == .inf true)
  let inv := prods.any (·.2) || (pos && neg)
  let v :=
    if vs.any (· == .nan) || (pos && neg) then .nan
    else if pos then .inf false
    else if neg then .inf true
    else exactSum vs
  { v := v, flags := { inv := inv }, src := if inv then invalidSide ps else none }

/-- One addition into an FP32 accumulator of a value rounded to FP32 first. The pairs tell where an invalid addition came from. -/
def accAdd (ovf : Bool) (ps : List (Val × Val)) (acc : Nat) (g : GSum) : Nat × Flags × Option Bool :=
  let (t, f1) := rn32 ovf g.v
  let (r, f2) := add32 ovf acc t
  (r, (g.flags.or f1).or f2, match g.src with
    | some b => some b
    | none => if f2.inv then sideOf (fun p => (mulVal p.1 p.2).1.isInf) ps else none)

/-- One level of a pairwise tree of FP32 sums. -/
def treeLevel (ovf : Bool) : List Nat → List Nat × Flags
  | a :: b :: r =>
    let (x, f) := add32 ovf a b
    let (xs, g) := treeLevel ovf r
    (x :: xs, f.or g)
  | r => (r, {})

/-- n levels of a pairwise tree of FP32 sums, with one rounding per addition (R130). -/
def treeSum (ovf : Bool) : Nat → List Nat → Nat × Flags
  | 0, xs => (xs.headD 0, {})
  | n + 1, xs =>
    let (ys, f) := treeLevel ovf xs
    let (r, g) := treeSum ovf n ys
    (r, f.or g)

/-- The FP32 group sum of 16 cell terms, each rounded to FP32 (R130). -/
def treeGroup (ovf : Bool) (ps : List (Val × Val)) (ts : List (Val × Bool)) : GSum :=
  let rs := ts.map fun t => rn32 ovf t.1
  let (g, f) := treeSum ovf 4 (rs.map (·.1))
  let fl := (Flags.union (rs.map (·.2))).or f
  let inv := fl.inv || ts.any (·.2)
  { v := val32 g, flags := { fl with inv := inv }, src := if inv then invalidSide ps else none }

/-- The three slices of a finite value (R132): mantissa bits [23:16], [15:8] and [7:0] at their weights. -/
def slices : Val → Val × Val × Val
  | .fin s m e => (.fin s (m / 2 ^ 16 * 2 ^ 16) e, .fin s (m / 2 ^ 8 % 2 ^ 8 * 2 ^ 8) e, .fin s (m % 2 ^ 8) e)
  | v => (v, v, v)

/-- The cell term of a pass (R132). A position with an infinity or NaN gives its product in pass 1 and nothing in the others. -/
def passTerm (pass : Nat) (a w : Val) : Val × Bool :=
  if a.special || w.special then (if pass = 1 then mulVal a w else (.fin false 0 0, false))
  else
    let (a1, a2, a3) := slices a
    let (w1, w2, w3) := slices w
    let pair (x y u v : Val) : Val × Bool := ((addVal (mulVal x y).1 (mulVal u v).1).1, false)
    match pass with
    | 1 => pair a1 w1 a2 w2
    | 2 => pair a1 w2 a2 w1
    | _ => pair a1 w3 a3 w1

/-- Saturating sum of R131. -/
def satInt32 (acc : Nat) (x : Int) : Nat × Flags :=
  let r := toSigned 32 acc + x
  if r > 2 ^ 31 - 1 then (2 ^ 31 - 1, { ovf := true })
  else if r < -2 ^ 31 then (2 ^ 31, { ovf := true })
  else (ofSigned 32 r, {})

/-- The integer value of an integer operand. -/
def Val.toInteger : Val → Int
  | .fin s m _ => if s then -(m : Int) else m
  | _ => 0

/-- How an MMA adds (R129 to R132). -/
inductive MulKind where
  | groups
  | ints
  | tree
  | passes (n : Nat)
deriving DecidableEq, Repr

/-- The kind of an MMA by its operand formats. -/
def mulKind (row fa fw : Nat) : MulKind :=
  match row with
  | 2 => .tree
  | 3 => .passes (if fw = 0x8 then 3 else 2)
  | _ => if (intWidth fa).isSome && (intWidth fw).isSome then .ints else .groups

/-- One accumulator element over one activation row: the new accumulator, the flags, and per group where an invalid operation came
from. -/
structure ElemRes where
  acc : Nat
  flags : Flags
  srcs : List (Option Bool)

/-- The pairs of one group of 32 positions, positions in blocks marked 0 left out. -/
def groupPairs (acts : List Val) (col : List (Nat × Val)) (keep : Nat → Bool) (g : Nat) : List (Val × Val) :=
  (col.filter fun p => p.1 / 32 == g && keep g).map fun p => (acts.getD p.1 (.fin false 0 0), p.2)

/-- Adds one activation row into one accumulator element. -/
def elemStep (kind : MulKind) (ovf : Bool) (k : Nat) (acts : List Val) (col : List (Nat × Val)) (keep : Nat → Bool) (acc : Nat) : ElemRes :=
  let fold (r : ElemRes) (ps : List (Val × Val)) (g : GSum) : ElemRes :=
    let (a, f, src) := accAdd ovf ps r.acc g
    { acc := a, flags := r.flags.or f, srcs := r.srcs ++ [src] }
  match kind with
  | .ints =>
    (List.range ((k + 31) / 32)).foldl (fun r g =>
      let x := (groupPairs acts col keep g).foldl (fun x p => x + p.1.toInteger * p.2.toInteger) (0 : Int)
      let (a, f) := satInt32 r.acc x
      { acc := a, flags := r.flags.or f, srcs := r.srcs ++ [none] }) { acc := acc, flags := {}, srcs := [] }
  | .groups =>
    (List.range ((k + 31) / 32)).foldl (fun r g =>
      let ps := groupPairs acts col keep g
      fold r ps (groupSum ps)) { acc := acc, flags := {}, srcs := [] }
  | .tree =>
    let ps := groupPairs acts col keep 0
    fold { acc := acc, flags := {}, srcs := [] } ps (treeGroup ovf ps (ps.map fun p => mulVal p.1 p.2))
  | .passes n =>
    let ps := groupPairs acts col keep 0
    let r := ((if n = 3 then [3, 2, 1] else [2, 1])).foldl (fun r pass =>
      fold r ps (treeGroup ovf ps (ps.map fun p => passTerm pass p.1 p.2))) { acc := acc, flags := {}, srcs := [] }
    { r with srcs := [r.srcs.findSome? id] }

/-! A whole MMA -/

/-- The rows of an activation: address and bytes, which 32-element blocks count, and whether the whole row is skipped (R87). -/
structure ActRow where
  addr : Nat
  bytes : List Byte
  keep : Nat → Bool
  skip : Bool

/-- What an MMA comes to: the tile, its flags, the invalid elements, and the offset of the first invalid operand. -/
structure MmaRes where
  tile : List Nat
  flags : Flags
  invalids : Nat
  first : Option Nat

/-- The offset R137 gives for an invalid operation of a group: the activation row group, or the weight tile. -/
def sourceOffset (t : WTile) (row : ActRow) (fmtA g : Nat) (weight : Bool) : Nat :=
  if weight then t.addr else row.addr + g * (32 * elemBits fmtA / 8)

/-- The first invalid operation of a row, groups ascending and then columns ascending. -/
def firstOfRow (t : WTile) (row : ActRow) (fmtA : Nat) (es : List ElemRes) : Option Nat :=
  let groups := (es.headD ⟨0, {}, []⟩).srcs.length
  (List.range groups).findSome? fun g =>
    (es.findSome? fun e => (e.srcs.getD g none)).map fun b => sourceOffset t row fmtA g b

/-- Streams activation rows through a tile into accumulator rows (R51, R129). -/
def mmaRun (t : WTile) (row fmtA fmtW : Nat) (ovf accum : Bool) (tile : List Nat) (rows : List ActRow) : MmaRes :=
  let k := tileK row t.mode
  let kind := mulKind row fmtA fmtW
  let cols := (List.range 32).map (tileColumn t row)
  let out := rows.zipIdx.map fun (r, i) =>
    let acts := actVals fmtA k r.bytes
    (r, cols.zipIdx.map fun (c, j) =>
      let acc := if accum then tile.getD (32 * i + j) 0 else 0
      if r.skip then ElemRes.mk acc {} [] else elemStep kind ovf k acts c r.keep acc)
  let els := (out.map (·.2)).flatten
  { tile := els.map (·.acc) ++ (if accum then tile.drop els.length else zeros (4096 - els.length))
    flags := Flags.union (els.map (·.flags))
    invalids := invalidCount (els.map (·.flags))
    first := out.findSome? fun p => firstOfRow t p.1 fmtA p.2 }

/-! DRAIN (R116) -/

/-- Bytes of one output row. -/
def drainRow (fmt : Nat) : Nat := 32 * elemBits fmt / 8 + (if (bsWidth fmt).isSome then 1 else 0)

/-- Conversion of values with their draws into a format: the packed bytes, scale bytes of each block of 32 after the elements, and the
flags of each element (R115, R122, R126). -/
def convertVals (fmt mode : Nat) (ovf : Bool) (vs : List (Val × Nat)) : List Byte × List Flags :=
  match floatFmt fmt with
  | some f =>
    let rs := vs.map fun p => toFloat f mode p.2 ovf p.1
    (packElems (elemBits fmt) (rs.map (·.1)), rs.map (·.2))
  | none =>
    match intWidth fmt with
    | some w =>
      let rs := vs.map fun p => toInt w mode p.2 p.1
      (packElems w (rs.map (·.1)), rs.map (·.2))
    | none =>
      let n := (bsWidth fmt).getD 8
      let blocks := (List.range ((vs.length + 31) / 32)).map fun i => toBlock n mode ovf ((vs.drop (32 * i)).take 32)
      let els := (blocks.map (·.2)).flatten
      (packElems n (els.map (·.1)) ++ blocks.map (fun b => BitVec.ofNat 8 b.1), els.map (·.2))

/-- The value of an accumulator element. -/
def accVal (isInt : Bool) (c : Nat) : Val := if isInt then intVal (toSigned 32 c) else val32 c

/-- The output rows of a DRAIN and the flags of its elements. -/
def drainRun (isInt : Bool) (fmt mode rows : Nat) (ovf : Bool) (tile : List Nat) (draw : Nat → Nat) : List Byte × List Flags :=
  let out := (List.range rows).map fun r =>
    convertVals fmt mode ovf ((List.range 32).map fun c => (accVal isInt (tile.getD (32 * r + c) 0), draw (32 * r + c)))
  ((out.map (·.1)).flatten, (out.map (·.2)).flatten)

end Sys2Proof.Machine
end

