-- ==== Sys2Proof/Machine/Mxe.lean ====
section
/-! DEFINITION. The matrix engine's instructions: LDW, MMA and DRAIN (R61), LDWS and MMAZ (R89). -/

namespace Sys2Proof.Machine

open Sys2Proof

/-! Weight tiles -/

/-- Loads a tile into the shadow buffer (R52, R85): stalls while it holds a tile that no MMA has taken. -/
def loadTile (L : Nat) (bad : Option Nat) (fmt row mode a align : Nat) (s : State) : Eff :=
  let n := tileBytes fmt row mode
  if (s.core L).wShadow.isSome then .stall 5
  else match s.accessFault L bad a n align with
    | some f => f
    | none =>
      let bs := s.engRead L .mxe a n
      if mode ≠ 0 ∧ !indicesAscend fmt row mode bs then .fault 0x03
      else
        let s := s.modCore L fun c => { c with wShadow := some { fmt := fmt, mode := mode, addr := a, bytes := bs } }
        .next (s.startOp L { eng := .mxe }) 1

/-- The fields of LDW. -/
def ldwLegal (w : Nat) : Bool := onlyFields w [(38, 5), (25, 4)] && (mxeRowW (bits w 25 4)).isSome

/-- LDW (R52, R61): loads a dense weight tile into the shadow weight buffer. -/
def execLdw (core : CoreIx) (bad : Option Nat) (s : State) : Host.Outcome State Fault Refusal :=
  done (issue core.val bad 3 0x00 ldwLegal (fun w => { g := [wA w] })
    (fun w s => loadTile core.val bad (weightFmt (bits w 25 4)) ((mxeRowW (bits w 25 4)).getD 0) 0 ((s.core core.val).gval (wA w)) 1 s) s)

/-- The fields of LDWS: a format of the 8-bit, 6-bit and 4-bit rows and a sparsity mode. -/
def ldwsLegal (w : Nat) : Bool :=
  onlyFields w [(38, 5), (24, 4), (22, 2)] && bits w 22 2 != 0 &&
    (mxeRow (bits w 24 4) == some 0 || mxeRow (bits w 24 4) == some 1)

/-- LDWS (R85, R89): loads a compressed tile, 64-byte aligned, into the shadow weight buffer. -/
def execLdws (core : CoreIx) (bad : Option Nat) (s : State) : Host.Outcome State Fault Refusal :=
  done (issue core.val bad 8 0x00 ldwsLegal (fun w => { g := [wA w] })
    (fun w s => loadTile core.val bad (bits w 24 4) ((mxeRow (bits w 24 4)).getD 0) (bits w 22 2)
      ((s.core core.val).gval (wA w)) 64 s) s)

/-! MMA and MMAZ -/

/-- The tile an MMA runs on (R52): the shadow tile when it holds one, else the active one; and the core with it active. -/
def Core.takeTile (c : Core) : Option WTile × Core :=
  match c.wShadow with
  | some t => (some t, { c with wActive := some t, wShadow := none })
  | none => (c.wActive, c)

/-- The operands of an MMA or MMAZ: tile number, addresses, formats, OVF, ACCUM, rows, and for MMAZ the bitmap's offset. -/
structure MmaArgs where
  tile : Nat
  a : Nat
  stride : Nat
  fmtA : Nat
  fmtW : Nat
  ovf : Bool
  accum : Bool
  rows : Nat
  bitmap : Option Nat := none

/-- Whether the tile suits the formats: FMT_W names its format, both operands lie in one row of R50. -/
def mmaFits (x : MmaArgs) (t : WTile) : Bool :=
  t.fmt == weightFmt x.fmtW && (mxeRow x.fmtA).isSome && mxeRow x.fmtA == mxeRowW x.fmtW

/-- The address of an activation row. -/
def MmaArgs.rowAddr (x : MmaArgs) (r : Nat) : Nat := (x.a + r * x.stride) % 2 ^ 64

/-- Whether block g of row r counts under the bitmap (R86): b blocks a row. -/
def bitmapBit (bm : List Byte) (b r g : Nat) : Bool := bit (field bm ((r * b + g) / 8) 1) ((r * b + g) % 8)

/-- The activation rows of an MMA as its engine reads them. -/
def State.actRows (s : State) (L : Nat) (x : MmaArgs) (n b : Nat) (bm : Option (List Byte)) : List ActRow :=
  (List.range x.rows).map fun r =>
    let keep (g : Nat) : Bool := match bm with | some m => bitmapBit m b r g | none => true
    { addr := x.rowAddr r, bytes := s.engRead L .mxe (x.rowAddr r) n, keep := keep
      skip := bm.isSome && (List.range b).all fun g => !keep g }

/-- The effect of MMA and MMAZ (R51 to R53, R85, R87). DESIGN CHOICE: R52 does not say what an MMA does before any tile has been loaded, or with
a tile of another format than FMT_W: both are illegal operands. Log 38. -/
def mmaEff (L : Nat) (bad : Option Nat) (x : MmaArgs) (s : State) : Eff :=
  let (t?, c) := (s.core L).takeTile
  match t? with
  | none => .fault 0x03
  | some t =>
    if !mmaFits x t then .fault 0x03
    else
      let row := (mxeRow x.fmtA).getD 0
      let k := tileK row t.mode
      let b := max 1 (k / 32)
      let n := actBytes x.fmtA k
      let mapBytes := (x.rows * b + 7) / 8
      let mapFault := match x.bitmap with
        | some a => s.accessFault L bad a mapBytes 8
        | none => none
      let bm := x.bitmap.map fun a => s.engRead L .mxe a mapBytes
      let rows := s.actRows L x n b bm
      let rangeFault := rows.findSome? fun r => s.accessFault L none r.addr n 1
      let readFault := (rows.filter (!·.skip)).findSome? fun r => s.accessFault L bad r.addr n 1
      let r := mmaRun t row x.fmtA x.fmtW x.ovf x.accum (c.tile x.tile) rows
      let c := c.setTile x.tile r.tile
      let isInt := mulKind row x.fmtA x.fmtW == .ints
      let c := { c with accInt := putBits c.accInt x.tile 1 (b2n isInt) }
      let s := (s.setCore L c).raise L r.flags 0 (r.first.getD 0) r.invalids
      orElse [mapFault, rangeFault, readFault] (.next (s.startOp L { eng := .mxe, accs := [x.tile] }) 1)

/-- The fields of MMA: ROUND is 0 (R121). -/
def mmaLegal (w : Nat) : Bool :=
  onlyFields w [(43, 2), (38, 5), (33, 5), (25, 8), (22, 1), (21, 1), (13, 7)] &&
    (mxeRow (bits w 29 4)).isSome && mxeRow (bits w 29 4) == mxeRowW (bits w 25 4)

/-- The operands of MMA. -/
def Core.mmaArgs (c : Core) (w : Nat) : MmaArgs :=
  { tile := wTile w, a := c.gval (wA w), stride := c.gval (wB w), fmtA := bits w 29 4, fmtW := bits w 25 4
    ovf := bit w 22, accum := bit w 21, rows := bits w 13 7 + 1 }

/-- MMA (R51 to R53, R61): streams activation rows into an accumulator tile. -/
def execMma (core : CoreIx) (bad : Option Nat) (s : State) : Host.Outcome State Fault Refusal :=
  done (issue core.val bad 3 0x01 mmaLegal (fun w => { g := [wA w, wB w], acc := [wTile w] })
    (fun w s => mmaEff core.val bad ((s.core core.val).mmaArgs w) s) s)

/-- The format of the tile the next MMA runs on: MMAZ has no FMT_W field. -/
def Core.nextFmt (c : Core) : Nat := ((c.takeTile).1.map (·.fmt)).getD 0

/-- The fields of MMAZ: FMT_A of the 8-bit, 6-bit and 4-bit rows. -/
def mmazLegal (w : Nat) : Bool :=
  onlyFields w [(43, 2), (38, 5), (33, 5), (28, 5), (23, 5), (16, 7)] &&
    (mxeRow (bits w 24 4) == some 0 || mxeRow (bits w 24 4) == some 1)

/-- The operands of MMAZ: the weight format is the tile's. -/
def Core.mmazArgs (c : Core) (w : Nat) : MmaArgs :=
  { tile := wTile w, a := c.gval (wA w), stride := c.gval (wB w), fmtA := bits w 24 4, fmtW := c.nextFmt
    ovf := false, accum := bit w 23, rows := bits w 16 7 + 1, bitmap := some (c.gval (wC w)) }

/-- MMAZ (R87, R89): an MMA whose bitmap tells which blocks hold a nonzero element. -/
def execMmaz (core : CoreIx) (bad : Option Nat) (s : State) : Host.Outcome State Fault Refusal :=
  done (issue core.val bad 8 0x01 mmazLegal (fun w => { g := [wA w, wB w, wC w], acc := [wTile w] })
    (fun w s => mmaEff core.val bad ((s.core core.val).mmazArgs w) s) s)

/-! DRAIN -/

/-- The seed and the step that key the random draws of a core's job (R124, R338); a replay's step is that of the instructions it repeats (R334, R344). -/
def State.seedStep (s : State) (L : Nat) : Nat × Nat :=
  match s.coreJob L with
  | some j => (j.seed, if j.ring.isSome then (s.cdet L).replayStep.getD (s.get64 (DET_STEP_STEP j.group)) else 0)
  | none => (0, 0)

/-- The draw of an element: the tensor id in [31:0] and the block number in [63:32] of a general register, blocks of n (R125). -/
def State.elemDraw (s : State) (L key n i : Nat) : Nat :=
  let (seed, step) := s.seedStep L
  draw16 seed step (key % 2 ^ 32) ((key / 2 ^ 32 * n + i) % 2 ^ 48)

/-- The fields of DRAIN. -/
def drainLegal (w : Nat) : Bool :=
  onlyFields w [(43, 2), (38, 5), (33, 5), (25, 4), (22, 3), (13, 7)] && bits w 25 4 != 0xF && bits w 23 2 != 3

/-- The effect of DRAIN (R53, R116): converts the rows of a tile, writes them from offset a, and clears the tile. The spec gives no
source offset for a NaN that DRAIN converts to an integer: it is a free value. -/
def drainEff (L w : Nat) (s : State) : Eff :=
  let c := s.core L
  let t := wTile w
  let fmt := bits w 25 4
  let rows := bits w 13 7 + 1
  let a := c.gval (wA w)
  let key := c.gval (wB w)
  match s.storeFault L a (rows * drainRow fmt) 1 with
  | some f => f
  | none =>
    let (bs, fs) := drainRun (bit c.accInt t) fmt (bits w 23 2) rows (bit w 22) (c.tile t) (s.elemDraw L key 4096)
    let s := s.setCore L (c.clearTile t)
    let (off, s) := if (Flags.union fs).inv then s.draw else (0, s)
    let s := s.raise L (Flags.union fs) 0 off (invalidCount fs)
    .next (s.startOp L { eng := .mxe, accs := [t], stores := [(a, bs)] }) 1

/-- DRAIN (R53, R54, R61, R116). -/
def execDrain (core : CoreIx) (bad : Option Nat) (s : State) : Host.Outcome State Fault Refusal :=
  done (issue core.val bad 3 0x02 drainLegal (fun w => { g := [wA w, wB w], acc := [wTile w] }) (drainEff core.val) s)

end Sys2Proof.Machine
end

