-- ==== Sys2Proof/Machine/DmaOps.lean ====
section
/-! DEFINITION. The core DMA's shared operations (R64 to R69): the descriptor's fields and checks, completion records, the packets a
descriptor sends and the answers it takes. -/

namespace Sys2Proof.Machine

open Sys2Proof

/-- Operations of the table of R66. -/
def knownOp (op : Nat) : Bool :=
  op == 0x01 || op == 0x02 || (0x10 ≤ op && op ≤ 0x14) || (0x20 ≤ op && op ≤ 0x28) || (0x30 ≤ op && op ≤ 0x33)

/-- Most bytes of a descriptor. -/
def maxLength : Nat := 16777216

/-! Queues -/

/-- The descriptor that starts next: the first not started, once every earlier one has completed if it has FENCE set (R64). -/
def nextDesc : List Desc → Option Desc
  | [] => none
  | d :: ds =>
    if !d.started then some d
    else match ds.find? (!·.started) with
      | some x => if x.fence then none else some x
      | none => none

/-- Whether a core's DMA works: in RUN, or in FAULTED while issued work runs to its end (R63). -/
def State.dmaLive (s : State) (L : Nat) : Bool := !s.fatal && (s.cst L == stRun || s.cst L == stFaulted)

/-! Completion (R67, R68) -/

/-- Entries of a completion ring. -/
def State.cringSize (s : State) (L q : Nat) : Nat := 2 ^ (min 12 (max 4 (s.get (CORE_DMA_CRING_LOG2_ENTRIES L q))))

/-- Writes a completion record into the queue's ring and moves its producer on. -/
def State.writeRecord (s : State) (L q : Nat) (rec : List Byte) : State :=
  let i := s.get (CORE_DMA_CPROD_PROD L q) % s.cringSize L q
  (s.sramWrite L (s.get (CORE_DMA_CRING_BASE L q) * 16 + 16 * i) rec).countWrap (CORE_DMA_CPROD_PROD L q)

/-- The record first, then the event counter (R68). DESIGN CHOICE: R65 gives EVT the values 0 to 31 and 0xFF and names no check: a value between
them increments no counter. Log 40. -/
def State.deliverDone (s : State) (L q : Nat) (d : Desc) (rec : List Byte) : State :=
  let s := if d.crec then s.writeRecord L q rec else s
  if d.evt < 32 then s.addEvt L d.evt 1 else s

/-- Keeps the time of a collective's local completion by the step it was issued in (R340). -/
def State.noteCol (s : State) (L : Nat) (d : Desc) : State :=
  match s.coreJob L with
  | some j =>
    if 0x20 ≤ d.op ∧ d.op ≤ 0x28 ∧ j.ring.isSome then
      if d.step = s.get64 (DET_STEP_STEP j.group) then
        { s with det := { s.det with lastCol := Tbl.insert s.det.lastCol j.group s.now } }
      else { s with det := { s.det with prevCol := Tbl.insert s.det.prevCol j.group s.now } }
    else s
  | none => s

/-- A descriptor completes with a record: it leaves its queue, its trace record is offered, its log entry is completed. -/
def State.completeWith (s : State) (L q : Nat) (d : Desc) (rec : List Byte) : State :=
  let s := s.setDescs L q ((s.queueOf L q).filter fun x => x.number != d.number)
  let s := s.trace trDescDone L q d.pc (d.tag + d.op * 2 ^ 32 + field rec 4 1 * 2 ^ 40) (field rec 8 4)
  let s := (if d.logged then s else s.noteCol L d).deliverDone L q d rec
  s.logSet L d.number fun it => { it with st := .completed, record := rec, ctag := none }

/-- A descriptor completes; one that failed on parity or EDC makes the core replay (R344). -/
def State.complete (s : State) (L q : Nat) (d : Desc) : State :=
  let s := s.completeWith L q d (d.record q)
  if d.status = 5 ∨ d.status = 6 then s.replayCore L else s

/-- A role of the collective engine ends for a descriptor: the descriptor is ready to complete, or, while its core replays and has not
issued it again, its log entry holds the record (R345). -/
def State.endRole (s : State) (L q number : Nat) (d : Desc) : State :=
  match s.desc L q number with
  | some _ =>
    s.modDesc L q number fun x =>
      { x with held := false, finished := true, status := d.status, failOff := d.failOff, detail := d.detail, skipped := d.skipped }
  | none => (s.noteCol L d).logSet L number fun it => { it with st := .completed, record := d.record q }

/-- Every queued descriptor completes with ABORTED (R73); one whose effects have all taken place completes with its own record. -/
def State.abortQueues (s : State) (L : Nat) : State :=
  (List.range 4).foldl (fun s q =>
    (s.queueOf L q).foldl (fun s d =>
      s.completeWith L q d ((if d.ready then d else { d with status := 0x0A, failOff := d.moved, detail := d.moved }).record q)) s) s

/-! Checks (R66, R68) -/

/-- Bytes from a local address that lie in the memory of the core's job: its SRAM grant on every core of its group, and its GDDR7
range. -/
def State.localRoom (s : State) (L a : Nat) : Nat :=
  match s.coreJob L with
  | none => 0
  | some j =>
    if a ≥ 2 ^ 48 then 0
    else match place a with
      | .gddr a => if j.gBase ≤ a ∧ a < j.gBase + j.gLen then j.gBase + j.gLen - a else 0
      | .sram M o => if j.cores.contains M then j.sram - o else 0
      | .nowhere => 0

/-- ADDR_RANGE with the offset of the first byte outside, or nothing. -/
def State.rangeStatus (s : State) (L a n : Nat) : Option (Nat × Nat) :=
  if n ≤ s.localRoom L a then none else some (4, s.localRoom L a)

/-- BAD_LENGTH for a length of 0, above the most, or not a multiple. -/
def lengthStatus (n unit : Nat) : Option (Nat × Nat) :=
  if n = 0 ∨ n > maxLength ∨ n % unit ≠ 0 then some (3, 0) else none

/-- BAD_ALIGN for an address that is not aligned. -/
def alignStatus (a unit : Nat) : Option (Nat × Nat) := if a % unit ≠ 0 then some (2, 0) else none

/-- SHARD_IMMUTABLE for a local write that meets a protected slot (R358): counted and recorded. -/
def State.shardStatus (s : State) (a n : Nat) : Option (Nat × Nat) × State :=
  match place a with
  | .gddr a =>
    match s.shardHit a n with
    | some (off, e) => (some (0x30, off), s.noteRefused e 0x30)
    | none => (none, s)
  | _ => (none, s)

/-- The first check that fails. -/
def firstStatus (cs : List (Option (Nat × Nat))) : Option (Nat × Nat) := cs.findSome? id

/-- A descriptor ends with a failure before anything was sent. -/
def State.failDesc (s : State) (L q number status off : Nat) : State :=
  s.modDesc L q number fun d =>
    if d.status = 0 then { d with status := status, failOff := off, detail := off, todo := [], groups := [] } else { d with todo := [] }

/-! Flows at their origin (R258) -/

/-- The flow of a source endpoint and source queue to a destination, made when it is new. A queue's flow of a new replay generation
counts on from the generation before, so that an answer to a packet of that generation meets no packet of this one (R346). -/
def State.flowFor (s : State) (ep sq dev sel : Nat) : OrigFlow :=
  match s.switch.psn.find? fun f => f.srcEp == ep && f.sq == sq && f.destAddr == dev && f.destEp == sel with
  | some f => f
  | none =>
    let old := s.switch.psn.filter fun f => f.srcEp == ep && f.sq % 4 == sq % 4 && f.destAddr == dev && f.destEp == sel
    { srcEp := ep, sq := sq, destAddr := dev, destEp := sel, next := ((old.getLast?).map (·.next)).getD 0 }

/-- Writes a flow back. -/
def State.putFlow (s : State) (f : OrigFlow) : State :=
  let same (g : OrigFlow) : Bool := g.srcEp == f.srcEp && g.sq == f.sq && g.destAddr == f.destAddr && g.destEp == f.destEp
  s.sw fun w => { w with psn := if w.psn.any same then w.psn.map (fun g => if same g then f else g) else w.psn ++ [f] }

/-- BASE: the oldest packet of the flow not acknowledged or failed, the packet itself when there is none. -/
def OrigFlow.base (f : OrigFlow) : Nat := f.outst.headD f.next

/-- A packet of a flow is acknowledged or has failed. -/
def State.flowDone (s : State) (ep sq dev sel psn : Nat) : State :=
  match s.switch.psn.find? fun f => f.srcEp == ep && f.sq == sq && f.destAddr == dev && f.destEp == sel with
  | some f => s.putFlow { f with outst := f.outst.erase psn }
  | none => s

/-! Sending -/

/-- SQ of a core's data packets: the queue and the replay generation (R346). -/
def State.sqOf (s : State) (L q : Nat) : Nat := q + 4 * s.get (DET_CORE_REPLAY_REPLAY_GEN L)

/-- The flow key of a transfer's destination: a multicast group stands for a device. -/
def Xfer.flowDev (x : Xfer) : Nat := if x.op = 0x43 then 2 ^ 21 + field x.fields 0 2 else x.dev

/-- Answers a packet of a transfer needs: one, or for a multicast the members of its group (R256). -/
def State.answersOf (s : State) (x : Xfer) : Nat :=
  if x.op = 0x43 then s.get (SWC_MG_CFG_MEMBERS (field x.fields 0 2 % 256)) else 1

/-- Whether a transfer's packet is a data packet. -/
def Xfer.isData (x : Xfer) : Bool := 0x40 ≤ x.op

/-- Packets of a core that await an answer: reads, and writes with accumulates (R69). -/
def Core.outstOf (c : Core) (reads : Bool) : Nat :=
  ((c.queues.flatten.map (·.outst)).flatten.filter fun o => if reads then o.xfer.op == 0x04 else o.xfer.isData).length

/-- Whether a core may send one more packet of a kind (R69). -/
def Core.roomFor (c : Core) (x : Xfer) : Bool :=
  if x.op = 0x04 then c.outstOf true < 128 else if x.isData then c.outstOf false < 256 else true

/-- A core's packet enters at its gateway. -/
def State.coreOffer (s : State) (L q number : Nat) (p : Pkt) : State :=
  s.offer { input := 24 + gatewayOf L, pkt := p, orig := .dma L q number }

/-- Takes a packet off a descriptor's outstanding list. -/
def State.dropOutst (s : State) (L q number : Nat) (o : Outst) : State :=
  let s := s.modDesc L q number fun d => { d with outst := d.outst.erase o }
  if o.xfer.isData then s.flowDone L o.pkt.sq o.xfer.flowDev o.xfer.sel o.pkt.psn else s

/-- Fails a descriptor for a packet of it: the first failure counts, nothing more is sent; a COMBINE goes on with its other terms and counts
the rows not delivered (R104). -/
def State.failPacket (s : State) (L q number : Nat) (o : Outst) (status : Nat) : State :=
  let s := s.dropOutst L q number o
  match s.desc L q number with
  | some d =>
    if d.op = 0x31 ∧ status = 7 then
      let first := o.xfer.off % d.len = 0
      s.modDesc L q number fun d =>
        { d with status := 7, failOff := if d.status = 0 then o.xfer.off else d.failOff
                 detail := if d.status = 0 then o.xfer.off else d.detail, skipped := d.skipped + b2n first }
    else s.failDesc L q number status o.xfer.off
  | none => s

/-- A descriptor completes at once: what it still has outstanding is given up, and a later answer matches nothing. -/
def State.giveUp (s : State) (L q number : Nat) : State :=
  match s.desc L q number with
  | some d => d.outst.foldl (fun s o => s.dropOutst L q number o) s
  | none => s

/-- The packets whose origin discard the core DMA has to hear of complete their descriptors with UNREACHABLE at once (R226); a COMBINE goes on
with its other terms (R104). -/
def State.takeFailed (s : State) : State :=
  let fs := s.switch.failed
  let s := s.sw fun w => { w with failed := w.failed.filter fun f => match f.2.1 with | .dma _ _ _ => false | _ => true }
  fs.foldl (fun s f =>
    match f.2.1 with
    | .dma L q number =>
      match s.desc L q number with
      | some d => match d.outst.find? fun o => o.pkt == f.1 with
        | some o =>
          let s := s.failPacket L q number o 7
          if d.op = 0x31 then s else s.giveUp L q number
        | none => s
      | none => s
    | _ => s) s

/-- Sends one transfer of a descriptor: reads its source, builds the packet, offers it at the core's gateway. -/
def State.sendXfer (s : State) (L q : Nat) (d : Desc) (x : Xfer) (bad : Option Nat) : State :=
  let s := s.modDesc L q d.number fun d => { d with todo := d.todo.drop 1 }
  if x.op = 0x04 then
    let (t, s) := s.newTag L
    let pay := leBytes 8 x.addr ++ leBytes 8 x.src ++ leBytes 2 x.len ++ leBytes 1 (s.sqOf L q)
    let p := s.mkCtl x.dev x.sel L 0x04 t d.plane pay
    let s := s.modDesc L q d.number fun d => { d with outst := d.outst ++ [{ xfer := x, pkt := p, ctag := t, firstSent := s.now }] }
    (s.coreOffer L q d.number p).takeFailed
  else if !x.isData then
    let (t, s) := s.newTag L
    let p := s.mkCtl x.dev x.sel L x.op t d.plane x.fields
    let s := s.modDesc L q d.number fun d => { d with outst := d.outst ++ [{ xfer := x, pkt := p, ctag := t, firstSent := s.now }] }
    let s := s.logSet L d.number fun it => { it with st := .sent, sent := it.sent ++ [x.grp], ctag := some t, at_ := s.now }
    (s.coreOffer L q d.number p).takeFailed
  else
    let (r, s) := match x.lit with
      | some bs => (({ bytes := bs, fail := none } : ReadRes), s)
      | none => s.readRange x.src x.len bad
    match r.fail with
    | some (st, off) => s.failDesc L q d.number st (x.off + off)
    | none =>
      let sq := s.sqOf L q
      let f := s.flowFor L sq x.flowDev x.sel
      let base := f.base
      let flags := 1 + (if x.op = 0x43 then 2 else 0) + (if x.last then 4 else 0)
      let p := s.mkData x.dev x.sel L x.op base d.plane flags f.next sq x.addr x.fields r.bytes
      let s := s.putFlow { f with next := (f.next + 1) % 65536, outst := f.outst ++ [f.next] }
      let s := s.busy (4 * L + 3) (2 * ((x.len + 63) / 64))
      let need := s.answersOf x
      let o : Outst := { xfer := x, pkt := p, ctag := base, firstSent := s.now, need := need }
      let s := if need = 0 then s.flowDone L sq x.flowDev x.sel f.next
        else s.modDesc L q d.number fun d => { d with outst := d.outst ++ [o] }
      (s.coreOffer L q d.number p).takeFailed

/-- The next packet of a queue that can leave: of the first started descriptor that has one, room for it (R69), and a source that memory lets it
read. -/
def State.sendable (s : State) (L q : Nat) : Option (Nat × Desc × Xfer) :=
  (s.queueOf L q).findSome? fun d =>
    match d.todo with
    | [] => none
    | x :: _ => if d.started && (s.core L).roomFor x && !s.xferWaits x then some (q, d, x) else none

/-- Sends packets of a core's queues while one can leave: the queues take turns, and the pointer passes the queue that won (R64). n bounds the
packets. -/
def State.pumpQueues : Nat → Nat → Option Nat → State → State
  | 0, _, _, s => s
  | n + 1, L, bad, s =>
    match ((List.range 4).map fun i => ((s.core L).dmaPtr + i) % 4).findSome? (s.sendable L) with
    | none => s
    | some (q, d, x) =>
      State.pumpQueues n L bad ((s.modCore L fun c => { c with dmaPtr := (q + 1) % 4 }).sendXfer L q d x bad)

/-- Packets a core's descriptors have still to send. -/
def Core.unsent (c : Core) : Nat := (c.queues.flatten.map (·.todo.length)).sum

/-- Sends what the descriptors of a core can send; bad names a byte that fails, as Memory.lean states. -/
def State.pumpWith (s : State) (L : Nat) (bad : Option Nat) : State :=
  if s.dmaLive L then State.pumpQueues (s.core L).unsent L bad s else s

/-- Sends what the descriptors of a core can send. -/
def State.pump (s : State) (L : Nat) : State := s.pumpWith L none

/-! Starting -/

/-- Splits a transfer so that each piece ends at a 2,048-byte boundary of the destination: offset and length of each. -/
def splitAt2048 (addr : Nat) : Nat → Nat → Nat → List (Nat × Nat)
  | 0, _, _ => []
  | fuel + 1, off, left =>
    if left = 0 then []
    else
      let n := min left (2048 - (addr + off) % 2048)
      (off, n) :: splitAt2048 addr fuel (off + n) (left - n)

/-- The pieces of a whole descriptor. -/
def pieces2048 (addr len : Nat) : List (Nat × Nat) := splitAt2048 addr (len / 2048 + 2) 0 len

/-- Marks the last of a list of transfers. -/
def markLast : List Xfer → List Xfer
  | [] => []
  | [x] => [{ x with last := true }]
  | x :: xs => x :: markLast xs

/-- The write packets of a descriptor: one for each piece. -/
def dataXfers (op dev sel src dst len : Nat) (fields : List Byte) : List Xfer :=
  markLast ((pieces2048 dst len).map fun p =>
    { op := op, dev := dev, sel := sel, addr := dst + p.1, src := src + p.1, len := p.2, off := p.1, fields := fields, grp := 0 })

/-- Starts the next descriptor of a queue if its operation is op and its memory takes accesses: the trace record, then what the
operation does. -/
def State.startDesc (s : State) (L q op : Nat) (waits : State → Desc → Bool) (go : State → Desc → State) : State :=
  if !s.dmaLive L then s
  else match nextDesc (s.queueOf L q) with
    | none => s
    | some d =>
      if d.op ≠ op || waits s d then s
      else
        let s := s.trace trDescStart L q d.pc (d.tag + d.op * 2 ^ 32) d.len
        let s := s.modDesc L q d.number fun d => { d with started := true }
        go s { d with started := true }

/-- Gives a started descriptor its transfers and sends what can leave. -/
def State.launchXfers (s : State) (L q : Nat) (d : Desc) (xs : List Xfer) (bad : Option Nat) : State :=
  (s.modDesc L q d.number fun d => { d with todo := xs }).pumpWith L bad

end Sys2Proof.Machine
end

