-- ==== Sys2Proof/Machine/Combine.lean ====
section
/-! DEFINITION. The gate-weighted combine (R97, R103 to R107): routing entries, the registrations of the combine unit, folding of terms in
slot order, and the completion of COMBINE_RECV. -/

namespace Sys2Proof.Machine

open Sys2Proof

/-! Routing entries (R97) -/

/-- A routing entry of 48 bytes at index t of a table. -/
def rentry (table : List Byte) (t : Nat) : List Byte := (table.drop (48 * t)).take 48

def reK (e : List Byte) : Nat := field e 0x04 1
def reDropped (e : List Byte) (j : Nat) : Bool := bit (field e 0x05 1) j
def reExpert (e : List Byte) (j : Nat) : Nat := field e (0x08 + j) 1
def reWeight (e : List Byte) (j : Nat) : Nat := field e (0x10 + 4 * j) 4

/-- The slots of an entry that were dispatched, ascending. -/
def reSlots (e : List Byte) : List Nat := (List.range (min 8 (reK e))).filter fun j => !reDropped e j

/-! The fields of COMBINE_RECV (R103) -/

def cmScratch (bs : List Byte) : Nat := field bs 0x30 6
def cmElements (bs : List Byte) : Nat := field bs 0x36 2
/-- Bytes of an element: 4 for FP32, 2 for BF16. -/
def cmTermSize (bs : List Byte) : Nat := if field bs 0x38 1 = 1 then 2 else 4
def cmOutSize (bs : List Byte) : Nat := if field bs 0x39 1 = 1 then 2 else 4
def cmRound (bs : List Byte) : Nat := field bs 0x3A 1
def cmEntries (bs : List Byte) : Nat := field bs 0x04 4 / 48
def Combine.desc (c : Combine) : Desc := { bytes := c.bytes, pc := 0, number := c.number, step := c.step }

/-- Pieces of one term row. -/
def Combine.pieces (c : Combine) : Nat := (cmElements c.bytes * cmTermSize c.bytes + 2047) / 2048

/-- The routing entry t as it stands in local memory. -/
def State.cmEntry (s : State) (c : Combine) (t : Nat) : List Byte := s.readLocal (c.desc.src + 48 * t) 48

/-- Where slot j of entry t is held in scratch; slot 0 holds the running sum. -/
def cmSlotAt (c : Combine) (t j : Nat) : Nat := cmScratch c.bytes + (8 * t + j) * cmElements c.bytes * 4

/-! Folding (R105) -/

/-- The FP32 codes of a list of elements of a term. -/
def termCodes (size : Nat) (bs : List Byte) : List Nat :=
  (List.range (bs.length / size)).map fun i => if size = 2 then field bs (2 * i) 2 * 65536 else field bs (4 * i) 4

/-- The products of a weight with the elements, rounded to nearest even. -/
def weighted (w : Nat) (es : List Nat) : List Nat := es.map fun e => (mul32 false w e).1

/-- Adds a piece into the running sum: the first slot's term is the sum itself. -/
def State.foldPiece (s : State) (c : Combine) (t j e0 : Nat) (vals : List Nat) : State :=
  let e := s.cmEntry c t
  let a := cmSlotAt c t 0 + 4 * e0
  let terms := weighted (reWeight e j) vals
  let sum := if (reSlots e).head? = some j then terms
    else (termCodes 4 (s.readLocal a (4 * terms.length))).zipWith (fun y x => (add32 false y x).1) terms
  s.writeLocal a ((sum.map (leBytes 4)).flatten)

/-- Whether every dispatched slot before j of entry t has its piece folded. -/
def State.cmTurn (s : State) (c : Combine) (t j off : Nat) : Bool :=
  ((reSlots (s.cmEntry c t)).takeWhile (· != j)).all fun i => c.folded.contains (t, i, off)

/-- First element of the piece of a term at a byte offset, and the elements the piece holds: what a packet carries past ELEMENTS belongs to no
element. -/
def Combine.first (c : Combine) (off : Nat) : Nat := off / cmTermSize c.bytes
def Combine.count (c : Combine) (off : Nat) : Nat := min (2048 / cmTermSize c.bytes) (cmElements c.bytes - c.first off)

/-- Folds the held pieces of an entry whose turn has come; n bounds the slots. -/
def State.foldHeld : Nat → Nat → Nat → Combine → State → Combine × State
  | 0, _, _, c, s => (c, s)
  | n + 1, t, off, c, s =>
    match (reSlots (s.cmEntry c t)).find? fun j => c.parked.contains (t, j, off) && s.cmTurn c t j off with
    | none => (c, s)
    | some j =>
      let vals := termCodes 4 (s.readLocal (cmSlotAt c t j + 4 * c.first off) (4 * c.count off))
      let s := s.foldPiece c t j (c.first off) vals
      State.foldHeld n t off { c with parked := c.parked.erase (t, j, off), folded := c.folded ++ [(t, j, off)] } s

/-- Takes one piece of a term: folded in its turn, else written to scratch as FP32, NaN canonical (R117). -/
def State.takePiece (s : State) (c : Combine) (t j off : Nat) (bs : List Byte) : Combine × State :=
  if c.folded.contains (t, j, off) || c.parked.contains (t, j, off) || c.count off == 0 then (c, s)
  else
    let e0 := c.first off
    let vals := ((termCodes (cmTermSize c.bytes) bs).take (c.count off)).map canon32
    if s.cmTurn c t j off then
      let s := s.foldPiece c t j e0 vals
      State.foldHeld 8 t off { c with folded := c.folded ++ [(t, j, off)] } s
    else
      let s := s.writeLocal (cmSlotAt c t j + 4 * e0) ((vals.map (leBytes 4)).flatten)
      ({ c with parked := c.parked ++ [(t, j, off)] }, s)

/-! Output rows -/

/-- Whether every piece of every dispatched slot of an entry is folded. -/
def State.rowWhole (s : State) (c : Combine) (t : Nat) : Bool :=
  (reSlots (s.cmEntry c t)).all fun j => (List.range c.pieces).all fun k => c.folded.contains (t, j, 2048 * k)

/-- The output codes of an entry: the running sum in the output format, +0 when every slot was dropped. -/
def State.cmRow (s : State) (c : Combine) (t : Nat) : List Nat :=
  let n := cmElements c.bytes
  let sum := if (reSlots (s.cmEntry c t)).isEmpty then zeros n else termCodes 4 (s.readLocal (cmSlotAt c t 0) (4 * n))
  if cmOutSize c.bytes = 4 then sum.map fun x => (rn32 false (val32 x)).1
  else
    match floatFmt 1 with
    | some f => sum.zipIdx.map fun (x, i) =>
        (toFloat f (cmRound c.bytes) (draw16 c.seed c.step (c.desc.tensor) (t * n + i)) false (val32 x)).1
    | none => sum

/-- Writes an output row, and counts its NaN elements. -/
def State.writeRow (s : State) (c : Combine) (t : Nat) : Nat × State :=
  let row := s.cmRow c t
  let fmt := if cmOutSize c.bytes = 4 then fp32 else (floatFmt 1).getD fp32
  let a := c.desc.dst + t * cmElements c.bytes * cmOutSize c.bytes
  ((row.filter (floatIsNan fmt)).length, s.writeLocal a ((row.map (leBytes (cmOutSize c.bytes))).flatten))

/-- Ends a registration: writes the whole rows and completes the descriptor. -/
def State.endCombine (s : State) (c : Combine) (status : Nat) : State :=
  let rows := List.range (cmEntries c.bytes)
  let whole := if status = 0x0A then [] else rows.filter (s.rowWhole c)
  let (nans, s) := whole.foldl (fun (a : Nat × State) t =>
    let (n, s) := a.2.writeRow c t
    (a.1 + n, s)) (0, s)
  let s := { s with combines := s.combines.erase c }
  let detail := if status = 0 then nans else if status = 0x24 then rows.length - whole.length else 0
  s.endRole c.core c.queue c.number { c.desc with status := status, detail := detail }

/-- Whether every term expected has come. -/
def Combine.whole (c : Combine) : Bool :=
  match c.expect with
  | some n => decide (c.folded.length = n * c.pieces)
  | none => false

/-- Writes a registration back, or ends it when it is whole. -/
def State.putCombine (s : State) (old c : Combine) : State :=
  let s := { s with combines := s.combines.map fun x => if x = old then c else x }
  if c.whole then s.endCombine c 0 else s

/-- The registration of a dispatch id and source index. -/
def State.combineOf (s : State) (chunk rank : Nat) : Option Combine :=
  s.combines.find? fun c => c.desc.chunk == chunk && c.desc.rank == rank

/-- A DISPATCH has completed: its registration now knows how many terms to expect (R103). -/
def State.expectTerms (s : State) (chunk rank n : Nat) : State :=
  match s.combineOf chunk rank with
  | some c => s.putCombine c { c with expect := some n, lastTerm := s.now }
  | none => s

end Sys2Proof.Machine
end

