-- ==== Sys2Proof/Machine/Dma.lean ====
section
/-! DEFINITION. The core DMA's operations of R66, DMAQ (R61) and the packets of each operation (R67). Each row of a DMA operation
starts the next descriptor of a queue, if it is one of that operation; its packets leave as the limits of R69 allow. The operand bad
names a byte that fails, as Memory.lean states. -/

namespace Sys2Proof.Machine

open Sys2Proof

/-! DMAQ -/

/-- The fields of DMAQ. -/
def dmaqLegal (w : Nat) : Bool := onlyFields w [(46, 2), (38, 5)]

/-- What a descriptor's queue entry starts as, during a replay too (R345): a logged one that had completed completes at once; one whose
role still runs on the collective engine is attached to it; an RSIGNAL that was sent takes over its pending answer, or the status of one
that has come. -/
def Desc.onReplay (d : Desc) (it : LogItem) : Desc :=
  let op := d.op
  if it.st = .completed && op != 0x11 then { d with started := true, finished := true, logged := true }
  else if it.st = .running then { d with started := true, held := true }
  else if op = 0x14 && it.st = .sent then
    if it.ctag.isSome then { d with started := true, held := true }
    else { d with started := true, finished := true, status := field it.record 4 1 }
  else d

/-- The effect of DMAQ (R61, R64): copies the descriptor into the queue, which holds 16. -/
def dmaqEff (L : Nat) (bad : Option Nat) (w : Nat) (s : State) : Eff :=
  let q := bits w 46 2
  let a := (s.core L).gval (wA w)
  if (s.queueOf L q).length ≥ 16 then .stall 5
  else match s.accessFault L bad a 64 1 with
    | some f => f
    | none =>
      let bs := s.sramRead L a 64
      let n := (s.cdet L).key
      let d : Desc := { bytes := bs, pc := s.get (SEQ_PC_INDEX L), number := n, step := (s.seedStep L).2 }
      let d := match s.logFind L n with
        | some it => d.onReplay it
        | none => d
      let s := s.modDet L fun c => { c with dcount := c.dcount.set q (c.dcount.getD q 0 + 1) }
      let s := if loggedOp d.op then s.logAdd L { queue := q, number := n, op := d.op, st := .issued } else s
      let s := s.setDescs L q (s.queueOf L q ++ [d])
      match d.logged, s.logFind L n with
      | true, some it => .next (s.completeWith L q d it.record) 1
      | _, _ => .next s 1

/-- DMAQ (R61, R64). -/
def execDmaq (core : CoreIx) (bad : Option Nat) (s : State) : Host.Outcome State Fault Refusal :=
  done (issue core.val bad 5 0x00 dmaqLegal (fun w => { g := [wA w] }) (dmaqEff core.val bad) s)

/-! COPY and FILL -/

/-- Ends a local transfer: the bytes moved before the first failure, and the failure. -/
def State.endLocal (s : State) (L q number moved : Nat) (fail : Option (Nat × Nat)) : State :=
  let s := s.busy (4 * L + 3) (2 * ((moved + 63) / 64))
  s.modDesc L q number fun d =>
    match fail with
    | some (st, off) => { d with finished := true, status := st, failOff := off, detail := off, moved := moved }
    | none => { d with finished := true, moved := d.len }

/-- Fails a descriptor that has sent nothing. -/
def State.endFailed (s : State) (L q number status off : Nat) : State :=
  (s.failDesc L q number status off).modDesc L q number fun d => { d with finished := true }

/-- Writes local bytes for a descriptor, a read failure in front of them: what could be read is written. -/
def State.storeLocal (s : State) (L q number a : Nat) (bs : List Byte) (rfail : Option (Nat × Nat)) (bad : Option Nat) : State :=
  let (wfail, s) := s.writeRange a bs bad
  match wfail with
  | some (st, off) => s.endLocal L q number off (some (st, off))
  | none => s.endLocal L q number bs.length rfail

/-- COPY (R66): moves LENGTH bytes between local addresses. -/
def copyDesc (L q : Nat) (bad : Option Nat) (s : State) (d : Desc) : State :=
  match firstStatus [lengthStatus d.len 1, s.rangeStatus L d.src d.len, s.rangeStatus L d.dst d.len] with
  | some (st, off) => s.endFailed L q d.number st off
  | none =>
    match s.shardStatus d.dst d.len with
    | (some (st, off), s) => s.endFailed L q d.number st off
    | (none, s) =>
      let (r, s) := s.readRange d.src d.len bad
      s.storeLocal L q d.number d.dst r.bytes r.fail bad

/-- COPY (R66, R67). -/
def execCopy (core : CoreIx) (queue : QueueIx) (bad : Option Nat) (s : State) : Host.Outcome State Fault Refusal :=
  done (s.startDesc core.val queue.val 0x01 (fun s d => s.memWaits d.src d.len || s.memWaits d.dst d.len)
    (copyDesc core.val queue.val bad))

/-- The bytes of FILL: the 32-bit value repeated. -/
def fillBytes (d : Desc) : List Byte := (List.replicate (d.len / 4) (leBytes 4 (d.ext % 2 ^ 32))).flatten

/-- FILL (R66): writes a 32-bit value repeated over LENGTH bytes, a multiple of 4. -/
def fillDesc (L q : Nat) (bad : Option Nat) (s : State) (d : Desc) : State :=
  match firstStatus [lengthStatus d.len 4, s.rangeStatus L d.dst d.len] with
  | some (st, off) => s.endFailed L q d.number st off
  | none =>
    match s.shardStatus d.dst d.len with
    | (some (st, off), s) => s.endFailed L q d.number st off
    | (none, s) => s.storeLocal L q d.number d.dst (fillBytes d) none bad

/-- FILL (R66, R67). -/
def execFill (core : CoreIx) (queue : QueueIx) (bad : Option Nat) (s : State) : Host.Outcome State Fault Refusal :=
  done (s.startDesc core.val queue.val 0x02 (fun s d => s.memWaits d.dst d.len) (fillDesc core.val queue.val bad))

/-! Remote operations -/

/-- FWRITE (R66): data packets that end at every 2,048-byte boundary of DST. -/
def fwriteDesc (L q : Nat) (bad : Option Nat) (s : State) (d : Desc) : State :=
  match firstStatus [lengthStatus d.len 1, s.rangeStatus L d.src d.len] with
  | some (st, off) => s.endFailed L q d.number st off
  | none => s.launchXfers L q d (dataXfers 0x40 d.dev d.sel d.src d.dst d.len []) bad

/-- FWRITE (R66, R67). -/
def execFwrite (core : CoreIx) (queue : QueueIx) (bad : Option Nat) (s : State) : Host.Outcome State Fault Refusal :=
  done (s.startDesc core.val queue.val 0x10 (fun s d => s.memWaits d.src d.len) (fwriteDesc core.val queue.val bad))

/-- The read requests of FREAD: the address on the remote device, the return address here, split as for FWRITE. -/
def readXfers (d : Desc) : List Xfer :=
  (pieces2048 d.dst d.len).map fun p =>
    { op := 0x04, dev := d.dev, sel := d.sel, addr := d.src + p.1, src := d.dst + p.1, len := p.2, off := p.1, fields := [], grp := 0 }

/-- FREAD (R66): read requests on C2, whose responses return on C3. -/
def freadDesc (L q : Nat) (bad : Option Nat) (s : State) (d : Desc) : State :=
  match firstStatus [lengthStatus d.len 1, s.rangeStatus L d.dst d.len] with
  | some (st, off) => s.endFailed L q d.number st off
  | none =>
    match s.shardStatus d.dst d.len with
    | (some (st, off), s) => s.endFailed L q d.number st off
    | (none, s) => s.launchXfers L q d (readXfers d) bad

/-- FREAD (R66, R67). -/
def execFread (core : CoreIx) (queue : QueueIx) (bad : Option Nat) (s : State) : Host.Outcome State Fault Refusal :=
  done (s.startDesc core.val queue.val 0x11 (fun s d => s.memWaits d.dst d.len) (freadDesc core.val queue.val bad))

/-- The operation fields of a RACC packet (R148, R211). -/
def raccFields (d : Desc) (step : Nat) : List Byte :=
  leBytes 2 d.rank ++ leBytes 2 d.lepoch ++ leBytes 4 d.chunk ++ leBytes 2 (bits d.ext 0 16) ++ leBytes 2 (bits d.ext 16 16) ++
    leBytes 2 (step % 65536) ++ leBytes 1 (bits d.ext 32 8) ++ leBytes 1 (bits d.ext 40 6) ++ leBytes 4 d.len ++ leBytes 6 d.dst

/-- RACC (R66, R148): LENGTH a multiple of 64 and at most 65,536, DST 2,048-byte aligned, since every RACC passes the rank gate. -/
def raccDesc (L q : Nat) (bad : Option Nat) (s : State) (d : Desc) : State :=
  let long : Option (Nat × Nat) := if d.len > 65536 then some (3, 0) else none
  match firstStatus [alignStatus d.dst 2048, lengthStatus d.len 64, long, s.rangeStatus L d.src d.len] with
  | some (st, off) => s.endFailed L q d.number st off
  | none => s.launchXfers L q d (dataXfers 0x42 d.dev d.sel d.src d.dst d.len (raccFields d (s.seedStep L).2)) bad

/-- RACC (R66, R67, R148). -/
def execRacc (core : CoreIx) (queue : QueueIx) (bad : Option Nat) (s : State) : Host.Outcome State Fault Refusal :=
  done (s.startDesc core.val queue.val 0x12 (fun s d => s.memWaits d.src d.len) (raccDesc core.val queue.val bad))

/-- MCAST (R66, R254): one stream of packets to the members of a replication group, the same address on each. -/
def mcastDesc (L q : Nat) (bad : Option Nat) (s : State) (d : Desc) : State :=
  match firstStatus [lengthStatus d.len 1, s.rangeStatus L d.src d.len] with
  | some (st, off) => s.endFailed L q d.number st off
  | none =>
    if d.mgroup ≥ 256 ∨ !s.flag (SWC_MG_CFG_VALID d.mgroup) then s.endFailed L q d.number 7 0
    else s.launchXfers L q d (dataXfers 0x43 s.ownAddr d.sel d.src d.dst d.len (leBytes 2 d.mgroup)) bad

/-- MCAST (R66, R67, R254). -/
def execMcast (core : CoreIx) (queue : QueueIx) (bad : Option Nat) (s : State) : Host.Outcome State Fault Refusal :=
  done (s.startDesc core.val queue.val 0x13 (fun s d => s.memWaits d.src d.len) (mcastDesc core.val queue.val bad))

/-- The payload of an RSIGNAL: the increment, the event counter and the logical core, as OP_EXT holds them. -/
def signalPay (core evt inc : Nat) : List Byte := leBytes 4 inc ++ leBytes 1 evt ++ leBytes 1 core

/-- RSIGNAL (R66): one control packet to the logical core that OP_EXT names on the remote device. DEDUCED: the selector of REMOTE does not
count. -/
def rsignalDesc (L q : Nat) (s : State) (d : Desc) : State :=
  let x : Xfer := { op := 0x05, dev := d.dev, sel := bits d.ext 40 8, addr := 0, src := 0, len := 0, off := 0
                    fields := signalPay (bits d.ext 40 8) (bits d.ext 32 5) (bits d.ext 0 32), grp := 0 }
  s.launchXfers L q d [x] none

/-- RSIGNAL (R66, R67). -/
def execRsignal (core : CoreIx) (queue : QueueIx) (_bad : Option Nat) (s : State) : Host.Outcome State Fault Refusal :=
  done (s.startDesc core.val queue.val 0x14 (fun _ _ => false) (rsignalDesc core.val queue.val))

end Sys2Proof.Machine
end

