-- ==== Sys2Proof/Machine/Slot.lean ====
section
/-! DEFINITION. One slot of an output (R275): marker blocks (R171), replays and unsequenced flits (R184), waiting credit (R188), the lanes, low-power
requests (R195), NULL flits, and the traffic of a loopback (R197); and the control packets that cut through to it (R189, R190, R249,
R250). -/

namespace Sys2Proof.Machine

open Sys2Proof

/-! Replay and unsequenced flits (R184) -/

/-- Sends the next flit of a replay (R184): REPLAY_START first, then every stored flit in order; the replay has ended after the last. -/
def State.sendReplay (s : State) (p : Nat) : State :=
  let q := s.port p
  match q.replayFrom with
  | none => s
  | some f =>
    let over_ (next : Nat) : Option Nat := if next = q.txNext then none else some next
    if q.replayStart then
      (s.modPort p fun q => { q with replayStart := false, replayFrom := over_ f }).putFlit p (leBytes 2 f ++ leBytes 1 q.txGen) 0 0 9
    else
      match q.stored.find? (·.seq == f) with
      | none => (s.modPort p fun q => { q with replayFrom := none }).putFlit p [] 0 0 0
      | some x => (s.modPort p fun q => { q with replayFrom := over_ ((f + 1) % 4096) }).putFlit p x.pay x.vc x.cells x.type

/-- Whether an unsequenced flit goes ahead of a replay: FATAL, NAK and LPM WAKE (R184). -/
def Unseq.urgent (u : Unseq) : Bool := u.type == 0xF || u.type == 8 || (u.type == 0xA && field u.pay 0 1 == 5)

/-- The payload of an unsequenced flit as it leaves: a PING request is stamped T1 and a response T3 (R193). -/
def State.stamped (s : State) (u : Unseq) : List Byte :=
  if u.type = 0xB then spliceAt u.pay (if field u.pay 0 1 = 1 then 8 else 24) (leBytes 8 s.ft) else u.pay

/-- What the leaving of a low-power flit does here (R195): both ends enter the state after ACCEPT, and after WAKE all lanes resume. -/
def State.leftLpm (s : State) (p k : Nat) : State :=
  if k = 3 then s.enterLp p (s.port p).lpEnter
  else if k = 5 then s.lanesResume p
  else s

/-- Takes the first unsequenced flit that satisfies a test, and sends it. -/
def State.sendUnseq (s : State) (p : Nat) (test : Unseq → Bool) : Option State :=
  match (s.port p).ctl.find? test with
  | none => none
  | some u =>
    let s := (s.modPort p fun q => { q with ctl := q.ctl.erase u }).putFlit p (s.stamped u) 0 0 u.type
    some (if u.type = 0xA then s.leftLpm p (field u.pay 0 1) else s)

/-- Sends an unsequenced flit in the port's next slot, after the marker block when one is due (R171). -/
def State.putInSlot (s : State) (p type : Nat) (pay : List Byte) : State :=
  let t := max (s.outSt p).slotDue s.tu
  let (k, s) := if s.markerDue p then s.sendMarker p else (0, s)
  (s.putFlit p pay 0 0 type).modOut p fun y => { y with slotDue := t + (k + 1) * s.slotTime p }

/-! What waits -/

/-- Whether an output has something sequenced to send. -/
def State.seqWaiting (s : State) (p : Nat) : Bool :=
  (List.range 32).any (fun v => !(s.queue (32 * p + v)).isEmpty) || (s.outSt p).sending.isSome || (s.port p).replayFrom.isSome || s.creditDue p

/-- The low-power request a port may send in a slot with nothing else to send, 0 for none (R195): nothing outstanding, no credit waiting, and the
request not sent or, for LNK_CTRL.LP, not refused before. -/
def State.lpAsk (s : State) (p : Nat) : Nat :=
  let q := s.port p
  if q.lpAsked = 1 ∨ q.lpAsked = 2 ∨ !s.quiet p ∨ s.seqWaiting p then 0
  else if s.lpWant p ≠ 0 ∧ q.lpAsked ≠ 3 then s.lpWant p
  else b2n q.autoDue

/-- A slot with nothing else to send: a low-power request that is to go, else a NULL flit. -/
def State.restSlot (s : State) (p : Nat) : State :=
  let k := s.lpAsk p
  if k = 0 then s.putFlit p [] 0 0 0
  else (s.putFlit p (leBytes 1 k) 0 0 0xA).modPort p fun q => { q with lpAsked := k, autoDue := false }

/-! Slots -/

/-- One slot of an external output in ACTIVE at time t (R171, R184, R188, R275): a marker block, a replay, unsequenced flits, waiting credit,
the lanes, or what a slot with nothing else carries. Answers the slots taken. -/
def State.activeSlot (s : State) (p t : Nat) : Nat × State :=
  if s.markerDue p then s.sendMarker p
  else
    match s.sendUnseq p Unseq.urgent with
    | some s => (1, s)
    | none =>
      if (s.port p).replayFrom.isSome then (1, s.sendReplay p)
      else
        match s.sendUnseq p (fun _ => true) with
        | some s => (1, s)
        | none =>
          if s.creditDue p && s.seqRoom p then (1, s.sendCreditFlit p)
          else
            let (used, s) := State.laneSlot (s.pdUsed + 2) p t s
            (1, if used then s else s.restSlot p)

/-- A slot in which initial credits are exchanged: the CREDIT flits, then NULL flits (R173, R182, R194). -/
def State.creditSlot (s : State) (p : Nat) : Nat × State :=
  if s.markerDue p then s.sendMarker p
  else if (s.port p).owed.isEmpty && (s.port p).credSent then (1, s.putFlit p [] 0 0 0)
  else (1, (s.sendCreditFlit p).modPort p fun q => { q with credSent := q.owed.isEmpty })

/-- A slot without the switch's packets: a marker block, a replay, unsequenced flits, NULL flits. On logical lane 0 alone a flit takes the time of as
many slots as the width has lanes (R194). -/
def State.drainSlot (s : State) (p : Nat) : Nat × State :=
  let k := if (s.port p).onLane0 then (if s.flag (LNK_STATUS_X4 p) then 4 else 8) else 1
  if s.markerDue p then s.sendMarker p
  else match s.sendUnseq p Unseq.urgent with
    | some s => (k, s)
    | none =>
      if (s.port p).replayFrom.isSome && s.lst p != lkLp1 then (k, s.sendReplay p)
      else match s.sendUnseq p (fun _ => true) with
        | some s => (k, s)
        | none => (k, s.putFlit p [] 0 0 0)

/-- The near-end receivers of a loopback take in what the lanes sent: their line coding stands where the transmitters' stands (R197). -/
def State.ownEcho (s : State) (p : Nat) : State :=
  if (s.port p).farLoop || s.get (LNK_CTRL_LOOP p) == 3 then s
  else (s.txLanes p).foldl (fun s l => s.modLane l fun x => { x with rx := x.tx }) s

/-- A lane sends the bits of its test pattern for one slot; in a near-end loopback its own receiver gets them (R197). -/
def State.sendPattern (s : State) (p l n : Nat) : State :=
  let (bs, st) := prbsSend (s.flag (LANE_CTRL_PATTERN l)) n (s.lane l).prbsTx
  let s := (s.modLane l fun x => { x with prbsTx := st }).emit (.bits l bs)
  if s.get (LNK_CTRL_LOOP p) = 3 then s else s.checkBits l bs

/-- One slot of a loopback: the partner's end only sends back; else the test pattern on the lanes that have it, or marker blocks and NULL flits. -/
def State.loopSlot (s : State) (p : Nat) : Nat × State :=
  let ls := s.txLanes p
  let pat := ls.filter fun l => s.flag (LANE_CTRL_PRBS_TX l)
  if (s.port p).farLoop then (1, s)
  else if !pat.isEmpty then (1, pat.foldl (fun s l => s.sendPattern p l (576 / ls.length)) s)
  else if s.markerDue p then
    let (k, s) := s.sendMarker p
    (k, s.ownEcho p)
  else (1, (s.putFlit p [] 0 0 0).ownEcho p)

/-- One slot of an external output outside ACTIVE. -/
def State.otherSlot (s : State) (p : Nat) : Nat × State :=
  let st := s.lst p
  if st = lkInit ∨ st = lkLp2 ∧ (s.port p).relocked then s.creditSlot p
  else if st = lkLp1 ∨ st = lkShutdown ∧ (s.port p).waking.isNone then s.drainSlot p
  else if st = lkLoopback then s.loopSlot p
  else (1, s)

/-- One slot of an output at time t (R275): the tokens up to t, then the decision; the next slot begins after the slots it took. -/
def State.slot (s : State) (o t : Nat) : State :=
  let s := s.settleTok o t
  let (k, s) :=
    if o ≥ 24 then (1, (State.laneSlot (s.pdUsed + 2) o t s).2)
    else if s.lst o = lkActive then s.activeSlot o t
    else s.otherSlot o
  s.modOut o fun y => { y with slotDue := t + k * s.slotTime o }

/-! Cut-through (R189, R190, R249 to R251) -/

/-- The control packet of a CTRL flit. -/
def ctlPkt (bs : List Byte) : Pkt := { data := false, hdr := bs.take 16, pay := (bs.drop 16).take 48 }

/-- Takes a control packet of an external input into its cell. -/
def State.ctlCell (s : State) (p : Nat) (pkt : Pkt) : Nat × State :=
  let (c, s) := s.allocAcct (32 * p + pkt.vc)
  (c, (s.linkCells [c]).setPkt c { pkt := pkt, sent := pkt, input := p, origin := false, cells := [c] })

/-- Whether an output can take a flit of an input in cut-through (R189): ACTIVE, not replaying, not faster than the input, nothing of the link layer
to be sent first, and no such choice made in this FCLK yet (R251). -/
def State.cutOpen (s : State) (input o : Nat) : Bool :=
  s.lst o == lkActive && (s.port o).replayFrom.isNone && decide (s.flitTime o ≥ s.flitTime input) && !s.markerDue o && (s.port o).ctl.isEmpty &&
    !s.creditDue o && !s.switch.cutTook.contains o

/-- Whether an output's scheduling selects the control packet of a head cell for its next slot (R249): it is alone in its queue, has its credit, and
its class is selected. -/
def State.cutSelects (s : State) (o head : Nat) : Bool :=
  (List.range 32).any fun v =>
    match s.queue (32 * o + v) with
    | [d] =>
      d.head == head && d.isCtl && decide (s.creditFor o v ≥ 1) &&
        (let t := max (s.outSt o).slotDue s.tu
         let r := (s.settleTok o t).refreshOut o t
         let data := (r.outSt o).sending.isSome || (r.laneClass o false).isSome
         r.ctlFits o t && (!data || decide (r.get (SCH_OUT_TOKENS_T o) ≥ 256)) &&
           match r.laneClass o true with
           | some c => (match ((r.outSt o).cls true c).cand with
             | some (_, h) => h == head
             | none => false)
           | none => false)
    | _ => false

/-- The output on which the control packet of a head cell would cut through, once it is decided. -/
def State.cutOutput (s : State) (input head : Nat) : Option Nat := (List.range 24).find? fun o => s.cutOpen input o && s.cutSelects o head

/-- A good CTRL flit arrives: one that may cut through is ready for its output until the end of the FCLK, any other is decided now (R249, R250). -/
def State.ctlGood (s : State) (p : Nat) (bs : List Byte) (mayCut : Bool) : State :=
  let (head, s) := s.ctlCell p (ctlPkt bs)
  let u := s.decideHead State.offerC3 head
  match (if mayCut then u.cutOutput p head else none) with
  | some o => s.sw fun w => { w with cuts := w.cuts ++ [{ output := o, input := p, head := head }] }
  | none => u

/-- A bad CTRL flit that would cut through is ready for its output as a stomped copy (R190): nothing else of it stays. -/
def State.ctlBad (s : State) (p : Nat) (bs : List Byte) : State :=
  let (head, s') := s.ctlCell p (ctlPkt bs)
  let u := s'.decideHead State.offerC3 head
  match u.cutOutput p head, u.bufPkt head with
  | some o, some b => s.sw fun w => { w with cuts := w.cuts ++ [{ output := o, input := p, head := head, stomped := some (b.sent.flit 0) }] }
  | _, _ => s

/-- The flit an output has chosen goes: a stomped copy, or the control packet once it is decided, if the output still selects it. -/
def State.cutGo (s : State) (x : Cut) : State :=
  let t := max (s.outSt x.output).slotDue s.tu
  match x.stomped with
  | some pay =>
    if s.cutOpen x.input x.output then
      (s.putStomped x.output pay).modOut x.output fun y => { y with slotDue := t + s.flitTime x.output }
    else s
  | none =>
    let s := s.decideHead State.offerC3 x.head
    if s.cutOpen x.input x.output && s.cutSelects x.output x.head then s.slot x.output t else s

/-- An output takes one of the flits that are ready for it, by rotating priority over the inputs; the others are queued in that order (R251). -/
def State.cutTurn (s : State) (o : Nat) : State :=
  let ptr := Tbl.read s.switch.cutPtr 0 o
  let rank (x : Cut) : Nat := (x.input + 24 - ptr) % 24
  match (s.switch.cuts.filter (·.output == o)).foldl (fun l x => joinAt rank x l) [] with
  | [] => s
  | x :: rest =>
    let s := s.sw fun w => { w with cuts := w.cuts.filter (·.output != o), cutPtr := Tbl.write w.cutPtr 0 o ((x.input + 1) % 24) }
    let s := (s.cutGo x).sw fun w => { w with cutTook := w.cutTook ++ [o] }
    rest.foldl (fun s x => if x.stomped.isSome then s else s.decideHead State.offerC3 x.head) s

/-- The end of an FCLK: every output makes its choice. -/
def State.cutAll (s : State) : State :=
  let s := (s.switch.cuts.map (·.output)).eraseDups.foldl State.cutTurn s
  if s.switch.cutTook.isEmpty then s else s.sw fun w => { w with cutTook := [] }

end Sys2Proof.Machine
end

