-- ==== Sys2Proof/Machine/Tick.lean ====
section
/-! DEFINITION. The passing of time (R4): a command that marks the end of a time passes the time that is left; the step on an empty queue
passes one FCLK. -/

namespace Sys2Proof.Machine

open Sys2Proof

/-- Spills one record to GDDR7 (R432). A failed write counts in OBS_TRACE_SPILL_ERR. -/
def State.spillOne (s : State) : State :=
  match s.obs.spill with
  | some (base, units) =>
    let n := s.get64 OBS_TRACE_SPILLED_COUNT
    if n < s.obs.written then
      let s := s.set64 OBS_TRACE_SPILLED_COUNT (n + 1)
      match Tbl.find s.obs.ring (n % 8192) with
      | some r =>
        let (fail, s) := s.writeRange (base + n % (2048 * units) * 32) r.bytes
        if fail.isSome then s.count OBS_TRACE_SPILL_ERR_COUNT else s
      | none => s
    else s
  | none => s

/-- Spills up to n records. -/
def State.spill : Nat → State → State
  | 0, s => s
  | n + 1, s => spill n s.spillOne

/-- Passes n FCLK on what runs by itself: counters, clocks, the trace writer and the spill. Spill writes wait while the GDDR7 subsystem takes no
accesses, and the fatal decision ends them (R145, R433). -/
def State.elapse (s : State) (n : Nat) : State :=
  let s := s.passCounters n
  let spills := (s.now + n) / 4 - s.now / 4
  let s := s.passClock n
  let s := State.traceDrain (min (2 * n) s.obs.staged.length) s
  if s.fatal || !s.memOpen then s else State.spill (min spills (s.obs.written - s.get64 OBS_TRACE_SPILLED_COUNT)) s

/-- SCH_CTRL.CLEAR (R292): every sampler and high-water field is cleared. -/
def State.schClear (s : State) : State :=
  { s with regs := s.regs.filter fun r => !((SCH_Q_SAMPLES 0).off ≤ r.1 && r.1 < (SCH_CQ_HWM 280).off) }

/-- The end of this FCLK: the cut-throughs that were ready in it go (R251), and what SCH_CTRL.CLEAR clears is cleared after this FCLK's own samples
(R292). -/
def State.endFclk (s : State) : State :=
  let s := if s.fatal then s.sw fun w => { w with cuts := [] } else s.cutAll
  let s := (s.elapse 1).switchPass 1
  if s.switch.clearDue then s.schClear.sw fun w => { w with clearDue := false } else s

/-- Passes n FCLK. -/
def State.pass (s : State) (n : Nat) : State :=
  if n = 0 then s
  else if s.switch.cuts.isEmpty && s.switch.cutTook.isEmpty && !s.switch.clearDue then (s.elapse n).switchPass n
  else if n = 1 then s.endFclk
  else (s.endFclk.elapse (n - 1)).switchPass (n - 1)

/-- Passes time up to an FCLK count; nothing when it has come already. -/
def State.passTo (s : State) (t : Nat) : State := s.pass (t - s.now)

/-- Passes time towards a fabric time without passing over it: a positive slew advances fabric time by one tick more in sixteen, a negative one by
one less (R392). n bounds the rounds. -/
def State.towardFt : Nat → Nat → State → State
  | 0, _, s => s
  | n + 1, t, s =>
    let d := t - s.ft
    if d = 0 then s
    else towardFt n t (s.pass (if s.clock.slewNeg then d else max 1 (d - s.slewIn d)))

/-- Passes time up to a fabric time. -/
def State.passToFt (s : State) (t : Nat) : State := State.towardFt 64 t s

/-- Time passes to the output's next slot, and the output decides what to send in it. A control packet that is ready to cut through is chosen first; a
port in LP1 with a sequenced flit waiting asks for its lanes again first (R195); credits exchanged may bring a port into service. -/
def State.runSlot (s : State) (o : Nat) : State :=
  let s := s.pass (((s.outSt o).slotDue - s.tu) / 160)
  let due := (s.outSt o).slotDue
  let s := s.cutTurn o
  if (s.outSt o).slotDue ≠ due then s
  else
    let s := if o < 24 ∧ s.lst o = lkLp1 ∧ s.seqWaiting o then s.wakeLp1 o else s
    let s := s.slot o (max due s.tu)
    if o < 24 then s.initDone o else s

/-- The age limit in force, in FCLK (R263). -/
def State.ageLimit (s : State) : Nat := fclk (max 1 (s.get SWC_AGE_LIMIT_LIMIT))

end Sys2Proof.Machine
end

