-- ==== Sys2Proof/Machine/Moe.lean ====
section
/-! DEFINITION. Expert dispatch and combine and the ring pass (R99 to R108), what follows an acknowledgement, the resends and the age limit
of the core DMA (R154, R265), and the completion of a descriptor (R67, R68). -/

namespace Sys2Proof.Machine

open Sys2Proof

/-! DISPATCH: fields (R99 to R102) -/

def dsMap (d : Desc) : Nat := field d.bytes 0x30 6
def dsRow (d : Desc) : Nat := 64 * field d.bytes 0x36 2
def dsQ (d : Desc) : Nat := field d.bytes 0x38 2
def dsR (d : Desc) : Nat := field d.bytes 0x3A 2
def dsE (d : Desc) : Nat := field d.bytes 0x3C 2
def dsNoCombine (d : Desc) : Bool := bit (field d.bytes 0x3E 1) 0

/-- Whether the fields of a DISPATCH keep their rules (R101). -/
def dsFieldsOk (d : Desc) : Bool :=
  1 ≤ field d.bytes 0x36 2 && field d.bytes 0x36 2 ≤ 1024 && 1 ≤ dsQ d && dsQ d ≤ 4096 && 1 ≤ dsR d && 1 ≤ dsE d && dsE d ≤ 256 &&
    field d.bytes 0x3E 1 ≤ 1 && field d.bytes 0x3F 1 == 0 && decide (d.rank < dsR d) && field d.bytes 0x18 4 == 0

/-- An entry of the expert map (R99). -/
structure Expert where
  dev : Nat
  sel : Nat
  evt : Nat
  valid : Bool
  base : Nat
deriving DecidableEq, Repr

/-- The entry of an expert in a map's bytes. -/
def expertOf (map : List Byte) (e : Nat) : Expert :=
  let b := slice map (16 * e) 16
  { dev := field b 0 4 % 2 ^ 21, sel := field b 3 1, evt := field b 4 1 % 32, valid := bit (field b 5 1) 0, base := field b 8 6 }

/-- Bytes of the counts region and of counts with tags, rounded up to the rows (R100). -/
def countsBytes (r : Nat) : Nat := (4 * r + 63) / 64 * 64
def rowsBase (r q : Nat) : Nat := (countsBytes r + 8 * r * q + 4095) / 4096 * 4096

/-- The tag of a row (R100). -/
def rowTag (addr entry j i : Nat) : List Byte := leBytes 8 (addr % 2 ^ 21 + entry % 4096 * 2 ^ 32 + j % 8 * 2 ^ 44 + i % 65536 * 2 ^ 48)

/-- Whether a routing entry breaks a rule that DISPATCH checks (R106). -/
def badRouting (e : List Byte) (experts : Nat) : Bool :=
  let k := reK e
  let xs := (List.range (min 8 k)).map (reExpert e)
  k == 0 || decide (k > 8) || xs.any (fun x => decide (x ≥ experts)) || !xs.Nodup || decide (field e 0 4 ≥ 2 ^ 27) ||
    !zeroAt e 6 2 || !zeroAt e (0x08 + k) (8 - k) || !zeroAt e (0x10 + 4 * k) (4 * (8 - k))

/-- Whether the owner of an expert cannot be reached: no route, or its core or gateway fenced (R102). -/
def State.ownerDown (s : State) (dev sel : Nat) : Bool :=
  let p := s.mkData dev sel 0 0x44 0 (some 0) 1 0 0 0 [] [0]
  let q := s.mkData dev sel 0 0x44 0 (some 1) 1 0 0 0 [] [0]
  ((s.originRoute p).out.isNone && (s.originRoute q).out.isNone) ||
    (dev == s.ownAddr && decide (sel < 144) && ((s.phys sel).isNone || s.gwFenced (gatewayOf sel)))

/-- A slot of the scan: entry, slot, expert, ordinal. -/
structure Choice where
  t : Nat
  j : Nat
  e : Nat
  n : Nat
deriving DecidableEq, Repr

/-- The scan of R102: the ordinal of a slot is the number of earlier slots to the same expert. -/
def scanSlots (table : List Byte) (entries : Nat) : List Choice :=
  let slots := (List.range entries).flatMap fun t =>
    (List.range (min 8 (reK (rentry table t)))).map fun j => (t, j, reExpert (rentry table t) j)
  (slots.foldl (fun (acc : List Choice × Tbl Nat) x =>
    let n := Tbl.read acc.2 0 x.2.2
    (acc.1 ++ [{ t := x.1, j := x.2.1, e := x.2.2, n := n }], Tbl.insert acc.2 x.2.2 (n + 1))) ([], [])).1

/-- The endpoint a receive buffer is written through: the gateway for an address in GDDR7, else the owner core. -/
def bufferEp (x : Expert) : Nat := if x.base < gddrSize then 0xC0 else x.sel

/-- The transfers of a kept slot: the row's packets and the tag, in group 3 e. -/
def slotXfers (own : Nat) (d : Desc) (x : Expert) (c : Choice) : List Xfer :=
  let at_ := dsQ d * d.rank + c.n
  let row := x.base + rowsBase (dsR d) (dsQ d) + at_ * dsRow d
  let tagAt := x.base + countsBytes (dsR d) + 8 * at_
  ((pieces2048 row (dsRow d)).map fun p =>
    { op := 0x44, dev := x.dev, sel := bufferEp x, addr := row + p.1, src := d.src + c.t * dsRow d + p.1, len := p.2
      off := c.t * dsRow d + p.1, fields := [], grp := 3 * c.e }) ++
    [{ op := 0x44, dev := x.dev, sel := bufferEp x, addr := tagAt, src := 0, len := 8, off := c.t * dsRow d, fields := [], grp := 3 * c.e
       lit := some (rowTag own c.t c.j d.rank) }]

/-- Sets the DROPPED bits of a routing table in place. -/
def State.markDropped (s : State) (table : Nat) (drops : List Choice) : State :=
  drops.foldl (fun s c =>
    let a := table + 48 * c.t + 5
    let old := leNat (s.readLocal a 1)
    s.writeLocal a (leBytes 1 (putBits old c.j 1 1))) s

/-- The checks of DISPATCH before it scans. -/
def State.dsStatus (s : State) (L : Nat) (d : Desc) : Option (Nat × Nat) :=
  let n := d.len / 48
  let long : Option (Nat × Nat) := if d.len % 48 ≠ 0 ∨ n = 0 ∨ n > 4096 ∨ !dsFieldsOk d then some (3, 0) else none
  firstStatus [alignStatus d.dst 64, long, s.rangeStatus L d.dst d.len, s.rangeStatus L (dsMap d) (16 * dsE d),
    s.rangeStatus L d.src (n * dsRow d)]

/-- DISPATCH (R101, R102): checks the table and the registration, scans, marks dropped slots and sends the rows and tags of the others. -/
def dispatchDesc (L q : Nat) (bad : Option Nat) (s : State) (d : Desc) : State :=
  match s.dsStatus L d with
  | some (st, off) => s.endFailed L q d.number st off
  | none =>
    match s.shardStatus d.dst d.len with
    | (some (st, off), s) => s.endFailed L q d.number st off
    | (none, s) =>
      let (r, s) := s.readRange d.dst d.len bad
      match r.fail with
      | some (st, off) => s.endFailed L q d.number st off
      | none =>
        let table := r.bytes
        let n := d.len / 48
        match (List.range n).find? fun t => badRouting (rentry table t) (dsE d) with
        | some t => (s.endFailed L q d.number 0x23 0).modDesc L q d.number fun d => { d with detail := t }
        | none =>
          if !dsNoCombine d && (s.combineOf d.chunk d.rank).isNone then s.endFailed L q d.number 0x22 0
          else
            let map := s.readLocal (dsMap d) (16 * dsE d)
            let down (e : Nat) : Bool := !(expertOf map e).valid || s.ownerDown (expertOf map e).dev (expertOf map e).sel
            let skipped := (List.range (dsE d)).filter down
            let live := (List.range (dsE d)).filter fun e => !down e
            let cs := scanSlots table n
            let kept := cs.filter fun c => decide (c.n < dsQ d) && !skipped.contains c.e
            let drops := cs.filter fun c => !(decide (c.n < dsQ d) && !skipped.contains c.e)
            let s := s.markDropped d.dst drops
            let s := (s.count CORE_MOE_SENT_COUNT kept.length).count CORE_MOE_DROPPED_COUNT drops.length
            let s := s.modDesc L q d.number fun d =>
              { d with scanned := true, skipped := skipped.length, detail := drops.length, groups := live }
            s.launchXfers L q d (kept.flatMap fun c => slotXfers s.ownAddr d (expertOf map c.e) c) bad

/-- DISPATCH (R102). -/
def execDispatch (core : CoreIx) (queue : QueueIx) (bad : Option Nat) (s : State) : Host.Outcome State Fault Refusal :=
  done (s.startDesc core.val queue.val 0x30
    (fun s d => s.memWaits d.src 1 || s.memWaits d.dst 1 || s.memWaits (dsMap d) 1) (dispatchDesc core.val queue.val bad))

/-- Transfers of a descriptor of one group that are not yet acknowledged. -/
def Desc.open_ (d : Desc) (g : Nat) : Bool := d.todo.any (·.grp == g) || d.outst.any (·.xfer.grp == g)

/-- Rows of an expert that a DISPATCH has sent: the ordinals below Q to it. -/
def rowsTo (table : List Byte) (d : Desc) (e : Nat) : Nat :=
  ((scanSlots table (d.len / 48)).filter fun c => c.e == e && decide (c.n < dsQ d)).length

/-- DISPATCH_EXPERT_SIGNAL (R102): for the first expert of a DISPATCH whose rows are all acknowledged, the count is written to the owner's
counts region; its acknowledgement lets the increment of the owner's event counter follow. -/
def execDispatchExpertSignal (core : CoreIx) (queue : QueueIx) (s : State) : Host.Outcome State Fault Refusal :=
  let L := core.val
  let q := queue.val
  if !s.dmaLive L then done s
  else
    match (s.queueOf L q).findSome? fun d =>
        if d.op == 0x30 && d.started && d.status == 0 then (d.groups.find? fun e => !d.open_ (3 * e)).map fun e => (d, e) else none with
    | none => done s
    | some (d, e) =>
      let x := expertOf (s.readLocal (dsMap d) (16 * dsE d)) e
      let n := rowsTo (s.readLocal d.dst d.len) d e
      let xf : Xfer := { op := 0x44, dev := x.dev, sel := bufferEp x, addr := x.base + 4 * d.rank, src := 0, len := 4, off := d.len
                         fields := [], grp := 3 * e + 1, lit := some (leBytes 4 n) }
      let s := s.modDesc L q d.number fun d => { d with groups := d.groups.erase e, todo := d.todo ++ [xf] }
      done (s.pump L)

/-! What follows an acknowledgement -/

/-- Sends one increment of an event counter for a descriptor, unless its log says that it was sent before the fault (R345). -/
def State.sendSignal (s : State) (L q number dev core evt grp : Nat) : State :=
  let sent := ((s.logFind L number).map fun it => it.sent.contains grp).getD false
  if sent then s
  else
    let x : Xfer := { op := 0x05, dev := dev, sel := core, addr := 0, src := 0, len := 0, off := 0, fields := signalPay core evt 1, grp := grp }
    (s.modDesc L q number fun d => { d with todo := d.todo ++ [x] }).pump L

/-- The fields of RINGPASS (R108). -/
def rpKvBase (d : Desc) : Nat := bits d.ext 0 22
def rpKvLen (d : Desc) : Nat := bits d.ext 32 23
def rpOrigin (d : Desc) : Nat := bits d.ext 64 16
def rpHops (d : Desc) : Nat := bits d.ext 80 16
def rpEvt (d : Desc) : Nat := bits d.ext 96 5
def rpCore (d : Desc) : Nat := bits d.ext 104 8

/-- What a descriptor does when one of its packets has been acknowledged: the increment after a count of DISPATCH, and the increment of RINGPASS
once data and header are acknowledged. Then more packets may leave. -/
def State.advance (s : State) (L q number : Nat) (x : Xfer) : State :=
  let s := match s.desc L q number with
    | none => s
    | some d =>
      if d.status ≠ 0 then s
      else if d.op = 0x30 ∧ x.grp % 3 = 1 then
        let e := expertOf (s.readLocal (dsMap d) (16 * dsE d)) (x.grp / 3)
        s.sendSignal L q number e.dev e.sel e.evt (x.grp + 1)
      else if d.op = 0x33 ∧ d.phase = 1 ∧ d.todo.isEmpty ∧ d.outst.isEmpty then
        (s.modDesc L q number fun d => { d with phase := 0 }).sendSignal L q number d.dev (rpCore d) (rpEvt d) 1
      else s
  s.pump L

/-! RINGPASS -/

/-- The header of a ring block (R108). -/
def rpHeader (own : Nat) (d : Desc) : List Byte :=
  slice (leBytes 4 (rpKvBase d) ++ leBytes 4 (rpKvLen d) ++ leBytes 2 (rpOrigin d) ++ leBytes 2 (rpHops d) ++ leBytes 4 d.tensor ++
    leBytes 4 own) 0 64

/-- RINGPASS (R106, R108): the data to DST + 64, the header to DST, then the increment. -/
def ringpassDesc (L q : Nat) (bad : Option Nat) (s : State) (d : Desc) : State :=
  let ring : Option (Nat × Nat) := if rpKvBase d + rpKvLen d > 4194304 ∨ d.len % 64 ≠ 0 then some (0x26, 0) else none
  match firstStatus [lengthStatus d.len 1, ring, s.rangeStatus L d.src d.len] with
  | some (st, off) => s.endFailed L q d.number st off
  | none =>
    let header : Xfer := { op := 0x46, dev := d.dev, sel := d.sel, addr := d.dst, src := 0, len := 64, off := d.len, fields := [], grp := 0
                           last := true, lit := some (rpHeader s.ownAddr d) }
    let s := s.modDesc L q d.number fun d => { d with phase := 1 }
    s.launchXfers L q d (((dataXfers 0x46 d.dev d.sel d.src (d.dst + 64) d.len []).map fun x => { x with last := false }) ++ [header]) bad

/-- RINGPASS (R108). -/
def execRingpass (core : CoreIx) (queue : QueueIx) (bad : Option Nat) (s : State) : Host.Outcome State Fault Refusal :=
  done (s.startDesc core.val queue.val 0x33 (fun s d => s.memWaits d.src d.len) (ringpassDesc core.val queue.val bad))

/-! COMBINE -/

def cbQ (d : Desc) : Nat := field d.bytes 0x30 2
def cbR (d : Desc) : Nat := field d.bytes 0x32 2

/-- The rows a COMBINE sends: row number Q i + n with its tag (R104). -/
def State.cbRows (s : State) (d : Desc) : List (Nat × Nat) :=
  (List.range (cbR d)).flatMap fun i =>
    let n := min (cbQ d) (leNat (s.readLocal (d.dst + 4 * i) 4))
    (List.range n).map fun k =>
      let r := cbQ d * i + k
      (r, leNat (s.readLocal (d.dst + countsBytes (cbR d) + 8 * r) 8))

/-- The operation fields of a COMBINE_TERM packet: dispatch id, source index, entry and slot. -/
def termFields (chunk tag : Nat) : List Byte :=
  leBytes 4 chunk ++ leBytes 2 (bits tag 48 16) ++ leBytes 2 (bits tag 32 12) ++ leBytes 1 (bits tag 44 3)

/-- The address of a piece of a term: the source index, the slot of the entry, and the byte offset in the row. -/
def termAddr (tag off : Nat) : Nat := bits tag 48 16 * 2 ^ 31 + (8 * bits tag 32 12 + bits tag 44 3) * 2 ^ 16 + off

/-- The packets of one row of a COMBINE. -/
def rowXfers (d : Desc) (row tag : Nat) : List Xfer :=
  (pieces2048 0 d.len).map fun p =>
    { op := 0x45, dev := bits tag 0 21, sel := 0xC8, addr := termAddr tag p.1, src := d.src + row * d.len + p.1, len := p.2
      off := row * d.len + p.1, fields := termFields d.chunk tag, grp := 0 }

/-- COMBINE (R104): sends each received row to its source's collective engine; rows whose source cannot be reached are not sent. -/
def combineDesc (L q : Nat) (bad : Option Nat) (s : State) (d : Desc) : State :=
  match firstStatus [lengthStatus d.len 64, s.rangeStatus L d.dst (countsBytes (cbR d) + 8 * cbR d * cbQ d)] with
  | some (st, off) => s.endFailed L q d.number st off
  | none =>
    let rows := s.cbRows d
    match rows.findSome? fun r => s.rangeStatus L (d.src + r.1 * d.len) d.len with
    | some (st, off) => s.endFailed L q d.number st off
    | none =>
      let lost := rows.filter fun r => s.ownerDown (bits r.2 0 21) 0xC8
      let go := rows.filter fun r => !s.ownerDown (bits r.2 0 21) 0xC8
      let s := s.modDesc L q d.number fun d =>
        if lost.isEmpty then d
        else { d with status := 7, skipped := lost.length, failOff := (lost.headD (0, 0)).1 * d.len, detail := (lost.headD (0, 0)).1 * d.len }
      s.launchXfers L q d (markLast (go.flatMap fun r => rowXfers d r.1 r.2)) bad

/-- COMBINE (R104). -/
def execCombine (core : CoreIx) (queue : QueueIx) (bad : Option Nat) (s : State) : Host.Outcome State Fault Refusal :=
  done (s.startDesc core.val queue.val 0x31 (fun s d => s.memWaits d.src 1 || s.memWaits d.dst 1) (combineDesc core.val queue.val bad))

/-! COMBINE_RECV -/

/-- Whether the fields of a COMBINE_RECV keep their rules (R103). -/
def cmFieldsOk (d : Desc) : Bool :=
  1 ≤ cmElements d.bytes && cmElements d.bytes ≤ 16384 && field d.bytes 0x38 1 ≤ 1 && field d.bytes 0x39 1 ≤ 1 && cmRound d.bytes ≤ 2 &&
    zeroAt d.bytes 0x3B 5

/-- COMBINE_RECV (R103): registers the combine of a dispatch with the collective engine, which holds the descriptor until it finishes. -/
def combineRecvDesc (L q : Nat) (s : State) (d : Desc) : State :=
  let n := d.len / 48
  let e := cmElements d.bytes
  let form : Option (Nat × Nat) := if d.len % 48 ≠ 0 ∨ n = 0 ∨ n > 4096 ∨ !cmFieldsOk d then some (3, 0) else none
  match firstStatus [alignStatus (cmScratch d.bytes) 64, form, s.rangeStatus L d.src d.len,
      s.rangeStatus L d.dst (n * e * cmOutSize d.bytes), s.rangeStatus L (cmScratch d.bytes) (n * 8 * e * 4)] with
  | some (st, off) => s.endFailed L q d.number st off
  | none =>
    match s.shardStatus d.dst (n * e * cmOutSize d.bytes) with
    | (some (st, off), s) => s.endFailed L q d.number st off
    | (none, s) =>
      if !s.colActive then s.endFailed L q d.number 0x0A 0
      else if s.combines.length ≥ 16 ∨ (s.combineOf d.chunk d.rank).isSome then s.endFailed L q d.number 0x25 0
      else
        let (seed, step) := s.seedStep L
        let c : Combine := { core := L, queue := q, number := d.number, bytes := d.bytes, seed := seed, step := step, lastTerm := s.now }
        { s with combines := s.combines ++ [c] }.modDesc L q d.number fun d => { d with held := true }

/-- COMBINE_RECV (R103). -/
def execCombineRecv (core : CoreIx) (queue : QueueIx) (_bad : Option Nat) (s : State) : Host.Outcome State Fault Refusal :=
  done (s.startDesc core.val queue.val 0x32
    (fun s d => s.memWaits d.src 1 || s.memWaits d.dst 1 || s.memWaits (cmScratch d.bytes) 1) (combineRecvDesc core.val queue.val))

/-- The registration of a queue whose limit runs out first: its DISPATCH has completed, and no term has come for it the longest. -/
def State.stalest (s : State) (L q : Nat) : Option Combine :=
  (s.combines.filter fun c => c.core == L && c.queue == q && c.expect.isSome).foldl (fun b c => match b with
    | none => some c
    | some x => if c.lastTerm < x.lastTerm then some c else some x) none

/-- COMBINE_TIMEOUT (R107): no term has come for the age limit since the DISPATCH completed or the last term came. -/
def execCombineTimeout (core : CoreIx) (queue : QueueIx) (s : State) : Host.Outcome State Fault Refusal :=
  match s.stalest core.val queue.val with
  | some c => done (if s.fatal then s else (s.passTo (c.lastTerm + s.ageLimit)).endCombine c 0x24)
  | none => done s

/-! Resends and lost packets -/

/-- The first packet of a queue with a property. -/
def State.findOutst (s : State) (L q : Nat) (p : Outst → Bool) : Option (Desc × Outst) :=
  (s.queueOf L q).findSome? fun d => (d.outst.find? p).map fun o => (d, o)

/-- RACC_RETRY_RESEND (R154): 1 microsecond after a retry answer the packet goes again, or its descriptor completes with AGED once the age
limit since its first send has run out. -/
def execRaccRetryResend (core : CoreIx) (queue : QueueIx) (s : State) : Host.Outcome State Fault Refusal :=
  let L := core.val
  let q := queue.val
  if !s.dmaLive L then done s
  else match s.findOutst L q fun o => o.retryAt.isSome with
    | none => done s
    | some (d, o) =>
      let s := s.passTo (o.retryAt.getD 0)
      if s.now - o.firstSent > s.ageLimit then done ((s.failPacket L q d.number o 9).pump L)
      else
        let base := (s.flowFor L o.pkt.sq o.xfer.flowDev o.xfer.sel).base
        let o' := { o with retryAt := none, ctag := base, pkt := o.pkt.setH 104 16 base }
        let s := s.modDesc L q d.number fun d => { d with outst := d.outst.map fun x => if x = o then o' else x }
        done ((s.coreOffer L q d.number o'.pkt).takeFailed)

/-- An RSIGNAL descriptor that took over the answer to a packet sent before a fault (R345), with its log entry. -/
def State.tookOver (s : State) (L q : Nat) : Option (Desc × LogItem) :=
  (s.queueOf L q).findSome? fun d =>
    if d.op == 0x14 && d.held then (s.logFind L d.number).map fun it => (d, it) else none

/-- The answer to such a packet ends its descriptor. -/
def State.endTaken (s : State) (L q number status : Nat) : State :=
  s.modDesc L q number fun d => { d with held := false, finished := true, status := status }

/-- NO_ACK_AGE_LIMIT (R265): a packet that has had no answer for the age limit completes its descriptor with AGED. -/
def execNoAckAgeLimit (core : CoreIx) (queue : QueueIx) (s : State) : Host.Outcome State Fault Refusal :=
  let L := core.val
  let q := queue.val
  if !s.dmaLive L then done s
  else match s.findOutst L q fun o => o.retryAt.isNone with
  | none =>
    match s.tookOver L q with
    | some (d, it) => done ((s.passTo (it.at_ + s.ageLimit)).endTaken L q d.number 9)
    | none => done s
  | some (d, o) =>
    let s := s.passTo (o.firstSent + s.ageLimit)
    done ((s.failPacket L q d.number o 9).pump L)

/-! Completion -/

/-- The status a descriptor completes with: that of a DISPATCH follows from what it dropped and skipped (R106). -/
def Desc.finalStatus (d : Desc) : Desc :=
  if d.op = 0x30 ∧ d.scanned ∧ d.status = 0 then
    { d with status := if d.skipped > 0 then 0x21 else if d.detail > 0 then 0x20 else 0 }
  else if d.op = 0x13 ∧ d.status = 0 ∧ d.skipped > 0 then { d with status := 0x0B }
  else d

/-- Completes a descriptor; a DISPATCH that has scanned tells the combine of its dispatch id how many terms to expect (R103). -/
def State.finishDesc (s : State) (L q : Nat) (d : Desc) : State :=
  let d := d.finalStatus
  let terms := if d.op = 0x30 ∧ d.scanned ∧ !dsNoCombine d then
      some ((List.range (d.len / 48)).map fun t => (reSlots (s.readLocal (d.dst + 48 * t) 48)).length).sum
    else none
  let s := s.complete L q d
  match terms with
  | some n => s.expectTerms d.chunk d.rank n
  | none => s

/-- DESCRIPTOR_COMPLETE (R64, R67, R68): the first descriptor of the queue whose effects have all taken place completes; one of an
undefined operation that is next to start completes with BAD_OP. -/
def execDescriptorComplete (core : CoreIx) (queue : QueueIx) (s : State) : Host.Outcome State Fault Refusal :=
  if !s.dmaLive core.val then done s
  else
    let ds := s.queueOf core.val queue.val
    match ds.find? (·.ready) with
    | some d => done (s.finishDesc core.val queue.val d)
    | none =>
      match nextDesc ds with
      | some d => done (if knownOp d.op then s else s.complete core.val queue.val { d with status := 1 })
      | none => done s

end Sys2Proof.Machine
end

