-- ==== Sys2Proof/Machine/Vxu.lean ====
section
/-! DEFINITION. The VXU class (R55, R56, R61, R121, R122, R135): lane arithmetic, comparison and selection, conversion, the
approximations, reduction, broadcast and moves. -/

namespace Sys2Proof.Machine

open Sys2Proof

/-- FMT, ROUND, OVF of a VXU word. -/
def vFmt (w : Nat) : Nat := bits w 24 4
def vRound (w : Nat) : Nat := bits w 22 2
def vOvf (w : Nat) : Bool := bit w 21

/-- The lanes of a result with their flags go into d, and the flags to CORE_EXC (R136 to R138). -/
def vWrite (L w : Nat) (rs : List (Nat × Flags)) (s : State) : Eff :=
  let fs := rs.map (·.2)
  let s := s.modCore L fun c => c.setV (wD w) (rs.map (·.1))
  let s := s.raise L (Flags.union fs) 1 (s.wordAt L) (invalidCount fs)
  .next (s.startOp L { eng := .vxu, vs := [wD w] }) 1

/-- One FP32 rounding of an exact value under the word's ROUND and OVF. -/
def vRn (w : Nat) (v : Val × Bool) : Nat × Flags :=
  let (c, f) := toFloat fp32 (vRound w) 0 (vOvf w) v.1
  (c, { f with inv := f.inv || v.2 })

/-- The fields of a two-operand arithmetic instruction: FMT 0, ROUND 0 or 1 (R121); OVF where the result is rounded. -/
def v2Legal (rounds : Bool) (w : Nat) : Bool :=
  onlyFields w ([(43, 5), (38, 5), (33, 5), (22, 2)] ++ (if rounds then [(21, 1)] else [])) && vRound w < 2

/-- A lane-wise instruction on registers a and b. -/
def v2Op (core : CoreIx) (bad : Option Nat) (op : Nat) (rounds : Bool) (f : Nat → Nat → Nat → Nat × Flags) (s : State) : State :=
  issue core.val bad 4 op (v2Legal rounds) (fun w => { v := [wD w, wA w, wB w] })
    (fun w s =>
      let c := s.core core.val
      vWrite core.val w ((c.vreg (wA w)).zipWith (f w) (c.vreg (wB w))) s) s

def vaddFn (w a b : Nat) : Nat × Flags := vRn w (addVal (val32 a) (val32 b))
def vsubFn (w a b : Nat) : Nat × Flags := vRn w (addVal (val32 a) (negVal (val32 b)))
def vmulFn (w a b : Nat) : Nat × Flags := vRn w (mulVal (val32 a) (val32 b))

/-- VMAX and VMIN (R135): NaN when either input is NaN; -0 is less than +0. -/
def vmaxFn (_ a b : Nat) : Nat × Flags :=
  if val32 a == .nan || val32 b == .nan then (fp32.nanCode, {}) else (if valLtSigned (val32 a) (val32 b) then b else a, {})
def vminFn (_ a b : Nat) : Nat × Flags :=
  if val32 a == .nan || val32 b == .nan then (fp32.nanCode, {}) else (if valLtSigned (val32 b) (val32 a) then b else a, {})

/-- VADD (R55, R61). -/
def execVadd (core : CoreIx) (bad : Option Nat) (s : State) : Host.Outcome State Fault Refusal :=
  done (v2Op core bad 0x00 true vaddFn s)

/-- VSUB (R61). -/
def execVsub (core : CoreIx) (bad : Option Nat) (s : State) : Host.Outcome State Fault Refusal :=
  done (v2Op core bad 0x01 true vsubFn s)

/-- VMUL (R55, R61). -/
def execVmul (core : CoreIx) (bad : Option Nat) (s : State) : Host.Outcome State Fault Refusal :=
  done (v2Op core bad 0x02 true vmulFn s)

/-- The fields of an instruction that also uses c; OVF where the result is rounded. -/
def v3Legal (rounds : Bool) (w : Nat) : Bool :=
  onlyFields w ([(43, 5), (38, 5), (33, 5), (28, 5), (22, 2)] ++ (if rounds then [(21, 1)] else [])) && vRound w < 2

/-- VFMA of one lane: a times b plus c with a single rounding. -/
def vfmaFn (w a b c : Nat) : Nat × Flags :=
  let (p, i) := mulVal (val32 a) (val32 b)
  let (v, j) := addVal p (val32 c)
  vRn w (v, i || j)

/-- VFMA (R55, R61). -/
def execVfma (core : CoreIx) (bad : Option Nat) (s : State) : Host.Outcome State Fault Refusal :=
  done (issue core.val bad 4 0x03 (v3Legal true) (fun w => { v := [wD w, wA w, wB w, wC w] })
    (fun w s =>
      let c := s.core core.val
      let ab := (c.vreg (wA w)).zip (c.vreg (wB w))
      vWrite core.val w (ab.zipWith (fun p z => vfmaFn w p.1 p.2 z) (c.vreg (wC w))) s) s)

/-- VMAX (R55, R61, R135). -/
def execVmax (core : CoreIx) (bad : Option Nat) (s : State) : Host.Outcome State Fault Refusal :=
  done (v2Op core bad 0x04 false vmaxFn s)

/-- VMIN (R55, R61, R135). -/
def execVmin (core : CoreIx) (bad : Option Nat) (s : State) : Host.Outcome State Fault Refusal :=
  done (v2Op core bad 0x05 false vminFn s)

/-- A comparison of two FP32 codes: NaN is unordered, so every comparison with it fails but "not equal" (R135). -/
def compare32 (kind a b : Nat) : Bool :=
  let x := val32 a
  let y := val32 b
  let nan := x == .nan || y == .nan
  match kind with
  | 0 => !nan && valEq x y
  | 1 => nan || !valEq x y
  | 2 => !nan && valLt x y
  | 3 => !nan && !valLt y x
  | 4 => !nan && valLt y x
  | _ => !nan && !valLt x y

/-- VCMP (R55, R61): lane masks, 0 or all-ones. Which comparison the c field names is a free value. -/
def execVcmp (core : CoreIx) (bad : Option Nat) (s : State) : Host.Outcome State Fault Refusal :=
  done (issue core.val bad 4 0x06 (v3Legal false) (fun w => { v := [wD w, wA w, wB w] })
    (fun w s =>
      let c := s.core core.val
      let f (a b : Nat) : Nat × Flags := (if compare32 (Config.vcmpKind (wC w)).toNat a b then 2 ^ 32 - 1 else 0, {})
      vWrite core.val w ((c.vreg (wA w)).zipWith f (c.vreg (wB w))) s) s)

/-- Whether a mask of VSEL selects register a: all-ones does and 0 does not (R61); what another mask selects is a free value. Log 36. -/
def selectsA (z : Nat) : Bool := z == 2 ^ 32 - 1 || (z != 0 && Config.selOther (BitVec.ofNat 32 z))

/-- VSEL (R55, R61): lane by lane, register a where the mask selects it, else register b. PRESUMED: the mask is register c; the spec does not
name its operand. Log 36. -/
def execVsel (core : CoreIx) (bad : Option Nat) (s : State) : Host.Outcome State Fault Refusal :=
  done (issue core.val bad 4 0x07 (v3Legal false) (fun w => { v := [wD w, wA w, wB w, wC w] })
    (fun w s =>
      let c := s.core core.val
      let ab := (c.vreg (wA w)).zip (c.vreg (wB w))
      vWrite core.val w (ab.zipWith (fun p z => ((if selectsA z then p.1 else p.2), ({} : Flags))) (c.vreg (wC w))) s) s)

/-- The fields of VCVT (R122): the source format in bits [31:28], bit 32 zero, b zero unless ROUND = 2. -/
def vcvtLegal (w : Nat) : Bool :=
  onlyFields w ([(43, 5), (38, 5), (28, 4), (24, 4), (22, 2), (21, 1)] ++ (if vRound w = 2 then [(33, 5)] else [])) &&
    bits w 28 4 != 0xF && vFmt w != 0xF && vRound w != 3

/-- VCVT (R55, R122, R126): converts 64 elements, packed from byte 0. -/
def vcvtEff (L w : Nat) (s : State) : Eff :=
  let c := s.core L
  let src := actVals (bits w 28 4) 64 (c.vbytes (wA w))
  let key := c.gval (wB w)
  let vs := src.zipIdx.map fun (v, i) => (v, if vRound w = 2 then s.elemDraw L key 64 i else 0)
  let (bs, fs) := convertVals (vFmt w) (vRound w) (vOvf w) vs
  let s := s.setCore L (c.setV (wD w) (lanesOf (slice bs 0 256)))
  let s := s.raise L (Flags.union fs) 1 (s.wordAt L) (invalidCount fs)
  .next (s.startOp L { eng := .vxu, vs := [wD w] }) 1

/-- VCVT (R122). -/
def execVcvt (core : CoreIx) (bad : Option Nat) (s : State) : Host.Outcome State Fault Refusal :=
  done (issue core.val bad 4 0x08 vcvtLegal (fun w => { v := [wD w, wA w], g := if vRound w = 2 then [wB w] else [] })
    (vcvtEff core.val) s)

/-- The fields of the approximations: ROUND 0 only (R121). -/
def v1Legal (w : Nat) : Bool := onlyFields w [(43, 5), (38, 5), (22, 2), (21, 1)] && vRound w == 0

/-- An approximation on register a. -/
def v1Op (core : CoreIx) (bad : Option Nat) (op : Nat) (f : Bool → Nat → Nat × Flags) (s : State) : State :=
  issue core.val bad 4 op v1Legal (fun w => { v := [wD w, wA w] })
    (fun w s => vWrite core.val w (((s.core core.val).vreg (wA w)).map (f (vOvf w))) s) s

/-- VEXP (R55, R56, R135). -/
def execVexp (core : CoreIx) (bad : Option Nat) (s : State) : Host.Outcome State Fault Refusal :=
  done (v1Op core bad 0x09 vexp s)

/-- VRCP (R55, R56, R135). -/
def execVrcp (core : CoreIx) (bad : Option Nat) (s : State) : Host.Outcome State Fault Refusal :=
  done (v1Op core bad 0x0A vrcp s)

/-- VRSQ (R55, R56, R135). -/
def execVrsq (core : CoreIx) (bad : Option Nat) (s : State) : Host.Outcome State Fault Refusal :=
  done (v1Op core bad 0x0B vrsq s)

/-- The pairwise tree of VRED over lanes: lane 2i with lane 2i + 1 at each level. -/
def vredTree (f : Nat → Nat → Nat × Flags) : Nat → List Nat → Nat × Flags
  | 0, xs => (xs.headD 0, {})
  | n + 1, xs =>
    let rec level : List Nat → List Nat × Flags
      | a :: b :: r =>
        let (x, g) := f a b
        let (xs, h) := level r
        (x :: xs, g.or h)
      | r => (r, {})
    let (ys, g) := level xs
    let (r, h) := vredTree f n ys
    (r, g.or h)

/-- The fields of VRED. -/
def vredLegal (w : Nat) : Bool := onlyFields w [(43, 5), (38, 5), (28, 5), (22, 2), (21, 1)] && vRound w < 2

/-- VRED (R55): sum, maximum or minimum across the 64 lanes, each add rounded to FP32. Which of them the c field names, and what the
lanes of d other than lane 0 hold, are free values. -/
def vredEff (L w : Nat) (s : State) : Eff :=
  let c := s.core L
  let f := match (Config.vredOp (wC w)).toNat with
    | 0 => vaddFn w
    | 1 => vmaxFn w
    | _ => vminFn w
  let (r, fl) := vredTree f 6 (c.vreg (wA w))
  let lanes := (c.vreg (wD w)).zipIdx.map fun (x, i) =>
    if i = 0 then (r, fl)
    else ((Config.vredLane i (BitVec.ofNat 32 x) (BitVec.ofNat 32 r)).toNat, {})
  vWrite L w lanes s

/-- VRED (R55, R61). -/
def execVred (core : CoreIx) (bad : Option Nat) (s : State) : Host.Outcome State Fault Refusal :=
  done (issue core.val bad 4 0x0C vredLegal (fun w => { v := [wD w, wA w] }) (vredEff core.val) s)

/-- The fields of the broadcast and of the moves: neither FMT, ROUND nor OVF is used. -/
def vmoveLegal (w : Nat) : Bool := onlyFields w [(43, 5), (38, 5), (33, 5), (28, 5)]

/-- The lane a broadcast or move names, a free value of its fields. -/
def moveLane (w : Nat) : Nat := (Config.moveLane (wB w) (wC w)).toNat

/-- VBCAST (R55): one word in every lane of d, exact. Where the word comes from (a general register or a lane) is a free value. -/
def execVbcast (core : CoreIx) (bad : Option Nat) (s : State) : Host.Outcome State Fault Refusal :=
  done (issue core.val bad 4 0x0D vmoveLegal
    (fun w => { v := if Config.bcastFromG (wB w) then [wD w] else [wD w, wA w], g := if Config.bcastFromG (wB w) then [wA w] else [] })
    (fun w s =>
      let c := s.core core.val
      let x := if Config.bcastFromG (wB w) then c.gval (wA w) % 2 ^ 32 else (c.vreg (wA w)).getD (moveLane w) 0
      vWrite core.val w (List.replicate 64 (x, {})) s) s)

/-- VMOVG (R55): moves a word between a general register and a lane of a vector register, exact. The direction and the lane are free
values of the c and b fields; so are bits [63:32] of the general register that takes a word, of which the spec says nothing. Log 21, 37. -/
def vmovgEff (L w : Nat) (s : State) : Eff :=
  let c := s.core L
  if Config.movgToG (wC w) then
    let x := (c.vreg (wA w)).getD (moveLane w) 0
    let high := (Config.movgHigh (BitVec.ofNat 64 (c.gval (wD w))) (BitVec.ofNat 32 x)).toNat
    .next ((s.setCore L (c.setG (wD w) (x % 2 ^ 32 + 2 ^ 32 * high))).startOp L
      { eng := .vxu, gs := if wD w = 0 then [] else [wD w] }) 1
  else
    .next ((s.setCore L (c.setV (wD w) ((c.vreg (wD w)).set (moveLane w) (c.gval (wA w) % 2 ^ 32)))).startOp L
      { eng := .vxu, vs := [wD w] }) 1

/-- VMOVG (R55, R61). -/
def execVmovg (core : CoreIx) (bad : Option Nat) (s : State) : Host.Outcome State Fault Refusal :=
  done (issue core.val bad 4 0x0E vmoveLegal
    (fun w => if Config.movgToG (wC w) then { g := [wD w], v := [wA w] } else { g := [wA w], v := [wD w] })
    (vmovgEff core.val) s)

/-- VMOVV (R55): copies register a to register d, exact. -/
def execVmovv (core : CoreIx) (bad : Option Nat) (s : State) : Host.Outcome State Fault Refusal :=
  done (issue core.val bad 4 0x0F (fun w => onlyFields w [(43, 5), (38, 5)]) (fun w => { v := [wD w, wA w] })
    (fun w s => vWrite core.val w (((s.core core.val).vreg (wA w)).map fun x => (x, {})) s) s)

end Sys2Proof.Machine
end

