-- ==== Sys2Proof/Machine/ColShape.lean ====
section
/-! DEFINITION. Collective descriptors (R304), reduction shapes and their rings (R297 to R302), the division into chunks (R307), and the
arithmetic of a fold (R297, R306, R309, R310). -/

namespace Sys2Proof.Machine

open Sys2Proof

/-! Descriptor fields (R304, R368) -/

def cLen (bs : List Byte) : Nat := field bs 0x04 4
def cSrc (bs : List Byte) : Nat := field bs 0x08 8
def cDst (bs : List Byte) : Nat := field bs 0x10 8
def cRemote (bs : List Byte) : Nat := field bs 0x18 4 % 2 ^ 21
def cTag (bs : List Byte) : Nat := field bs 0x1C 4
def cRank (bs : List Byte) : Nat := field bs 0x20 2
def cEpoch (bs : List Byte) : Nat := field bs 0x22 2
def cTensor (bs : List Byte) : Nat := field bs 0x2C 4
def cShape (bs : List Byte) : Nat := field bs 0x30 1
def cDomain (bs : List Byte) : Nat := field bs 0x31 1
def cTicket (bs : List Byte) : Nat := field bs 0x32 4
def cLocal (bs : List Byte) : Nat := field bs 0x36 1
def cTerm (bs : List Byte) : Nat := bits (field bs 0x37 1) 0 2
def cResult (bs : List Byte) : Nat := bits (field bs 0x37 1) 2 2
def cRound (bs : List Byte) : Nat := bits (field bs 0x37 1) 4 2
def cRedop (bs : List Byte) : Nat := bits (field bs 0x37 1) 6 2
def cStride (bs : List Byte) : Nat := field bs 0x38 4
/-- RECV_BYTES of a PERMUTE. -/
def cRecv (bs : List Byte) : Nat := field bs 0x38 4
/-- THIN_N (R326). -/
def cThin (bs : List Byte) : Nat := field bs 0x3C 1 + 1
def cRoot (bs : List Byte) : Nat := field bs 0x3E 2

/-- Bytes of an element of a format code: BF16 has 2. -/
def cSize (fmt : Nat) : Nat := if fmt = 1 then 2 else 4
/-- Elements of one rank's contribution. -/
def cElems (bs : List Byte) : Nat := cLen bs / cSize (cTerm bs)

/-! Operations (R303) -/

def opAllreduce : Nat := 0x20
def opReduce : Nat := 0x21
def opScatter : Nat := 0x22
def opGather : Nat := 0x23
def opBroadcast : Nat := 0x24
def opBarrier : Nat := 0x25
def opScalar : Nat := 0x26
def opPermute : Nat := 0x27
def opBackup : Nat := 0x28

/-- Whether an operation moves data with no operation on it (R312). -/
def opCopies (op : Nat) : Bool := op == opGather || op == opBroadcast

/-! Shapes (R297 to R300) -/

/-- A reduction shape: levels, stripes, first rank, ranks, the child counts G and the CARRY bytes of levels 2 on. -/
structure Shape where
  levels : Nat := 1
  stripes : Nat := 1
  first : Nat := 0
  ranks : Nat := 1
  g : List Nat := [1]
  carry : List Nat := []
deriving DecidableEq, Repr

/-- The SHAPE records of a pattern generation: those of the live pattern, or those kept for the chains bound to an earlier one (R37). -/
def State.shapeRecs (s : State) (gen : Nat) : List (List Byte) :=
  if gen = s.getR PAT_GEN_LIVE then s.recs 0x08
  else match s.pat.kept.find? (·.1 == gen) with
    | some k => ((k.2.filter (·.type == 0x08)).map (·.recs)).flatten
    | none => []

/-- The SEQDOM record of a domain. -/
def State.seqdom (s : State) (d : Nat) : Option (List Byte) := (s.recs 0x09).find? fun r => field r 0 1 == d

/-- A shape from its HEADER record. -/
def shapeOf (r : List Byte) : Shape :=
  { levels := field r 2 1, stripes := max 1 (field r 3 1), first := field r 4 2, ranks := field r 6 2 + 1
    g := (List.range (field r 2 1)).map fun i => field r (8 + 2 * i) 2
    carry := (List.range 4).map fun i => field r (0x12 + i) 1 }

/-- The shape of a number in a generation. -/
def State.shape (s : State) (gen sh : Nat) : Option Shape :=
  ((s.shapeRecs gen).find? fun r => field r 0 1 == 1 && field r 1 1 == sh).map shapeOf

/-- Ranks of a level-k group. -/
def Shape.size (h : Shape) (k : Nat) : Nat := (h.g.take k).foldl (· * ·) 1

/-- G_k. -/
def Shape.gk (h : Shape) (k : Nat) : Nat := h.g.getD (k - 1) 1

/-- How many levels lie inside a device that hosts n ranks of the shape (R298). -/
def Shape.inner (h : Shape) (n : Nat) : Nat := ((List.range h.levels).filter fun k => decide (h.size (k + 1) ≤ n)).length

/-- Fields of a STAGE record (R300). -/
def stLevel (r : List Byte) : Nat := field r 2 1
/-- The stripe of a ring; 0 at level 1, where every stripe uses the same ring. -/
def stStripe (r : List Byte) : Nat := if field r 3 1 = 0xFF then 0 else field r 3 1
def stRole (r : List Byte) : Nat := field r 0x04 3
def stPrev (r : List Byte) : Nat := field r 0x07 3
def stNext (r : List Byte) : Nat := field r 0x0A 3
def stBackup (r : List Byte) : Nat := field r 0x0D 3
def stKey (r : List Byte) : Nat := field r 0x10 3
def stUp (r : List Byte) : Nat := field r 0x13 3
def stFirst (r : List Byte) : Nat := field r 0x16 2
def stMembers (r : List Byte) : Nat := field r 0x18 2
def stIndex (r : List Byte) : Nat := field r 0x1A 2

/-- Whether a member is the keystone of its ring. -/
def stIsKey (r : List Byte) : Bool := stIndex r + 1 == stMembers r

/-- No address. -/
def noAddr : Nat := 0x1FFFFF

/-- The STAGE records of a role. -/
def State.stages (s : State) (gen sh addr : Nat) : List (List Byte) :=
  (s.shapeRecs gen).filter fun r => field r 0 1 == 2 && field r 1 1 == sh && stRole r == addr

/-- An address with a coordinate replaced: dimensions 1 X, 2 Y, 3 Z. -/
def setCoord (a d v : Nat) : Nat :=
  if d = 1 then putBits a 0 4 v else if d = 2 then putBits a 4 4 v else if d = 3 then putBits a 8 5 v else a

/-- The carrier of stripe s at level k of the child group with a given keystone (R302). -/
def Shape.carrier (h : Shape) (k s key : Nat) : Nat :=
  let c := h.carry.getD (k - 2) 0
  if bits c 0 2 = 0 then key else setCoord key (bits c 0 2) (bits c 2 5 + s)

/-- The entry member of the distribute course on a ring (R311): the keystone at the top, below it the carrier through which the parent chain
reaches the group. Scalars run over the child keystones (R321). -/
def Shape.entry (h : Shape) (scalar : Bool) (k s key : Nat) : Nat :=
  if k = h.levels ∨ scalar then key else h.carrier (k + 1) s key

/-! Roles -/

def Role.domain (r : Role) : Nat := cDomain r.bytes
def Role.ticket (r : Role) : Nat := cTicket r.bytes
def Role.first (r : Role) : Nat := cRank r.bytes
def Role.locals (r : Role) : Nat := cLocal r.bytes
def Role.isScalar (r : Role) : Bool := r.op == opScalar

/-- The shape of a role. -/
def State.shp (s : State) (r : Role) : Shape := (s.shape r.gen (cShape r.bytes)).getD {}

/-- The ring records of a role. -/
def State.rings (s : State) (r : Role) : List (List Byte) := s.stages r.gen (cShape r.bytes) r.addr

/-- The record of a role at a level and stripe; a scalar runs on the first ring of a level. -/
def State.ring? (s : State) (r : Role) (level stripe : Nat) : Option (List Byte) :=
  (s.rings r).find? fun x => stLevel x == level && (r.isScalar || level == 1 || stStripe x == stripe)

/-- The levels of the shape inside the role's device. -/
def State.innerOf (s : State) (r : Role) : Nat := (s.shp r).inner r.locals

/-- The ranks a member of a ring stands for: the device's own at its first ring, else those of a child group. -/
def State.partOf (s : State) (r : Role) (rec : List Byte) : Nat × Nat :=
  if stLevel rec ≤ s.innerOf r + 1 then (r.first, r.first + r.locals)
  else
    let n := (s.shp r).size (stLevel rec - 1)
    (stFirst rec + stIndex rec * n, stFirst rec + stIndex rec * n + n)

/-- The place of a rank in a ring's group, as FOLD_HI counts it (R308): the rank itself at level 1, else the index of its child group. -/
def State.childOf (s : State) (r : Role) (rec : List Byte) (x : Nat) : Nat :=
  if stLevel rec = 1 then x else (x - stFirst rec) / max 1 ((s.shp r).size (stLevel rec - 1))

/-- FOLD_HI of an accumulate chunk that a member expects: its first rank, or first child group, less 1 (R315). -/
def State.accBefore (s : State) (r : Role) (rec : List Byte) : Nat := (s.childOf r rec (s.partOf r rec).1 + 65535) % 65536

/-- FOLD_HI after a member of a ring has folded: its last rank, or its last child group (R308). -/
def State.foldHiOf (s : State) (r : Role) (rec : List Byte) : Nat := s.childOf r rec ((s.partOf r rec).2 - 1) % 65536

/-- Whether a rank lies in a range. -/
def inside (x : Nat) (p : Nat × Nat) : Bool := decide (p.1 ≤ x) && decide (x < p.2)

/-- Whether a rank lies in a ring's group. -/
def State.groupHas (s : State) (r : Role) (rec : List Byte) (x : Nat) : Bool :=
  inside x (stFirst rec, stFirst rec + (s.shp r).size (stLevel rec))

/-! Chunks (R302, R307) -/

/-- Chunks of one rank's contribution, or of one shard of a REDUCE_SCATTER. -/
def perRank (h : Shape) (op : Nat) (bs : List Byte) : Nat :=
  if op = opScatter then (cElems bs / h.ranks + 511) / 512 else (cElems bs + 511) / 512

/-- Chunks of a collective: those of an ALLGATHER are numbered over its ranks. -/
def chunkTotal (h : Shape) (op : Nat) (bs : List Byte) : Nat :=
  if op = opScatter ∨ op = opGather then h.ranks * perRank h op bs
  else if op = opBarrier ∨ op = opPermute then 0
  else if op = opScalar then 1
  else perRank h op bs

/-- First element of a chunk within one rank's contribution, and its elements. -/
def chunkSpan (h : Shape) (op : Nat) (bs : List Byte) (j : Nat) : Nat × Nat :=
  let per := max 1 (perRank h op bs)
  if op = opScatter then
    let shard := cElems bs / h.ranks
    (j / per * shard + j % per * 512, min 512 (shard - j % per * 512))
  else if op = opScalar then (0, cElems bs)
  else
    let i := if op = opGather then j % per else j
    (i * 512, min 512 (cElems bs - i * 512))

/-- The stripe of a chunk. -/
def chunkStripe (h : Shape) (op : Nat) (bs : List Byte) (j : Nat) : Nat :=
  if op = opScalar then 0
  else if op = opGather then j % max 1 (perRank h op bs) % h.stripes else j % h.stripes

/-- The rank a chunk comes from, for the operations that fold nothing. -/
def chunkOrigin (h : Shape) (op : Nat) (bs : List Byte) (j : Nat) : Option Nat :=
  if op = opBroadcast then some (cRoot bs)
  else if op = opGather then some (h.first + j / max 1 (perRank h op bs))
  else none

/-- The rank a chunk goes to, for the operations whose result is not everywhere. -/
def chunkTarget (h : Shape) (op : Nat) (bs : List Byte) (j : Nat) : Option Nat :=
  if op = opReduce then some (cRoot bs)
  else if op = opScatter then some (h.first + j / max 1 (perRank h op bs))
  else none

/-- The stripe field of a chunk on a ring. -/
def keyOf (h : Shape) (op : Nat) (bs : List Byte) (level j : Nat) : ChunkKey :=
  { level := level, stripe := if level = 1 then 0 else chunkStripe h op bs j, chunk := j }

/-- Whether the distribute course of a chunk passes a member of a ring (R311, R312), as far as the member's own records tell: every member where the
result goes everywhere; else no member of a group without the target, the entry member always, and the members from it on up to the target's
device. Where the entry member is neither this device, nor its NEXT, nor the keystone, its place on the lap is not known here: none. -/
def State.passes (s : State) (r : Role) (rec : List Byte) (j : Nat) : Option Bool :=
  let h := s.shp r
  match chunkTarget h r.op r.bytes j with
  | none => some true
  | some t =>
    let own := s.partOf r rec
    let entry := h.entry r.isScalar (stLevel rec) (chunkStripe h r.op r.bytes j) (stKey rec)
    if !s.groupHas r rec t then some false
    else if inside t own || entry == r.addr then some true
    else if entry == stKey rec then some (decide (own.1 ≤ t))
    else if stNext rec == entry then some false
    else none

/-! Folding (R297, R306) -/

/-- One operation on two element codes: SUM, MAX or MIN on FP32, SUM on INT32. -/
def foldOp (int : Bool) (redop a b : Nat) : Nat × Flags :=
  if int then satInt32 a (toSigned 32 b)
  else if redop = 1 then vmaxFn 0 a b else if redop = 2 then vminFn 0 a b else add32 false a b

/-- The positions of a list of codes that hold NaN. -/
def nanAt (int : Bool) (vs : List Nat) : List Nat :=
  if int then [] else vs.zipIdx.filterMap fun (v, i) => if floatIsNan fp32 v then some i else none

/-- The contribution of one rank by itself. -/
def rankPart (int : Bool) (rank : Nat) (vs : List Nat) : Part :=
  let ns := nanAt int vs
  { vals := vs, info := { nans := ns.length, nanRank := if ns.isEmpty then 0xFFFF else rank, nanElem := ns.headD 0 } }

/-- Adds the value q to the running value p. NaN elements that the operation itself makes are laid to the rank given. -/
def foldPart (int : Bool) (redop rank : Nat) (p q : Part) : Part :=
  let rs := p.vals.zipWith (foldOp int redop) q.vals
  let vs := rs.map (·.1)
  let f := Flags.union (rs.map (·.2))
  let old := nanAt int p.vals
  let fresh := (nanAt int vs).filter fun i => !old.contains i
  let nan : Nat × Nat :=
    if p.info.nanRank ≠ 0xFFFF then (p.info.nanRank, p.info.nanElem)
    else if q.info.nanRank ≠ 0xFFFF ∧ q.info.nanRank ≠ rank then (q.info.nanRank, q.info.nanElem)
    else match fresh with
      | i :: _ => (rank, i)
      | [] => (0xFFFF, 0)
  { vals := vs
    info := { invalid := p.info.invalid || q.info.invalid || f.inv, overflow := p.info.overflow || q.info.overflow || f.ovf
              backup := p.info.backup || q.info.backup, nans := (nanAt int vs).length, nanRank := nan.1, nanElem := nan.2
              standRank := if p.info.standRank ≠ 0xFFFF then p.info.standRank else q.info.standRank
              standAddr := if p.info.standRank ≠ 0xFFFF then p.info.standAddr else q.info.standAddr } }

/-- The left fold of values onto a running value, each with the rank its own NaN elements are laid to. -/
def foldParts (int : Bool) (redop : Nat) (p : Option Part) (qs : List (Nat × Part)) : Option Part :=
  qs.foldl (fun p q => match p with
    | none => some q.2
    | some p => some (foldPart int redop q.1 p q.2)) p

/-- Cuts a list into runs of n. -/
def runsOf {α : Type} (n : Nat) : Nat → List α → List (List α)
  | 0, _ => []
  | fuel + 1, l => if l.isEmpty || n == 0 then [] else l.take n :: runsOf n fuel (l.drop n)

/-- The values of the groups of the levels inside the device, from the values of its ranks: each level folds runs of G_k. The rank of a
group's own NaN elements at a level above the first is free. -/
def innerParts (int : Bool) (redop free : Nat) : List Nat → List (Nat × Part) → List (Nat × Part)
  | [], ps => ps
  | g :: gs, ps =>
    let groups := (runsOf g ps.length ps).filterMap fun run => (foldParts int redop none run).map fun p => (free, p)
    innerParts int redop free gs groups

end Sys2Proof.Machine
end

