-- ==== Sys2Proof/Machine/ColOps.lean ====
section
/-! DEFINITION. The collective engine's shared operations (R294 to R296, R313, R317 to R319, R324, R330, R331): its contexts, its packets and
credits, the end of a role with its record, aborts, and members found unreachable. -/

namespace Sys2Proof.Machine

open Sys2Proof

/-! Contexts -/

/-- Changes the collective engine's state. -/
def State.modCol (s : State) (f : ColState → ColState) : State := { s with col := f s.col }

/-- The role in a context. -/
def State.role (s : State) (i : Nat) : Option Role := Tbl.find s.col.roles i

def State.setRole (s : State) (i : Nat) (r : Role) : State := s.modCol fun c => { c with roles := Tbl.insert c.roles i r }

def State.modRole (s : State) (i : Nat) (f : Role → Role) : State :=
  match s.role i with
  | some r => s.setRole i (f r)
  | none => s

/-- COL_CHAIN_TIMEOUT in FCLK. -/
def State.chainTime (s : State) : Nat := fclk (max 1 (s.get COL_CHAIN_TIMEOUT_TIME))

/-- COL_CHAIN_STATE.STATE of a context: 0 IDLE, 1 RESERVE, 2 RUN, 3 STANDBY, 4 ABORT, 5 DONE. -/
def State.chainState (s : State) (i : Nat) : Nat :=
  match s.role i with
  | some r => if r.standby then 3 else if r.granted then 2 else 1
  | none =>
    match s.col.ending.find? fun e => e.1 == i with
    | some e => if s.tagSwept (0x80 + i) then e.2.2 else 0
    | none => 0

/-- The first free context. -/
def State.freeChain (s : State) : Option Nat := (List.range 8).find? fun i => s.chainState i == 0

/-! Domains (R316 to R318) -/

/-- Whether a domain takes descriptors: defined, enabled, the engine enabled. -/
def State.domainOn (s : State) (d : Nat) : Bool :=
  decide (d < 64) && (s.seqdom d).isSome && s.flag (COL_DOM_CTRL_EN d) && s.colActive

/-- Distance of a ticket from another, as a signed 32-bit difference. -/
def ticketDiff (t next : Nat) : Int := toSigned 32 (t + 2 ^ 32 - next % 2 ^ 32)

/-- NEXT of a domain. -/
def State.nextTicket (s : State) (d : Nat) : Nat := s.getR (COL_DOM_NEXT d)

/-- Whether a domain holds or runs a ticket. A standby takes none. -/
def State.hasTicket (s : State) (d t : Nat) : Bool :=
  (s.col.held.any fun h => field h.bytes 0 1 != opBackup && h.domain == d && h.ticket == t) ||
    s.col.roles.any fun r => field r.2.bytes 0 1 != opBackup && !r.2.consumed && r.2.domain == d && r.2.ticket == t

/-- Ticket entries of a job in use (R317). -/
def State.ticketsUsed (s : State) (key : Nat) : Nat :=
  (s.col.held.filter fun h => field h.bytes 0 1 != opBackup && (s.core h.core).job == some key).length +
    (s.col.roles.filter fun r => field r.2.bytes 0 1 != opBackup && !r.2.consumed && r.2.job == some key).length

/-- Keeps the time since which a domain holds descriptors while that of NEXT has not been issued (R318). -/
def State.orderNote (s : State) (d : Nat) : State :=
  let stuck := (s.col.held.any fun h => field h.bytes 0 1 != opBackup && h.domain == d) && !s.hasTicket d (s.nextTicket d)
  let t := if !stuck then Tbl.drop s.col.orderAt d
    else if (Tbl.find s.col.orderAt d).isSome then s.col.orderAt else Tbl.insert s.col.orderAt d s.now
  s.modCol fun c => { c with orderAt := t }

/-! Packets -/

/-- The device that stands for another on a role's rings (R324). -/
def Role.dest (r : Role) (a : Nat) : Nat := match r.moved.find? fun m => m.1 == a with
  | some m => m.2
  | none => a

/-- Sends a control packet of the engine; a packet of a role is known by its context, and draws on the set-aside of its job first (R243). -/
def State.colCtl (s : State) (job : Option Nat) (dest op ctag : Nat) (pay : List Byte) (orig : Orig) : Pkt × State :=
  let p := s.mkCtl dest 0xC8 0xC8 op ctag none pay
  (p, s.offer { input := 32, pkt := p, orig := orig, job := job })

/-- The key of the payload of a control packet (R321). -/
def keyPay (domain level shape stripe course ticket : Nat) : List Byte :=
  leBytes 1 domain ++ leBytes 1 level ++ leBytes 1 shape ++ leBytes 1 (stripe % 16 + 16 * course) ++ leBytes 4 ticket

/-- Grants or returns credits to the sender of an incoming course (R313). -/
def State.sendCredit (s : State) (r : Role) (c : Credit) : State :=
  let (t, s) := s.newTag 0xC8
  (s.colCtl r.job c.dest 0x1C t (keyPay r.domain c.level (cShape r.bytes) c.stripe c.course r.ticket ++ leBytes 2 c.count) .endpoint).2

/-- Returns the credits of chunks that have left staging; nothing is owed for a value that came from this device. -/
def State.sendCredits (s : State) (r : Role) (cs : List Credit) : State :=
  (cs.filter (fun c => c.dest != s.ownAddr)).foldl (fun s c => s.sendCredit r c) s

/-- Sends CHAIN_ABORT with a reason, or REPAIR_REQ for a chunk, to PREV and NEXT of a role on its rings, but not where skip says (a ring's record
and an address). -/
def State.tellRings (s : State) (r : Role) (op : Nat) (rest : List Byte) (skip : List Byte → Nat → Bool) : State :=
  (s.rings r).foldl (fun s x =>
    ([stPrev x, stNext x].map r.dest).eraseDups.foldl (fun s a =>
      if skip x a ∨ a = s.ownAddr then s
      else
        let (t, s) := s.newTag 0xC8
        (s.colCtl r.job a op t (keyPay r.domain (stLevel x) (cShape r.bytes) (stStripe x) 0 r.ticket ++ rest) .endpoint).2) s) s

/-- CHAIN_ABORT on the rings of a role but the one it came from: level and stripe (R319). -/
def State.sendAbort (s : State) (r : Role) (reason : Nat) (from_ : Option (Nat × Nat)) : State :=
  s.tellRings r 0x1D ([0, 0] ++ leBytes 1 reason) fun x _ => from_ == some (stLevel x, stStripe x)

/-- REPAIR_REQ for a chunk to the neighbours of a role (R327). DEDUCED: a member passes it on around the ring it came from too, save to its
sender, since it has to reach every member of the shape. Log 66. -/
def State.tellRepair (s : State) (r : Role) (chunk : Nat) (skip : Option Nat) : State :=
  s.tellRings r 0x1E ([0, 0, 0] ++ leBytes 1 3 ++ leBytes 2 chunk) fun _ a => some a == skip

/-- Sends CHAIN_NOTICE of a kind to a device. -/
def State.sendNotice (s : State) (r : Role) (rec : List Byte) (course dest kind chunk addr : Nat) : State :=
  let (t, s) := s.newTag 0xC8
  let pay := keyPay r.domain (stLevel rec) (cShape r.bytes) (stStripe rec) course r.ticket ++ [0, 0, 0] ++ leBytes 1 kind ++
    leBytes 2 chunk ++ [0, 0] ++ leBytes 4 addr
  (s.colCtl r.job dest 0x1E t pay .endpoint).2

/-! Records (R331, R332) -/

/-- The metadata of the chunks a device wrote, combined: NaN count, first NaN rank, first NaN element. -/
def State.nanFields (s : State) (r : Role) : Nat × Nat × Option Nat :=
  let h := s.shp r
  let count := min 0xFFFFFFFF ((r.written.map (·.2.nans)).sum)
  let rank := (r.written.map (·.2.nanRank)).foldl min 0xFFFF
  let hit := (r.written.filter fun w => w.2.nanRank == rank).foldl (fun (b : Option (Nat × ChunkMeta)) w => match b with
    | none => some w
    | some x => if w.1 < x.1 then some w else some x) none
  if r.isScalar then (count, 0xFFFF, none)
  else if rank = 0xFFFF then (count, rank, none)
  else (count, rank, hit.map fun w => (chunkSpan h r.op r.bytes w.1).1 + w.2.nanElem)

/-- The bytes of a collective record. With no NaN rank the element, and with no member stood in for its address, is a free value. -/
def State.colRecord (s : State) (r : Role) (status detail : Nat) : List Byte × State :=
  let (nans, rank, elem) := s.nanFields r
  let (x, s) := match elem with
    | some e => (e, s)
    | none => s.draw
  let (y, s) := match r.standIns with
    | a :: _ => (a, s)
    | [] => s.draw
  let flags := b2n (r.thinInv || r.written.any (·.2.invalid)) + 2 * b2n (r.thinOvf || r.written.any (·.2.overflow)) + 4 * b2n r.thinned + 8 * b2n r.backupUsed +
    16 * b2n r.consumed + 32 * b2n (r.repaired || r.consumed) + 64 * b2n (field r.bytes 0 1 == opBackup)
  (leBytes 4 (cTag r.bytes) ++ leBytes 1 status ++ leBytes 1 (field r.bytes 0 1) ++ leBytes 1 r.domain ++ leBytes 1 flags ++
    leBytes 4 r.ticket ++ leBytes 4 nans ++ leBytes 2 rank ++ leBytes 2 (min 0xFFFF r.standIns.length) ++ leBytes 4 x ++
    leBytes 6 r.step ++ leBytes 2 r.standRank ++ leBytes 8 r.startFt ++ leBytes 8 s.ft ++ leBytes 4 (min 0xFFFFFFFF r.heldUs) ++
    leBytes 4 detail ++ leBytes 4 (y % 2 ^ 21) ++ leBytes 4 0, s)

/-- Writes a collective record and answers the value of COL_REC_PROD at which it was written. -/
def State.writeColRecord (s : State) (r : Role) (status detail : Nat) : Nat × State :=
  let (bs, s) := s.colRecord r status detail
  let n := s.getR COL_REC_PROD
  let size := 2 ^ min 12 (max 4 (s.get64 COL_REC_RING_LOG2_ENTRIES))
  let a := s.get64 COL_REC_RING_BASE * 64 + 64 * (n % size)
  let s := match place a with
    | .gddr x => s.gddrStore x bs
    | .sram L o => s.sramWrite L o bs
    | .nowhere => s
  (n, s.countWrap COL_REC_PROD_PROD)

/-! The end of a role (R317, R330) -/

/-- NEXT passes over the tickets that have completed ahead of it. n bounds them by the widest window. -/
def State.skipDone : Nat → Nat → State → State
  | 0, _, s => s
  | n + 1, d, s =>
    let k := (d, s.nextTicket d)
    if s.col.doneAhead.contains k then
      State.skipDone n d ((s.modCol fun c => { c with doneAhead := c.doneAhead.erase k }).countWrap (COL_DOM_NEXT_NEXT d))
    else s

/-- The ticket of a descriptor completes (R317): NEXT, the lowest that has not completed, moves on when it is NEXT's; a ticket ahead of NEXT is
remembered. -/
def State.ticketDone (s : State) (bytes : List Byte) : State :=
  let d := cDomain bytes
  let t := cTicket bytes
  let s := if field bytes 0 1 = opBackup then s
    else if t = s.nextTicket d then State.skipDone 1024 d (s.countWrap (COL_DOM_NEXT_NEXT d))
    else if ticketDiff t (s.nextTicket d) < 0 then s
    else s.modCol fun c => { c with doneAhead := (d, t) :: c.doneAhead.erase (d, t) }
  s.orderNote d

/-- The consumers of a chunk repaired after completion (R351): the core replays when the descriptor is in its current log, else the step is
late. -/
def State.lateRepair (s : State) (r : Role) : State :=
  if (s.logFind r.core r.number).isSome then s.replayCore r.core
  else (s.set DET_STATUS_LATE_REPAIR 1).setR64 DET_LATE_STEP (r.step % 2 ^ 48)

/-- Chunks written or forwarded (COL_CHAIN_CHUNKS.DONE). -/
def Role.doneChunks (r : Role) : Nat := min 65535 (((r.written.map (·.1)) ++ (r.folded.map (·.chunk))).eraseDups.length)

/-- A role ends outside any context: its record, the completion of its descriptor, and its ticket. -/
def State.finishRole (s : State) (r : Role) (status detail : Nat) : State :=
  let (n, s) := s.writeColRecord r status detail
  let s := s.trace trColRole 0xC8 (r.domain + 256 * field r.bytes 0 1) r.ticket status r.doneChunks
  if r.consumed then s.lateRepair r
  else
    let d : Desc := { bytes := r.bytes, pc := 0, number := r.number, step := r.step, status := status, detail := n }
    (s.endRole r.core r.queue r.number d).ticketDone r.bytes

/-- The staging of a context goes to a sweep (R267). -/
def State.dropStaging (s : State) (i : Nat) (r : Role) (st : Nat) : State :=
  let s := (s.modCells r.cells fun c => { c with ref := 0 }).sweep [0x80 + i]
  s.modCol fun c => { c with ending := (c.ending.filter (·.1 != i)) ++ [(i, r.domain, st)] }

/-- Keeps a completed role for REPAIR_REQ, for as long as COL_CHAIN_TIMEOUT after its completion (R328). -/
def State.keepDone (s : State) (r : Role) : State :=
  let live := s.col.done.filter fun d => decide (s.now < d.endAt + s.chainTime) && !(d.role.domain == r.domain && d.role.ticket == r.ticket &&
    d.role.addr == r.addr)
  s.modCol fun c => { c with done := live ++ [{ role := { r with cells := [], aside := 0 }, endAt := s.now }] }

/-- Whether the last distribute chunk of a role's ticket has passed it on a ring: the role is whole, the course of every chunk is known to pass it or
not, and some chunk passed. A barrier has no distribute chunk, and a phase of a thinned reduction that sends nothing none either. -/
def State.lastPassed (s : State) (r : Role) (rec : List Byte) : Bool :=
  let js := List.range (chunkTotal (s.shp r) r.op r.bytes)
  !r.thinned && js.all (fun j => (s.passes r rec j).isSome) && js.any fun j => s.passes r rec j == some true

/-- The level-1 predecessor of a device with a backup lets the standby go once the last distribute chunk has passed (R325). -/
def State.letStandbyGo (s : State) (r : Role) : State :=
  (s.rings r).foldl (fun s x =>
    if stLevel x = 1 ∧ stBackup x ≠ noAddr ∧ !(r.moved.any fun m => m.1 == stNext x) ∧ s.lastPassed r x then
      s.sendNotice r x 2 (stBackup x) 2 0 (stNext x)
    else s) s

/-- A role that passed late distribute chunks goes back to the completed ones, with the credits it has left; one that failed goes for good. -/
def State.endPassing (s : State) (i : Nat) (r : Role) (at_ : Nat) (good : Bool) : State :=
  let s := (s.dropStaging i r (if good then 5 else 4)).modCol fun c => { c with roles := Tbl.drop c.roles i }
  if !good then s
  else s.modCol fun c => { c with done := c.done ++ [{ role := { r with cells := [], aside := 0, passing := none }, endAt := at_ }] }

/-- A permute that does not complete leaves nothing in force (R373): nothing swaps, the NEXT slot is undefined once it has begun to move, and what it
activated clears. -/
def State.permClear (s : State) (r : Role) : State :=
  let e := r.entry
  let a := s.slotAt e 1
  let n := s.slotBytes e
  if !r.waitOver && !s.flag (MEM_SHD_STATE_PERMUTING e) then s
  else
    let s := s.gddrForget fun x => decide (a ≤ x) && decide (x < a + n)
    let s := (s.set (MEM_SHD_STATE_PERMUTING e) 0).setR (MEM_SHD_RECV e) 0
    let s := r.activated.foldl (fun s x => s.set (MEM_XLATE_CTRL_ACTIVE x) 0) s
    s.modCol fun c => { c with permOwner := Tbl.drop c.permOwner e }

/-- Ends the role of a context with a status. -/
def State.closeRole (s : State) (i status detail : Nat) : State :=
  match s.role i with
  | none => s
  | some r =>
    let good := status = 0 ∨ status = 0x17
    if let some t := r.passing then s.endPassing i r t good else
    let s := s.dropStaging i r (if good then 5 else 4)
    let s := if r.op = opPermute ∧ status ≠ 0 ∧ status ≠ 0x35 then s.permClear r else s
    let s := s.modCol fun c => { c with roles := Tbl.drop c.roles i
                                        arrived := c.arrived.filter fun p =>
                                          !(field p.pay 0 1 == r.domain && field p.pay 4 4 == r.ticket) }
    let s := if good && r.op != opPermute then (if r.consumed then s else s.letStandbyGo r).keepDone r else s
    s.finishRole { r with cells := [], aside := 0 } status detail

/-- A role fails: it aborts its chain and completes with a status (R315, R319, R323, R324). -/
def State.failRole (s : State) (i status detail : Nat) (from_ : Option (Nat × Nat) := none) : State :=
  match s.role i with
  | none => s
  | some r =>
    let s := s.modCol fun c => { c with aborted := (r.domain, r.ticket) :: c.aborted.erase (r.domain, r.ticket) }
    (s.sendAbort r status from_).closeRole i status detail

/-! Repair (R327) -/

/-- The credits that chunks of a role's staging give back when they leave it (R313). -/
def backOf (own : Nat) (xs : List (Option Staged)) : List Credit :=
  xs.filterMap fun x => match x with
    | some c => if c.src = own then none
        else some { dest := c.src, course := c.course, level := c.key.level, stripe := c.key.stripe, count := 1 }
    | none => none

/-- A chunk runs again on a role (R327): what was taken, folded, passed and written of it is forgotten, what is staged of it leaves, and its outputs
carry REPAIR. -/
def State.beginRepair (s : State) (i j : Nat) : State :=
  let back := match s.role i with
    | some r => backOf s.ownAddr ((r.staged.filter (·.key.chunk == j)).map some) ++ (r.ready.filter (·.key.chunk == j)).flatMap (·.back)
    | none => []
  let s := match s.role i with
    | some r => s.sendCredits r back
    | none => s
  (s.modRole i fun r =>
    { r with
      passing := none, granted := r.granted && r.passing.isNone
      repairing := j :: r.repairing.erase j, repaired := true, lastAt := s.now, begun := r.begun.erase j, bad := r.bad.filter (· != j)
      seen := r.seen.filter (·.2.chunk != j), folded := r.folded.filter (·.chunk != j), passed := r.passed.filter (·.chunk != j)
      written := r.written.filter (·.1 != j), staged := r.staged.filter (·.key.chunk != j), ready := r.ready.filter (·.key.chunk != j)
    }).count COL_REPAIRS_COUNT

/-- A member reads a staged chunk and finds a parity error (R327): it is reported, the chunk goes no further, and every member of the shape runs it
again. -/
def State.askRepair (s : State) (i : Nat) (r : Role) (j : Nat) : State :=
  let s := (s.report 0x20 0 i).modCol fun c => { c with repairs := (r.domain, r.ticket, j) :: c.repairs.erase (r.domain, r.ticket, j) }
  (s.beginRepair i j).tellRepair r j none

/-- A descriptor held under the ticket rule completes without having started: so does its ticket (R317). -/
def State.endHeld (s : State) (h : HeldDesc) (status detail : Nat) : State :=
  let r : Role := { core := h.core, queue := h.queue, number := h.number, bytes := h.bytes, gen := h.gen, op := field h.bytes 0 1
                    addr := s.ownAddr, step := (s.seedStep h.core).2, startFt := s.ft, heldUs := (s.now - h.since) / 1650 }
  let s := s.modCol fun c => { c with held := c.held.erase h }
  let (n, s) := s.writeColRecord r status detail
  let s := s.trace trColRole 0xC8 (r.domain + 256 * r.op) r.ticket status 0
  (s.endRole h.core h.queue h.number { bytes := h.bytes, pc := 0, number := h.number, status := status, detail := n }).ticketDone h.bytes

/-! Members found unreachable (R324) -/

/-- CTAG of the scalar packets of a role (R321). -/
def Role.scalarTag (r : Role) : Nat := r.domain % 64 * 1024 + r.ticket % 1024

/-- Sends a scalar packet: up to 12 values, no credit (R321). -/
def State.sendScalar (s : State) (i : Nat) (r : Role) (o : ChunkOut) : State :=
  let op := if o.course = 0 then 0x11 + o.key.level else 0x16 + o.key.level
  let (p, s) := s.colCtl r.job o.dest op r.scalarTag ((o.part.vals.map (leBytes 4)).flatten) (.chain i)
  s.modRole i fun r => { r with sent := r.sent ++ [{ o with pkt := some p }], lastAt := s.now }

/-- The payload of a barrier packet. -/
def barPay (domain level shape ticket : Nat) : List Byte := leBytes 1 domain ++ leBytes 1 level ++ leBytes 1 shape ++ [0] ++ leBytes 4 ticket

/-- Sends an arrival to a keystone of another device; a role's own arrival is known by its context. -/
def State.sendArrive (s : State) (dest domain level shape ticket : Nat) (orig : Orig) : State :=
  let (t, s) := s.newTag 0xC8
  let (p, s) := s.colCtl none dest 0x10 t (barPay domain level shape ticket) orig
  s.modCol fun c => { c with arrived := c.arrived ++ [p] }

/-- The arrivals of a role that a device has not released go to another one. -/
def State.moveArrivals (s : State) (i : Nat) (r : Role) (a b : Nat) : State :=
  let mine (p : Pkt) : Bool := p.destAddr == a && field p.pay 0 1 == r.domain && field p.pay 4 4 == r.ticket
  let lost := s.col.arrived.filter mine
  lost.foldl (fun s p => s.sendArrive b r.domain (field p.pay 1 1) (field p.pay 2 1) r.ticket (.chain i))
    (s.modCol fun c => { c with arrived := c.arrived.filter fun p => !mine p, resend := c.resend.filter fun x => !mine x.2 })

/-- Adds a device to those whose ranks a backup supplied. -/
def Role.standIn (r : Role) (a : Nat) : Role := if r.standIns.contains a then r else { r with standIns := r.standIns ++ [a] }

/-- A sender finds a member unreachable: its backup is told to act and takes over what is not acknowledged; without one the role completes with
MEMBER_LOST and aborts its chain. -/
def State.unreach (s : State) (i a : Nat) : State :=
  match s.role i with
  | none => s
  | some r =>
    match (s.rings r).find? fun x => stNext x == a && stBackup x != noAddr && !(r.moved.any fun m => m.1 == a) with
    | none => s.failRole i 0x15 0
    | some x =>
      let b := stBackup x
      let s := s.sendNotice r x 0 b 1 0 a
      let lost := (r.sent.filter (·.dest == a)).map fun o => { o with dest := b, back := [], pkt := none }
      let s := s.modRole i fun r => { (r.standIn a) with
        moved := r.moved ++ [(a, b)], sent := r.sent.filter (·.dest != a), lastAt := s.now
        ready := (if r.isScalar then [] else lost) ++ r.ready.map fun o => if o.dest == a then { o with dest := b } else o }
      let s := if r.isScalar then lost.foldl (fun s o => s.sendScalar i r o) s else s
      s.moveArrivals i r a b

/-- Whether a role sends to a device: to the next member of a ring, or a carrier. -/
def State.sendsTo (s : State) (r : Role) (a : Nat) : Bool :=
  (!r.standby && (s.rings r).any fun x => stNext x == a) || r.ready.any (·.dest == a) || r.sent.any (·.dest == a)

/-- Where a packet of a role was going, as the shape names it. -/
def Role.named (r : Role) (a : Nat) : Nat := match r.moved.find? fun m => m.2 == a with
  | some m => m.1
  | none => a

/-- A permute fails (R373): its descriptor completes with PERMUTE_FAILED for a move. -/
def State.permFail (s : State) (i move : Nat) : State := s.closeRole i 0x36 move

/-- Takes the origin discards of the engine's packets (R226): their destinations are unreachable. n bounds the discards that follow from one. -/
def State.takeLost : Nat → State → State
  | 0, s => s.sw fun w => { w with failed := w.failed.filter fun f => match f.2.1 with | .chain _ => false | _ => true }
  | n + 1, s =>
    match s.switch.failed.find? fun f => match f.2.1 with | .chain _ => true | _ => false with
    | none => s
    | some f =>
      let s := s.sw fun w => { w with failed := w.failed.erase f }
      match f.2.1 with
      | .chain i =>
        match s.role i with
        | some r =>
          let move := ((r.movesOut.find? fun o => o.pkt == f.1).map (·.xfer.grp)).getD 0
          State.takeLost n (if r.op = opPermute then s.permFail i move else s.unreach i (r.named f.1.destAddr))
        | none => State.takeLost n s
      | _ => State.takeLost n s

end Sys2Proof.Machine
end

