-- ==== Sys2Proof/Machine/Racc.lean ====
section
/-! DEFINITION. The rows of the RACC front end (R149 to R153), and of the GDDR7 subsystem's training and shutdown (R144, R408). -/

namespace Sys2Proof.Machine

open Sys2Proof

/-- RACC_PACKET (R150). -/
def execRaccPacket (bad : Option Nat) (s : State) : Host.Outcome State Fault Refusal :=
  if !s.memOpen then done s
  else match s.takeInb fun x => x.pkt.data && x.pkt.opcode == 0x42 with
    | some (x, s) => done (s.raccArrive bad x.pkt)
    | none => done s

/-- GATE_TIMEOUT (R153): the awaited rank of an open entry has received nothing for MEM_GATE_TIMEOUT. -/
def execGateTimeout (entry : Nat) (s : State) : Host.Outcome State Fault Refusal :=
  match s.mem.gates[entry]? with
  | some g =>
    if s.fatal || g.closed.isSome then done s
    else done ((s.passTo (g.lastAt + s.gateTime)).closeGate g 1)
  | none => done s

/-- TOMBSTONE_EXPIRY (R152): a tombstone's life ends and its entry is free. -/
def execTombstoneExpiry (entry : Nat) (s : State) : Host.Outcome State Fault Refusal :=
  match s.mem.gates[entry]? with
  | some g =>
    match g.closed with
    | some t => done (if s.fatal then s else (s.passTo t).modMem fun m => { m with gates := m.gates.erase g })
    | none => done s
  | none => done s

/-- TRAINING_DONE (R144, R145): the steps of a controller's training have passed, or one failed with a code and the channels it failed on. -/
def execTrainingDone (ctl : CtlIx) (failCode failMap : Nat) (s : State) : Host.Outcome State Fault Refusal :=
  let c := ctl.val
  if s.fatal || s.get (MEM_CH_STATUS_STATE c) != 1 then done s
  else
    let rate := Tbl.read s.mem.rates 0 c
    let s := ((s.set (MEM_CH_STATUS_STATE c) (if failCode = 0 then 2 else 3)).set (MEM_CH_STATUS_CODE c) failCode).set
      (MEM_CH_STATUS_CHANNELS c) (if failCode = 0 then 0 else failMap)
    let s := if failCode = 0 then s.set (MEM_CH_STATUS_RATE c) rate else s
    done ((s.gddrForget fun a => s.ctlOf a == c).showTraining)

/-- MEM_SHUTDOWN_DONE (R408, R409): every accepted access has completed; a pending enable is checked as one written then. -/
def execMemShutdownDone (s : State) : Host.Outcome State Fault Refusal :=
  if s.fatal || !s.mem.shutting then done s
  else
    let s := s.modMem fun m => { m with shutting := false }
    done (if s.flag MEM_CTRL_ENABLE_PENDING then (s.set MEM_CTRL_ENABLE_PENDING 0).memEnable else s)

end Sys2Proof.Machine
end

