-- ==== Sys2Proof/Machine/Chunks.lean ====
section
/-! DEFINITION. The courses of a chain (R306 to R315, R321): local terms, the fold at a member of a ring, the handoff to a carrier, the
distribute course, the writing of results, and the sending of chunks and scalars. -/

namespace Sys2Proof.Machine

open Sys2Proof

/-! Local terms -/

/-- Whether a role works on the accumulators of a thinned reduction (R326). -/
def Role.thin (r : Role) : Bool := decide (cThin r.bytes > 1) && field r.bytes 0 1 != opPermute

/-- Whether elements are INT32. -/
def Role.int (r : Role) : Bool := cTerm r.bytes == 2

/-- Where elements of local rank k lie, and the size of one: its contribution, or its accumulator. -/
def Role.termAt (r : Role) (k start : Nat) : Nat × Nat :=
  if r.thin then (cDst r.bytes + 4 * cElems r.bytes * (1 + k) + 4 * start, 4)
  else (cSrc r.bytes + k * cStride r.bytes + start * cSize (cTerm r.bytes), cSize (cTerm r.bytes))

/-- Whether a place cannot be accessed for a role now: its core replays and has not issued the descriptor again (R345), or the GDDR7 subsystem takes
no accesses. -/
def State.placeWaits (s : State) (r : Role) (a : Nat) : Bool :=
  match place a with
  | .sram L _ => L == r.core && !r.consumed && (s.desc r.core r.queue r.number).isNone
  | .gddr _ => !s.memOpen
  | .nowhere => false

/-- Whether the terms of a role cannot be read now; before the accumulation of a thinned reduction that asks for SRC and the accumulators. -/
def State.termsWait (s : State) (r : Role) : Bool :=
  s.placeWaits r (r.termAt 0 0).1 || (r.waiting && s.placeWaits r (cSrc r.bytes))

/-- The local ranks whose contribution a chunk needs. -/
def State.termRanks (s : State) (r : Role) (j : Nat) : List Nat :=
  match chunkOrigin (s.shp r) r.op r.bytes j with
  | none => List.range r.locals
  | some x => if inside x (r.first, r.first + r.locals) then [x - r.first] else []

/-- Reads the contributions of the ranks of a chunk: each rank's values, and the first read that fails. -/
def State.readTerms (s : State) (r : Role) (j : Nat) (bad : Option Nat) : List (Nat × Part) × Option Nat × State :=
  let (start, n) := chunkSpan (s.shp r) r.op r.bytes j
  (s.termRanks r j).foldl (fun (acc : List (Nat × Part) × Option Nat × State) k =>
    match acc.2.1 with
    | some _ => acc
    | none =>
      let (a, size) := r.termAt k start
      let (x, s) := acc.2.2.readRange a (n * size) bad
      match x.fail with
      | some (st, _) => (acc.1, some st, s)
      | none => (acc.1 ++ [(r.first + k, rankPart r.int (r.first + k) (termCodes size x.bytes))], none, s)) ([], none, s)

/-- A value that comes from a standby carries its mark (R324). -/
def Role.mark (r : Role) (p : Part) : Part :=
  if !r.active then p
  else
    { p with info := { p.info with
        backup := true
        standRank := if p.info.standRank = 0xFFFF then r.first else p.info.standRank
        standAddr := if p.info.standRank = 0xFFFF then r.addr else p.info.standAddr } }

/-! Results (R306, R311, R312) -/

/-- Whether the device writes a chunk. -/
def State.mustWrite (s : State) (r : Role) (j : Nat) : Bool :=
  match chunkTarget (s.shp r) r.op r.bytes j with
  | none => true
  | some t => inside t (r.first, r.first + r.locals)

/-- Where a chunk goes. -/
def State.resultAt (s : State) (r : Role) (j : Nat) : Nat :=
  let h := s.shp r
  let (start, _) := chunkSpan h r.op r.bytes j
  let size := cSize (cResult r.bytes)
  let per := max 1 (perRank h r.op r.bytes)
  if r.op = opGather then cDst r.bytes + j / per * cLen r.bytes + start * size
  else if r.op = opScatter then
    cDst r.bytes + ((h.first + j / per - r.first) * (cElems r.bytes / h.ranks) + j % per * 512) * size
  else cDst r.bytes + start * size

/-- The result codes of a chunk, and what the conversion raises. -/
def State.resultOf (s : State) (r : Role) (j : Nat) (vals : List Nat) : List Nat × Flags :=
  let start := (chunkSpan (s.shp r) r.op r.bytes j).1
  if r.int then (vals, {})
  else
    let f := if cResult r.bytes = 1 then (floatFmt 1).getD fp32 else fp32
    let rs := vals.zipIdx.map fun (v, i) =>
      toFloat f (cRound r.bytes) (draw16 r.seed r.step (cTensor r.bytes) (start + i)) false (val32 v)
    (rs.map (·.1), Flags.union (rs.map (·.2)))

/-- Notes what a chunk's metadata says of backups. -/
def Role.noteInfo (r : Role) (m : ChunkMeta) : Role :=
  let r := { r with backupUsed := r.backupUsed || m.backup, standRank := if r.standRank = 0xFFFF then m.standRank else r.standRank }
  if m.standRank ≠ 0xFFFF then r.standIn m.standAddr else r

/-- A member writes a chunk the first time it holds it; a write that fails ends the role. -/
def State.writeChunk (s : State) (i j : Nat) (p : Part) : State :=
  match s.role i with
  | none => s
  | some r =>
    if !s.mustWrite r j || r.written.any (·.1 == j) then s
    else
      let (codes, f) := s.resultOf r j p.vals
      let bs := (codes.map (leBytes (cSize (cResult r.bytes)))).flatten
      let (fail, s) := s.writeRange (s.resultAt r j) bs
      let info := { p.info with nans := (nanAt r.int p.vals).length, invalid := p.info.invalid || f.inv, overflow := p.info.overflow || f.ovf }
      let s := s.modRole i fun r => { r.noteInfo info with written := r.written ++ [(j, info)] }
      match fail with
      | some (st, _) => s.failRole i st j
      | none => s

/-! Sending -/

/-- The operation fields of a chunk packet (R308). Fields that nothing sets are free. -/
def State.chunkFields (s : State) (r : Role) (o : ChunkOut) : List Byte × State :=
  let m := o.part.info
  let (x, s) := s.draw
  let elem := if m.nanRank = 0xFFFF then x % 2 ^ 16 else m.nanElem
  let who := if m.standRank = 0xFFFF then x / 2 ^ 16 % 2 ^ 21 else m.standAddr
  (leBytes 1 r.domain ++ leBytes 1 (o.key.level + 8 * o.key.stripe + 128 * b2n o.repair) ++ leBytes 4 r.ticket ++
    leBytes 2 o.key.chunk ++ leBytes 2 o.foldHi ++ leBytes 2 r.step ++ leBytes 2 (cEpoch r.bytes) ++
    leBytes 1 (cShape r.bytes % 16 + 16 * cRedop r.bytes) ++ leBytes 1 (b2n m.invalid + 2 * b2n m.overflow + 4 * b2n m.backup) ++
    leBytes 4 m.nans ++ leBytes 2 m.nanRank ++ leBytes 2 elem ++ leBytes 2 m.standRank ++ leBytes 3 who, s)

/-- The data opcode of a course (R307). -/
def courseOp (c : Nat) : Nat := if c = 0 then 0x50 else if c = 1 then 0x52 else 0x51

/-- The chunk packet of an output, carrying the generation the role is bound to. -/
def State.chunkPkt (s : State) (r : Role) (o : ChunkOut) : Pkt × State :=
  let (t, s) := s.newTag 0xC8
  let (fs, s) := s.chunkFields r o
  let addr := 4 * (chunkSpan (s.shp r) r.op r.bytes o.key.chunk).1
  let p := s.mkData o.dest 0xC8 0xC8 (courseOp o.course) t none 4 0 0 addr fs ((o.part.vals.map (leBytes 4)).flatten)
  (p.setH 96 8 r.gen, s)

/-- Sends a chunk from a context: its credit is used, and the chunks it came from return theirs. A chunk whose staged copy fails its parity check is
not sent but repaired (R327). -/
def State.sendChunk (s : State) (i : Nat) (r : Role) (o : ChunkOut) : State :=
  if r.bad.contains o.key.chunk then s.askRepair i r o.key.chunk else
  let (p, s) := s.chunkPkt r o
  let s := s.modRole i fun r =>
    { r with
      ready := r.ready.erase o, sent := r.sent ++ [{ o with pkt := some p, back := [] }], lastAt := s.now
      credits := r.credits.map fun c =>
        if c.dest == o.dest && c.course == o.course && c.level == o.key.level && c.stripe == o.key.stripe then { c with count := c.count - 1 }
        else c }
  let s := (s.offer { input := 32, pkt := p, orig := .chain i, job := r.job }).busy colSet ((o.part.vals.length + 127) / 128)
  s.sendCredits r o.back

/-- Whether a role holds a credit for an output; none is needed towards another role of this device. -/
def Role.hasCredit (r : Role) (own : Nat) (o : ChunkOut) : Bool :=
  o.dest == own || r.credits.any fun c =>
    c.dest == o.dest && c.course == o.course && c.level == o.key.level && c.stripe == o.key.stripe && decide (0 < c.count)

/-- An output of a role: a scalar leaves at once, a chunk waits for a credit. -/
def State.putOut (s : State) (i : Nat) (r : Role) (o : ChunkOut) : State :=
  let o := { o with dest := r.dest o.dest, part := r.mark o.part, repair := r.repairing.contains o.key.chunk }
  if r.isScalar then s.sendScalar i r o else s.modRole i fun r => { r with ready := r.ready ++ [o] }

/-! The distribute course (R311, R312) -/

/-- The key of a chunk on a ring of a role. -/
def State.keyAt (s : State) (r : Role) (level j : Nat) : ChunkKey := keyOf (s.shp r) r.op r.bytes level j

/-- A finished chunk on a ring: it goes on to the next member unless that is the entry member or the destination lies here, and it is written, or
starts the course of the child group. n bounds the levels. -/
def State.spread : Nat → Nat → Nat → Nat → Part → List Credit → State → State
  | 0, _, _, _, _, _, s => s
  | n + 1, i, level, j, p, back, s =>
    match s.role i with
    | none => s
    | some r =>
      let h := s.shp r
      let key := s.keyAt r level j
      match s.ring? r level key.stripe with
      | none => (s.writeChunk i j p).sendCredits r back
      | some rec =>
        let own := s.partOf r rec
        let here := match chunkTarget h r.op r.bytes j with
          | none => true
          | some t => inside t own
        let on := stNext rec != h.entry r.isScalar level (chunkStripe h r.op r.bytes j) (stKey rec) &&
          (match chunkTarget h r.op r.bytes j with
            | none => true
            | some t => !inside t own)
        let s := s.modRole i fun r => { r with passed := key :: r.passed.erase key, lastAt := s.now }
        let s := if !here then s
          else if level ≤ s.innerOf r + 1 then s.writeChunk i j p
          else State.spread n i (level - 1) j p [] s
        if on then s.putOut i r { dest := stNext rec, course := 2, key := key, part := p, foldHi := h.ranks - 1, back := back }
        else s.sendCredits r back

/-! The accumulate course (R309, R310) -/

/-- What the fold of a chunk at a member of a ring has to have: whether it takes part, the partial of the member before, and a term of its
own. -/
def State.foldNeeds (s : State) (r : Role) (rec : List Byte) (j : Nat) : Bool × Bool × Bool :=
  let own := s.partOf r rec
  match chunkOrigin (s.shp r) r.op r.bytes j with
  | none => (true, decide (stIndex rec > 0), true)
  | some x => (s.groupHas r rec x && decide (x < own.2), decide (x < own.1), inside x own)

/-- The terms of a member at its first ring: its ranks' contributions through the levels inside the device. The rank of NaN elements that an inner
level makes is free. -/
def State.ownTerms (s : State) (r : Role) (j : Nat) (bad : Option Nat) : List (Nat × Part) × Option Nat × State :=
  let (ts, fail, s) := s.readTerms r j bad
  let (x, s) := s.draw
  let h := s.shp r
  let ps := if opCopies r.op then ts else innerParts r.int (cRedop r.bytes) (x % 65535) (h.g.take (s.innerOf r)) ts
  (ps.map fun p => (p.1, r.mark p.2), fail, s)

/-- Folds a chunk at a member of a ring when everything it needs is there, and passes it on: to the next member, or from the keystone to the
carrier of the parent group, or at the top into the distribute course. n bounds the levels. -/
def State.foldAt : Nat → Nat → Nat → Nat → Option Nat → State → State
  | 0, _, _, _, _, s => s
  | n + 1, i, level, j, bad, s =>
    match s.role i with
    | none => s
    | some r =>
      let h := s.shp r
      let key := s.keyAt r level j
      match s.ring? r level key.stripe with
      | none => s
      | some rec =>
        let (takes, needAcc, needTerm) := s.foldNeeds r rec j
        let acc := r.staged.find? fun c => c.course == 0 && c.key == key
        let hand := r.staged.find? fun c => c.course == 1 && c.key == key
        let first := decide (level ≤ s.innerOf r + 1)
        if !takes || r.folded.contains key || (needAcc && acc.isNone) || (!first && needTerm && hand.isNone) then s
        else if r.bad.contains j && (needAcc || (!first && needTerm)) then s.askRepair i r j
        else
          let (x, s) := s.draw
          let (ts, fail, s) := if !needTerm then ([], none, s)
            else if first then s.ownTerms r j bad
            else ((hand.map fun c => (x % 65535, c.part)).toList, none, s)
          match fail with
          | some st => s.failRole i st j
          | none =>
            match foldParts r.int (cRedop r.bytes) (if needAcc then acc.map (·.part) else none) ts with
            | none => s
            | some p =>
              let back := backOf s.ownAddr [if needAcc then acc else none, if first then none else hand]
              let s := s.modRole i fun r =>
                { r with folded := key :: r.folded, lastAt := s.now
                         staged := r.staged.filter fun c => !(c.key == key && c.course != 2) }
              let s := s.busy colSet ((p.vals.length * ts.length + 127) / 128)
              let s := if opCopies r.op then s.writeChunk i j p else s
              if !stIsKey rec then
                s.putOut i r { dest := stNext rec, course := 0, key := key, part := p, foldHi := s.foldHiOf r rec, back := back }
              else if level = h.levels then State.spread 6 i level j p back s
              else
                let up := s.keyAt r (level + 1) j
                let a := if r.isScalar then r.addr else h.carrier (level + 1) (chunkStripe h r.op r.bytes j) r.addr
                if a = r.addr then
                  let s := s.modRole i fun r => { r with staged := r.staged ++ [{ course := 1, key := up, part := p, src := s.ownAddr }] }
                  State.foldAt n i (level + 1) j bad (s.sendCredits r back)
                else
                  s.putOut i r { dest := a, course := 1, key := up, part := p, back := back
                                 foldHi := if level = 1 then (stFirst rec + h.size 1 - 1) % 65536 else h.gk level - 1 }

/-- Whether a chunk starts at this device: at the first member of its first ring, at the device of its origin, or where no ring is. -/
def State.startsHere (s : State) (r : Role) (j : Nat) : Bool :=
  let h := s.shp r
  if s.innerOf r ≥ h.levels then true
  else match s.ring? r (s.innerOf r + 1) (s.keyAt r (s.innerOf r + 1) j).stripe with
    | none => match chunkOrigin h r.op r.bytes j with
      | none => true
      | some x => inside x (r.first, r.first + r.locals)
    | some rec => let (takes, needAcc, _) := s.foldNeeds r rec j; takes && !needAcc

/-- Takes up the local terms of a chunk that starts here. -/
def State.beginChunk (s : State) (i j : Nat) (bad : Option Nat) : State :=
  match s.role i with
  | none => s
  | some r =>
    let h := s.shp r
    let level := s.innerOf r + 1
    let s := s.modRole i fun r => { r with begun := j :: r.begun }
    if level ≤ h.levels ∧ (s.ring? r level (s.keyAt r level j).stripe).isSome then State.foldAt 6 i level j bad s
    else
      let (ts, fail, s) := s.ownTerms r j bad
      match fail, foldParts r.int (cRedop r.bytes) none ts with
      | some st, _ => s.failRole i st j
      | none, none => s
      | none, some p =>
        if level > h.levels then s.writeChunk i j p
        else
          s.putOut i r { dest := h.carrier level (chunkStripe h r.op r.bytes j) r.addr, course := 1, key := s.keyAt r level j, part := p
                         foldHi := if level ≤ 2 then (r.first + r.locals - 1) % 65536 else h.gk (level - 1) - 1 }

/-! Completion -/

/-- Whether a role has done all it owes to a chunk. -/
def State.chunkWhole (s : State) (r : Role) (j : Nat) : Bool :=
  let h := s.shp r
  let rings := (s.rings r).filter fun rec => r.isScalar || stLevel rec == 1 || stStripe rec == chunkStripe h r.op r.bytes j
  let rings := if r.isScalar then rings.filter fun rec => s.ring? r (stLevel rec) 0 == some rec else rings
  (!s.startsHere r j || r.begun.contains j) && (!s.mustWrite r j || r.written.any (·.1 == j)) &&
    rings.all fun rec =>
      let key := s.keyAt r (stLevel rec) j
      (!(s.foldNeeds r rec j).1 || r.folded.contains key) &&
        (s.passes r rec j != some true || r.passed.contains key)

/-- Whether a role has nothing left to do: every chunk whole, nothing staged or ready, every chunk sent acknowledged. -/
def State.roleWhole (s : State) (r : Role) : Bool :=
  !r.standby && r.granted && r.op != opBarrier && r.op != opPermute && r.ready.isEmpty && r.staged.isEmpty &&
    r.sent.all (fun o => match o.pkt with | some p => !p.data | none => true) &&
    (r.passing.isSome || (List.range (chunkTotal (s.shp r) r.op r.bytes)).all (s.chunkWhole r))

/-- Completes the role of a context when it has nothing left to do. -/
def State.roleCheck (s : State) (i : Nat) : State :=
  match s.role i with
  | some r => if s.roleWhole r then s.closeRole i (if r.repaired then 0x17 else 0) 0 else s
  | none => s

/-- The end of a command of the engine: packets that could not leave, then roles that have nothing left to do. -/
def State.colEnd (s : State) : State := (List.range 8).foldl State.roleCheck (s.takeLost 64)

/-! Staging (R313) -/

/-- The incoming courses of a role: course, level, stripe and sender. -/
def State.courses (s : State) (r : Role) : List Credit :=
  let h := s.shp r
  (s.rings r).flatMap fun x =>
    let one (c dest : Nat) : Credit := { dest := r.dest dest, course := c, level := stLevel x, stripe := stStripe x, count := r.window }
    let stripes := if stLevel x = 1 then List.range h.stripes else [stStripe x]
    let acc := if stIndex x > 0 then [one 0 (stPrev x)] else []
    let child := ((s.rings r).find? fun y => stLevel y + 1 == stLevel x && (stLevel y == 1 || stStripe y == stStripe x)).map stKey
    let hand := match child with
      | some k => if stLevel x > s.innerOf r + 1 ∧ k ≠ r.addr then [one 1 k] else []
      | none => []
    let dist := if stripes.all fun t => h.entry false (stLevel x) t (stKey x) == r.addr then [] else [one 2 (stPrev x)]
    acc ++ hand ++ dist

/-- The credits an activated standby takes over from the device it stands for: those of each outgoing course. -/
def State.takenCredits (s : State) (r : Role) : List Credit :=
  let h := s.shp r
  (s.rings r).flatMap fun x =>
    let one (c dest level stripe : Nat) : Credit := { dest := r.dest dest, course := c, level := level, stripe := stripe, count := r.window }
    let stripes := if stLevel x = 1 then List.range h.stripes else [stStripe x]
    [one 0 (stNext x) (stLevel x) (stStripe x), one 2 (stNext x) (stLevel x) (stStripe x)] ++
      (if stIsKey x && decide (stLevel x < h.levels) then
        stripes.map fun t => one 1 (h.carrier (stLevel x + 1) t r.addr) (stLevel x + 1) t
      else [])

/-- Adds credits to a role. -/
def Role.addCredit (r : Role) (c : Credit) : Role :=
  let same (x : Credit) : Bool := x.dest == c.dest && x.course == c.course && x.level == c.level && x.stripe == c.stripe
  { r with credits := if r.credits.any same then r.credits.map fun x => if same x then { x with count := x.count + c.count } else x
                      else r.credits ++ [c] }

/-- Grants a role its staging, if the cells can be had: from the job's set-aside first, the rest from the shared region (R243, R313). Then its
senders get their credits. -/
def State.reserve (s : State) (i : Nat) (r : Role) : State :=
  let cs := s.courses r
  let need := 9 * r.window * cs.length
  let own := match r.job.bind s.jobOf with
    | some j => min need (j.cells - s.asideUsed j.key)
    | none => 0
  if need > 0 ∧ (s.tagSwept (0x80 + i) ∨ (need > own ∧ s.sharedFree < need - own + s.recallCells)) then s
  else
    let (a, s) := State.allocN own { state := 2, owner := 0x80 + i, charge := 3 } s
    let (b, s) := State.allocN (need - own) { state := 2, owner := 0x80 + i, charge := 2 } s
    let s := (s.holdChain (a ++ b)).modRole i fun r =>
      let r := { r with granted := true, cells := a ++ b, aside := own, lastAt := s.now }
      if r.active then (s.takenCredits r).foldl Role.addCredit r else r
    (s.sendCredits r cs).colEnd

/-- STAGING_RESERVED (R313). -/
def execStagingReserved (chain : ChainIx) (s : State) : Host.Outcome State Fault Refusal :=
  match s.role chain.val with
  | some r => done (if s.fatal || r.granted || r.standby || r.waiting then s else s.reserve chain.val r)
  | none => done s

/-- The first output of a role that has its credit. -/
def Role.canSend (r : Role) (own : Nat) : Option ChunkOut := r.ready.find? (r.hasCredit own)

end Sys2Proof.Machine
end

