-- ==== Sys2Proof/Machine/Collective.lean ====
section
/-! DEFINITION. Collective descriptors (R296, R303 to R305, R358, R361, R368), the ticket rule (R316 to R318), the start of a role with the
thinned reduction (R326) and the gather record (R362), barriers (R320) and scalars (R321). -/

namespace Sys2Proof.Machine

open Sys2Proof

/-! Barriers (R320) -/

/-- A record by which this device is the keystone of a group: its own, or that of a device it stands in for in the ticket (R324). -/
def State.keyRec (s : State) (domain level sh ticket : Nat) : Option (List Byte) :=
  let acts := (s.col.roles.filter fun r => r.2.active && r.2.domain == domain && r.2.ticket == ticket).map (·.2.addr)
  ((s.ownAddr :: acts).flatMap (s.stages (s.getR PAT_GEN_LIVE) sh)).find? fun x => stLevel x == level && stIsKey x

/-- Whether an arrival belongs to a key. -/
def Arrival.is (a : Arrival) (domain level shape ticket : Nat) : Bool :=
  a.domain == domain && a.level == level && a.shape == shape && a.ticket == ticket

/-- The BARRIER roles of a key complete. -/
def State.barDone (s : State) (domain shape ticket : Nat) : State :=
  (List.range 8).foldl (fun s i => match s.role i with
    | some r => if r.op = opBarrier ∧ !r.standby ∧ r.domain = domain ∧ cShape r.bytes = shape ∧ r.ticket = ticket then s.closeRole i 0 0 else s
    | none => s) s

/-- A release reaches this device at a level: it is relayed once to every device that arrived at the level below; where none did, the device's own
BARRIER completes. -/
def State.releaseAt : Nat → Nat → Nat → Nat → State → State
  | 0, domain, shape, ticket, s => s.barDone domain shape ticket
  | level + 1, domain, shape, ticket, s =>
    let below := s.col.arrivals.filter fun a => a.is domain level shape ticket
    if below.isEmpty then s.barDone domain shape ticket
    else
      let s := s.modCol fun c => { c with arrivals := c.arrivals.filter fun a => !a.is domain level shape ticket }
      (below.map (·.addr)).eraseDups.foldl (fun s a =>
        if a = s.ownAddr then State.releaseAt level domain shape ticket s
        else
          let (t, s) := s.newTag 0xC8
          (s.colCtl none a 0x11 t (barPay domain level shape ticket) .endpoint).2) s

/-- Arrivals a keystone waits for: MEMBERS at level 1, G_k above. -/
def State.expected (s : State) (rec : List Byte) (sh : Nat) : Nat :=
  if stLevel rec = 1 then stMembers rec else ((s.shape (s.getR PAT_GEN_LIVE) sh).getD {}).gk (stLevel rec)

/-- Takes an arrival into the keystone's store, and passes the last one of a group up, or at the top releases. n bounds the levels. Answers
whether the store had room. -/
def State.arriveAt : Nat → Nat → Nat → Nat → Nat → Nat → State → Bool × State
  | 0, _, _, _, _, _, s => (true, s)
  | n + 1, domain, level, shape, ticket, addr, s =>
    if s.col.arrivals.length ≥ 2048 then (false, s)
    else
      let s := s.modCol fun c => { c with arrivals := c.arrivals ++
        [{ domain := domain, level := level, shape := shape, ticket := ticket, addr := addr }] }
      match s.keyRec domain level shape ticket with
      | none => (true, s)
      | some rec =>
        let here := (s.col.arrivals.filter fun a => a.is domain level shape ticket).length
        if here < s.expected rec shape then (true, s)
        else if level = ((s.shape (s.getR PAT_GEN_LIVE) shape).getD {}).levels then
          (true, State.releaseAt (level + 1) domain shape ticket s)
        else if stUp rec = s.ownAddr then
          let (ok, s) := State.arriveAt n domain (level + 1) shape ticket s.ownAddr s
          if ok then (true, s)
          else (true, s.modCol fun c => { c with resend := c.resend ++
            [(s.now + fclk 1, s.mkCtl s.ownAddr 0xC8 0xC8 0x10 0 none (barPay domain (level + 1) shape ticket))] })
        else (true, s.sendArrive (stUp rec) domain (level + 1) shape ticket .endpoint)

/-- One arrival of a BARRIER's device at the keystone of its first group. -/
def State.arriveOnce (s : State) (i : Nat) (r : Role) (rec : List Byte) : State :=
  let sh := cShape r.bytes
  if stKey rec = s.ownAddr ∨ stKey rec = r.addr then
    let (ok, s) := State.arriveAt 6 r.domain (stLevel rec) sh r.ticket s.ownAddr s
    if ok then s
    else s.modCol fun c => { c with resend := c.resend ++
      [(s.now + fclk 1, s.mkCtl s.ownAddr 0xC8 0xC8 0x10 0 none (barPay r.domain (stLevel rec) sh r.ticket))] }
  else s.sendArrive (stKey rec) r.domain (stLevel rec) sh r.ticket (.chain i)

/-- A BARRIER starts: its device arrives at the keystone of its first group, at level 1 once, above it once for each child group it hosts (R320). -/
def State.barrierBegin (s : State) (i : Nat) (r : Role) : State :=
  let s := s.modRole i fun r => { r with granted := true }
  match (s.rings r).find? fun x => stLevel x == s.innerOf r + 1 with
  | none => if s.innerOf r ≥ (s.shp r).levels then s.closeRole i 0 0 else s
  | some rec =>
    let n := if stLevel rec = 1 then 1 else r.locals / max 1 ((s.shp r).size (stLevel rec - 1))
    (List.range n).foldl (fun s _ => s.arriveOnce i r rec) s

/-! Scalars (R321) -/

/-- The scalar values of a packet. -/
def scalarVals (r : Role) (p : Pkt) : List Nat := (List.range (cElems r.bytes)).map fun k => field p.pay (4 * k) 4

/-- Whether a scalar packet belongs to a role. -/
def Role.ownsScalar (r : Role) (p : Pkt) : Bool := r.isScalar && !r.standby && r.granted && r.scalarTag == p.ctag

/-- Takes a scalar packet into a role: a partial is folded and passed on, finished values are written and passed on. -/
def State.takeScalar (s : State) (i : Nat) (r : Role) (p : Pkt) (bad : Option Nat) : State :=
  let acc := decide (p.opcode < 0x17)
  let level := if acc then p.opcode - 0x11 else p.opcode - 0x16
  let key : ChunkKey := { level := level, stripe := s.keyAt r level 0 |>.stripe, chunk := 0 }
  let course := if acc then 0 else 2
  if r.seen.contains (course, key) then s.count COL_DISCARD_COUNT
  else
    let part : Part := { vals := scalarVals r p }
    let s := s.modRole i fun r => { r with seen := (course, key) :: r.seen, lastAt := s.now }
    if acc then
      State.foldAt 6 i level 0 bad (s.modRole i fun r => { r with staged := r.staged ++ [{ course := 0, key := key, part := part, src := s.ownAddr }] })
    else State.spread 6 i level 0 part [] s

/-- A SCALAR starts: it takes up its own values where the chain begins. -/
def State.scalarBegin (s : State) (i : Nat) (bad : Option Nat) : State :=
  match s.role i with
  | some r => if s.startsHere r 0 then s.beginChunk i 0 bad else s
  | none => s

/-! Packets that came early -/

/-- The key of a credit's payload. -/
def creditOf (p : Pkt) : Nat × Nat × Credit :=
  (field p.pay 0 1, field p.pay 4 4,
    { dest := p.srcAddr, course := bits (field p.pay 3 1) 4 2, level := field p.pay 1 1, stripe := field p.pay 3 1 % 16, count := field p.pay 8 2 })

/-- Whether a role sends on the course a credit is for: on a ring of its own, or to the carrier of a parent group. -/
def State.wantsCredit (s : State) (r : Role) (c : Credit) : Bool :=
  if c.course = 1 then (s.rings r).any (fun x => stLevel x + 1 == c.level) || s.innerOf r + 1 == c.level
  else (s.ring? r c.level c.stripe).isSome

/-- Gives a role the packets that came before it started. -/
def State.takeEarly (s : State) (i : Nat) : State :=
  s.col.early.foldl (fun s p =>
    match s.role i with
    | none => s
    | some r =>
      if p.opcode = 0x1C then
        let (d, t, c) := creditOf p
        if d = r.domain ∧ t = r.ticket ∧ s.wantsCredit r c then
          (s.modCol fun x => { x with early := x.early.erase p }).modRole i fun r => r.addCredit c
        else s
      else if r.ownsScalar p ∧ !r.waiting ∧ !s.termsWait r then
        (s.modCol fun x => { x with early := x.early.erase p }).takeScalar i r p none
      else s) s

/-! Standbys (R324) -/

/-- The operation a standby covers, which its descriptor does not name. DESIGN CHOICE: a length of 0 is a BARRIER's, one up to 48 bytes a
SCALAR's; else that of this device's own descriptor of the ticket, and ALLREDUCE when it is not known. Log 67. -/
def State.coveredOp (s : State) (bytes : List Byte) : Nat :=
  let d := cDomain bytes
  let t := cTicket bytes
  let ops := (((s.col.roles.map (·.2)) ++ s.col.done.map (·.role)).filter fun r => r.addr == s.ownAddr && r.domain == d && r.ticket == t).map (·.op)
  let held := (s.col.held.filter fun h => field h.bytes 0 1 != opBackup && h.domain == d && h.ticket == t).map fun h => field h.bytes 0 1
  if cLen bytes = 0 then opBarrier
  else if cLen bytes ≤ 48 then opScalar
  else ((ops ++ held).find? fun op => decide (op ≤ opBroadcast)).getD opAllreduce

/-- Begins the work of a role's operation: a barrier arrives, a scalar takes up its values when they can be read, any other awaits its staging. -/
def State.beginOp (s : State) (i : Nat) (r : Role) (bad : Option Nat) : State :=
  if r.op = opBarrier then s.barrierBegin i r
  else if r.op = opScalar then
    let s := s.modRole i fun r => { r with granted := true, waiting := false }
    if s.termsWait r then s.modRole i fun r => { r with waiting := true } else (s.scalarBegin i bad).takeEarly i
  else s.takeEarly i

/-- A standby is activated (R324). -/
def State.activate (s : State) (i : Nat) (r : Role) : State :=
  let r := { r with standby := false, active := true, op := s.coveredOp r.bytes, backupUsed := true, lastAt := s.now }
  ((s.setRole i r).count COL_BACKUPS_COUNT).beginOp i r none

/-! Starting a role -/

/-- The flags of a thinned accumulation go to the role's record (R331). -/
def State.thinFlags (s : State) (i : Nat) (f : Flags) : State :=
  s.modRole i fun r => { r with thinInv := r.thinInv || f.inv, thinOvf := r.thinOvf || f.ovf }

/-- The thinned accumulation of one local rank (R326): A = t at phase 0, else A + t. For INT32 terms the accumulator is a free value. -/
def State.thinRank (s : State) (i : Nat) (r : Role) (first : Bool) (bad : Option Nat) (k : Nat) : Option Nat × State :=
  let n := cElems r.bytes
  let size := cSize (cTerm r.bytes)
  let (x, s) := s.readRange (cSrc r.bytes + k * cStride r.bytes) (n * size) bad
  match x.fail with
  | some (st, _) => (some st, s)
  | none =>
    let a := cDst r.bytes + 4 * n * (1 + k)
    let ts := termCodes size x.bytes
    let (y, s) := if first then (({ bytes := [], fail := none } : ReadRes), s) else s.readRange a (4 * n) bad
    match y.fail with
    | some (st, _) => (some st, s)
    | none =>
      let rs := if first then ts.map fun t => (canon32 t, ({} : Flags)) else (termCodes 4 y.bytes).zipWith (add32 false) ts
      let (vs, s) := if r.int then ts.foldl (fun (acc : List Nat × State) _ => let (v, s) := acc.2.draw; (acc.1 ++ [v % 2 ^ 32], s)) ([], s)
        else (rs.map (·.1), s.thinFlags i (Flags.union (rs.map (·.2))))
      let (w, s) := s.writeRange a ((vs.map (leBytes 4)).flatten) bad
      (w.map (·.1), s.busy colSet (n / 128 + 1))

/-- The thinned accumulation of every local rank. -/
def State.thinAll (s : State) (i : Nat) (r : Role) (bad : Option Nat) : Option Nat × State :=
  (List.range r.locals).foldl (fun (acc : Option Nat × State) k => match acc.1 with
    | some _ => acc
    | none => acc.2.thinRank i r (r.step % cThin r.bytes == 0) bad k) (none, s)

/-- The PARAM entry a gather is tracked by (R361). -/
def State.tracked (s : State) (group : Nat) (bs : List Byte) : Option Nat :=
  if field bs 0 1 = opGather then s.shdEntry group (cTensor bs) [1] else none

/-- What a role does once its terms are its own: a standby waits to be activated, a tracked gather writes its record, the others begin. -/
def State.beginNow (s : State) (i : Nat) (r : Role) (bad : Option Nat) : State :=
  if r.op = opBackup then
    match s.col.acts.find? fun a => field a.pay 0 1 == r.domain && field a.pay 4 4 == r.ticket && field a.pay 0x10 4 == r.addr with
    | some a => (s.modCol fun c => { c with acts := c.acts.erase a }).activate i r
    | none => s
  else if r.op = opPermute then s.modRole i fun r => { r with granted := true }
  else
    match s.tracked r.group r.bytes with
    | some e =>
      let (ok, s) := s.gatherRecord e r.step
      if ok then s.beginOp i r bad else s.failRole i 0x31 0
    | none => s.beginOp i r bad

/-- Starts a thinned reduction: accumulates, and at any phase but the last completes at once and sends nothing (R326). -/
def State.thinBegin (s : State) (i : Nat) (r : Role) (bad : Option Nat) : State :=
  let (fail, s) := s.thinAll i r bad
  match fail, r.step % cThin r.bytes + 1 == cThin r.bytes with
  | some st, _ => s.failRole i st 0
  | none, true => s.beginNow i ((s.role i).getD r) bad
  | none, false => (s.modRole i fun r => { r with thinned := true }).closeRole i 0 0

/-- What a role does when it starts, by its operation. The accumulation of a thinned reduction waits until what it accesses can be accessed. -/
def State.beginRole (s : State) (i : Nat) (r : Role) (bad : Option Nat) : State :=
  if !r.thin then s.beginNow i r bad
  else if s.termsWait { r with waiting := true } then s.modRole i fun r => { r with waiting := true }
  else s.thinBegin i r bad

/-- A role takes up what it could not when it started: its thinned accumulation, unless that is done and its scalars alone waited. -/
def State.takeUp (s : State) (i : Nat) (bad : Option Nat) : State :=
  match s.role i with
  | none => s
  | some r =>
    let s := s.modRole i fun r => { r with waiting := false }
    if r.granted then (s.scalarBegin i bad).takeEarly i else s.thinBegin i { r with waiting := false } bad

/-- Starts a descriptor on a context: it leaves the held ones, and its key is new to aborts and repairs. -/
def State.startRole (s : State) (h : HeldDesc) (i : Nat) (bad : Option Nat) : State :=
  let op := field h.bytes 0 1
  let (seed, step) := s.seedStep h.core
  let group := ((s.coreJob h.core).map (·.group)).getD 0
  let w := s.get COL_CFG_WINDOW
  let r : Role :=
    { core := h.core, queue := h.queue, number := h.number, bytes := h.bytes, gen := h.gen, op := op
      addr := if op = opBackup then cRemote h.bytes else s.ownAddr, standby := op == opBackup, seed := seed, step := step, group := group
      startFt := s.ft, heldUs := (s.now - h.since) / 1650, postedAt := s.now, lastAt := s.now, window := min 64 (max 1 w)
      job := (s.core h.core).job, entry := (s.shdEntry group (cTensor h.bytes) [1, 2]).getD 64 }
  let s := (s.modCol fun c => { c with
    held := c.held.erase h, aborted := c.aborted.erase (h.domain, h.ticket)
    repairs := c.repairs.filter fun k => !(k.1 == h.domain && k.2.1 == h.ticket)
    ending := c.ending.filter (·.1 != i) }).setRole i r
  let s := s.trace trColRole 0xC8 (h.domain + 256 * op) h.ticket 256 0
  ((s.beginRole i r bad).orderNote h.domain).colEnd

/-! Admission (R305, R317, R358, R361, R368) -/

/-- Whether ranks a to a + n - 1 can be those of the device a STAGE record is about: on its first ring they are whole units of the ring (ranks at
level 1, else child groups), they start and end the group exactly at the first and the last member, and every other member has at least one unit; on a
higher ring they lie inside the member's child group; and no group of a ring lies within the device. -/
def stageFits (h : Shape) (a n : Nat) (x : List Byte) : Bool :=
  let k := stLevel x
  let u := h.size (k - 1)
  let lo := stFirst x
  let hi := lo + h.size k
  let i := stIndex x
  if k ≤ h.inner n then false
  else if k = h.inner n + 1 then
    decide (lo ≤ a) && decide (a + n ≤ hi) && (a - lo) % u == 0 && n % u == 0 && (i == 0) == (a == lo) && stIsKey x == (a + n == hi) &&
      decide (i ≤ (a - lo) / u) && decide (stMembers x - 1 - i ≤ (hi - (a + n)) / u)
  else decide (lo + i * u ≤ a) && decide (a + n ≤ lo + i * u + u)

/-- Whether the ranks of a descriptor are exactly those of the shape that the device hosts, or for a BACKUP those the stood-in device's records
give. -/
def State.ranksOk (s : State) (h : Shape) (bs : List Byte) : Bool :=
  let a := cRank bs
  let n := cLocal bs
  if n = 0 ∨ n > 144 then false
  else if field bs 0 1 = opBackup then
    let xs := s.stages (s.getR PAT_GEN_LIVE) (cShape bs) (cRemote bs)
    !xs.isEmpty && xs.all (stageFits h a n)
  else
    let lo := max h.first s.rankBase
    let hi := min (h.first + h.ranks) (s.rankBase + s.rankCount)
    decide (lo < hi) && a == lo && n == hi - lo

/-- Whether a descriptor keeps the rules on formats and lengths; a BACKUP those of the operation that its length shows. -/
def formOk (h : Shape) (bs : List Byte) : Bool :=
  let op := field bs 0 1
  let e := cElems bs
  if op = opBarrier then cLen bs == 0
  else if op = opBackup ∧ cLen bs = 0 then true
  else if op = opPermute then cLen bs % 32 == 0 && decide (cLen bs ≤ 1048576) && cRecv bs % 64 == 0
  else
    let fmt := decide (cTerm bs < 3) && decide (cResult bs < 3) && (cTerm bs == 2) == (cResult bs == 2) && decide (cRedop bs < 3) &&
      !(cTerm bs == 2 && cRedop bs != 0) && decide (cRound bs < 3)
    if op = opScalar ∨ (op = opBackup ∧ cLen bs ≤ 48) then fmt && cTerm bs != 1 && cLen bs % 4 == 0 && decide (1 ≤ e) && decide (e ≤ 12)
    else
      fmt && decide (1 ≤ cLen bs) && decide (cLen bs ≤ maxLength) && cLen bs % 64 == 0 && e % 16 == 0 && cStride bs % 64 == 0 &&
        !(op == opScatter && e % (16 * h.ranks) != 0)

/-- The first check of R305 that fails; 0 for none. -/
def State.colBad (s : State) (bs : List Byte) : Nat :=
  match s.shape (s.getR PAT_GEN_LIVE) (cShape bs) with
  | none => 1
  | some h =>
    if !s.domainOn (cDomain bs) then 2
    else
      let window := ((s.seqdom (cDomain bs)).map (field · 2 2)).getD 0
      let x := ticketDiff (cTicket bs) (s.nextTicket (cDomain bs))
      if x < 0 ∨ x ≥ (window : Int) then 3
      else if !s.ranksOk h bs then 4
      else if !formOk h bs then 5
      else if field bs 0 1 ≠ opBackup ∧ s.hasTicket (cDomain bs) (cTicket bs) then 6
      else 0

/-- What a descriptor writes: address and bytes. -/
def State.dstSpan (s : State) (bs : List Byte) : Nat × Nat :=
  let h := (s.shape (s.getR PAT_GEN_LIVE) (cShape bs)).getD {}
  let op := field bs 0 1
  let e := cElems bs
  let size := cSize (cResult bs)
  let own (x : Nat) : Bool := inside x (cRank bs, cRank bs + cLocal bs)
  let n := if op = opReduce then (if own (cRoot bs) then e * size else 0)
    else if op = opScatter then e / h.ranks * cLocal bs * size
    else if op = opGather then (h.ranks - 1) * cLen bs + e * size
    else e * size
  if op = opBarrier ∨ op = opPermute then (0, 0)
  else (cDst bs, if cThin bs > 1 then max n (4 * e * (1 + cLocal bs)) else n)

/-- What a descriptor reads: the contributions, from SRC on. -/
def srcSpan (bs : List Byte) : Nat × Nat :=
  let op := field bs 0 1
  if op = opBarrier then (0, 0)
  else if op = opPermute then (cSrc bs, cLen bs)
  else (cSrc bs, (cLocal bs - 1) * cStride bs + cLen bs)

/-- A move of a PERMUTE's list (R369). -/
def moveAt (list : List Byte) (k : Nat) : List Byte := slice list (32 * k) 32
def mvSrc (m : List Byte) : Nat := field m 0 4
def mvBytes (m : List Byte) : Nat := field m 4 4
def mvDst (m : List Byte) : Nat := field m 8 4
def mvRank (m : List Byte) : Nat := field m 0x0C 2
def mvAddr (m : List Byte) : Nat := field m 0x10 4

/-- Whether a move breaks R369. -/
def moveBad (slot : Nat) (m : List Byte) : Bool :=
  mvSrc m % 64 != 0 || mvBytes m % 64 != 0 || mvBytes m == 0 || decide (mvSrc m + mvBytes m > slot) || mvDst m % 64 != 0 ||
    field m 0x0E 2 != 0 || decide (mvAddr m ≥ 2 ^ 21) || !zeroAt m 0x14 12

/-- The refusals of a PERMUTE after the checks of R305 (R368). -/
def State.permStatus (s : State) (group : Nat) (bs : List Byte) : Option Nat :=
  match s.shdEntry group (cTensor bs) [1, 2] with
  | none => some 0x37
  | some e =>
    let owner := Tbl.find s.col.permOwner e
    if cEpoch bs ≠ (s.get (MEM_SHD_EPOCH_EPOCH e) + 1) % 65536 then some 0x33
    else if s.flag (MEM_SHD_STATE_DIRTY e) ∨ (s.flag (MEM_SHD_STATE_PERMUTING e) ∧ owner ≠ some (cDomain bs, cTicket bs)) then some 0x34
    else if cSrc bs % 64 ≠ 0 ∨ cRecv bs > s.slotBytes e ∨
        (List.range (cLen bs / 32)).any fun k => moveBad (s.slotBytes e) (moveAt (s.readLocal (cSrc bs) (cLen bs)) k) then some 0x32
    else none

/-- The refusals of a tracked gather (R361). -/
def State.gatherStatus (s : State) (e : Nat) (bs : List Byte) : Option Nat :=
  let lo := s.slotAt e 0
  let hi := lo + s.slotBytes e
  if (List.range (cLocal bs)).any fun k =>
      decide (cSrc bs + k * cStride bs < lo) || decide (hi < cSrc bs + k * cStride bs + cLen bs) then some 0x32
  else if cEpoch bs ≠ s.get (MEM_SHD_EPOCH_EPOCH e) then some 0x33
  else none

/-- The status a descriptor is refused with after the checks of R305, and the entry whose slot its DST meets. -/
def State.colRefuse (s : State) (L : Nat) (bs : List Byte) : Option Nat × Option Nat :=
  let group := ((s.coreJob L).map (·.group)).getD 0
  let (d, n) := s.dstSpan bs
  let (a, m) := srcSpan bs
  if (s.rangeStatus L a m).isSome ∨ (s.rangeStatus L d n).isSome then (some 4, none)
  else
    match (match place d with | .gddr x => s.shardHit x n | _ => none) with
    | some (_, e) => (some 0x30, some e)
    | none =>
      if field bs 0 1 = opPermute then (s.permStatus group bs, none)
      else match s.tracked group bs with
        | some e => (s.gatherStatus e bs, none)
        | none => (none, none)

/-- A core passes a collective descriptor to the engine (R296): it completes with BAD_COLLECTIVE or a refusal, is held, or starts. -/
def colDesc (L q : Nat) (bad : Option Nat) (s : State) (d : Desc) : State :=
  let s := s.modDesc L q d.number fun d => { d with held := true }
  let n := s.colBad d.bytes
  let h : HeldDesc := { core := L, queue := q, number := d.number, bytes := d.bytes, gen := s.getR PAT_GEN_LIVE, domain := cDomain d.bytes
                        ticket := cTicket d.bytes, since := s.now }
  if n ≠ 0 then s.endRole L q d.number { d with status := 0x19, failOff := 0, detail := n }
  else
    match s.colRefuse L d.bytes with
    | (some st, e) =>
      let s := match e with
        | some e => s.noteRefused e 0x30
        | none => s
      s.endHeld h st 0
    | (none, _) =>
      let s := s.modCol fun c => { c with held := c.held ++ [h], doneAhead := c.doneAhead.erase (h.domain, h.ticket) }
      match s.freeChain with
      | some i => if d.op = opBackup ∨ h.ticket = s.nextTicket h.domain then s.startRole h i bad else s.orderNote h.domain
      | none => s.orderNote h.domain

/-- Whether a collective descriptor has to wait for a ticket entry of its job (R317). -/
def State.noEntry (s : State) (L : Nat) (d : Desc) : Bool :=
  match s.coreJob L with
  | some j => d.op != opBackup && j.ring.isSome && decide (s.ticketsUsed j.key ≥ j.tickets)
  | none => false

/-- A collective descriptor starts in its queue. -/
def startCol (core : CoreIx) (queue : QueueIx) (op : Nat) (bad : Option Nat) (s : State) : State :=
  s.startDesc core.val queue.val op (fun s d => s.noEntry core.val d || s.memWaits d.src 1 || s.memWaits d.dst 1)
    (colDesc core.val queue.val bad)

/-- ALLREDUCE (R303). -/
def execAllreduce (core : CoreIx) (queue : QueueIx) (bad : Option Nat) (s : State) : Host.Outcome State Fault Refusal :=
  done (startCol core queue opAllreduce bad s)

/-- REDUCE (R303, R312). -/
def execReduce (core : CoreIx) (queue : QueueIx) (bad : Option Nat) (s : State) : Host.Outcome State Fault Refusal :=
  done (startCol core queue opReduce bad s)

/-- REDUCE_SCATTER (R303, R312). -/
def execReduceScatter (core : CoreIx) (queue : QueueIx) (bad : Option Nat) (s : State) : Host.Outcome State Fault Refusal :=
  done (startCol core queue opScatter bad s)

/-- ALLGATHER (R303, R312, R361). -/
def execAllgather (core : CoreIx) (queue : QueueIx) (bad : Option Nat) (s : State) : Host.Outcome State Fault Refusal :=
  done (startCol core queue opGather bad s)

/-- BROADCAST (R303, R312). -/
def execBroadcast (core : CoreIx) (queue : QueueIx) (bad : Option Nat) (s : State) : Host.Outcome State Fault Refusal :=
  done (startCol core queue opBroadcast bad s)

/-- BARRIER (R303, R320). -/
def execBarrier (core : CoreIx) (queue : QueueIx) (bad : Option Nat) (s : State) : Host.Outcome State Fault Refusal :=
  done (startCol core queue opBarrier bad s)

/-- SCALAR (R303, R321). -/
def execScalar (core : CoreIx) (queue : QueueIx) (bad : Option Nat) (s : State) : Host.Outcome State Fault Refusal :=
  done (startCol core queue opScalar bad s)

/-- PERMUTE (R303, R368). -/
def execPermute (core : CoreIx) (queue : QueueIx) (bad : Option Nat) (s : State) : Host.Outcome State Fault Refusal :=
  done (startCol core queue opPermute bad s)

/-- BACKUP (R303, R324). -/
def execBackup (core : CoreIx) (queue : QueueIx) (bad : Option Nat) (s : State) : Host.Outcome State Fault Refusal :=
  done (startCol core queue opBackup bad s)

/-- CHUNK_SEND (R309, R314): sends the first chunk that has its credit, else takes up the next chunk that starts here; a role whose terms could not
be read when it started takes them up. -/
def execChunkSend (chain : ChainIx) (bad : Option Nat) (s : State) : Host.Outcome State Fault Refusal :=
  let i := chain.val
  match s.role i with
  | none => done s
  | some r =>
    if s.fatal || r.standby then done s
    else if r.waiting then done (if s.termsWait r then s else (s.takeUp i bad).colEnd)
    else if !r.granted || r.isScalar then done s
    else match r.canSend s.ownAddr with
      | some o => done (s.sendChunk i r o).colEnd
      | none =>
        let next := if s.termsWait r || decide (r.ready.length ≥ r.window) then none
          else (List.range (chunkTotal (s.shp r) r.op r.bytes)).find? fun j => !r.begun.contains j && s.startsHere r j
        match next with
        | none => done s
        | some j =>
          let s := s.beginChunk i j bad
          match s.role i with
          | some r => match r.canSend s.ownAddr with
            | some o => done (s.sendChunk i r o).colEnd
            | none => done s.colEnd
          | none => done s.colEnd

/-- TICKET_START (R317, R296): the descriptor whose ticket is NEXT, or a BACKUP that waits for a context, starts on a free one. -/
def execTicketStart (dom : DomIx) (bad : Option Nat) (s : State) : Host.Outcome State Fault Refusal :=
  let d := dom.val
  if s.fatal then done s
  else
    match s.freeChain, s.col.held.find? fun h => h.domain == d && (h.ticket == s.nextTicket d || field h.bytes 0 1 == opBackup) with
    | some i, some h => done (s.startRole h i bad)
    | _, _ => done s

/-- ORDER_TIMEOUT (R318): the descriptor of ticket NEXT has not been issued for ORDER_TIMEOUT while others are held. -/
def execOrderTimeout (dom : DomIx) (s : State) : Host.Outcome State Fault Refusal :=
  let d := dom.val
  match Tbl.find s.col.orderAt d with
  | none => done s
  | some t =>
    if s.fatal then done s
    else
      let s := s.passTo (t + fclk (((s.seqdom d).map (field · 4 4)).getD 1))
      let next := s.nextTicket d
      let hs := s.col.held.filter fun h => field h.bytes 0 1 != opBackup && h.domain == d
      let s := hs.foldl (fun s h => s.endHeld h 0x10 next) s
      done ((s.set (COL_DOM_CTRL_ORDER_FAULT d) 1).count COL_ORDER_FAULTS_COUNT)

end Sys2Proof.Machine
end

