-- ==== Sys2Proof/Machine/ColPkts.lean ====
section
/-! DEFINITION. The packets the collective engine takes: chunks (R309 to R315), scalars and barriers (R320, R321), credits, aborts, notices and
repairs (R313, R319, R324 to R328), combine terms (R105, R329) and the answers to its own packets (R210); and the engine's timers. -/

namespace Sys2Proof.Machine

open Sys2Proof

/-! Chunks -/

/-- The number of a chunk a packet carries. The chunks of an ALLGATHER are numbered over its ranks, and the 16-bit field holds the low bits:
of the numbers that fit the field and the address, the first that has not come. -/
def State.chunkNumber (s : State) (r : Role) (course level : Nat) (p : Pkt) : Nat :=
  let n := p.op 0x26 2
  if r.op ≠ opGather then n
  else
    let h := s.shp r
    let per := max 1 (perRank h r.op r.bytes)
    let fits := ((List.range h.ranks).map fun x => x * per + p.addr / 2048).filter fun j => j % 65536 == n
    match fits.find? fun j => !r.seen.contains (course, s.keyAt r level j) with
    | some j => j
    | none => fits.headD n

/-- FOLD_HI a chunk shall carry: on the distribute course RANKS - 1 (R308); a handoff is not checked. -/
def State.foldHiOk (s : State) (r : Role) (rec : List Byte) (course : Nat) (p : Pkt) : Bool :=
  if course = 0 then p.op 0x28 2 == s.accBefore r rec
  else if course = 2 then p.op 0x28 2 == ((s.shp r).ranks - 1) % 65536
  else true

/-- The context a chunk is for: of the roles of its ticket with a ring at its level, the one the chunk's FOLD_HI and sender fit. -/
def State.chunkRole (s : State) (course level stripe : Nat) (p : Pkt) : Option Nat :=
  let cands := (List.range 8).filter fun i => match s.role i with
    | some r => !r.standby && !r.isScalar && r.op != opBarrier && r.op != opPermute && r.domain == p.op 0x20 1 && r.ticket == p.op 0x22 4 &&
        (s.ring? r level stripe).isSome
    | none => false
  let fits (i : Nat) : Bool := match s.role i with
    | some r => match s.ring? r level stripe with
      | some rec => s.foldHiOk r rec course p && (course != 2 || stPrev rec == p.srcAddr ||
          (p.srcAddr == s.ownAddr && s.col.roles.any fun x => x.2.active && x.2.addr == stPrev rec))
      | none => false
    | none => false
  (cands.find? fits).orElse fun _ => cands.head?

/-- The metadata of a chunk packet. -/
def infoOf (p : Pkt) : ChunkMeta :=
  { invalid := bit (p.op 0x2F 1) 0, overflow := bit (p.op 0x2F 1) 1, backup := bit (p.op 0x2F 1) 2, nans := p.op 0x30 4, nanRank := p.op 0x34 2
    nanElem := p.op 0x36 2, standRank := p.op 0x38 2, standAddr := p.op 0x3A 3 % 2 ^ 21 }

/-- The values of a chunk packet. -/
def chunkVals (p : Pkt) : List Nat := (List.range (p.byteCount / 4)).map fun k => field p.pay (4 * k) 4

/-- Discards a packet of the engine (COL_DISCARD). -/
def State.colDiscard (s : State) : State := s.count COL_DISCARD_COUNT

/-- Takes a chunk into a role after the checks of R315. -/
def State.takeChunk (s : State) (i : Nat) (r : Role) (rec : List Byte) (course level : Nat) (p : Pkt) (bad : Option Nat) : State :=
  let j := s.chunkNumber r course level p
  let key := s.keyAt r level j
  let again := bit (p.op 0x21 1) 7
  let breach := if p.pgen ≠ r.gen % 256 then some 0x12
    else if p.op 0x2A 2 ≠ r.step % 65536 then some 0x13
    else if !s.foldHiOk r rec course p then some 0x14
    else none
  match breach, r.passing.isSome with
  | some _, true => s.colDiscard
  | some st, false => s.failRole i st j
  | none, _ =>
    let s := if again && !r.repairing.contains j then s.beginRepair i j else s
    let r := (s.role i).getD r
    if r.seen.contains (course, key) || (r.repairing.contains j && !again) then s.colDiscard
    else
      let part : Part := { vals := chunkVals p, info := infoOf p }
      let s := s.modRole i fun r => { r.noteInfo part.info with seen := (course, key) :: r.seen, lastAt := s.now }
      if course = 2 then
        State.spread 6 i level j part
          [{ dest := p.srcAddr, course := 2, level := level, stripe := key.stripe, count := 1 }] s
      else
        State.foldAt 6 i level j bad (s.modRole i fun r =>
          { r with staged := r.staged ++ [{ course := course, key := key, part := part, src := p.srcAddr }] })

/-- The completed ticket a late distribute chunk belongs to (R312): of a result that goes to one device, on a ring where this member could not know
whether the chunk passes it. -/
def State.latePass (s : State) (level stripe : Nat) (p : Pkt) : Option DoneRole :=
  s.col.done.find? fun d => d.role.domain == p.op 0x20 1 && d.role.ticket == p.op 0x22 4 &&
    !d.role.seen.contains (2, s.keyAt d.role level (p.op 0x26 2)) &&
    match s.ring? d.role level stripe with
    | some rec => (s.passes d.role rec (p.op 0x26 2)).isNone
    | none => false

/-- Takes a completed role back into a free context, to pass a late chunk on; it writes no second record and holds no ticket. -/
def State.beginPassing (s : State) (d : DoneRole) : Option (Nat × State) :=
  s.freeChain.map fun i =>
    (i, (s.modCol fun c => { c with done := c.done.erase d, ending := c.ending.filter (·.1 != i) }).setRole i
      { d.role with passing := some d.endAt, consumed := true, granted := true, staged := [], ready := [], sent := [], lastAt := s.now })

/-- Whether the engine can take a chunk now: its role's terms can be read. -/
def State.chunkOpen (s : State) (course : Nat) (p : Pkt) : Bool :=
  let v := p.op 0x21 1
  match (s.chunkRole course (v % 8) (v / 8 % 8) p).bind s.role with
  | some r => course == 2 || !s.termsWait r
  | none => course != 2 || (s.latePass (v % 8) (v / 8 % 8) p).isNone || s.freeChain.isSome

/-- Takes the first chunk of a course that the engine can take. -/
def chunkIn (course : Nat) (bad : Option Nat) (s : State) : State :=
  match s.takeInb fun x => x.pkt.data && x.pkt.opcode == courseOp course && s.chunkOpen course x.pkt with
  | none => s
  | some (x, s) =>
    let p := x.pkt
    let level := p.op 0x21 1 % 8
    let stripe := p.op 0x21 1 / 8 % 8
    let s := s.answer p 0x01 0 0
    let at_ := match s.chunkRole course level stripe p with
      | some i => some (i, s)
      | none => if course = 2 then (s.latePass level stripe p).bind s.beginPassing else none
    match at_ with
    | none => s.colDiscard
    | some (i, s) =>
      match s.role i with
      | some r => match s.ring? r level stripe with
        | some rec => (s.takeChunk i r rec course level p bad).colEnd
        | none => s.colDiscard
      | none => s.colDiscard

/-- ACC_CHUNK (R309, R310, R315). -/
def execAccChunk (bad : Option Nat) (s : State) : Host.Outcome State Fault Refusal := done (chunkIn 0 bad s)

/-- HANDOFF_CHUNK (R310, R315). -/
def execHandoffChunk (bad : Option Nat) (s : State) : Host.Outcome State Fault Refusal := done (chunkIn 1 bad s)

/-- DIST_CHUNK (R311, R312, R315). -/
def execDistChunk (s : State) : Host.Outcome State Fault Refusal := done (chunkIn 2 none s)

/-! Control packets -/

/-- Takes the first control packet of the engine with a property. -/
def State.takeCtl (s : State) (ok : Pkt → Bool) : Option (Pkt × State) :=
  (s.takeInb fun x => !x.pkt.data && x.pkt.destEp == 0xC8 && ok x.pkt).map fun x => (x.1.pkt, x.2)

/-- The context of a scalar packet. -/
def State.scalarRole (s : State) (p : Pkt) : Option Nat :=
  (List.range 8).find? fun i => match s.role i with
    | some r => r.ownsScalar p
    | none => false

/-- Whether a scalar packet can be taken now. -/
def State.scalarOpen (s : State) (p : Pkt) : Bool :=
  match (s.scalarRole p).bind s.role with
  | some r => !r.waiting && !s.termsWait r
  | none => true

/-- Takes a scalar packet of a range of opcodes; one whose role has not started is kept for it. -/
def scalarIn (lo hi : Nat) (bad : Option Nat) (s : State) : State :=
  match s.takeCtl fun p => decide (lo ≤ p.opcode) && decide (p.opcode ≤ hi) && s.scalarOpen p with
  | none => s
  | some (p, s) =>
    match s.scalarRole p with
    | some i => match s.role i with
      | some r => (s.takeScalar i r p bad).colEnd
      | none => s
    | none => s.modCol fun c => { c with early := c.early ++ [p] }

/-- SCALAR_ACC (R321). -/
def execScalarAcc (bad : Option Nat) (s : State) : Host.Outcome State Fault Refusal := done (scalarIn 0x12 0x16 bad s)

/-- SCALAR_DIST (R321). -/
def execScalarDist (s : State) : Host.Outcome State Fault Refusal := done (scalarIn 0x17 0x1B none s)

/-- BARRIER_ARRIVE (R320): stored, or answered with RETRY when the store is full. -/
def execBarrierArrive (s : State) : Host.Outcome State Fault Refusal :=
  match s.takeCtl fun p => p.opcode == 0x10 with
  | none => done s
  | some (p, s) =>
    let (ok, s) := State.arriveAt 6 (field p.pay 0 1) (field p.pay 1 1) (field p.pay 2 1) (field p.pay 4 4) p.srcAddr s
    done (if ok then s.colEnd else s.answer p 0x02 0 0)

/-- BARRIER_RELEASE (R320). -/
def execBarrierRelease (s : State) : Host.Outcome State Fault Refusal :=
  match s.takeCtl fun p => p.opcode == 0x11 with
  | none => done s
  | some (p, s) => done (State.releaseAt (field p.pay 1 1) (field p.pay 0 1) (field p.pay 2 1) (field p.pay 4 4) s).colEnd

/-- Arrivals whose RETRY is a microsecond old go again (R320). -/
def State.colResend (s : State) : State :=
  let due := s.col.resend.filter fun x => decide (x.1 ≤ s.now)
  let s := s.modCol fun c => { c with resend := c.resend.filter fun x => !decide (x.1 ≤ s.now) }
  due.foldl (fun s x =>
    let p := x.2
    if p.destAddr = s.ownAddr then
      let (ok, s) := State.arriveAt 6 (field p.pay 0 1) (field p.pay 1 1) (field p.pay 2 1) (field p.pay 4 4) s.ownAddr s
      if ok then s.colEnd else s.modCol fun c => { c with resend := c.resend ++ [(s.now + fclk 1, p)] }
    else (s.offer { input := 32, pkt := p, orig := .endpoint })) s

/-- The contexts of a key: domain and ticket, standbys apart. -/
def State.keyRoles (s : State) (d t : Nat) : List Nat :=
  (List.range 8).filter fun i => match s.role i with
    | some r => r.domain == d && r.ticket == t && !r.standby
    | none => false

/-- CHAIN_CREDIT (R313): the role that sends on the course may send more; credits of a ticket not yet started here are kept for it. -/
def execChainCredit (s : State) : Host.Outcome State Fault Refusal :=
  match s.takeCtl fun p => p.opcode == 0x1C with
  | none => done s
  | some (p, s) =>
    let (d, t, c) := creditOf p
    let wants (i : Nat) : Bool := match s.role i with
      | some r => s.wantsCredit r c
      | none => false
    let sends (i : Nat) : Bool := match s.role i with
      | some r => wants i && (s.rings r).any fun x => r.dest (stNext x) == c.dest
      | none => false
    let is_ := s.keyRoles d t
    match (is_.find? sends).orElse fun _ => is_.find? wants with
    | some i => done (s.modRole i fun r => r.addCredit c)
    | none =>
      if s.col.done.any fun x => x.role.domain == d && x.role.ticket == t then
        done (s.modCol fun y => { y with done := y.done.map fun x =>
          if x.role.domain == d && x.role.ticket == t then { x with role := x.role.addCredit c } else x })
      else if s.domainOn d && decide (0 ≤ ticketDiff t (s.nextTicket d)) then done (s.modCol fun y => { y with early := y.early ++ [p] })
      else done s

/-- CHAIN_ABORT (R319): the roles of the key complete with CHAIN_ABORTED and pass the abort on, once for each key. -/
def execChainAbort (s : State) : Host.Outcome State Fault Refusal :=
  match s.takeCtl fun p => p.opcode == 0x1D with
  | none => done s
  | some (p, s) =>
    let d := field p.pay 0 1
    let t := field p.pay 4 4
    if s.col.aborted.contains (d, t) then done s
    else
      let ring := (field p.pay 1 1, field p.pay 3 1 % 16)
      done ((s.keyRoles d t).foldl (fun s i => s.failRole i 0x16 0 (some ring)) s).colEnd

/-- A CHAIN_NOTICE of a kind. -/
def State.takeNotice (s : State) (kind : Nat) : Option (Pkt × State) := s.takeCtl fun p => p.opcode == 0x1E && field p.pay 0x0B 1 == kind

/-- The standby of a notice. -/
def State.standbyOf (s : State) (p : Pkt) : Option Nat :=
  (List.range 8).find? fun i => match s.role i with
    | some r => r.standby && r.domain == field p.pay 0 1 && r.ticket == field p.pay 4 4 && r.addr == field p.pay 0x10 4
    | none => false

/-- Whether a notice names a role that a standby has already taken up. -/
def State.activeFor (s : State) (p : Pkt) : Bool :=
  s.col.roles.any fun r => r.2.active && r.2.domain == field p.pay 0 1 && r.2.ticket == field p.pay 4 4 && r.2.addr == field p.pay 0x10 4

/-- BACKUP_ACT (R324): activates the standby, or waits for it to be posted. -/
def execBackupAct (s : State) : Host.Outcome State Fault Refusal :=
  match s.takeNotice 1 with
  | none => done s
  | some (p, s) =>
    match s.standbyOf p with
    | some i => match s.role i with
      | some r => done (s.activate i r).colEnd
      | none => done s
    | none => done (if s.activeFor p then s else s.modCol fun c => { c with acts := c.acts ++ [{ pay := p.pay, at_ := s.now }] })

/-- STANDBY_RELEASE (R325): a standby that is not activated completes with BACKUP_IDLE. -/
def execStandbyRelease (s : State) : Host.Outcome State Fault Refusal :=
  match s.takeNotice 2 with
  | none => done s
  | some (p, s) => match s.standbyOf p with
    | some i => done (s.closeRole i 0x18 0).colEnd
    | none => done s

/-- A completed ticket runs a chunk again on a free context (R327, R328). -/
def State.revive (s : State) (d : DoneRole) (chunk : Nat) (skip : Option Nat) : State :=
  match s.freeChain with
  | none => s.colDiscard
  | some i =>
    let s := s.modCol fun c => { c with done := c.done.erase d, ending := c.ending.filter (·.1 != i) }
    let s := s.setRole i { d.role with consumed := true, granted := false, credits := [], staged := [], ready := [], sent := []
                                       startFt := s.ft, lastAt := s.now }
    let s := s.beginRepair i chunk
    s.tellRepair d.role chunk skip

/-- REPAIR_REQ (R327, R328): the first for a key makes its roles run the chunk again, and goes on. -/
def execRepairReq (s : State) : Host.Outcome State Fault Refusal :=
  match s.takeNotice 3 with
  | none => done s
  | some (p, s) =>
    let d := field p.pay 0 1
    let t := field p.pay 4 4
    let j := field p.pay 0x0C 2
    if s.col.repairs.contains (d, t, j) then done s
    else
      let is_ := s.keyRoles d t
      let old := s.col.done.find? fun x => x.role.domain == d && x.role.ticket == t && decide (s.now < x.endAt + s.chainTime)
      if is_.isEmpty && old.isNone then done s.colDiscard
      else
        let s := s.modCol fun c => { c with repairs := c.repairs ++ [(d, t, j)] }
        let s := is_.foldl (fun s i => match s.role i with
          | some r => (s.beginRepair i j).tellRepair r j (some p.srcAddr)
          | none => s) s
        match is_, old with
        | [], some x => done (s.revive x j (some p.srcAddr)).colEnd
        | _, _ => done s.colEnd

/-! Combine terms (R105, R329) -/

/-- COMBINE_TERM (R105, R329): folded in slot order or held in scratch; a term of no registration is refused and counted. -/
def execCombineTerm (bad : Option Nat) (s : State) : Host.Outcome State Fault Refusal :=
  if !s.memOpen then done s
  else match s.takeInb fun x => x.pkt.data && x.pkt.opcode == 0x45 with
    | none => done s
    | some (x, s) =>
      let p := x.pkt
      let t := p.op 0x26 2
      let j := p.op 0x28 1
      match s.combineOf (p.op 0x20 4) (p.op 0x24 2) with
      | none => done ((s.answer p 0x03 0x10 0).colDiscard)
      | some c =>
        let (r, s) := s.readRange (c.desc.src + 48 * t) 48 bad
        match r.fail with
        | some (st, _) => done ((s.endCombine c st).answer p 0x03 0x10 0)
        | none =>
          if t ≥ cmEntries c.bytes ∨ !(reSlots r.bytes).contains j then done ((s.answer p 0x03 0x10 0).colDiscard)
          else
            let (c', s) := s.takePiece c t j (p.addr % 2 ^ 16) p.payload
            let s := s.busy colSet ((p.byteCount / cmTermSize c.bytes + 127) / 128)
            done ((s.putCombine c { c' with lastTerm := s.now }).answer p 0x01 0 0)

/-! Timers -/

/-- The lowest chunk a role has not finished. -/
def State.firstOpen (s : State) (r : Role) : Nat :=
  ((List.range (chunkTotal (s.shp r) r.op r.bytes)).find? fun j => !s.chunkWhole r j).getD 0

/-- CHAIN_TIMEOUT (R323). -/
def execChainTimeout (chain : ChainIx) (s : State) : Host.Outcome State Fault Refusal :=
  match s.role chain.val with
  | some r =>
    if s.fatal || r.standby || r.op == opPermute then done s
    else
      let s := s.passTo (r.lastAt + s.chainTime)
      done (s.failRole chain.val 0x11 (s.firstOpen r)).colEnd
  | none => done s

/-- STANDBY_TIMEOUT (R325). -/
def execStandbyTimeout (chain : ChainIx) (s : State) : Host.Outcome State Fault Refusal :=
  match s.role chain.val with
  | some r => done (if s.fatal || !r.standby then s else ((s.passTo (r.postedAt + s.chainTime)).closeRole chain.val 0x18 0).colEnd)
  | none => done s

/-- HELD_ACTIVATION_TIMEOUT (R324): the oldest BACKUP_ACT that waits for its standby is dropped. -/
def execHeldActivationTimeout (s : State) : Host.Outcome State Fault Refusal :=
  match s.col.acts with
  | a :: as => done (if s.fatal then s else (s.passTo (a.at_ + s.chainTime)).modCol fun c => { c with acts := as })
  | [] => done s

/-- COL_BACKUP_GO (R324): every role that sends to the device treats it as unreachable. -/
def State.backupGo (s : State) (a : Nat) : State :=
  ((List.range 8).foldl (fun s i => match s.role i with
    | some r => if s.sendsTo r a ∧ !(r.moved.any fun m => m.1 == a) then s.unreach i a else s
    | none => s) s).colEnd

/-! Domains and the engine (R319, R408) -/

/-- Shuts a domain down (R319): held descriptors and running roles complete with ABORTED, what is kept for its tickets goes. -/
def State.domainOff (s : State) (d : Nat) : State :=
  let s := (s.set (COL_DOM_CTRL_EN d) 0).set (COL_DOM_CTRL_ENABLE_PENDING d) 0
  let s := (s.col.held.filter (·.domain == d)).foldl (fun s h => s.endHeld h 0x0A 0) s
  let s := (List.range 8).foldl (fun s i => match s.role i with
    | some r =>
      if r.domain ≠ d then s
      else if r.standby then s.closeRole i 0x0A 0
      else s.failRole i 0x0A (s.firstOpen r)
    | none => s) s
  let s := s.modCol fun c => { c with
    arrivals := c.arrivals.filter (·.domain != d), acts := c.acts.filter fun a => field a.pay 0 1 != d
    early := c.early.filter fun p => if p.opcode = 0x1C then field p.pay 0 1 != d else p.ctag / 1024 != d
    aborted := c.aborted.filter (·.1 != d), doneAhead := c.doneAhead.filter (·.1 != d), repairs := c.repairs.filter (·.1 != d), orderAt := Tbl.drop c.orderAt d
    arrived := c.arrived.filter fun p => field p.pay 0 1 != d, resend := c.resend.filter fun x => field x.2.pay 0 1 != d
    done := c.done.filter (·.role.domain != d), closing := if c.closing.contains d then c.closing else c.closing ++ [d] }
  s.takeLost 64

/-- Turns a domain on (R319): a domain in shutdown only notes it. -/
def State.domainEn (s : State) (d : Nat) : State :=
  if (s.seqdom d).isNone then s
  else if s.col.closing.contains d then s.set (COL_DOM_CTRL_ENABLE_PENDING d) 1
  else s.set (COL_DOM_CTRL_EN d) 1

/-- Whether every context of a domain is IDLE. -/
def State.domainIdle (s : State) (d : Nat) : Bool :=
  (List.range 8).all fun i => s.chainState i == 0 || match s.role i with
    | some r => r.domain != d
    | none => (s.col.ending.find? fun e => e.1 == i).all fun e => e.2.1 != d

/-- DOMAIN_SHUTDOWN_DONE (R319). -/
def execDomainShutdownDone (dom : DomIx) (s : State) : Host.Outcome State Fault Refusal :=
  let d := dom.val
  if s.fatal || !s.col.closing.contains d || !s.domainIdle d then done s
  else
    let s := s.modCol fun c => { c with closing := c.closing.erase d }
    done (if s.flag (COL_DOM_CTRL_ENABLE_PENDING d) then (s.set (COL_DOM_CTRL_ENABLE_PENDING d) 0).domainEn d else s)

/-- Shuts the engine down: every domain and every combine registration (R333). -/
def State.colOff (s : State) : State :=
  let s := (s.set COL_CTRL_EN 0).set COL_CTRL_ENABLE_PENDING 0
  let s := (List.range 64).foldl (fun s d => if s.flag (COL_DOM_CTRL_EN d) ∨ s.flag (COL_DOM_CTRL_ENABLE_PENDING d) then s.domainOff d else s) s
  let s := s.combines.foldl (fun s c => s.endCombine c 0x0A) s
  s.modCol fun c => { c with shutting := true }

/-- Enables the engine, or notes the enable during a shutdown (R408). -/
def State.colOn (s : State) : State := if s.col.shutting then s.set COL_CTRL_ENABLE_PENDING 1 else s.set COL_CTRL_EN 1

/-- COL_SHUTDOWN_DONE (R408). -/
def execColShutdownDone (s : State) : Host.Outcome State Fault Refusal :=
  if s.fatal || !s.col.shutting || !s.col.closing.isEmpty || !s.combines.isEmpty then done s
  else
    let s := s.modCol fun c => { c with shutting := false }
    done (if s.flag COL_CTRL_ENABLE_PENDING then (s.set COL_CTRL_ENABLE_PENDING 0).set COL_CTRL_EN 1 else s)

end Sys2Proof.Machine
end

