-- ==== Sys2Proof/Machine/Permute.lean ====
section
/-! DEFINITION. PERMUTE (R368 to R373): the wait, the moves, the packets that receive them, the swap; the translation entries' life (R375); the
registration and roll-back of shard entries (R357, R360); and the answers to the collective engine's packets (R210, R324). -/

namespace Sys2Proof.Machine

open Sys2Proof

/-! Receiving bytes and local moves -/

/-- Counts bytes received into an entry's NEXT slot. -/
def State.addRecv (s : State) (e n : Nat) : State := s.setR (MEM_SHD_RECV e) (s.getR (MEM_SHD_RECV e) + (n + 63) / 64)

/-- Writes bytes of a permute at an offset of an entry's NEXT slot and counts them. Answers whether they could be written: they lie in the slot, and
the write does not fail (R146, R405). DEDUCED: it does not set DIRTY, which stands for the writes of R358. Log 164. -/
def State.permStore (s : State) (e off : Nat) (bs : List Byte) : Bool × State :=
  let dirty := s.get (MEM_SHD_STATE_DIRTY e)
  if off + bs.length > s.slotBytes e then (false, s)
  else
    let (fail, s) := s.writeRange (s.slotAt e 1 + off) bs
    let s := s.set (MEM_SHD_STATE_DIRTY e) dirty
    if fail.isSome then (false, s) else (true, s.addRecv e bs.length)

/-- A move within the device: a copy from the CUR slot to the NEXT slot. Answers whether it could be read and written. -/
def State.moveLocal (s : State) (e : Nat) (x : Xfer) : Bool × State :=
  let (rd, s) := s.readRange x.src x.len
  if rd.fail.isSome then (false, s) else s.permStore e x.addr rd.bytes

/-! Sending moves (R370) -/

/-- The packets of a move: they end at every 2,048-byte boundary of DST_OFFSET. A move to the own address is one copy (R369). -/
def movePackets (own cur : Nat) (k : Nat) (m : List Byte) : List Xfer :=
  if mvAddr m = own then
    [{ op := 0x54, dev := own, sel := 0xC8, addr := mvDst m, src := cur + mvSrc m, len := mvBytes m, off := 0, fields := [], grp := k }]
  else (pieces2048 (mvDst m) (mvBytes m)).map fun p =>
    { op := 0x54, dev := mvAddr m, sel := 0xC8, addr := mvDst m + p.1, src := cur + mvSrc m + p.1, len := p.2, off := p.1
      fields := leBytes 2 (mvRank m), grp := k }

/-- The packet of a move. -/
def State.movePkt (s : State) (r : Role) (x : Xfer) (t : Nat) (bs : List Byte) : Pkt :=
  let fs := leBytes 1 r.domain ++ [0] ++ leBytes 4 r.ticket ++ x.fields ++ leBytes 2 r.step ++ leBytes 2 (cEpoch r.bytes) ++
    leBytes 4 (cTensor r.bytes)
  (s.mkData x.dev 0xC8 0xC8 0x54 t none 4 0 0 x.addr fs bs).setH 96 8 r.gen

/-- Makes the moves of a permute in list order, at most 256 packets awaiting their acknowledgement; n bounds the copies and packets. -/
def State.sendMoves : Nat → Nat → State → State
  | 0, _, s => s
  | n + 1, i, s =>
    match s.role i with
    | none => s
    | some r =>
      match r.moves with
      | [] => s
      | x :: xs =>
        if x.dev = s.ownAddr then
          let (ok, s) := (s.modRole i fun r => { r with moves := xs, lastAt := s.now }).moveLocal r.entry x
          if ok then State.sendMoves n i s else s.permFail i x.grp
        else if r.movesOut.length ≥ 256 then s
        else
          let (rd, s) := s.readRange x.src x.len
          match rd.fail with
          | some _ => s.permFail i x.grp
          | none =>
            let (t, s) := s.newTag 0xC8
            let p := s.movePkt r x t rd.bytes
            let s := s.modRole i fun r =>
              { r with moves := xs, movesOut := r.movesOut ++ [{ xfer := x, pkt := p, ctag := t, firstSent := s.now }], lastAt := s.now }
            State.sendMoves n i ((s.offer { input := 32, pkt := p, orig := .chain i, job := r.job }).takeLost 64)

/-- Makes as many moves of a permute as can go now. -/
def State.pumpMoves (s : State) (i : Nat) : State := State.sendMoves (((s.role i).map (·.moves.length)).getD 0) i s

/-! The wait (R371) -/

/-- The GRAD entry a permute waits for. -/
def State.gradOf (s : State) (e : Nat) : Option Nat :=
  let g := s.get (MEM_SHD_CFG_GRAD_INDEX e)
  if g < 64 then some g else none

/-- Whether a reduction under the old layout that touches the GRAD region is still open here. -/
def State.oldOpen (s : State) (r : Role) : Bool :=
  match s.gradOf r.entry with
  | none => false
  | some g =>
    let old := (cEpoch r.bytes + 65535) % 65536
    let a := s.shdBase g
    let n := s.slotBytes g
    let touches (bs : List Byte) : Bool :=
      let (d, m) := s.dstSpan bs
      field bs 0 1 != opPermute && cEpoch bs == old && match place d with
        | .gddr x => meets x m a n
        | _ => false
    (s.mem.gates.any fun x => x.closed.isNone && x.epoch == old && meets x.dst x.length a n) ||
      (s.col.held.any fun h => touches h.bytes) || s.col.roles.any fun x => x.2.passing.isNone && touches x.2.bytes

/-- The wait ends: translations become active, the NEXT slot is the permute's, and the moves go. -/
def State.permGo (s : State) (i : Nat) (r : Role) : State :=
  let e := r.entry
  let old := (cEpoch r.bytes + 65535) % 65536
  let xs := (List.range 64).filter fun x => s.flag (MEM_XLATE_CTRL_VALID x) && s.get (MEM_XLATE_CTRL_OLD_EPOCH x) == old
  let s := xs.foldl (fun s x => (s.set (MEM_XLATE_CTRL_ACTIVE x) 1).modMem fun m => { m with xlateAt := Tbl.insert m.xlateAt x s.now }) s
  let s := (s.set (MEM_SHD_STATE_PERMUTING e) 1).modCol fun c => { c with permOwner := Tbl.insert c.permOwner e (r.domain, r.ticket) }
  let list := s.readLocal (cSrc r.bytes) (cLen r.bytes)
  let ms := (List.range (cLen r.bytes / 32)).map fun k => (k, moveAt list k)
  let moves := ms.flatMap fun m => movePackets s.ownAddr (s.slotAt e 0) m.1 m.2
  (s.modRole i fun r => { r with waitOver := true, activated := xs, moves := moves, lastAt := s.now }).pumpMoves i

/-- PERMUTE_WAIT_END (R371). -/
def execPermuteWaitEnd (chain : ChainIx) (s : State) : Host.Outcome State Fault Refusal :=
  match s.role chain.val with
  | some r =>
    done (if s.fatal || r.op != opPermute || r.waitOver || s.oldOpen r || !s.memOpen then s else (s.permGo chain.val r).colEnd)
  | none => done s

/-- PERMUTE_BLOCKED_TIMEOUT (R371). -/
def execPermuteBlockedTimeout (chain : ChainIx) (s : State) : Host.Outcome State Fault Refusal :=
  match s.role chain.val with
  | some r =>
    if s.fatal || r.op != opPermute || r.waitOver then done s
    else done ((s.passTo (r.postedAt + s.chainTime)).closeRole chain.val 0x35 0).colEnd
  | none => done s

/-! Receiving (R372) -/

/-- The entry a PERMUTE_DATA packet may be written to. -/
def State.permEntry (s : State) (p : Pkt) : Option Nat :=
  (List.range 64).find? fun e =>
    s.shdChecked e && s.getR (MEM_SHD_TENSOR e) == p.op 0x2C 4 && p.op 0x2A 2 == (s.get (MEM_SHD_EPOCH_EPOCH e) + 1) % 65536 &&
      !s.flag (MEM_SHD_STATE_DIRTY e) && decide (p.addr + p.byteCount ≤ s.slotBytes e)

/-- Whether an entry's NEXT slot belongs to another PERMUTE than a packet's (R358). -/
def State.permOther (s : State) (e : Nat) (p : Pkt) : Bool :=
  s.flag (MEM_SHD_STATE_PERMUTING e) && Tbl.find s.col.permOwner e != some (p.op 0x20 1, p.op 0x22 4)

/-- The context of the permute of an entry. -/
def State.permRole (s : State) (e : Nat) : Option (Nat × Role) :=
  s.col.roles.find? fun x => x.2.op == opPermute && x.2.entry == e

/-- A packet of shard data has been written into the NEXT slot of its entry: the first makes the slot the permute's. -/
def State.takeMove (s : State) (e : Nat) (p : Pkt) : State :=
  let s := if s.flag (MEM_SHD_STATE_PERMUTING e) then s
    else (s.set (MEM_SHD_STATE_PERMUTING e) 1).modCol fun c => { c with permOwner := Tbl.insert c.permOwner e (p.op 0x20 1, p.op 0x22 4) }
  match s.permRole e with
  | some (i, r) =>
    if s.getR (MEM_SHD_RECV e) > cRecv r.bytes / 64 then s.permFail i 0 else s.modRole i fun r => { r with lastAt := s.now }
  | none => s

/-- PERMUTE_DATA (R370, R372): written and acknowledged, or refused; a write to a slot that is another PERMUTE's is refused as R358 says. -/
def execPermuteData (s : State) : Host.Outcome State Fault Refusal :=
  if !s.memOpen then done s
  else match s.takeInb fun x => x.pkt.data && x.pkt.opcode == 0x54 with
    | none => done s
    | some (x, s) =>
      match s.permEntry x.pkt with
      | some e =>
        if s.permOther e x.pkt then done ((s.noteRefused e 0x30).answer x.pkt 0x03 0x10 (0x30000000 + e))
        else match s.permStore e x.pkt.addr x.pkt.payload with
        | (true, s) => done ((s.takeMove e x.pkt).answer x.pkt 0x01 0 0).colEnd
        | (false, s) => done (s.answer x.pkt 0x03 0x10 0)
      | none => done (s.answer x.pkt 0x03 0x10 0)

/-! Completion (R373) -/

/-- PERMUTE_COMPLETE (R373): every move acknowledged and every byte received, the entry swaps to the new layout. -/
def execPermuteComplete (chain : ChainIx) (s : State) : Host.Outcome State Fault Refusal :=
  match s.role chain.val with
  | some r =>
    let e := r.entry
    if s.fatal || r.op != opPermute || !r.waitOver || !r.moves.isEmpty || !r.movesOut.isEmpty then done s
    else if s.getR (MEM_SHD_RECV e) > cRecv r.bytes / 64 then done (s.permFail chain.val 0).colEnd
    else if s.getR (MEM_SHD_RECV e) < cRecv r.bytes / 64 then done s
    else
      let s := (s.swapEntry e (s.get64 (DET_STEP_STEP r.group))).set (MEM_SHD_EPOCH_EPOCH e) (cEpoch r.bytes)
      let s := (s.set (MEM_SHD_STATE_PERMUTING e) 0).setR (MEM_SHD_RECV e) 0
      let s := if epochOlder (s.get MEM_LAYOUT_EPOCH) (cEpoch r.bytes) then s.set MEM_LAYOUT_EPOCH (cEpoch r.bytes) else s
      let s := s.modCol fun c => { c with permOwner := Tbl.drop c.permOwner e }
      done (s.closeRole chain.val 0 0).colEnd
  | none => done s

/-- PERMUTE_PROGRESS_TIMEOUT (R373). -/
def execPermuteProgressTimeout (chain : ChainIx) (s : State) : Host.Outcome State Fault Refusal :=
  match s.role chain.val with
  | some r =>
    if s.fatal || r.op != opPermute || !r.waitOver then done s
    else
      let move := (((r.movesOut.map (·.xfer.grp)) ++ r.moves.map (·.grp)).head?).getD 0
      done ((s.passTo (r.lastAt + s.chainTime)).permFail chain.val move).colEnd
  | none => done s

/-! Translation entries (R375) -/

/-- XLATE_HOLD_EXPIRY (R375): a translation entry's life as ACTIVE ends. -/
def execXlateHoldExpiry (entry : EntryIx) (s : State) : Host.Outcome State Fault Refusal :=
  let x := entry.val
  if s.fatal || !s.flag (MEM_XLATE_CTRL_ACTIVE x) then done s
  else
    let s := s.passTo (Tbl.read s.mem.xlateAt 0 x + fclk (1000 * max 1 (s.get MEM_XLATE_HOLD_HOLD)))
    let s := s.modMem fun m => { m with xlateAt := Tbl.drop m.xlateAt x }
    done ((s.set (MEM_XLATE_CTRL_VALID x) 0).set (MEM_XLATE_CTRL_ACTIVE x) 0)

/-! Registration and roll-back (R357, R360) -/

/-- Bytes an entry owns: three slots, or one region. -/
def State.shdOwned (s : State) (e : Nat) : Nat := if s.get (MEM_SHD_CFG_KIND e) = 3 then s.slotBytes e else 3 * s.slotBytes e

/-- Whether an entry as it would stand breaks a rule of registration (R357). -/
def State.shdBad (s : State) (e : Nat) : Bool :=
  let base := s.shdBase e
  s.get (MEM_SHD_CFG_SLOT_UNITS e) == 0 || decide (base + s.shdOwned e > gddrSize) ||
    (List.range 64).any fun x => x != e && s.shdValid x &&
      (meets base (s.shdOwned e) (s.shdBase x) (s.shdOwned x) ||
        (s.get (MEM_SHD_CFG_GROUP x) == s.get (MEM_SHD_CFG_GROUP e) && s.getR (MEM_SHD_TENSOR x) == s.getR (MEM_SHD_TENSOR e)))

/-! Answers to the engine's packets (R210, R324) -/

/-- Whether an answer is to a packet: the tag and the address of the packet answered. -/
def answers (p q : Pkt) : Bool := p.ctag == q.ctag && field p.pay 8 8 == q.placeAddr

/-- The context whose chunk or scalar an answer is to, and the output. -/
def State.sentOf (s : State) (p : Pkt) : Option (Nat × ChunkOut) :=
  s.col.roles.findSome? fun x => (x.2.sent.find? fun o => match o.pkt with
    | some q => answers p q
    | none => false).map fun o => (x.1, o)

/-- The context and the move a packet of a permute answers. -/
def State.moveOf (s : State) (p : Pkt) : Option (Nat × Outst) :=
  s.col.roles.findSome? fun x => (x.2.movesOut.find? fun o => answers p o.pkt).map fun o => (x.1, o)

/-- An acknowledgement of a chunk or of a move. -/
def State.colAck (s : State) (p : Pkt) : State :=
  match s.sentOf p with
  | some (i, o) => (s.modRole i fun r => { r with sent := r.sent.erase o }).colEnd
  | none =>
    match s.moveOf p with
    | some (i, o) =>
      ((s.modRole i fun r => { r with movesOut := r.movesOut.erase o, lastAt := s.now }).pumpMoves i).colEnd
    | none => s

/-- A refusal: of a move it fails the permute; else one with a code of 1 to 7 says that the destination is unreachable. -/
def State.colRefused (s : State) (p : Pkt) : State :=
  let code := field p.pay 0 1
  match s.moveOf p with
  | some (i, o) => (s.permFail i o.xfer.grp).colEnd
  | none =>
  if code = 0 ∨ code > 7 then s
  else
    match s.sentOf p with
    | some (i, o) => match s.role i with
      | some r => (s.unreach i (r.named o.dest)).colEnd
      | none => s
    | none =>
      match s.col.arrived.find? (answers p) with
      | some q =>
        let s := (s.keyRoles (field q.pay 0 1) (field q.pay 4 4)).foldl (fun s i => s.unreach i q.destAddr) s
        (s.modCol fun c => { c with arrived := c.arrived.erase q }).colEnd
      | none => s

/-- A retry answer: the arrival goes again after a microsecond. -/
def State.colRetry (s : State) (p : Pkt) : State :=
  match s.col.arrived.find? (answers p) with
  | some q => s.modCol fun c => { c with resend := c.resend ++ [(s.now + fclk 1, q)] }
  | none => s

end Sys2Proof.Machine
end

