-- ==== Sys2Proof/Machine/Packets.lean ====
section
/-! DEFINITION. The packets that reach the logical cores and the GDDR7 front end (R204, R210): answers, reads, writes and signals; and the
replicator's rows (R253 to R257). -/

namespace Sys2Proof.Machine

open Sys2Proof

/-- The delivered packet a row takes: of an opcode, for an endpoint that the row serves. -/
def State.takePkt (s : State) (data : Bool) (op : Nat) : Option (Inb × State) :=
  s.takeInb fun x => x.pkt.data == data && x.pkt.opcode == op

/-! Answers to a core's packets (R210, R225, R256, R265, R346) -/

/-- Whether an answer is to a packet of a core: the tag and the address agree, and it comes from the packet's destination, for a multicast
from any member, for a refusal from any device on the way. -/
def answersOutst (p : Pkt) (o : Outst) : Bool :=
  answers p o.pkt && (o.xfer.op == 0x43 || p.opcode == 0x03 || (p.srcAddr == o.pkt.destAddr && p.srcEp == o.pkt.destEp))

/-- The queue, descriptor and packet of a core that a packet answers. -/
def State.outstOf (s : State) (L : Nat) (test : Outst → Bool) : Option (Nat × Desc × Outst) :=
  (List.range 4).findSome? fun q => (s.findOutst L q test).map fun x => (q, x)

/-- The log entry of an RSIGNAL that was sent before a fault and awaits an answer with this tag. -/
def State.loggedSignal (s : State) (L tag : Nat) : Option LogItem :=
  (s.cdet L).log.find? fun it => it.op == 0x14 && it.queue < 4 && it.st == .sent && it.ctag == some tag

/-- An answer to no packet of a core's queues: one that SHUTDOWN waits for is taken (R73), any other is counted as stale (R346). -/
def State.unmatched (s : State) (L : Nat) (p : Pkt) : State :=
  match (s.core L).left.find? (answersOutst p) with
  | some o =>
    let n := if o.xfer.op = 0x43 ∧ p.opcode = 0x01 then field p.pay 4 4 % 2 ^ 16 else o.need
    s.modCore L fun c => { c with left := if n < o.need then c.left.map fun x => if x = o then { o with need := o.need - n } else x
                                           else c.left.erase o }
  | none => s.count (DET_CORE_STALE_COUNT L)

/-- An answer that matches no packet of a core: that of an RSIGNAL sent before a fault, or one that is counted as stale (R345, R346). -/
def State.staleAnswer (s : State) (L : Nat) (p : Pkt) (status : Nat) : State :=
  match s.loggedSignal L p.ctag with
  | some it =>
    let s := s.logSet L it.number fun x => { x with ctag := none, record := [0, 0, 0, 0] ++ leBytes 1 status }
    match s.desc L it.queue it.number with
    | some d => if d.held then s.endTaken L it.queue it.number status else s
    | none => s
  | none => s.unmatched L p

/-- An acknowledgement reaches a core (R67, R256): the packet is done; a multicast's counts add up to its members, and skips are counted. -/
def State.coreAck (s : State) (L : Nat) (p : Pkt) : State :=
  match s.outstOf L (answersOutst p) with
  | none => s.staleAnswer L p 0
  | some (q, d, o) =>
    let detail := field p.pay 4 4
    let skip := o.xfer.op == 0x43 && bit detail 31
    let n := if o.xfer.op = 0x43 then detail % 2 ^ 16 else 1
    let s := if skip then s.modDesc L q d.number fun d => { d with skipped := d.skipped + n } else s
    if n < o.need then
      s.modDesc L q d.number fun d => { d with outst := d.outst.map fun x => if x = o then { o with need := o.need - n } else x }
    else (s.dropOutst L q d.number o).advance L q d.number o.xfer

/-- A retry answer reaches a core: the packet goes again after 1 microsecond (R154, R261). -/
def State.coreRetry (s : State) (L : Nat) (p : Pkt) : State :=
  match s.outstOf L (answersOutst p) with
  | none => s.unmatched L p
  | some (q, d, o) =>
    s.modDesc L q d.number fun d =>
      { d with outst := d.outst.map fun x => if x = o then { o with retryAt := some (s.now + fclk 1) } else x }

/-- The status a descriptor completes with after a refusal (R225, R265). -/
def refuseStatus (code : Nat) : Nat := if (1 ≤ code ∧ code ≤ 7) ∨ code = 14 then 7 else if code = 8 then 9 else 8

/-- A refusal reaches a core: the packet's descriptor fails. -/
def State.coreRefused (s : State) (L : Nat) (p : Pkt) : State :=
  let st := refuseStatus (field p.pay 0 1)
  match s.outstOf L (answersOutst p) with
  | none => s.staleAnswer L p st
  | some (q, d, o) => (s.failPacket L q d.number o st).pump L

/-- An answer goes to the endpoint it is addressed to. -/
def State.takeAnswer (s : State) (p : Pkt) (core : State → Nat → Pkt → State) (col : State → Pkt → State) : State :=
  if p.destEp < 144 then core s p.destEp p
  else if p.destEp = 0xC0 then s.forwardAnswer p
  else if p.destEp = 0xC8 then col s p
  else s

/-- ACK (R67, R210, R256). -/
def execAck (s : State) : Host.Outcome State Fault Refusal :=
  match s.takePkt false 0x01 with
  | some (x, s) => done (s.takeAnswer x.pkt State.coreAck State.colAck)
  | none => done s

/-- RETRY (R154, R210, R261). -/
def execRetry (s : State) : Host.Outcome State Fault Refusal :=
  match s.takePkt false 0x02 with
  | some (x, s) => done (s.takeAnswer x.pkt State.coreRetry State.colRetry)
  | none => done s

/-- REFUSE (R210, R225, R265). -/
def execRefuse (s : State) : Host.Outcome State Fault Refusal :=
  match s.takePkt false 0x03 with
  | some (x, s) => done (s.takeAnswer x.pkt State.coreRefused State.colRefused)
  | none => done s

/-! Reads and writes (R204) -/

/-- Whether n bytes from an address lie where packets for an endpoint may reach: the SRAM window of a core, or GDDR7 (R204). -/
def epRange (ep a n : Nat) : Bool :=
  if ep < 144 then decide (sramBase + ep * sramSize ≤ a) && decide (a + n ≤ sramBase + (ep + 1) * sramSize)
  else decide (a + n ≤ gddrSize)

/-- Whether an access of an endpoint waits for the GDDR7 subsystem. -/
def State.epWaits (s : State) (ep : Nat) : Bool := ep == 0xC0 && !s.memOpen

/-- Whether a READ_REQ keeps its rules: BYTES, the reserved bytes, the source range (R204, R210). -/
def readOk (p : Pkt) : Bool :=
  let n := field p.pay 0x10 2
  decide (1 ≤ n) && decide (n ≤ 2048) && zeroAt p.pay 0x06 2 && zeroAt p.pay 0x0E 2 && zeroAt p.pay 0x13 29 &&
    epRange p.destEp (field p.pay 0 6) n

/-- A READ_REQ at its endpoint: the response, or a refusal when it breaks a rule or the read fails. -/
def State.serveRead (s : State) (bad : Option Nat) (p : Pkt) : State :=
  if !readOk p then s.answer p 0x03 0x10 0
  else
    let a := field p.pay 0 6
    let (r, s) := s.readRange a (field p.pay 0x10 2) bad
    if r.fail.isSome then s.answer p 0x03 0x10 0
    else
      let q := s.mkData p.srcAddr p.srcEp p.destEp 0x41 p.ctag none 4 0 (field p.pay 0x12 1) (field p.pay 8 6) [] r.bytes
      s.offer { input := s.inputOf p.destEp a, pkt := q, orig := .endpoint }

/-- READ_REQ (R204, R210). -/
def execReadReq (bad : Option Nat) (s : State) : Host.Outcome State Fault Refusal :=
  match s.takeInb fun x => !x.pkt.data && x.pkt.opcode == 0x04 && !s.epWaits x.pkt.destEp with
  | some (x, s) => done (s.serveRead bad x.pkt)
  | none => done s

/-- Whether a READ_RESP is the answer to a read request of a core: tag, address and length agree. -/
def answersRead (p : Pkt) (o : Outst) : Bool :=
  o.xfer.op == 0x04 && o.ctag == p.ctag && o.xfer.src == p.addr && o.xfer.len == p.byteCount && p.srcAddr == o.pkt.destAddr &&
    p.srcEp == o.pkt.destEp

/-- A READ_RESP at a core: its data is written at RETURN_ADDR (R67, R210); a write that meets a protected slot, or fails, fails the
descriptor. -/
def State.coreData (s : State) (L : Nat) (p : Pkt) : State :=
  match s.outstOf L (answersRead p) with
  | none =>
    match (s.core L).left.find? (answersRead p) with
    | some o => s.modCore L fun c => { c with left := c.left.erase o }
    | none => s.count (DET_CORE_STALE_COUNT L)
  | some (q, d, o) =>
    match s.shardStatus p.addr p.byteCount with
    | (some (st, off), s) =>
      let s := s.dropOutst L q d.number o
      (s.failDesc L q d.number st (o.xfer.off + off)).pump L
    | (none, s) =>
      let (fail, s) := s.writeRange p.addr p.payload
      let s := (s.busy (4 * L + 3) (2 * ((p.byteCount + 63) / 64))).dropOutst L q d.number o
      match fail with
      | some (st, off) => (s.failDesc L q d.number st (o.xfer.off + off)).pump L
      | none => s.advance L q d.number o.xfer

/-- READ_RESP (R67, R210). -/
def execReadResp (s : State) : Host.Outcome State Fault Refusal :=
  match s.takeInb fun x => x.pkt.data && x.pkt.opcode == 0x41 && !s.memWaits x.pkt.addr x.pkt.byteCount with
  | some (x, s) => done (if x.pkt.destEp < 144 then s.coreData x.pkt.destEp x.pkt else s)
  | none => done s

/-- A data packet that is written at its endpoint: refused when it lies outside the endpoint's range, meets a protected slot, or fails; else
acknowledged once it is written, a multicast with DETAIL = 1 (R204, R256, R358). -/
def State.serveWrite (s : State) (p : Pkt) : State :=
  let n := p.byteCount
  if !epRange p.destEp p.addr n then s.answer p 0x03 0x10 0
  else
    match (if p.destEp = 0xC0 then s.shardHit p.addr n else none) with
    | some (_, e) => (s.noteRefused e 0x30).answer p 0x03 0x10 (0x30000000 + e)
    | none =>
      let (fail, s) := s.writeRange p.addr p.payload
      if fail.isSome then s.answer p 0x03 0x10 0 else s.answer p 0x01 0 (b2n p.mcast)

/-- Takes a delivered data packet of one of the opcodes and writes it. -/
def State.takeWrite (s : State) (ops : List Nat) : State :=
  match s.takeInb fun x => x.pkt.data && ops.contains x.pkt.opcode && !s.epWaits x.pkt.destEp with
  | some (x, s) => s.serveWrite x.pkt
  | none => s

/-- WRITE (R67, R204, R256, R358): a WRITE, or a multicast packet at a member. -/
def execWrite (s : State) : Host.Outcome State Fault Refusal := done (s.takeWrite [0x40, 0x43])

/-- DISPATCH_ROW (R100, R102): a row, its tag or a count is written into an expert's receive buffer. -/
def execDispatchRow (s : State) : Host.Outcome State Fault Refusal := done (s.takeWrite [0x44])

/-- RING_BLOCK (R108): a block or its header is written at the receiver. -/
def execRingBlock (s : State) : Host.Outcome State Fault Refusal := done (s.takeWrite [0x46])

/-! Signals -/

/-- RSIGNAL_PACKET (R66, R70): adds to an event counter of the core it is addressed to, and is acknowledged. -/
def execRsignalPacket (s : State) : Host.Outcome State Fault Refusal :=
  match s.takePkt false 0x05 with
  | some (x, s) =>
    done ((s.extEvt x.pkt.destEp (field x.pkt.pay 4 1 % 32) (field x.pkt.pay 0 4)).answer x.pkt 0x01 0 0)
  | none => done s

/-! The replicator -/

/-- MCAST_PACKET (R253 to R255): the packet that waits longest at the replicator is checked and replicated. -/
def execMcastPacket (s : State) : Host.Outcome State Fault Refusal := done (if s.fatal then s else s.replicate)

/-- MCAST_RESIDUE_SERVE (R255): the oldest residue with a destination that has become ready has its copies for those queued. -/
def execMcastResidueServe (s : State) : Host.Outcome State Fault Refusal :=
  if s.fatal then done s
  else
    match s.switch.residues.findIdx? fun r => match s.bufPkt r.head with
      | some b => (onesBelow 25 r.dests).any fun d => s.mcastReady b.pkt b.input d
      | none => true with
    | some i => done (s.serveResidue i false)
    | none => done s

end Sys2Proof.Machine
end

