-- ==== Sys2Proof/Machine/Train.lean ====
section
/-! DEFINITION. The training of a port (R173 to R178, R165, R166, R172, R197): training frames, lane lock, adaptation, marker blocks, time limits,
lane faults and narrowing; and what a write of LNK_CTRL starts (R198). -/

namespace Sys2Proof.Machine

open Sys2Proof

/-! What a port needs of its lanes -/

/-- Lanes a port needs: MIN_WIDTH of its PORTMAP record. -/
def State.minWidth (s : State) (p : Nat) : Nat := if s.pmap p 4 1 = 4 then 4 else 8

/-- The received lanes of the width that training agreed on. -/
def State.widthLanes (s : State) (p : Nat) : List Nat :=
  if s.flag (LNK_STATUS_X4 p) then
    (portLanes p).filter fun l => decide (s.get (LANE_STATUS_LOGICAL l) ≥ 4) == s.flag (LNK_STATUS_UPPER_HALF p)
  else portLanes p

/-- Leaves DETECT once enough lanes have locked and received 8 consecutive good frames (R173). -/
def State.detectDone (s : State) (p : Nat) : State :=
  let n := ((portLanes p).filter fun l => s.flag (LANE_STATUS_LOCK l) && decide ((s.lane l).goodFrames ≥ 8)).length
  if s.lst p = lkDetect ∧ n ≥ s.minWidth p then
    let s := (portLanes p).foldl (fun s l => s.modLane l fun x => { x with goodFrames := 0 }) (s.goPort p lkConfig)
    s.sendFrames (portLanes p) 1
  else s

/-! Training frames (R174 to R176) -/

/-- The lane order the frames of a port show: none while no lane has a frame, else whether every lane is in order, and whether every lane is
reversed (R175). -/
def State.laneOrder (s : State) (p : Nat) : Bool × Bool :=
  let all (f : Nat → Nat → Bool) : Bool := (portLanes p).all fun l => match (s.lane l).peerLane with
    | some v => f (l % 8) v
    | none => true
  (all (· == ·), all fun j v => v == 7 - j)

/-- A good frame on a lane: what it says of the partner (R174, R176). One lane's LANE shows whether the lanes run straight or reversed, and all
eight, silent ones too, are numbered accordingly (R159, R175). -/
def State.takeFrame (s : State) (l : Nat) (bs : List Byte) : State :=
  let p := l / 8
  let v := field bs 1 1
  let s := s.modLane l fun x => { x with goodFrames := x.goodFrames + 1, peerLane := some v }
  let s := if v = l % 8 then (List.range 8).foldl (fun s j => s.set (LANE_STATUS_LOGICAL (8 * p + j)) j) s
    else if v = 7 - l % 8 then (List.range 8).foldl (fun s j => s.set (LANE_STATUS_LOGICAL (8 * p + j)) (7 - j)) s
    else s
  s.modPort p fun q => { q with peerCaps := field bs 3 1, peerMask := field bs 23 1, nonceRx := field bs 16 4 }

/-- The partner's identity, from a good IDENT frame. -/
def State.takeIdent (s : State) (p : Nat) (bs : List Byte) : State :=
  ((s.setR64 (LNK_PEER_ID p) (field bs 8 8)).set (LNK_PEER_INFO_ADDR p) (field bs 4 4)).set (LNK_PEER_INFO_PORT p) (field bs 2 1)

/-- Marks the width agreed on, and the received lanes that carry flits. -/
def State.setWidth (s : State) (p : Nat) (x4 upper : Bool) : State :=
  let s := (s.set (LNK_STATUS_X4 p) (b2n x4)).set (LNK_STATUS_UPPER_HALF p) (b2n upper)
  (portLanes p).foldl (fun s l => s.set (LANE_STATUS_ACTIVE l) (b2n ((s.widthLanes p).contains l))) s

/-- The width that both masks allow now: x8, or x4 on the lower or upper half when both ends take it (R176). -/
def State.widthNow (s : State) (p : Nat) : Option (Bool × Bool) :=
  let own := s.laneMask p
  let both := own &&& (s.port p).peerMask
  if both = 0xFF then some (false, false)
  else if s.minWidth p = 4 ∧ bit (s.port p).peerCaps 7 then
    (if both &&& 0x0F = 0x0F then some (true, false) else if both &&& 0xF0 = 0xF0 then some (true, true) else none)
  else none

/-- What CONFIG agrees on (R175, R176): lane order, identity, speed and width. A width narrower than x8 is settled when a lane has received 8
frames in CONFIG. Once agreed, READY frames are sent. -/
def State.agree (s : State) (p : Nat) (frames : Nat) : State :=
  if s.lst p ≠ lkConfig ∨ (s.port p).selfReady then s
  else
    let (straight, rev) := s.laneOrder p
    if !straight && !rev then s.failPort p 2
    else
      let id := s.getR64 (LNK_PEER_ID p)
      let want := s.pmap p 8 8
      let s := s.set (LNK_STATUS_REVERSED p) (b2n (!straight))
      let s := if (s.port p).lastId.any (· != id) then s.set (LNK_STATUS_PEER_CHANGED p) 1 else s
      let s := s.modPort p fun q => { q with lastId := some id }
      if want ≠ 0 ∧ want ≠ id then s.failPort p 4
      else
        let common := s.caps p &&& (s.port p).peerCaps &&& 7
        if common = 0 then s.failPort p 0xD
        else
          match s.widthNow p with
          | none => if frames ≥ 8 then s.failPort p 3 else s
          | some (x4, upper) =>
            if x4 && decide (frames < 8) then s
            else
              let speed := log2 common
              let s := (s.set (LNK_STATUS_SPEED p) speed).set (LNK_STATUS_SPEED_LOW p) (b2n (decide (speed < s.pmap p 3 1)))
              let s := (s.setWidth p x4 upper).modPort p fun q => { q with selfReady := true }
              s.sendFrames (portLanes p) 2

/-- Leaves CONFIG once both ends have sent READY: the lanes change to the agreed speed and lock again (R173). -/
def State.bothReady (s : State) (p : Nat) : State :=
  if s.lst p = lkConfig ∧ (s.port p).selfReady ∧ (s.port p).peerReady then
    (portLanes p).foldl (fun s l => s.set (LANE_STATUS_LOCK l) 0) (s.goPort p lkSpeed)
  else s

/-- Measures a lane's figure of merit; it saturates at 255 (R165). -/
def State.setFom (s : State) (l fom : Nat) : State := s.set (LANE_STATUS_FOM l) (min 255 fom)

/-- IDENT_FRAME (R173 to R176): a good frame drives DETECT and CONFIG; a bad one breaks the row of good frames. The polarity of its sync and the
figure of merit of the lane are measured. A change of the own LANE_MASK goes out with new IDENT frames. -/
def execIdentFrame (lane : LaneIx) (bytes : List Byte) (inverted : Bool) (fom : Nat) (s : State) : Host.Outcome State Fault Refusal :=
  let l := lane.val
  let p := l / 8
  let st := s.lst p
  if s.fatal || !(st == lkDetect || st == lkConfig) then done s
  else
    let s := (s.set (LANE_STATUS_POL_INV l) (b2n inverted)).setFom l fom
    if !frameGood bytes 1 then done (s.modLane l fun x => { x with goodFrames := 0 })
    else
      let before := s.laneMask p
      let s := ((s.takeFrame l bytes).takeIdent p bytes).detectDone p
      let s := s.agree p (s.lane l).goodFrames
      let s := if s.laneMask p ≠ before ∧ (s.lst p = lkDetect ∨ s.lst p = lkConfig) then s.sendFrames (portLanes p) 1 else s
      done (s.bothReady p)

/-- READY_FRAME (R173): ends CONFIG when this end is ready too. In DETECT it counts as a good frame. -/
def execReadyFrame (lane : LaneIx) (bytes : List Byte) (s : State) : Host.Outcome State Fault Refusal :=
  let l := lane.val
  let p := l / 8
  if s.fatal || !(s.lst p == lkDetect || s.lst p == lkConfig) then done s
  else if !frameGood bytes 2 then done (s.modLane l fun x => { x with goodFrames := 0 })
  else
    let s := (s.takeFrame l bytes).detectDone p
    if s.lst p ≠ lkConfig then done s
    else
      let s := (s.agree p (s.lane l).goodFrames).modPort p fun q => { q with peerReady := true }
      done (s.bothReady p)

/-- LANE_LOCK (R164, R173): a receiver locks. In DETECT the port may go on to CONFIG; in SPEED, with every lane of the width locked, to EQ. -/
def execLaneLock (lane : LaneIx) (s : State) : Host.Outcome State Fault Refusal :=
  let l := lane.val
  let p := l / 8
  let st := s.lst p
  if s.fatal || st == lkOff || st == lkLp2 && (s.port p).waking.isNone || st == lkFailed || st == lkFenced then done s
  else
    let s := (s.set (LANE_STATUS_LOCK l) 1).detectDone p
    if s.lst p = lkSpeed ∧ (s.widthLanes p).all fun l => s.flag (LANE_STATUS_LOCK l) then
      let s := s.goPort p lkEq
      done (s.sendFrames (s.txLanes p) 3)
    else done s

/-! Adaptation (R165) -/

/-- One step of a transmit tap: 1 increases and 2 decreases its magnitude; whether it was at its limit. -/
def txStep (now req top : Nat) : Nat × Bool :=
  if req = 1 then (min top (now + 1), decide (now ≥ top))
  else if req = 2 then (now - 1, decide (now = 0))
  else (now, false)

/-- An iteration of a lane's adaptation: its figure of merit is measured, and the iterations without a rise are counted (R165). -/
def State.iterate (s : State) (l fom : Nat) : State :=
  let s := s.setFom l fom
  let f := s.get (LANE_STATUS_FOM l)
  s.modLane l fun x => if f > x.bestFom then { x with bestFom := f, flat := 0 } else { x with flat := x.flat + 1 }

/-- Whether a lane's adaptation has converged: no rise for 8 iterations in a row (R165). -/
def State.converged (s : State) (l : Nat) : Bool := decide ((s.lane l).flat ≥ 8)

/-- EQ_FRAME (R165, R174): steers the transmit FFE of the lane that the partner receives under this lane's number; the lane's own adaptation goes
on by one iteration; an EQ frame answers with this receiver's request, what became of the partner's, and whether it has converged. -/
def execEqFrame (lane : LaneIx) (bytes : List Byte) (fom : Nat) (s : State) : Host.Outcome State Fault Refusal :=
  let l := lane.val
  let p := l / 8
  if s.fatal || s.lst p != lkEq || !frameGood bytes 3 then done s
  else
    let t := 8 * p + s.get (LANE_STATUS_LOGICAL l)
    let req := field bytes 20 1
    let (pre, atPre) := txStep (s.get (LANE_TXEQ_PRE t)) (bits req 0 2) 16
    let (post, atPost) := txStep (s.get (LANE_TXEQ_POST t)) (bits req 2 2) 24
    let s := ((s.set (LANE_TXEQ_PRE t) pre).set (LANE_TXEQ_POST t) post).iterate l fom
    let (x, s) := s.draw
    done (s.sendFrame t (s.frame t 3 (x % 3 + 4 * (x / 3 % 3)) (b2n atPre + 4 * b2n atPost + 16 * b2n (s.converged l))))

/-- Whether adaptation ends now: every lane of the width has converged (R165). -/
def State.adapted (s : State) (p : Nat) : Bool := (s.widthLanes p).all s.converged

/-- Whether a lane of the width has too low a figure of merit (R165). -/
def State.fomLow (s : State) (p : Nat) : Bool := (s.widthLanes p).any fun l => decide (s.get (LANE_STATUS_FOM l) < s.get (LNK_FOM_MIN_FOM p))

/-- Adaptation has ended. -/
def State.endAdapt (s : State) (p : Nat) : State :=
  if s.fomLow p then s.failPort p 5
  else if s.get (LNK_CTRL_LOOP p) = 3 then (s.modPort p fun q => { q with loopAsked := true }).sendFrames (s.txLanes p) 4
  else ((s.goPort p lkDeskew).sendMarker p).2

/-- EQ_ADAPT_END (R165, R197): adaptation ends now if it has converged, else when its 16 ms have passed. With every figure of merit of the width
passing, the port goes to DESKEW, or asks for a far-end loopback; else it fails with EQ_FOM. -/
def execEqAdaptEnd (port : PortIx) (s : State) : Host.Outcome State Fault Refusal :=
  let p := port.val
  if s.fatal || s.lst p != lkEq || (s.port p).loopAsked then done s
  else
    let s := if s.adapted p then s else s.passTo ((s.port p).stepAt + fclk 16000)
    done (s.endAdapt p)
/-- LOOP_REQ_FRAME (R197): a port with FAR_ALLOW retransmits what it receives, these frames too; the port that asked sees its own frames come back
and is in its loopback too. A port without FAR_ALLOW does not answer. -/
def execLoopReqFrame (lane : LaneIx) (bytes : List Byte) (s : State) : Host.Outcome State Fault Refusal :=
  let p := lane.val / 8
  let st := s.lst p
  if s.fatal || !frameGood bytes 4 then done s
  else if st = lkEq ∧ (s.port p).loopAsked then done (s.enterLoop p)
  else if (st = lkEq ∨ st = lkDeskew) ∧ s.flag (LNK_CTRL_FAR_ALLOW p) then
    done (((s.enterLoop p).modPort p fun q => { q with farLoop := true }).sendFrame lane bytes)
  else if st = lkLoopback ∧ (s.port p).farLoop then done (s.sendFrame lane bytes)
  else done s

/-! Narrowing (R178) -/

/-- NARROW_FRAME (R178): the partner narrows to the half on which its frames arrive; a port already in RETRAIN answers with a marker block. -/
def execNarrowFrame (lane : LaneIx) (bytes : List Byte) (s : State) : Host.Outcome State Fault Refusal :=
  let l := lane.val
  let p := l / 8
  if s.fatal || !frameGood bytes 5 then done s
  else
    let upper := decide (s.get (LANE_STATUS_LOGICAL l) ≥ 4)
    if s.lst p = lkActive then
      if s.mayNarrow p && s.halfGood p (4 * b2n upper) then done ((s.narrow p upper).sendMarker p).2 else done (s.failPort p 0xA)
    else if s.lst p = lkRetrain then done (s.sendMarker p).2
    else done s

/-! Lanes in service (R166) -/

/-- LANE_LOCK_LOSS (R163, R166, R173, R197): a receiver loses lock. With `idle` the whole link has gone to electrical idle, as one of its active
lanes shows: every lane loses lock, and a link in service fails with PEER_IDLE, except behind an optical module. Otherwise one lane alone
has lost its signal, and in service that is a lane fault. In a training step only the step's limit fails the port (R173). The partner of a
far-end loopback goes back to DETECT when the line goes idle. In LP1 only the lane that carries flits counts: the others are idle by
rule. -/
def execLaneLockLoss (lane : LaneIx) (idle : Bool) (s : State) : Host.Outcome State Fault Refusal :=
  let l := lane.val
  let p := l / 8
  let st := s.lst p
  if s.fatal || (st == lkLp1 && !(s.rxLanes p).contains l) then done s
  else
    let up := st == lkActive || st == lkLp1
    let gone := if idle && up then portLanes p else [l]
    let u := gone.foldl (fun s l => (s.set (LANE_STATUS_LOCK l) 0).modLane l fun x => { x with goodFrames := 0 }) s
    if st = lkLoopback ∧ (s.port p).farLoop ∧ idle then done (u.enterDetect p)
    else if !up then done u
    else if idle then done (if bit (s.pmap p 6 2) 0 then u else u.failPort p 9)
    else done (if s.flag (LANE_STATUS_ACTIVE l) then u.laneFault l else u)

/-- FOM_MEASURE (R166): the figure of merit of a lane in service; the third low one in a row faults the lane. -/
def execFomMeasure (lane : LaneIx) (fom : Nat) (s : State) : Host.Outcome State Fault Refusal :=
  let l := lane.val
  let p := l / 8
  if s.fatal || !(s.lst p == lkActive || s.lst p == lkLp1) || !s.flag (LANE_STATUS_ACTIVE l) then done s
  else
    let s := s.setFom l fom
    let n := if s.get (LANE_STATUS_FOM l) < s.get (LNK_FOM_MIN_FOM p) then (s.lane l).lowFom + 1 else 0
    let s := s.modLane l fun x => { x with lowFom := n }
    done (if n ≥ 3 && !s.flag (LANE_STATUS_FAULT l) then s.laneFault l else s)

/-! Marker blocks (R170 to R173) -/

/-- MSEQ of a received marker on a lane with a logical number, if the marker is good (R170). -/
def markerSeq (bs : List Byte) (k : Nat) : Option Nat :=
  let m := leNat bs
  if bs.length = 9 ∧ bits m 0 42 = 2 ^ 41 - 2 ∧ bits m 42 3 = k ∧ bit m 45 ∧ bits m 60 2 ≤ 2 ∧ bit m 62 ∧ bits m 63 8 = markerChk m ∧
      bit m 71 then some (bits m 46 14)
  else none

/-- Checks one lane's marker: a bad one is counted, and the fourth in a row in service faults the lane (R166, R172). -/
def State.laneMarker (s : State) (l : Nat) (good : Bool) : State :=
  if good then s.modLane l fun x => { x with badMarkers := 0 }
  else
    let s := (s.count (LANE_ERR_LINE_MARKER l)).modLane l fun x => { x with badMarkers := x.badMarkers + 1 }
    if (s.lst (l / 8) = lkActive ∨ s.lst (l / 8) = lkLp1) ∧ (s.lane l).badMarkers = 4 ∧ s.flag (LANE_STATUS_ACTIVE l) then s.laneFault l else s

/-- Two good aligned blocks in a row end DESKEW with INIT, and RETRAIN with a replay from the oldest flit that is not acknowledged
(R173, R178); one aligns the lanes again after LP2 (R194). -/
def State.aligned (s : State) (p : Nat) : State :=
  let s := s.modPort p fun q => { q with goodMarkers := q.goodMarkers + 1 }
  if s.lst p = lkLp2 then s.initDone p
  else if (s.port p).goodMarkers < 2 then (s.sendMarker p).2
  else if s.lst p = lkDeskew then s.enterInit p
  else
    let s := s.goPort p lkActive
    if (s.port p).stored.isEmpty then s else s.replayLink p (s.port p).oldest

/-- A received marker block reseeds the descramblers (R168): with the MSEQ of its good markers, or the next one where none was good. In a far-end
loopback it is this end's own block that has come back. -/
def State.seedRx (s : State) (p : Nat) (ls : List Nat) (seqs : List (Option Nat)) : State :=
  let q := s.port p
  let m := ((seqs.find? (·.isSome)).join).getD ((q.rxMseq + 1) % 16384)
  let nonce := if s.lst p = lkLoopback then q.nonceTx else q.nonceRx
  let s := ls.foldl (fun s l => s.modLane l fun x => { x with rx := Coder.seeded nonce (s.get (LANE_STATUS_LOGICAL l)) m }) s
  s.modPort p fun q => { q with rxMseq := m }

/-- What a marker block means for a port that is aligning its lanes (R172, R173): with a marker missing or bad, or MSEQ that differ, nothing is
aligned; a skew above 4 ns fails the port; else the block counts. -/
def State.alignBlock (s : State) (p : Nat) (ls : List Nat) (seqs : List (Option Nat)) (sk : List Nat) : State :=
  if ls.length < (s.widthLanes p).length ∨ seqs.any (·.isNone) ∨ (seqs.drop 1).any (· ≠ seqs.headD none) then
    ((s.modPort p fun q => { q with goodMarkers := 0 }).sendMarker p).2
  else
    let first := sk.foldl min (sk.headD 0)
    let s := (ls.zip sk).foldl (fun s x => s.set (LANE_STATUS_SKEW x.1) (min 255 ((x.2 - first) / 4))) s
    if sk.any fun x => decide (x - first > 64 * 2 ^ s.get (LNK_STATUS_SPEED p)) then s.failPort p 6 else s.aligned p

/-- MARKER_BLOCK (R166, R168, R170, R172, R173, R197): the markers of the physical lanes in order, each 9 bytes, and the lanes' skews in unit
intervals without the stuffing difference. A lane whose entry is empty has no marker to check. The partner's end of a far-end loopback
sends the markers back. -/
def execMarkerBlock (port : PortIx) (lanes : List (List Byte)) (skews : List Nat) (s : State) : Host.Outcome State Fault Refusal :=
  let p := port.val
  let st := s.lst p
  let live := lkDeskew ≤ st && st ≤ lkLp1 || st == lkShutdown || st == lkLoopback || st == lkLp2 && (s.port p).relocked
  let mark (l : Nat) : List Byte := lanes.getD (l % 8) []
  if s.fatal || !live then done s
  else
    let ls := (if (s.port p).onLane0 then s.rxLanes p else s.widthLanes p).filter fun l => decide (mark l ≠ [])
    if (s.port p).farLoop then done (ls.foldl (fun s l => s.emit (.bits l (lineBits (mark l)))) s)
    else
      let seqs := ls.map fun l => markerSeq (mark l) (s.get (LANE_STATUS_LOGICAL l))
      let s := (ls.foldl (fun s l => s.laneMarker l (markerHolds (mark l))) s).seedRx p ls seqs
      done (if s.lst p ≠ st ∨ !(st = lkDeskew ∨ st = lkRetrain ∨ st = lkLp2) then s
        else s.alignBlock p ls seqs (ls.map fun l => skews.getD (l % 8) 0))

/-! Time limits (R173, R177, R178, R197) -/

/-- The limit of a training step in microseconds. -/
def stepLimit (st : Nat) : Option Nat :=
  if st = lkConfig ∨ st = lkSpeed then some 2000
  else if st = lkEq then some 16000
  else if st = lkDeskew ∨ st = lkRetrain then some 20
  else if st = lkInit then some 10
  else none

/-- TRAINING_STEP_TIMEOUT (R177): the step's limit passes and the port fails: with TIMEOUT, in RETRAIN with LANE_FAULT (R178), after a loopback
request that got no answer with LOOP_REFUSED (R197), in EQ with EQ_FOM while a lane's figure of merit is too low (R165). -/
def execTrainingStepTimeout (port : PortIx) (s : State) : Host.Outcome State Fault Refusal :=
  let p := port.val
  match stepLimit (s.lst p) with
  | none => done s
  | some us =>
    if s.fatal then done s
    else
      let s := s.passTo ((s.port p).stepAt + fclk us)
      done (s.failPort p (if s.lst p = lkRetrain then 0xA else if (s.port p).loopAsked then 0xC
        else if s.lst p = lkEq ∧ s.fomLow p then 5 else 1))

/-- FAILED_RETRY_TIMER (R173): 100 ms after it failed, the port returns to DETECT, unless its partner was the wrong one. -/
def execFailedRetryTimer (port : PortIx) (s : State) : Host.Outcome State Fault Refusal :=
  let p := port.val
  if s.fatal || s.lst p != lkFailed || s.get (LNK_STATUS_FAIL_CODE p) == 4 || !s.flag (LNK_CTRL_EN p) then done s
  else done ((s.passTo ((s.port p).stepAt + fclk 100000)).enterDetect p)

/-! Enable, shutdown, retrain (R173, R198, R199, R385, R408, R409) -/

/-- LPM DISABLE leaves in the port's next slot, and the lanes go idle. -/
def State.sendDisable (s : State) (p : Nat) : State := (s.putInSlot p 0xA (leBytes 1 6)).emit (.idle p)

/-- A port's enable is written from 0 to 1. -/
def State.lnkEnable (s : State) (p : Nat) : State :=
  if s.lst p = lkShutdown then s.set (LNK_CTRL_ENABLE_PENDING p) 1
  else if s.lst p = lkOff then s.powerPort p
  else s

/-- A port's enable is written 0: a port in service drains first, waking from low power; any other goes straight to OFF. -/
def State.lnkDisable (s : State) (p : Nat) : State :=
  let st := s.lst p
  if st = lkShutdown then s.set (LNK_CTRL_ENABLE_PENDING p) 0
  else if st = lkActive then s.goPort p lkShutdown
  else if st = lkLp1 then (s.wakeLp1 p).goPort p lkShutdown
  else if st = lkLp2 then (s.wakeLp2 p).goPort p lkShutdown
  else if st = lkOff ∨ st = lkFenced then s.modPort p fun q => { q with waitPower := false }
  else s.portOff p

/-- Whether a port in SHUTDOWN has drained: every sequenced flit acknowledged, and awake if it was in low power (R198). -/
def Port.drained (q : Port) : Bool := q.stored.isEmpty && q.waking.isNone && !q.onLane0

/-- PORT_SHUTDOWN_DONE (R198, R409): the port has drained, or 100 µs have passed; DISABLE leaves in the next slot and the port is OFF, or trains
again when its enable is pending. -/
def execPortShutdownDone (port : PortIx) (s : State) : Host.Outcome State Fault Refusal :=
  let p := port.val
  if s.fatal || s.lst p != lkShutdown then done s
  else
    let s := if (s.port p).drained then s else s.passTo ((s.port p).stepAt + fclk 100)
    let s := s.pass (((s.outSt p).slotDue - s.tu) / 160)
    let again := s.flag (LNK_CTRL_ENABLE_PENDING p)
    let s := (s.putInSlot p 0xA (leBytes 1 6)).portOff p
    done (if again then s.powerPort p else s)

/-- LNK_CTRL.RETRAIN written 1 (R199): from ACTIVE after LPM DISABLE, from FAILED at once. -/
def State.lnkRetrain (s : State) (p : Nat) : State :=
  if s.lst p = lkActive then (s.sendDisable p).enterDetect p
  else if s.lst p = lkFailed then s.enterDetect p
  else s

/-- PORT_POWER_TURN (R385): the port's turn in the staged power-up comes, at most 4 ports in each 100 µs, in ascending order. -/
def execPortPowerTurn (port : PortIx) (s : State) : Host.Outcome State Fault Refusal :=
  let p := port.val
  let ahead := (List.range p).any fun i => (s.port i).waitPower
  if s.fatal || !(s.port p).waitPower || ahead then done s
  else
    let recent := ((List.range 24).filter fun i => (s.port i).powered && decide (s.now - (s.port i).powerAt < fclk 100)).map fun i => (s.port i).powerAt
    let s := if recent.length ≥ 4 then s.passTo (recent.foldl min (recent.headD 0) + fclk 100) else s
    done (s.powerPort p)

end Sys2Proof.Machine
end

