-- ==== Sys2Proof/Machine/LinkEvents.lean ====
section
/-! DEFINITION. Flits and link timers (R180 to R196), the slots of the outputs (R275), and the time-gate windows (R287). -/

namespace Sys2Proof.Machine

open Sys2Proof

/-! Received flits (R180, R183, R184) -/

/-- NULL_FLIT (R180, R184): delivers its acknowledgement. -/
def execNullFlit (port : PortIx) (rx : RxFlit) (s : State) : Host.Outcome State Fault Refusal := done (s.rxFlit port rx 0).1

/-- DATA_FLIT (R183, R245 to R247): a flit in order enters its packet: a header flit opens one, a payload flit goes on with it, and the last one
completes it. -/
def execDataFlit (port : PortIx) (rx : RxFlit) (header : Bool) (s : State) : Host.Outcome State Fault Refusal :=
  match s.rxFlit port rx 1 with
  | (s, none) => done s
  | (s, some bytes) =>
    match s.rxSeq port bytes with
    | (s, false) => done s
    | (s, true) => done (if header then s.dataHeader port (bytes.take 64) else s.dataPayload port (bytes.take 64))

/-- CTRL_FLIT (R183, R189, R190): a control packet in order is taken in; one that is no replayed copy may cut through, and a bad one that had
begun to leaves stomped. -/
def execCtrlFlit (port : PortIx) (rx : RxFlit) (replayed : Bool) (s : State) : Host.Outcome State Fault Refusal :=
  let q := s.port port
  let (bytes, v, u) := s.rxIn port rx
  let cut := !replayed && q.inOrder bytes
  if v = .bad ∧ cut ∧ flitType bytes = 2 ∧ s.rxOn port ∧ s.lst port ≠ lkLoopback then done ((u.ctlBad port bytes).rxBad port false)
  else
    match s.rxFlit port rx 2 with
    | (s, none) => done s
    | (s, some bytes) =>
      match s.rxSeq port bytes with
      | (s, false) => done s
      | (s, true) => done (s.ctlGood port bytes cut)

/-- CREDIT_FLIT (R180, R187, R188): each entry adds to its VC's credit; in INIT the partner's initial credits have come. -/
def execCreditFlit (port : PortIx) (rx : RxFlit) (s : State) : Host.Outcome State Fault Refusal :=
  match s.rxFlit port rx 3 with
  | (s, none) => done s
  | (s, some bytes) =>
    match s.rxSeq port bytes with
    | (s, false) => done s
    | (s, true) =>
      let s := (List.range 32).foldl (fun s i => s.addCredit port (field bytes (2 * i) 1 % 32) (field bytes (2 * i + 1) 1)) s
      done ((s.modPort port fun q => { q with credSeen := true }).initDone port)

/-- NAK (R184): a replay from EXPECTED; one of another generation is ignored, one out of range fails the port. -/
def execNak (port : PortIx) (rx : RxFlit) (s : State) : Host.Outcome State Fault Refusal :=
  match s.rxFlit port rx 8 with
  | (s, none) => done s
  | (s, some bytes) => done (s.takeNak port (field bytes 0 2 % 4096) (field bytes 2 1 % 16))

/-- REPLAY_START (R183): the generation, and the duplicates to skip; more than 1,024 fail the port with PROTOCOL. -/
def execReplayStart (port : PortIx) (rx : RxFlit) (s : State) : Host.Outcome State Fault Refusal :=
  match s.rxFlit port rx 9 with
  | (s, none) => done s
  | (s, some bytes) =>
    let skip := ((s.port port).expected + 4096 - field bytes 0 2 % 4096) % 4096
    if skip > 1024 then done (s.protocolError port)
    else done (s.modPort port fun q => { q with rxGen := field bytes 2 1 % 16, skip := skip, rxWait := false, resend := 0 })

/-- The record of a fatal notice (R192). -/
def State.peerFatal (s : State) (p : Nat) (bs : List Byte) : State :=
  let s := (s.set (LNK_PEER_FATAL_ADDR p) (field bs 0 4)).set (LNK_PEER_FATAL_CODE p) (field bs 4 1)
  (s.setR64 (LNK_PEER_FATAL_TIME p) (field bs 8 8)).set (LNK_STATUS_PEER_FATAL p) 1

/-- FATAL_FLIT (R192): the notice is recorded and the port fails with PEER_FATAL; the event is reported (R397). A notice that follows another
overwrites the record. -/
def execFatalFlit (port : PortIx) (rx : RxFlit) (s : State) : Host.Outcome State Fault Refusal :=
  if !s.fatal && s.lst port == lkFailed && s.get (LNK_STATUS_FAIL_CODE port) == 8 then
    let (bytes, v, u) := s.rxIn port rx
    done (if v = .good ∧ flitType bytes = 0xF then u.peerFatal port bytes else s)
  else match s.rxFlit port rx 0xF with
    | (s, none) => done s
    | (s, some bytes) => done (((s.peerFatal port bytes).failPort port 8).report 0x04 port (field bytes 4 1))

/-! Low power (R194 to R196) -/

/-- An LPM flit with a command is received. -/
def State.rxLpm (s : State) (p : Nat) (rx : RxFlit) (k : Nat) : State × Bool :=
  match s.rxFlit p rx 0xA with
  | (s, some bs) => (s, field bs 0 1 == k)
  | (s, none) => (s, false)

/-- The partner asks for LP1 or LP2 (R195): accepted in the next slot when nothing is outstanding and LP allows it, and both ends enter the state
after the ACCEPT; a request that crosses this end's own counts as its answer, and the lighter of the two states is entered. -/
def State.lpAskedFor (s : State) (p k : Nat) : State :=
  let q := s.port p
  let crossed := q.lpAsked = 1 ∨ q.lpAsked = 2
  if s.lst p = lkActive ∧ s.quiet p ∧ crossed then s.enterLp p (min k q.lpAsked)
  else if s.lst p = lkActive ∧ s.quiet p ∧ s.lpAllows p k then
    (s.sendCtl p 0xA (leBytes 1 3)).modPort p fun q => { q with lpEnter := k }
  else (s.sendCtl p 0xA (leBytes 1 4)).modPort p fun q => { q with lpAsked := if crossed then 0 else q.lpAsked }

/-- REQ_LP1 (R195). -/
def execReqLp1 (port : PortIx) (rx : RxFlit) (s : State) : Host.Outcome State Fault Refusal :=
  match s.rxLpm port rx 1 with
  | (s, true) => done (s.lpAskedFor port 1)
  | (s, false) => done s

/-- REQ_LP2 (R195, R196). -/
def execReqLp2 (port : PortIx) (rx : RxFlit) (s : State) : Host.Outcome State Fault Refusal :=
  match s.rxLpm port rx 2 with
  | (s, true) => done (s.lpAskedFor port 2)
  | (s, false) => done s

/-- LPM_ACCEPT (R195): both ends enter the state that was asked for. -/
def execLpmAccept (port : PortIx) (rx : RxFlit) (s : State) : Host.Outcome State Fault Refusal :=
  match s.rxLpm port rx 3 with
  | (s, false) => done s
  | (s, true) =>
    let k := (s.port port).lpAsked
    done (if s.lst port = lkActive ∧ (k = 1 ∨ k = 2) then s.enterLp port k else s)

/-- LPM_REFUSE (R195): the port stays in ACTIVE; LNK_CTRL.LP does not ask again until it is written, LP1_AUTO after the next idle time. -/
def execLpmRefuse (port : PortIx) (rx : RxFlit) (s : State) : Host.Outcome State Fault Refusal :=
  match s.rxLpm port rx 4 with
  | (s, false) => done s
  | (s, true) => done (if (s.port port).lpAsked = 0 then s else s.modPort port fun q => { q with lpAsked := 3, autoDue := false })

/-- WAKE (R195): all lanes resume from LP1. -/
def execWake (port : PortIx) (rx : RxFlit) (s : State) : Host.Outcome State Fault Refusal :=
  match s.rxLpm port rx 5 with
  | (s, false) => done s
  | (s, true) => done (if s.lst port = lkLp1 then s.lanesResume port else s)

/-- LPM_DISABLE (R198, R199): the partner shuts down or retrains, and the port returns to DETECT without a failure. A port in SHUTDOWN goes on
with it. -/
def execLpmDisable (port : PortIx) (rx : RxFlit) (s : State) : Host.Outcome State Fault Refusal :=
  match s.rxLpm port rx 6 with
  | (s, false) => done s
  | (s, true) => done (if s.lst port = lkShutdown then s else (s.emit (.idle port)).enterDetect port)

/-- LNK_CTRL.LP is written (R195, R196, R199): LP = 2 on a port that must not enter LP2 has been discarded before; a request goes in a slot with
nothing else to send. -/
def State.lpWritten (s : State) (p lp : Nat) : State :=
  let s := s.modPort p fun q => { q with lpAsked := if q.lpAsked = 3 then 0 else q.lpAsked }
  if lp ≠ 0 then s
  else if s.lst p = lkLp1 then s.wakeLp1 p
  else if s.lst p = lkLp2 then s.wakeLp2 p
  else s

/-- SQUELCH_WAKE (R195): a port in LP2 sees the partner's burst and wakes. -/
def execSquelchWake (port : PortIx) (s : State) : Host.Outcome State Fault Refusal :=
  let p := port.val
  if s.fatal || s.lst p != lkLp2 || (s.port p).waking.isSome || (s.port p).relocked then done s
  else done (s.modPort p fun q => { q with waking := some s.now })

/-- PLL and recovery have locked again after LP2 (R194): a marker block leaves, and new initial credits are due unless the port shuts down. -/
def State.relock (s : State) (p : Nat) : State :=
  let s := (s.widthLanes p).foldl (fun s l => s.set (LANE_STATUS_LOCK l) 1) s
  let s := s.modPort p fun q => { q with waking := none }
  if s.lst p ≠ lkLp2 then (s.sendMarker p).2
  else
    let s := (List.range 32).foldl (fun s v => s.setR (LNK_CRED p v) 0) s
    let s := s.modPort p fun q => { q with relocked := true, credNew := [], credSent := false, credSeen := false, goodMarkers := 0 }
    ((s.initCredits p).sendMarker p).2

/-- LP2_EXIT_DONE (R194): 12 µs into the exit PLL and recovery have locked again; with the lanes aligned and both ends' initial credits exchanged
the port is ACTIVE. -/
def execLp2ExitDone (port : PortIx) (s : State) : Host.Outcome State Fault Refusal :=
  let p := port.val
  if s.fatal then done s
  else match (s.port p).waking with
    | some t => done ((s.passTo (t + fclk 12)).relock p)
    | none => done (s.initDone p)

/-- LP1_AUTO_IDLE (R195): after IDLE microseconds with NULL flits only, the port requests LP1 in its next slot. -/
def execLp1AutoIdle (port : PortIx) (s : State) : Host.Outcome State Fault Refusal :=
  let p := port.val
  if s.fatal || s.lst p != lkActive || !s.flag (LNK_CTRL_LP1_AUTO p) then done s
  else
    let s := s.passTo ((s.port p).idleSince + fclk (max 1 (s.get (LNK_LP_CFG_IDLE p))))
    done (s.modPort p fun q => { q with autoDue := true })

/-! Round-trip measurement (R193) -/

/-- LNK_PING_CTRL.START written 1: on an ACTIVE port a request goes in the next slot, and is stamped T1 there. -/
def State.pingStart (s : State) (p : Nat) : State :=
  if s.lst p = lkActive then s.sendCtl p 0xB (leBytes 1 1) else s

/-- PING_REQUEST (R193): stamped T2 on receipt, and answered in the next slot. -/
def execPingRequest (port : PortIx) (rx : RxFlit) (s : State) : Host.Outcome State Fault Refusal :=
  match s.rxFlit port rx 0xB with
  | (s, none) => done s
  | (s, some bytes) =>
    if field bytes 0 1 ≠ 1 then done s
    else done (s.sendCtl port 0xB (leBytes 8 2 ++ slice bytes 8 8 ++ leBytes 8 s.ft))

/-- PING_RESPONSE (R193): stamped T4 on receipt; the four stamps are stored and DONE is set. -/
def execPingResponse (port : PortIx) (rx : RxFlit) (s : State) : Host.Outcome State Fault Refusal :=
  match s.rxFlit port rx 0xB with
  | (s, none) => done s
  | (s, some bytes) =>
    if field bytes 0 1 ≠ 2 then done s
    else
      let s := [0, 1, 2].foldl (fun s i => s.setR64 (LNK_PING_T port i) (field bytes (8 + 8 * i) 8)) s
      done ((s.setR64 (LNK_PING_T port 3) s.ft).set (LNK_PING_CTRL_DONE port) 1)

/-! Timers (R171, R183 to R185, R188, R220, R247) -/

/-- The ack and NAK timers in FCLK. -/
def State.ackTime (s : State) (p : Nat) : Nat := max 1 (s.get (LNK_RETRY_CFG_ACK_TIMEOUT p))

/-- ACK_TIMEOUT (R184, R185): with flits outstanding and no replay running, the timer ends and a replay from the oldest flit starts. -/
def execAckTimeout (port : PortIx) (s : State) : Host.Outcome State Fault Refusal :=
  let p := port.val
  let st := s.lst p
  if s.fatal || !(st == lkActive || st == lkLp1 || st == lkShutdown) || (s.port p).stored.isEmpty || (s.port p).replayFrom.isSome then done s
  else
    let s := s.passTo ((s.port p).ackAt + s.ackTime p)
    done (s.replayLink p (s.port p).oldest)

/-- NAK_TIMEOUT (R183, R185): the NAK is sent again; more resends than RETRY_LIMIT fail the port. -/
def execNakTimeout (port : PortIx) (s : State) : Host.Outcome State Fault Refusal :=
  let p := port.val
  if !s.rxOn p || !(s.port p).rxWait then done s
  else
    let s := (s.passTo ((s.port p).nakAt + s.ackTime p)).modPort p fun q => { q with resend := q.resend + 1 }
    done (if (s.port p).resend > s.get (LNK_RETRY_CFG_RETRY_LIMIT p) then s.failPort p 7 else s.sendNak p)

/-- CREDIT_WAIT_TIMEOUT (R188): credit has waited 64 ns and leaves in a CREDIT flit in the port's next slots; a port in LP1 wakes for it. -/
def execCreditWaitTimeout (port : PortIx) (s : State) : Host.Outcome State Fault Refusal :=
  let p := port.val
  let st := s.lst p
  match (s.port p).owedAt with
  | none => done s
  | some t => if s.fatal || !(st == lkActive || st == lkLp1) then done s else done ((s.passTo (t + 106)).runSlot p)

/-- OPEN_PACKET_TIMEOUT (R247): 10 µs without a flit of the open data packet of an input discard it. -/
def execOpenPacketTimeout (port : PortIx) (s : State) : Host.Outcome State Fault Refusal :=
  match Tbl.find s.switch.opens port.val with
  | none => done s
  | some o => if s.fatal then done s else done ((s.passTo (o.lastAt + fclk 10)).dropOpen port)

/-- PORT_UP_HOLD_EXPIRY (R220): after RTE_UP_HOLD in service the port is usable for routing, if UP_AUTO is set. -/
def execPortUpHoldExpiry (port : PortIx) (s : State) : Host.Outcome State Fault Refusal :=
  let p := port.val
  match (s.port p).upAt with
  | none => done s
  | some t =>
    if s.fatal then done s
    else
      let s := s.passTo (t + s.upHold)
      done (if s.flag RTE_CFG_UP_AUTO then s.portHeld p else s)

/-- MARKER_INTERVAL_END (R171): the interval has ended and a marker block leaves on every active lane; it takes its slots. -/
def execMarkerIntervalEnd (port : PortIx) (s : State) : Host.Outcome State Fault Refusal :=
  let p := port.val
  let st := s.lst p
  if s.fatal || !(st == lkInit || st == lkActive || st == lkLp1 || st == lkShutdown || st == lkLoopback) || !s.markerDue p then done s
  else
    let t := max (s.outSt p).slotDue s.tu
    let (k, s) := s.sendMarker p
    let s := if st = lkLoopback then s.ownEcho p else s
    done (s.modOut p fun y => { y with slotDue := t + k * s.slotTime p })

/-! Slots (R275, R287) -/

/-- OUTPUT_SLOT (R171, R184, R188, R195, R275): time passes to the output's next slot, and the output decides what to send in it. -/
def execOutputSlot (output : OutIx) (s : State) : Host.Outcome State Fault Refusal := if s.fatal then done s else done (s.runSlot output)

/-- GATE_WINDOW_CHANGE (R287): fabric time reaches the next window of a port's gate list; classes whose gate closes lose their candidate, and
classes whose gate opens are backlogged again (R288). -/
def execGateWindowChange (port : PortIx) (s : State) : Host.Outcome State Fault Refusal :=
  let p := port.val
  match s.window p with
  | none => done s
  | some (_, _, len, past) =>
    if s.fatal then done s
    else
      let s := s.passToFt (s.ft + (len - past))
      done (s.refreshOut p s.tu)

end Sys2Proof.Machine
end

