-- ==== Sys2Proof/Machine/SwitchEvents.lean ====
section
/-! DEFINITION. The switch core's own events (R243, R261 to R264, R268 to R273, R290 to R292): grants of cells, the end of a hold, the age
scanner, the resequencer's timeouts, sweeps and audits, and what its control registers start. -/

namespace Sys2Proof.Machine

open Sys2Proof

/-! Internal inputs (R243, R262) -/

/-- What a command that let offered packets into the switch ends with: the parties whose packets were discarded at their origin hear of it. -/
def State.offersEnd (s : State) : State := s.takeFailed.colEnd

/-- The packet whose turn it is gets its cells: it is decided again and taken in (R226, R243, R244). -/
def State.grantNext (s : State) (o : Offer) (tie : Bool) : State :=
  let s := s.sw fun w => { w with offers := w.offers.erase o, tieWon := if tie then some o.input else w.tieWon }
  (s.placeOffer State.offerC3 o ((s.grantAside (cellsOf o.pkt.flits) o.job).getD 0)).offersEnd

/-- CELL_GRANT (R226, R243, R244): the input's waiting packet is granted its cells, if it is its turn. -/
def execCellGrant (input : OutIx) (s : State) : Host.Outcome State Fault Refusal :=
  if s.fatal then done s
  else match s.grantTurn with
    | some (o, tie) => done (if o.input = input then s.grantNext o tie else s)
    | none => done s

/-- CONGESTION_HOLD_END (R262): the hold of an input's packet ends, because its queue's mark is gone or SWC_CONG_HOLD has passed. -/
def execCongestionHoldEnd (input : OutIx) (s : State) : Host.Outcome State Fault Refusal :=
  if s.fatal then done s
  else
    match s.switch.offers.find? fun o => o.input == input.val && o.heldAt.isSome with
    | none => done s
    | some o =>
      let held := match (s.originRoute o.pkt).queueKey o.pkt with
        | some k => s.marked k
        | none => false
      let s := if held then s.passTo (o.heldAt.getD s.now + fclk (s.get SWC_CONG_HOLD_HOLD)) else s
      let s := s.sw fun w => { w with offers := w.offers.map fun x => if x = o then { o with heldAt := none, came := s.now } else x }
      match s.grantTurn with
      | some (x, tie) => done (if x.input = input then s.grantNext x tie else s)
      | none => done s

/-! The age scanner (R264) -/

/-- The next queue that holds a packet after the one the scanner visited last. -/
def State.scanNext (s : State) : Option Nat :=
  let ks := s.switch.queues.map (·.1)
  match ks.find? fun k => decide (s.switch.scanPtr < k) with
  | some k => some k
  | none => ks.head?

/-- AGE_SCAN (R264, R269): the scanner visits the head of the next queue that holds a packet; one that is aged, or that was reclaimed, is
discarded. -/
def execAgeScan (s : State) : Host.Outcome State Fault Refusal :=
  if s.fatal then done s
  else
    match s.scanNext with
    | none => done s
    | some k =>
      let s := s.sw fun w => { w with scanPtr := k }
      match s.queue k with
      | [] => done s
      | d :: rest => done ((s.oldHead k d rest).getD s)

/-! The resequencer (R261) -/

/-- RSQ_TIMEOUT (R261, R267): the gap at EXPECTED has lasted TIMEOUT; every held packet of the flow is discarded, EXPECTED goes past the last of
them, and the resequencer is swept. -/
def execRsqTimeout (flow : Nat) (s : State) : Host.Outcome State Fault Refusal :=
  match s.switch.flows[flow]? with
  | none => done s
  | some f =>
    match f.gapAt with
    | none => done s
    | some t =>
      if s.fatal then done s
      else
        let s := s.passTo (t + fclk (max 1 (s.get SWC_RSQ_CFG_TIMEOUT)))
        let far := (f.slots.map fun x => (x.1 + 65536 - f.expected) % 65536).foldl max 0
        let s := s.modFlow flow fun f => { f with slots := [], expected := (f.expected + far + 1) % 65536, gapAt := none }
        done ((f.slots.foldl (fun s x => if s.pdLive x.2 then s.discardHead State.offerC3 11 x.2.head true true else s.dropStale) s).sweep [0x78])

/-- RSQ_IDLE_RELEASE (R261): an entry without held packets that has received nothing for IDLE is released. -/
def execRsqIdleRelease (flow : Nat) (s : State) : Host.Outcome State Fault Refusal :=
  match s.switch.flows[flow]? with
  | none => done s
  | some f =>
    if s.fatal || !f.slots.isEmpty then done s
    else
      let s := s.passTo (f.lastAt + fclk (max 1 (s.get SWC_RSQ_CFG_IDLE)))
      done (s.sw fun w => { w with flows := w.flows.eraseIdx flow })

/-! Sweeps (R268, R269) -/

/-- SWEEP_DONE (R268, R271): the walk that runs ends; the next sweep starts, else an audit that waits for it. -/
def execSweepDone (s : State) : Host.Outcome State Fault Refusal :=
  match s.switch.sweeps with
  | [] => done s
  | w :: _ =>
    let s := s.pass ((totalCells - w.pos + 15) / 16)
    match s.switch.sweeps with
    | [] => done s
    | w :: ws =>
      let ws := match ws with
        | [] => []
        | x :: xs => { x with start := some s.now } :: xs
      let s := s.sw fun x => { x with sweeps := ws, swept := if w.marked.isEmpty then x.swept else x.swept ++ [w] }
      let s := if ws.isEmpty then s.set BPM_STATUS_SWEEP_BUSY 0 else s
      done (if ws.isEmpty && s.switch.auditAsked then s.auditStart else s)

/-- RECLAIM_TIMEOUT (R269): BPM_RECLAIM_TIMEOUT after a sweep began, what it marked and is still held is freed by force. -/
def execReclaimTimeout (s : State) : Host.Outcome State Fault Refusal :=
  let due (w : Sweep) : Nat := w.start.getD 0 + fclk (max 1 (s.get BPM_RECLAIM_TIMEOUT_TIME))
  match s.switch.swept with
  | w :: _ =>
    let s := s.passTo (due w)
    done (w.marked.foldl State.forceFree (s.sw fun x => { x with swept := x.swept.erase w }))
  | [] =>
    match s.switch.sweeps with
    | w :: _ =>
      let s := s.passTo (due w)
      let marked := ((s.switch.sweeps.head?).map (·.marked)).getD []
      let s := s.sw fun x => { x with sweeps := x.sweeps.modify 0 fun w => { w with marked := [] } }
      done (marked.foldl State.forceFree s)
    | [] => done s

/-! Audits (R271, R272) -/

/-- An audit is asked for: ignored while one runs; it waits for the sweeps. -/
def State.askAudit (s : State) : State :=
  if s.switch.audit.isSome then s
  else if s.switch.sweeps.isEmpty then s.auditStart
  else s.sw fun w => { w with auditAsked := true }

/-- AUDIT_PERIOD_TIMER (R271): AUDIT_PERIOD × 10 ms after the last audit started, one starts. -/
def execAuditPeriodTimer (s : State) : Host.Outcome State Fault Refusal :=
  let n := s.get BPM_CTRL_AUDIT_PERIOD
  if n = 0 then done s else done (s.passTo (s.switch.auditStart + n * fclk 10000)).askAudit

/-- AUDIT_DONE (R271): the walk ends; the totals are checked and the leaks reported. -/
def execAuditDone (s : State) : Host.Outcome State Fault Refusal :=
  match s.switch.audit with
  | none => done s
  | some a =>
    if !s.switch.sweeps.isEmpty then done s
    else
      let s := s.pass ((totalCells - a.pos + 15) / 16)
      match s.switch.audit with
      | none => done s
      | some a =>
        let s := s.sw fun w => { w with audit := none }
        let s := (s.set BPM_STATUS_AUDIT_BUSY 0).set BPM_AUDIT_RESULT_LEAKED (min 0x3FFFF a.leaked)
        let s := if a.leaked > 0 then s.set BPM_STATUS_LEAK 1 else (s.set BPM_AUDIT_RESULT_OWNER 0).setR BPM_AUDIT_CELL 0
        done (if a.free + a.frees ≠ s.cellsFree + a.allocs then (s.set BPM_STATUS_AUDIT_MISMATCH 1).report 0x1D 0 s.cellsFree else s)

/-! Control registers (R273, R292) -/

/-- Whether a port, a core or an internal endpoint is enabled. -/
def State.anyEnabled (s : State) : Bool :=
  ((List.range 24).any fun p => s.flag (LNK_CTRL_EN p) || !(s.lst p == lkOff || s.lst p == lkFenced)) ||
    ((List.range 144).any fun L => s.flag (CORE_CTRL_EN L) || !(s.cst L == stOff || s.cst L == stFenced)) ||
    s.flag COL_CTRL_EN || s.col.shutting || s.flag MEM_CTRL_EN || s.mem.shutting

/-- SWC_CTRL.EN is written 0: every cell is freed, and what waits at the internal inputs is discarded at its origin. -/
def State.swcDisable (s : State) : State :=
  let os := s.switch.offers
  let s := (s.switch.queues.map (·.1)).foldl (fun s k => s.setQueue k []) s
  let s := s.sw fun w =>
    { w with cells := (w.cells.map fun c => (c.1, if c.2.state = 3 then c.2 else { gen := c.2.gen })).filter fun c => c.2 ≠ {}
             pkts := [], opens := [], offers := [], repl := [], residues := [], flows := [], cuts := []
             outs := (w.outs.map fun o => (o.1, { o.2 with sending := none })).filter fun o => o.2 ≠ {} }
  (os.foldl (fun s o => s.originDiscard 1 o) (s.set SWC_CTRL_EN 0)).offersEnd

end Sys2Proof.Machine
end

