-- ==== Sys2Proof/Machine/Pattern.lean ====
section
/-! DEFINITION. The checks of a pattern image, in the order of R29: header and framing (R15, R16), piece table and preambles (R17, R18), hashes,
signer and signature (R19, R466), binding, generation (R25), completeness (R21), the record rules of every piece (R22 to R24, R77, R217, R218,
R283, R286, R299 to R301, R316, R349, R389, R401, R429, R493), references, route banks (R35), quiescence (R27) and resources (R31). -/

namespace Sys2Proof.Machine

open Sys2Proof

/-! Piece types (R20) -/

/-- A row of the table of R20: class (0 live, 1 drained, 2 cold), instances, record size, most records. -/
structure PieceType where
  cls : Nat
  insts : Nat
  size : Nat
  most : Nat
deriving DecidableEq, Repr

/-- The table of R20. -/
def pieceType (t : Nat) : Option PieceType :=
  match t with
  | 0x01 => some ⟨2, 1, 32, 1⟩
  | 0x02 => some ⟨1, 1, 16, 24⟩
  | 0x03 => some ⟨0, 2, 8, 16384⟩
  | 0x04 => some ⟨0, 1, 16, 35⟩
  | 0x05 => some ⟨0, 1, 8, 1536⟩
  | 0x06 => some ⟨1, 1, 32, 32⟩
  | 0x07 => some ⟨0, 1, 4, 16⟩
  | 0x08 => some ⟨0, 1, 32, 64⟩
  | 0x09 => some ⟨1, 1, 16, 64⟩
  | 0x0A => some ⟨0, 1, 8, 64⟩
  | 0x0B => some ⟨0, 1, 64, 1⟩
  | 0x0C => some ⟨2, 1, 8, 1⟩
  | _ => none

/-- A refusal: its code (R32), and what PAT_REFUSE_DETAIL names: piece-table index, type, record. -/
structure PatRefuse where
  code : Nat
  piece : Nat := 0xFF
  type : Nat := 0
  recd : Nat := 0
deriving DecidableEq, Repr

/-! Header and framing (R15, R16, R19) -/

/-- The 1,024-byte signature block. -/
def sigBlock (bs : List Byte) : List Byte := bs.drop (bs.length - 1024)

/-- Step 3 of R29: the code of the first failure. DEDUCED: a length that is not a multiple of 8, which would put the signature block off its
boundary of R15, is refused with BAD_LENGTH; R32 names no code for it. Log 31. -/
def headerCheck (op : Nat) (bs : List Byte) : Option Nat :=
  let n := bs.length
  if field bs 0 4 ≠ 0x54505A4B ∨ field bs 6 2 ≠ 0x100 ∨ field bs 0x60 4 ≠ 0x100 then some 1
  else if field bs 4 2 ≠ 1 ∨ field bs 0x10 1 ≠ op ∨ field bs 0x11 1 = 0 ∨ field bs 0x11 1 > 32 ∨ field bs 0x12 2 > 1 ∨
      !zeroAt bs 0x18 8 ∨ !zeroAt bs 0x68 152 ∨ (field bs 0x12 2 = 0 ∧ !zeroAt bs 0x20 32) ∨ (op = 0 ∧ field bs 0x14 4 ≠ 0) ∨
      !zeroAt bs (n - 252) 252 then some 2
  else if field bs 8 4 ≠ n ∨ n > 4194304 ∨ n % 8 ≠ 0 ∨ field bs 0x64 4 ≠ n - 1024 then some 3
  else none

/-! Piece table (R17, R18) -/

/-- A piece-table entry. -/
structure PEntry where
  index : Nat
  raw : List Byte
deriving DecidableEq, Repr

def PEntry.type (e : PEntry) : Nat := field e.raw 0 1
def PEntry.inst (e : PEntry) : Nat := field e.raw 1 1
def PEntry.cls (e : PEntry) : Nat := field e.raw 2 1
def PEntry.off (e : PEntry) : Nat := field e.raw 4 4
def PEntry.len (e : PEntry) : Nat := field e.raw 8 4
def PEntry.hash (e : PEntry) : List Byte := slice e.raw 0x10 32

/-- A refusal that names a piece. -/
def PEntry.bad (e : PEntry) (code : Nat) (recd : Nat := 0) : Option PatRefuse :=
  some { code := code, piece := e.index, type := e.type, recd := min 0xFFFF recd }

/-- The entries of an image. -/
def entriesOf (bs : List Byte) : List PEntry :=
  (List.range (field bs 0x11 1)).map fun i => { index := i, raw := slice bs (0x100 + 48 * i) 48 }

/-- The body of a piece. -/
def PEntry.body (e : PEntry) (bs : List Byte) : List Byte := slice bs e.off e.len

/-- The piece an entry holds: its records without the preamble. -/
def PEntry.piece (e : PEntry) (bs : List Byte) : Piece :=
  let size := ((pieceType e.type).map (·.size)).getD 1
  let n := field bs e.off 4
  { type := e.type, inst := e.inst, recs := (List.range n).map fun i => slice bs (e.off + 8 + size * i) size }

/-- Step 4 of R29 for one entry, after the entries before it. -/
def entryCheck (op : Nat) (bs : List Byte) (before : List PEntry) (e : PEntry) : Option PatRefuse :=
  let tabEnd := 0x100 + 48 * field bs 0x11 1
  let sig := bs.length - 1024
  match pieceType e.type with
  | none => e.bad 4
  | some t =>
    let n := field bs e.off 4
    if e.inst ≥ t.insts ∨ !zeroAt e.raw 3 1 ∨ !zeroAt e.raw 0x0C 4 ∨ 0x100 + 48 * (e.index + 1) > sig then e.bad 4
    else if e.off % 8 ≠ 0 ∨ e.off < tabEnd ∨ e.len < 8 ∨ e.off + e.len > sig then e.bad 4
    else if field bs (e.off + 4) 2 ≠ t.size ∨ e.len ≠ 8 + n * t.size then e.bad 4
    else if n > t.most then e.bad 4 t.most
    else if before.any fun x => (x.type == e.type && x.inst == e.inst) || (x.off < e.off + e.len && e.off < x.off + x.len) then e.bad 4
    else if field bs (e.off + 6) 2 ≠ 1 then e.bad 2
    else if e.cls ≠ t.cls ∨ (op = 1 ∧ t.cls ≠ 0) ∨ (op = 2 ∧ t.cls ≠ 1) then e.bad 0x10
    else none

/-- Step 4 for all entries, in ascending index. -/
def tableCheck (op : Nat) (bs : List Byte) : List PEntry → List PEntry → Option PatRefuse
  | _, [] => none
  | before, e :: es =>
    match entryCheck op bs before e with
    | some r => some r
    | none => tableCheck op bs (before ++ [e]) es

/-- The padding rule of R15: bytes between the parts that belong to no body are zero. -/
def paddingOk (bs : List Byte) (es : List PEntry) : Bool :=
  let tabEnd := 0x100 + 48 * field bs 0x11 1
  let mid := (bs.take (bs.length - 1024)).drop tabEnd
  (mid.zip (List.range mid.length)).all fun x =>
    x.1 == 0 || es.any fun e => decide (e.off ≤ tabEnd + x.2) && decide (tabEnd + x.2 < e.off + e.len)

/-! Record rules -/

/-- What the rules of records refer to: the IDENT record and the PORTMAP records they are judged against. -/
structure PatCtx where
  ident : List Byte
  ports : List (List Byte)
deriving DecidableEq, Repr

/-- The own address of a context. -/
def PatCtx.own (c : PatCtx) : Nat := field c.ident 0 4 % 2 ^ 21

/-- IDENT (R22, R201). -/
def identOk (r : List Byte) : Bool :=
  let a := field r 0 4
  decide (a < 0x1FFFFF) && decide (1 ≤ field r 6 2) && decide (field r 6 2 ≤ 144) && decide (field r 4 2 + field r 6 2 ≤ 65536) &&
    decide (1 ≤ field r 8 1) && decide (field r 8 1 ≤ 16) && decide (1 ≤ field r 9 1) && decide (field r 9 1 ≤ 16) &&
    decide (1 ≤ field r 10 1) && decide (field r 10 1 ≤ 32) && zeroAt r 0x0C 20 && inExtents r a

/-- PORTMAP (R23, R24). -/
def portmapOk (c : PatCtx) (before : List (List Byte)) (r : List Byte) : Bool :=
  let dim := field r 1 1
  let peer := field r 2 1
  decide (field r 0 1 < 24) && decide (dim ≤ 5) && decide (field r 3 1 ≤ 2) && (field r 4 1 == 4 || field r 4 1 == 8) &&
    decide (1 ≤ field r 5 1) && decide (field r 5 1 ≤ 3) && decide (field r 6 2 ≤ 1) && before.all (fun x => field x 0 1 != field r 0 1) &&
    (if 1 ≤ dim ∧ dim ≤ 3 then
      peer != coord c.own dim && decide (peer < extent c.ident dim) && before.all (fun x => !(field x 1 1 == dim && field x 2 1 == peer))
    else if dim ≥ 4 then decide (peer < extent c.ident 4) && before.all (fun x => field x 1 1 != dim)
    else true)

/-- Whether a port may carry a DIM or DEST record of a plane: its dimension and PLANES bit. -/
def PatCtx.portFor (c : PatCtx) (plane dim port : Nat) : Option Nat :=
  match c.ports.find? fun r => field r 0 1 == port with
  | some r => if field r 1 1 = dim ∧ bit (field r 5 1) plane then some (field r 2 1) else none
  | none => none

/-- The port rules of R218 for a dimension and a destination coordinate. -/
def PatCtx.portsOk (c : PatCtx) (plane dim goal mn det : Nat) : Bool :=
  let own := coord c.own dim
  let between (x : Nat) : Bool := (decide (own < x) && decide (x < goal)) || (decide (goal < x) && decide (x < own))
  ((c.portFor plane dim mn).map fun x => x == goal || between x).getD false &&
    (det == 0xFF || (det != mn && ((c.portFor plane dim det).map fun x => x != goal).getD false))

/-- ROUTE of a plane (R217, R218). -/
def routeOk (c : PatCtx) (plane : Nat) (before : List (List Byte)) (r : List Byte) : Bool :=
  let kind := field r 0 1
  let key := field r 1 3
  let mn := field r 4 1
  let det := field r 5 1
  let remote := decide (key < 2 ^ 21) && inExtents c.ident key && key != c.own
  zeroAt r 6 2 &&
    (if kind = 1 then
      let dim := field r 1 1
      let goal := field r 2 1
      decide (1 ≤ dim) && decide (dim ≤ 3) && field r 3 1 == 0 && decide (goal < extent c.ident dim) && goal != coord c.own dim &&
        c.portsOk plane dim goal mn det && before.all (fun x => !(field x 0 1 == 1 && field x 1 3 == key))
    else if kind = 2 then
      remote && before.all (fun x => !(field x 0 1 != 1 && field x 1 3 == key)) &&
        (match (dimOrder plane).find? fun d => coord c.own d != coord key d with
        | some d => d != 4 && c.portsOk plane d (coord key d) mn det
        | none => false)
    else if kind = 3 then
      remote && before.all (fun x => !(field x 0 1 != 1 && field x 1 3 == key)) && mn == 0xFF && det == 0xFF
    else false)

/-- VCWEIGHT (R283, R284). -/
def vcweightOk (before : List (List Byte)) (r : List Byte) : Bool :=
  decide (field r 0 1 ≤ 34) && zeroAt r 1 1 && [2, 3, 4, 5, 8, 9].all (fun i => field r i 1 != 0) && decide (field r 7 1 ≤ 15) &&
    zeroAt r 0x0A 6 && before.all (fun x => field x 0 1 != field r 0 1)

/-- GATELIST (R286, R287). -/
def gateOk (before : List (List Byte)) (r : List Byte) (after : List (List Byte)) : Bool :=
  let mine (x : List Byte) : Bool := field x 0 1 == field r 0 1
  let prev := before.filter mine
  let stop (x : List Byte) : Nat := field x 2 3 + field x 5 3
  let start := match prev.getLast? with | some x => stop x | none => 0
  decide (field r 0 1 < 24) && decide (field r 1 1 < 16) && decide (field r 5 3 ≥ 66) && field r 2 3 == start &&
    decide (stop r ≤ 16777215) && decide (prev.length < 64) &&
    (after.any mine || ((prev ++ [r]).foldl (fun m x => m ||| field x 1 1) 0 == 15))

/-- COREGROUP (R77). -/
def coregroupOk (before : List (List Byte)) (r : List Byte) : Bool :=
  decide (field r 0 1 < 32) && decide (field r 1 1 ≤ 1) && decide (field r 2 1 ≤ 32) && zeroAt r 3 1 && decide (field r 4 2 ≤ 1024) &&
    zeroAt r 6 2 && !zeroAt r 8 18 && zeroAt r 0x1A 6 && before.all (fun x => field x 0 1 != field r 0 1)

/-- SPARE (R349). -/
def spareOk (before : List (List Byte)) (r : List Byte) : Bool :=
  decide (field r 0 1 < 16) && decide (field r 1 1 ≤ 1) && decide (field r 2 1 ≤ 15) && zeroAt r 3 1 &&
    before.all (fun x => field x 0 1 != field r 0 1)

/-- The HEADER record of a shape among the records of a piece. -/
def headerOf (recs : List (List Byte)) (shape : Nat) : Option (List Byte) :=
  recs.find? fun x => field x 0 1 == 1 && field x 1 1 == shape

/-- SHAPE: the field rules of R299 and R300. -/
def shapeRecOk (all before : List (List Byte)) (r : List Byte) : Bool :=
  let kind := field r 0 1
  if kind = 1 then
    let levels := field r 2 1
    decide (field r 1 1 < 16) && decide (1 ≤ levels) && decide (levels ≤ 5) && decide (1 ≤ field r 3 1) && decide (field r 3 1 ≤ 8) &&
      decide (field r 4 2 + field r 6 2 + 1 ≤ 65536) &&
      (List.range 5).all (fun k => (field r (8 + 2 * k) 2 != 0) == decide (k < levels)) &&
      (List.range 4).all (fun k => decide (field r (0x12 + k) 1 < 128)) && zeroAt r 0x16 10 && (headerOf before (field r 1 1)).isNone
  else if kind = 2 then
    let level := field r 2 1
    let stripe := field r 3 1
    let h := headerOf all (field r 1 1)
    let stripes := match h with | some x => field x 3 1 | none => 8
    (if level = 1 then stripe == 0xFF else decide (stripe < stripes)) &&
      [4, 7, 0x0A, 0x0D, 0x10, 0x13].all (fun i => decide (field r i 3 < 2 ^ 21)) &&
      decide (2 ≤ field r 0x18 2) && zeroAt r 0x1C 4 &&
      (match h with | some x => field x 2 1 != level || field r 0x13 3 == 0x1FFFFF | none => true)
  else false

/-- SEQDOM (R316). -/
def seqdomOk (before : List (List Byte)) (r : List Byte) : Bool :=
  decide (field r 0 1 < 64) && zeroAt r 1 1 && decide (1 ≤ field r 2 2) && decide (field r 2 2 ≤ 1024) && decide (1 ≤ field r 4 4) &&
    decide (field r 4 4 ≤ 16777215) && zeroAt r 0x0C 4 && before.all (fun x => field x 0 1 != field r 0 1)

/-- FAULTWIN (R401). -/
def faultwinOk (before : List (List Byte)) (r : List Byte) : Bool :=
  (match source (field r 0 1) with | some x => x.acts.contains (field r 1 1) | none => false) && decide (1 ≤ field r 2 2) &&
    decide (1 ≤ field r 4 4) && decide (field r 4 4 ≤ 600000000) && before.all (fun x => field x 0 1 != field r 0 1)

/-- TRACE (R429). -/
def traceRecOk (r : List Byte) : Bool :=
  let spill := bit (field r 0x14 1) 0
  let base := field r 0x30 8
  let units := field r 0x38 4
  field r 0 4 &&& 0xFFFFC001 == 0 && decide (field r 4 1 ≤ 0xD) && decide (field r 0x14 1 < 8) && decide (field r 0x15 1 ≤ 20) && zeroAt r 0x16 2 &&
    zeroAt r 0x2A 6 && zeroAt r 0x3C 4 && decide (base < 2 ^ 48) && base % 65536 == 0 &&
    (if spill then decide (1 ≤ units) && decide (units ≤ 65536) && decide (base + 65536 * units ≤ gddrSize) else units == 0)

/-- SYNTON (R389). -/
def syntonOk (c : PatCtx) (r : List Byte) : Bool :=
  let p := field r 0 1
  (p == 0xFF || (decide (p < 24) && c.ports.any fun x => field x 0 1 == p && field x 1 1 != 0)) && decide (field r 1 1 ≤ 1) &&
    decide (1 ≤ field r 2 1) && zeroAt r 3 5

/-- Whether a record keeps its piece's rules, given the piece's records before and after it. -/
def recOk (c : PatCtx) (p : Piece) (before : List (List Byte)) (r : List Byte) (after : List (List Byte)) : Bool :=
  match p.type with
  | 0x01 => identOk r
  | 0x02 => portmapOk c before r
  | 0x03 => routeOk c p.inst before r
  | 0x04 => vcweightOk before r
  | 0x05 => gateOk before r after
  | 0x06 => coregroupOk before r
  | 0x07 => spareOk before r
  | 0x08 => shapeRecOk p.recs before r
  | 0x09 => seqdomOk before r
  | 0x0A => faultwinOk before r
  | 0x0B => traceRecOk r
  | 0x0C => syntonOk c r
  | _ => false

/-- The index of the first record of a piece for which a test fails, given the records before and after it. -/
def firstBad (ok : List (List Byte) → List Byte → List (List Byte) → Bool) : List (List Byte) → List (List Byte) → Option Nat
  | _, [] => none
  | before, r :: rs => if ok before r rs then firstBad ok (before ++ [r]) rs else some before.length

/-- The first record of the pieces, in table order, for which a test fails. -/
def firstRec (code : Nat) (es : List PEntry) (bs : List Byte) (ok : Piece → List (List Byte) → List Byte → List (List Byte) → Bool) :
    Option PatRefuse :=
  es.findSome? fun e => ((firstBad (ok (e.piece bs)) [] (e.piece bs).recs).bind fun i => e.bad code i)

/-! References between pieces (R298, R301) -/

/-- Ranks of a level-k group of a shape. -/
def groupRanks (h : List Byte) (k : Nat) : Nat := ((List.range k).map fun i => field h (8 + 2 * i) 2).foldl (· * ·) 1

/-- Whether the device's ranks meet R298 at level k: every group that meets them lies within them, or holds them all. -/
def ranksFit (h : List Byte) (k base count : Nat) : Bool :=
  let n := max 1 (groupRanks h k)
  let first := field h 4 2
  let ranks := field h 6 2 + 1
  (List.range ((ranks + n - 1) / n)).all fun g =>
    let lo := first + g * n
    let hi := lo + n
    hi ≤ base || base + count ≤ lo || (base ≤ lo && hi ≤ base + count) || (lo ≤ base && base + count ≤ hi)

/-- SHAPE: the rules of R301. -/
def shapeRefOk (c : PatCtx) (all before : List (List Byte)) (r : List Byte) : Bool :=
  if field r 0 1 = 1 then
    groupRanks r (field r 2 1) == field r 6 2 + 1 &&
      (List.range (field r 2 1)).all fun k => ranksFit r (k + 1) (field c.ident 4 2) (field c.ident 6 2)
  else
    match headerOf all (field r 1 1) with
    | none => false
    | some h =>
      let level := field r 2 1
      let stages := before.filter fun x => field x 0 1 == 2 && field x 1 3 == field r 1 3
      let ring := stages.filter fun x => field x 0x10 3 == field r 0x10 3
      let size := max 1 (groupRanks h level)
      let first := field r 0x16 2
      decide (1 ≤ level) && decide (level ≤ field h 2 1) && decide (field r 0x1A 2 < field r 0x18 2) &&
        ((field r 0x10 3 == field r 4 3) == (field r 0x1A 2 + 1 == field r 0x18 2)) &&
        stages.all (fun x => field x 4 3 != field r 4 3) &&
        ring.all (fun x => field x 0x18 2 == field r 0x18 2 && field x 0x1A 2 != field r 0x1A 2) &&
        decide (field h 4 2 ≤ first) && decide (first < field h 4 2 + field h 6 2 + 1) && (first - field h 4 2) % size == 0

/-! The state the checks refer to -/

/-- The context records are judged in: the image's own IDENT and PORTMAP for a full pattern, else the live ones. -/
def State.patCtx (s : State) (op : Nat) (ps : List Piece) : PatCtx :=
  let ofType (t : Nat) : List (List Byte) := if op = 0 then ((ps.filter (·.type == t)).map (·.recs)).flatten else s.recs t
  { ident := (ofType 1).headD [], ports := if op = 2 ∧ ps.any (·.type == 2) then ((ps.filter (·.type == 2)).map (·.recs)).flatten else ofType 2 }

/-- Whether a signer hash is enrolled: the table is locked and holds it (R466). -/
def State.enrolled (s : State) (h : List Byte) : Bool :=
  s.flag SEC_CTRL_LOCK && (List.range 8).any fun k =>
    bit (s.get SEC_SIGNER_VALID_VALID) k && ((List.range 8).map fun i => leBytes 4 (s.getR (SEC_SIGNER k i))).flatten == h

/-- The identity hash of the device (R395). -/
def State.idHash (s : State) : List Byte := ((List.range 8).map fun i => leBytes 4 (s.getR (PWR_ID_HASH i))).flatten

/-- Records of a piece type that differ between two versions: those of each that the other lacks. -/
def differing (old new : List (List Byte)) : List (List Byte) :=
  (old.filter fun r => !new.contains r) ++ new.filter fun r => !old.contains r

/-- Whether a port is at rest: not enabled, nothing pending, OFF or FENCED, no cell of its input or output (R27). -/
def State.portAtRest (s : State) (p : Nat) : Bool :=
  !s.flag (LNK_CTRL_EN p) && !s.flag (LNK_CTRL_ENABLE_PENDING p) && (s.lst p == lkOff || s.lst p == lkFenced) && s.ownedBy p == 0 &&
    s.ownedBy (0x40 + p) == 0

/-- Whether a logical core is at rest. -/
def State.coreAtRest (s : State) (L : Nat) : Bool :=
  !s.flag (CORE_CTRL_EN L) && !s.flag (CORE_CTRL_ENABLE_PENDING L) && (s.cst L == stOff || s.cst L == stFenced)

/-- Whether a domain has a ticket that is issued and not complete. -/
def State.ticketOpen (s : State) (d : Nat) : Bool := !s.domainIdle d || s.col.held.any (·.domain == d)

/-- Whether the units one record of a drained piece names are at rest (R27). -/
def State.unitsAtRest (s : State) (type : Nat) (r : List Byte) : Bool :=
  match type with
  | 0x02 => s.portAtRest (field r 0 1)
  | 0x06 => (List.range 144).all fun L => s.coreAtRest L || !bit (field r 8 18) L
  | 0x09 => !s.ticketOpen (field r 0 1)
  | _ => true

/-- Step 14 of R29 for one record of a drained piece: it is the live record, or every unit that it and the live record of the same unit touch is at
rest. -/
def State.recQuiesced (s : State) (p : Piece) (_ : List (List Byte)) (r : List Byte) (_ : List (List Byte)) : Bool :=
  (s.recs p.type).contains r ||
    (s.unitsAtRest p.type r && ((s.recs p.type).filter fun o => field o 0 1 == field r 0 1).all (s.unitsAtRest p.type))

/-- Step 14 of R29 for a drained piece: every unit it touches is at rest (R27), those of records it no longer holds among them. -/
def State.quiesced (s : State) (p : Piece) : Bool := (differing (s.recs p.type) p.recs).all (s.unitsAtRest p.type)

/-- Whether the row of a physical core has a spare that is neither fenced nor carries a logical core (R31, R78). -/
def State.rowSpare (s : State) (P : Nat) : Bool :=
  let x := P / 10 * 10 + 9
  !s.coreFenced x && (s.carried x).isNone

/-- Step 15 of R29 for a record (R31). -/
def State.resourceOk (s : State) (p : Piece) (_ : List (List Byte)) (r : List Byte) (_ : List (List Byte)) : Bool :=
  match p.type with
  | 0x06 => (onesBelow 144 (field r 8 18)).all fun L => match s.phys L with
    | some P => !bit (field r 1 1) 0 || s.rowSpare P
    | none => false
  | 0x03 => field r 0 1 == 3 || !s.portFenced (field r 4 1) || (field r 5 1 != 0xFF && !s.portFenced (field r 5 1))
  | _ => true

/-! The whole check -/

/-- The lowest piece type a full pattern lacks (R21). -/
def missingType (ps : List Piece) : Option Nat :=
  [(1, 0), (2, 0), (3, 0), (3, 1), (0xA, 0)].findSome? fun (t, i) =>
    match ps.find? fun p => p.type == t && p.inst == i with
    | some p => if t = 1 ∧ p.recs.isEmpty then some t else none
    | none => some t

/-- Steps 3 to 15 of R29 on the bytes of an image: the first failure. -/
def State.imageCheck (s : State) (op : Nat) (bs : List Byte) : Option PatRefuse :=
  match headerCheck op bs with
  | some c => some { code := c }
  | none =>
    let es := entriesOf bs
    match tableCheck op bs [] es with
    | some r => some r
    | none =>
      let ps := es.map (·.piece bs)
      let c := s.patCtx op ps
      let gen := field bs 0x0C 4
      let live := s.getR PAT_GEN_LIVE
      let hash := slice bs 0x40 32
      if !paddingOk bs es then some { code := 4 }
      else match es.find? fun e => sha256 (e.body bs) != e.hash with
      | some e => e.bad 5
      | none =>
        if keyHash (sigBlock bs) ≠ hash ∨ !s.enrolled hash then some { code := 6 }
        else if !signatureOk (sigBlock bs) (bs.take (bs.length - 1024)) then some { code := 7 }
        else if field bs 0x12 2 = 1 ∧ (!s.flag PWR_BOOT_STATUS_ID_VALID ∨ slice bs 0x20 32 ≠ s.idHash) then some { code := 8 }
        else if op ≠ 0 ∧ (field bs 0x14 4 ≠ live ∨ gen ≠ live + 1 ∨ live = 0xFFFFFFFF) then some { code := 0xA }
        else match (if op = 0 then missingType ps else none) with
        | some t => some { code := 9, type := t }
        | none =>
          match firstRec 0xB es bs (recOk c) with
          | some r => some r
          | none =>
            match firstRec 0xD es bs fun p b r _ => p.type != 8 || shapeRefOk c p.recs b r with
            | some r => some r
            | none =>
              if op = 1 ∧ ps.any (·.type == 3) ∧ s.flag PAT_EPOCH_STATUS_OLD_DRAINING then some { code := 0xE }
              else match (if op = 2 then firstRec 0x13 es bs s.recQuiesced else none) with
              | some r => some r
              | none =>
                if op = 2 ∧ !ps.all s.quiesced then some { code := 0x13 }
                else firstRec 0xC es bs s.resourceOk

/-- Whether a unit that R29 lists is enabled or has ENABLE_PENDING set. -/
def State.notInert (s : State) : Bool :=
  ((List.range 24).any fun p => s.flag (LNK_CTRL_EN p) || s.flag (LNK_CTRL_ENABLE_PENDING p)) ||
    ((List.range 144).any fun L => s.flag (CORE_CTRL_EN L) || s.flag (CORE_CTRL_ENABLE_PENDING L)) ||
    s.flag SWC_CTRL_EN || s.flag COL_CTRL_EN || s.flag COL_CTRL_ENABLE_PENDING ||
    ((List.range 64).any fun d => s.flag (COL_DOM_CTRL_EN d) || s.flag (COL_DOM_CTRL_ENABLE_PENDING d)) ||
    s.flag OBS_TRACE_CTRL_EN || s.flag OBS_TRACE_CTRL_ENABLE_PENDING

/-- Steps 1 and 2 of R29 before anything is read: the code of the refusal. -/
def State.startCheck (s : State) (op : Nat) : Option Nat :=
  let len := s.get PAT_LOAD_LEN_LEN
  if op ≠ 0 ∧ !s.patLive then some 0xF
  else if s.flag PAT_STATUS_BUSY ∨ s.flag PAT_STATUS_ARMED ∨ (op = 2 ∧ s.flag PAT_STATUS_STAGED) then some 0x11
  else if op = 0 ∧ (s.patLive ∨ s.notInert) then some 0x12
  else if len < 1280 ∨ len > 4194304 then some 3
  else none

end Sys2Proof.Machine
end

