-- ==== Sys2Proof/Machine/Bus.lean ====
section
/-! DEFINITION. The register bus: when a host access is taken (R384, R411, R445, R449), the access codes (R9 to R11), the pairs (R8), and what a
read of a register returns. What a write does beyond its stored bits stands in Write.lean. -/

namespace Sys2Proof.Machine

open Sys2Proof

/-! When an access is taken -/

/-- The requester of a command that has a row of its own: the host. -/
def hostReq : Nat := 0

/-- A device reset is running, or JTAG holds the device in one, or the module is without power (R449, R471, R478): requests get no effect. -/
def State.inReset (s : State) : Bool :=
  !s.boot.powered || s.boot.resetting || s.boot.jtagHold || s.boot.jtagWait

/-- Whether the boot has reached READY (R383). -/
def State.ready (s : State) : Bool := s.get PWR_BOOT_STATUS_STAGE == 6

/-- Whether the safe state is reached (R411). -/
def State.safe (s : State) : Bool := s.flag FLT_STATUS_SAFE

/-- Whether an offset lies in the PWR or the HIF block. -/
def inPwrHif (off : Nat) : Bool := decide (off < 0x20000)

/-- Whether an offset lies in the MSI-X table (R473). -/
def inMsix (off : Nat) : Bool := decide (0x12000 ≤ off) && decide (off < 0x12400)

/-- Whether an offset lies in the MSI-X pending bits. -/
def inPba (off : Nat) : Bool := decide (0x12400 ≤ off) && decide (off < 0x12408)

/-- Whether the safe state allows a write at an offset (R411, R461). -/
def safeAllows (off : Nat) : Bool :=
  off == PWR_RESET.off || off == FLT_FAULTN.off || off == FLT_STATUS.off || off == FLT_FATAL_CAUSE.off || inMsix off || inPba off ||
    off == HIF_NBR_RX_POP.off || off == HIF_MBOX_ADDR.off || off == HIF_MBOX_ADDR.off + 4 || off == HIF_MBOX_LEN.off ||
    off == HIF_MBOX_CMD.off || (List.range 16).any fun r => off == (HIF_CQ_HEAD r).off

/-- The access-error kind with which an access to a register is turned away before READY or in the safe state; none when it is taken. -/
def State.turnedAway (s : State) (off : Nat) (write : Bool) : Option Nat :=
  if !s.ready && !inPwrHif off && (regAt off).isSome then some 8
  else if s.safe && write && !safeAllows off then some 2
  else none

/-- A write discarded by a rule of its chapter (R460). -/
def State.discarded (s : State) (off : Nat) : State := s.aerr 0 off true 2

/-! Stored bits -/

/-- A value with the bits of a mask taken from another. -/
def maskIn (old new mask : Nat) : Nat := (old &&& (0xFFFFFFFF ^^^ mask)) ||| (new &&& mask)

/-- Whether the owner of the RWP bits at an offset counts as disabled (R11 and the register descriptions). -/
def State.rwpOpen (s : State) (off : Nat) : Bool :=
  if 0x101000 ≤ off ∧ off < 0x10C000 then s.cst ((off - 0x101000) / 0x100) ≤ stIdle
  else if 0x111000 ≤ off ∧ off < 0x11A000 then s.cst ((off - 0x111000) / 0x100) ≤ stIdle
  else if 0x180800 ≤ off ∧ off < 0x181800 then !s.groupHeld (s.get (MEM_SHD_CFG_GROUP ((off - 0x180800) / 0x40)))
  else if 0x181800 ≤ off ∧ off < 0x182000 then !s.flag (MEM_XLATE_CTRL_VALID ((off - 0x181800) / 0x20))
  else if 0x180000 ≤ off ∧ off < 0x190000 then !(s.flag MEM_CTRL_EN || s.flag MEM_CTRL_ENABLE_PENDING)
  else if 0x240400 ≤ off ∧ off < 0x240800 then
    let d := (off - 0x240400) / 0x10
    !(s.flag (COL_DOM_CTRL_EN d) || s.flag (COL_DOM_CTRL_ENABLE_PENDING d) || s.col.closing.contains d)
  else if 0x240000 ≤ off ∧ off < 0x250000 then !(s.flag COL_CTRL_EN || s.flag COL_CTRL_ENABLE_PENDING)
  else if 0x280000 ≤ off ∧ off < 0x290000 then s.lst ((off - 0x280000) / 0x100) == lkOff
  else if 0x290000 ≤ off ∧ off < 0x2A0000 then s.lst ((off - 0x290000) / 0x40 / 8) == lkOff
  else if 0x11000 ≤ off ∧ off < 0x12000 then !(s.ring ((off - 0x11000) / 0x40)).on
  else true

/-- The stored effect of a write at an offset (R9, R11): the RW bits and, while the owner is disabled, the RWP bits take the written value; W1C
bits clear where it is 1; RWB bits go to the shadow. RWP bits refused are recorded; in a register that has other writable bits only when the write
would change them. -/
def State.storeBits (s : State) (row : RegRow) (off at_ v : Nat) : State :=
  let r := regOf off
  let old := s.getR r
  let may := row.rwp = 0 || s.rwpOpen off
  let other := row.rw ||| row.w1c ||| row.wo
  let kept := maskIn (maskIn old v row.rw) 0 (v &&& row.w1c)
  let s' := s.setR r (if may then maskIn kept v row.rwp else kept)
  let s' := if row.rwb = 0 then s'
    else { s' with shadow := Tbl.insert s'.shadow off (BitVec.ofNat 32 (v &&& row.rwb)) }
  if may || (other ≠ 0 && old &&& row.rwp == v &&& row.rwp) then s' else s'.aerr 0 at_ true 1

/-- The stored effect of a write of a whole pair (R8): the offset of its lower half, the offset accessed, the 64-bit value. -/
def State.storePair (s : State) (low at_ v : Nat) : State :=
  match regAt low, regAt (low + 4) with
  | some (a, _), some (b, _) =>
    let rwp := a.rwp ||| b.rwp
    if rwp ≠ 0 && !s.rwpOpen low then s.aerr 0 at_ true 1
    else (s.storeBits a low at_ (v % 2 ^ 32)).storeBits b (low + 4) at_ (v / 2 ^ 32)
  | _, _ => s

/-- The value of a pair after a write of its writable bits would have taken effect. -/
def State.pairNow (s : State) (low : Nat) : Nat := s.getR (regOf low) + 2 ^ 32 * s.getR (regOf (low + 4))

/-! Held lower writes (R8) -/

/-- The lower value a requester has written and that is still held. -/
def State.heldLow (s : State) (req low : Nat) : Option Nat :=
  (s.heldWrites.find? fun h => h.req == req && h.off == low).map (·.value)

/-- Drops a requester's held lower write. -/
def State.dropHeld (s : State) (req low : Nat) : State :=
  { s with heldWrites := s.heldWrites.filter fun h => !(h.req == req && h.off == low) }

/-- Holds a lower write. -/
def State.holdLow (s : State) (req low v : Nat) : State :=
  let s := s.dropHeld req low
  { s with heldWrites := s.heldWrites ++ [{ req := req, off := low, value := v }] }

end Sys2Proof.Machine
end

