-- ==== Sys2Proof/Machine/PatternOps.lean ====
section
/-! DEFINITION. Loading, basting and drained updates (R26 to R36), the seam (R37 to R41) and the release of the old route bank (R40). -/

namespace Sys2Proof.Machine

open Sys2Proof

/-! Results (R32, R42) -/

/-- Writes LAST_CODE, LAST_OP and PAT_REFUSE_DETAIL, and raises the pattern vector. -/
def State.patResult (s : State) (op : Nat) (r : PatRefuse) : State :=
  let s := (s.set PAT_STATUS_LAST_CODE r.code).set PAT_STATUS_LAST_OP op
  (s.setR PAT_REFUSE_DETAIL (r.piece + 2 ^ 8 * r.type + 2 ^ 16 * r.recd)).raiseVec 1

/-! Pieces -/

/-- Pieces with those of another list in place of the ones of the same type and number (R28). -/
def mergePieces (old new : List Piece) : List Piece :=
  (old.filter fun p => !(new.any fun q => q.type == p.type && q.inst == p.inst)) ++ new

/-- Whether pieces hold one of a type. -/
def hasType (ps : List Piece) (t : Nat) : Bool := ps.any (·.type == t)

/-- The records of a plane's ROUTE piece among pieces, if there is one. -/
def routeOf (ps : List Piece) (plane : Nat) : Option (List (List Byte)) :=
  (ps.find? fun p => p.type == 3 && p.inst == plane).map (·.recs)

/-- Pattern generations that chains are bound to (R37, R308). -/
def State.boundGens (s : State) : List Nat :=
  s.col.roles.map (·.2.gen) ++ s.col.held.map (·.gen) ++ s.col.done.map (·.role.gen)

/-- Keeps SHAPE and SEQDOM of the live generation while a chain is bound to it, and drops what no chain needs. -/
def State.keepShapes (s : State) : State :=
  let old := (s.getR PAT_GEN_LIVE, s.pat.live.filter fun p => p.type == 8 || p.type == 9)
  let gens := s.boundGens
  { s with pat := { s.pat with kept := ((s.pat.kept ++ [old]).filter fun k => gens.contains k.1) } }

/-- COL_DOM_NEXT of the domains that an applied SEQDOM table carries (R316, R333). -/
def State.firstTickets (s : State) (rs : List (List Byte)) : State :=
  rs.foldl (fun s r =>
    (s.setR (COL_DOM_NEXT (field r 0 1)) (field r 8 4)).modCol fun c => { c with doneAhead := c.doneAhead.filter (·.1 != field r 0 1) }) s

/-- Replaces the live pieces, with what follows at once: the control tokens where CTRL_BURST falls below them (R285), packets in progress on ports
whose gate list changes (R289), the windows of sources whose rule changes (R402), the trigger count (R435), and the choices of every output. -/
def State.liveBecomes (s : State) (ps : List Piece) : State :=
  let t := s.tu
  let outs := List.range 35
  let s := outs.foldl (fun s o => (s.settleTok o t).refreshOut o t) s
  let gates : List (List (Nat × Nat × Nat)) := outs.map s.gates
  let faults := s.recs 0x0A
  let s := { s.keepShapes with pat := { s.keepShapes.pat with live := ps } }
  let s := outs.foldl (fun s o =>
    if s.get (SCH_OUT_TOKENS_T o) > s.ctrlBurst o * 256 then s.set (SCH_OUT_TOKENS_T o) (s.ctrlBurst o * 256) else s) s
  let s := outs.foldl (fun (s : State) o =>
    if gates.getD o [] ≠ s.gates o then
      s.modOut o fun x => { x with sending := x.sending.map fun y => { y with preSeam := true } }
    else s) s
  let wins := s.fault.wins.filter fun w => match source (w.1 / 256) with
    | some x => ruleOf faults (w.1 / 256) x == ruleOf (s.recs 0x0A) (w.1 / 256) x
    | none => true
  let s := { s with fault := { s.fault with wins := wins } }
  outs.foldl (fun s o => s.refreshOut o t) s

/-! The shadow and the bank of the other epoch (R33, R36) -/

/-- The epoch that is not current. -/
def State.otherEpoch (s : State) : Nat := 1 - s.curEpoch

/-- Sets the bank of an epoch and its VALID bit. -/
def State.setBank (s : State) (epoch : Nat) (b : RouteBank) (valid : Bool) : State :=
  if epoch = 0 then { s with pat := { s.pat with bank0 := b } }.set PAT_EPOCH_STATUS_BANK0_VALID (b2n valid)
  else { s with pat := { s.pat with bank1 := b } }.set PAT_EPOCH_STATUS_BANK1_VALID (b2n valid)

/-- Clears the staged pieces: the bank of the other epoch goes with them when they held ROUTE. -/
def State.dropStaged (s : State) : State :=
  let s := if s.routeStaged then s.setBank s.otherEpoch {} false else s
  { s with pat := { s.pat with staged := [], stagedHash := [] } }.set PAT_STATUS_STAGED 0

/-- An accepted basting replaces the whole shadow generation; ROUTE pieces go into the bank of the other epoch, the plane that is not carried
with a copy of the current table. -/
def State.stage (s : State) (ps : List Piece) (gen : Nat) (hash : List Byte) : State :=
  let s := s.dropStaged
  let s := { s with pat := { s.pat with staged := ps, stagedHash := hash } }
  let s := (s.set PAT_STATUS_STAGED 1).setR PAT_GEN_STAGED gen
  if hasType ps 3 then
    let bank : RouteBank :=
      { plane0 := (routeOf ps 0).getD (s.routes s.curEpoch 0), plane1 := (routeOf ps 1).getD (s.routes s.curEpoch 1) }
    s.setBank s.otherEpoch bank true
  else s

/-- An accepted full pattern is installed: ROUTE in bank 0, epoch 0 (R29). -/
def State.install (s : State) (ps : List Piece) (gen : Nat) (hash : List Byte) : State :=
  let s := s.liveBecomes ps
  let s := { s with pat := { s.pat with fullHash := hash } }
  let s := (s.set PAT_EPOCH_STATUS_CUR_EPOCH 0).set PAT_EPOCH_STATUS_OLD_DRAINING 0
  let s := (s.setBank 1 {} false).setBank 0 { plane0 := (routeOf ps 0).getD [], plane1 := (routeOf ps 1).getD [] } true
  ((s.setR PAT_GEN_LIVE gen).set PAT_STATUS_LIVE_VALID 1).firstTickets (s.recs 9)

/-- An accepted drained update replaces the live pieces it carries (R27, R28). -/
def State.drained (s : State) (ps : List Piece) (gen : Nat) (hash : List Byte) : State :=
  let doms := ((ps.filter (·.type == 9)).map (·.recs)).flatten
  let s := s.liveBecomes (mergePieces s.pat.live ps)
  { s with pat := { s.pat with appliedHash := hash } }.setR PAT_GEN_LIVE gen |>.firstTickets doms

/-! Commands of PAT_CTRL -/

/-- Steps 1 and 2 of R29: the refusal, or the read of the image begins. -/
def State.startImage (s : State) (op : Nat) : State :=
  match s.startCheck op with
  | some c => s.patResult op { code := c }
  | none =>
    let addr := s.getR64 PAT_LOAD_ADDR
    let len := s.get PAT_LOAD_LEN_LEN
    let s := { s with pat := { s.pat with check := some { op := op, addr := addr, len := len } } }
    (s.set PAT_STATUS_BUSY 1).emit (.hostRead addr len)

/-- PAT_CTRL is written (R42): one of its four commands, or none. -/
def State.patCtrl (s : State) (at_ v : Nat) : State :=
  if popcount 4 v > 1 then s.discarded at_
  else if bit v 0 then s.startImage 0
  else if bit v 1 then s.startImage 1
  else if bit v 2 then s.startImage 2
  else if bit v 3 && !s.flag PAT_STATUS_ARMED then s.dropStaged
  else s

/-- PATTERN_CHECK_DONE (R29): the image has been read, or the read failed; every check is made, and the image is installed, staged, applied or
refused. -/
def execPatternCheckDone (image : Option (List Byte)) (s : State) : Host.Outcome State Fault Refusal :=
  match s.pat.check with
  | none => done s
  | some c =>
    if s.fatal then done s
    else
      let s := { s with pat := { s.pat with check := none } }.set PAT_STATUS_BUSY 0
      match image with
      | none => done (s.patResult c.op { code := 0x14 })
      | some raw =>
        let bs := slice raw 0 c.len
        match s.imageCheck c.op bs with
        | some r => done (s.patResult c.op r)
        | none =>
          let ps := (entriesOf bs).map (·.piece bs)
          let gen := field bs 0x0C 4
          let hash := sha256 (bs.take (bs.length - 1024))
          let s := match c.op with
            | 0 => s.install ps gen hash
            | 1 => s.stage ps gen hash
            | _ => s.drained ps gen hash
          done (s.patResult c.op { code := 0 })

/-! Arming and cancelling (R37, R41) -/

/-- The least lead of an arm. -/
def State.seamLead (s : State) : Nat := max 8250 (s.get PAT_SEAM_LEAD_LEAD)

/-- The refusal of an arm with a GEN value, none when it passes the four tests. -/
def State.armRefusal (s : State) (gen : Nat) : Option Nat :=
  if !s.patLive then some 0x0F
  else if s.flag PAT_STATUS_BUSY || s.flag PAT_STATUS_ARMED then some 0x11
  else if gen ≠ (if s.flag PAT_STATUS_STAGED then s.getR PAT_GEN_STAGED else s.getR PAT_GEN_LIVE) % 2 ^ 16 then some 0x20
  else if s.get64 PAT_SEAM_TIME_T < s.ft + s.seamLead then some 0x21
  else none

/-- PAT_SEAM_CTRL is written: an arm, or a cancel. A cancel in the FCLK of the armed time is discarded, and the seam applies (R41). -/
def State.seamCtrl (s : State) (at_ v : Nat) : State :=
  let gen := bits v 16 16
  let stored := s.setR PAT_SEAM_CTRL (gen * 2 ^ 16 + v % 2)
  if bit v 0 then
    match s.armRefusal gen with
    | none => (stored.set PAT_STATUS_ARMED 1).patResult 3 { code := 0 }
    | some c =>
      let s := if s.flag PAT_STATUS_ARMED then s else stored.set PAT_SEAM_CTRL_ARM 0
      let s := if c = 0x21 then (s.set PAT_STATUS_MISSED 1).count PAT_SEAM_MISS_COUNT_COUNT else s
      s.patResult 3 { code := c }
  else if s.flag PAT_STATUS_ARMED && s.ft ≥ s.get64 PAT_SEAM_TIME_T then s.discarded at_
  else stored.set PAT_STATUS_ARMED 0

/-! The seam (R38) -/

/-- The pending RWB writes become live. -/
def State.applyShadow (s : State) : State :=
  let s' := s.shadow.foldl (fun s w =>
    let mask := ((regAt w.1).map (·.1.rwb)).getD 0
    s.setR (regOf w.1) (maskIn (s.getR (regOf w.1)) w.2.toNat mask)) s
  { s' with shadow := [] }

/-- The seam is applied. -/
def State.applySeam (s : State) : State :=
  let rwb := !s.shadow.isEmpty
  let staged := s.pat.staged
  let on := s.flag PAT_STATUS_STAGED
  let toggles := on && hasType staged 3
  let s := s.applyShadow
  let s := if on then
      let hash := s.pat.stagedHash
      let s := s.liveBecomes (mergePieces s.pat.live staged)
      let s := { s with pat := { s.pat with staged := [], stagedHash := [], appliedHash := hash }
                        obs := if hasType staged 0xB then { s.obs with matched := 0 } else s.obs }
      s.setR PAT_GEN_LIVE (s.getR PAT_GEN_STAGED)
    else s
  let s := if toggles then (s.set PAT_EPOCH_STATUS_CUR_EPOCH s.otherEpoch).set PAT_EPOCH_STATUS_OLD_DRAINING 1 else s
  let report := s.getR PAT_GEN_LIVE % 2 ^ 16 + 2 ^ 16 * (if on then staged.length else 0) + 2 ^ 21 * b2n rwb + 2 ^ 22 * b2n toggles
  let s := (s.setR64 PAT_SEAM_APPLIED s.ft).setR PAT_SEAM_REPORT report
  let s := ((s.set PAT_STATUS_ARMED 0).set PAT_STATUS_STAGED 0).set PAT_SEAM_CTRL_ARM 0
  let s := (s.set PAT_STATUS_SEAM_DONE 1).raiseVec 1
  s.trace trSeam 0xD8 0 0 report s.ft

/-- SEAM_APPLY (R38): fabric time reaches the armed time. -/
def execSeamApply (s : State) : Host.Outcome State Fault Refusal :=
  if s.fatal || !s.flag PAT_STATUS_ARMED then done s
  else done (s.passToFt (s.get64 PAT_SEAM_TIME_T)).applySeam

/-! Drain counts (R40, R228) -/

/-- The epoch of a packet whose header is the first flit of an open packet. -/
def OpenPkt.epoch (o : OpenPkt) : Nat := Pkt.epoch { data := true, hdr := o.flits.headD [], pay := [] }

/-- Packets of the non-current epoch counted at a switch port: under the port they came in by before their decision, under their output after it,
until the next device acknowledges their last flit. -/
def State.drainCount (s : State) (p : Nat) : Nat :=
  let cur := s.curEpoch
  let old (k : Pkt) : Bool := k.epoch != cur
  let head (h : Nat) (arrived : Bool) : Bool := match s.bufPkt h with
    | some b => old b.sent && (!arrived || b.input == p)
    | none => false
  let offers := (s.switch.offers.filter fun o => o.input == p && old o.pkt).length
  let opens := (s.switch.opens.filter fun o => o.1 == p && o.2.epoch != cur).length
  let repl := (s.switch.repl.filter fun d => head d.head true).length
  let res := (s.switch.residues.filter fun r => head r.head true).length
  let queued := ((s.switch.queues.filter fun q => q.1 / 32 == p).map fun q => (q.2.filter fun d => head d.head false).length).sum
  let sending := match (s.outSt p).sending with | some x => b2n (old x.pkt) | none => 0
  let rsq := (s.switch.flows.map fun f => (f.slots.filter fun x => match s.bufPkt x.2.head with
    | some b => old b.sent && s.epPort b.sent.destEp b.sent.placeAddr == some (some p)
    | none => false).length).sum
  let stored := if p < 24 then ((s.port p).stored.filter fun x => match x.lastOf with | some e => e != cur | none => false).length else 0
  offers + opens + repl + res + queued + sending + rsq + stored

/-- Whether every drain count is zero. -/
def State.drainedAll (s : State) : Bool := (List.range 35).all fun p => s.drainCount p == 0

/-- OLD_BANK_RELEASE (R40): every drain count is zero after a route seam, and the old bank is released. -/
def execOldBankRelease (s : State) : Host.Outcome State Fault Refusal :=
  if s.fatal || !s.flag PAT_EPOCH_STATUS_OLD_DRAINING || !s.drainedAll then done s
  else done ((s.setBank s.otherEpoch {} false).set PAT_EPOCH_STATUS_OLD_DRAINING 0)

end Sys2Proof.Machine
end

