-- ==== Sys2Proof/Machine/CoreCtl.lean ====
section
/-! DEFINITION. The states of a logical core (R72, R73): enable, zeroing, the start by hand, shutdown; and what stops a core's roles, queues and
engines. -/

namespace Sys2Proof.Machine

open Sys2Proof

/-! Stopping a core -/

/-- The collective and combine roles of a core complete with ABORTED (R73, R454). -/
def State.closeCore (s : State) (L : Nat) : State :=
  let s := (s.col.held.filter (·.core == L)).foldl (fun s h => s.endHeld h 0x0A 0) s
  let s := (List.range 8).foldl (fun s i => match s.role i with
    | some r =>
      if r.core ≠ L ∨ r.consumed then s
      else if r.standby then s.closeRole i 0x0A 0
      else s.failRole i 0x0A (s.firstOpen r)
    | none => s) s
  let s := (s.combines.filter (·.core == L)).foldl (fun s c => s.endCombine c 0x0A) s
  s.colEnd

/-- Stops what a core has under way: its roles end, every queued descriptor completes with ABORTED, and the packets sent are remembered until they
are answered (R73). -/
def State.stopCore (s : State) (L : Nat) : State :=
  let s := s.closeCore L
  let sent := ((s.core L).queues.flatten.map (·.outst)).flatten
  let s := (s.abortQueues L).forgetFlows L
  (s.modCore L fun c => { c with left := sent, wait := none }).modDet L fun d => { d with resumeAt := none, takeover := false }

/-- A core in IDLE, RUN, HALTED or FAULTED enters SHUTDOWN. -/
def State.shutCore (s : State) (L : Nat) : State :=
  let st := s.cst L
  if st == stIdle || st == stRun || st == stHalted || st == stFaulted then
    let s := ((s.stopCore L).setCst L stShutdown).showTakeover
    s.modCore L fun c => { c with shutAt := s.now }
  else s

/-! Enable (R72, R73, R408, R409) -/

/-- A core enters ZEROING, which takes 1,024 ACLK. -/
def State.zeroCore (s : State) (L : Nat) : State :=
  (s.setCst L stZeroing).modCore L fun c => { c with zeroEnd := s.now + 512 }

/-- CORE_CTRL.EN is written 1 (R72, R73): the write to a fenced core has been discarded before; without a live pattern the core stays in OFF (R13). -/
def State.coreOn (s : State) (L : Nat) : State :=
  let s := s.set (CORE_CTRL_EN L) 1
  if s.cst L = stOff then (if s.patLive then s.zeroCore L else s)
  else if s.cst L = stShutdown then s.set (CORE_CTRL_ENABLE_PENDING L) 1
  else s

/-- CORE_CTRL.EN is written 0. -/
def State.coreOff (s : State) (L : Nat) : State :=
  (((s.set (CORE_CTRL_EN L) 0).set (CORE_CTRL_ENABLE_PENDING L) 0)).shutCore L

/-- ZEROING_DONE (R48, R72, R73): the SRAM has been zeroed. -/
def execZeroingDone (core : CoreIx) (s : State) : Host.Outcome State Fault Refusal :=
  let L := core.val
  if s.fatal || s.cst L != stZeroing then done s
  else
    let s := s.passTo (s.core L).zeroEnd
    let s := match s.phys L with
      | some P => s.sramZero P
      | none => s
    done (s.setCst L (if s.flag (CORE_CTRL_EN L) then stIdle else stOff))

/-- CORE_SHUTDOWN_DONE (R73, R408): the answers have arrived, or the age limit has passed; the engines are cleared, and a core whose EN is set
zeroes again. -/
def execCoreShutdownDone (core : CoreIx) (s : State) : Host.Outcome State Fault Refusal :=
  let L := core.val
  if s.fatal || s.cst L != stShutdown then done s
  else
    let s := if (s.core L).left.isEmpty then s else s.passTo ((s.core L).shutAt + s.ageLimit)
    let s := s.endShut L
    done (if s.flag (CORE_CTRL_EN L) then s.zeroCore L else s)

/-! Start (R57, R72, R80) -/

/-- What the start of a job or of a core by hand clears (R57, R80, R81, R346). -/
def State.freshCore (s : State) (L : Nat) : State :=
  let s := (s.clearCore L).modDet L fun d => { seg := d.seg }
  let s := ((s.setR (SEQ_PC L) 0).setR (SEQ_FAULT L) 0).setR (CORE_EXC_COUNT L) 0
  let s := (List.range 4).foldl (fun s q => s.setR (CORE_DMA_CPROD L q) 0) s
  s.setR (DET_CORE_REPLAY L) 0

/-- The job of a core started by hand: its own group, seed 0, step 0, an SRAM grant of 2 MiB and no GDDR7 range. -/
def handJob (key L : Nat) : Job :=
  { key := key, id := 0, group := 32 + L, cores := [L], sram := sramSize, launched := true }

/-- A key for a new job. -/
def State.takeKey (s : State) : Nat × State :=
  (s.host.nextJob, { s with host := { s.host with nextJob := s.host.nextJob + 1 } })

/-- CORE_CTRL.START is written 1 at a register offset: a core in IDLE that no job holds starts; any other ignores it, and it is recorded. -/
def State.startCore (s : State) (L at_ : Nat) : State :=
  if s.cst L ≠ stIdle ∨ (s.core L).job.isSome then s.discarded at_
  else
    let (k, s) := s.takeKey
    let s := { s with jobs := s.jobs ++ [handJob k L] }
    let s := (s.modCore L fun c => { c with job := some k }).freshCore L
    (s.takeCkpt L).setCst L stRun

/-- A write of CORE_CTRL (R72, R73, R80, R407): an enable of a fenced core is discarded whole. -/
def State.coreCtrl (s : State) (L at_ v : Nat) : State :=
  if bit v 0 && s.cst L == stFenced then s.discarded at_
  else
    let s := if bit v 0 then s.coreOn L else s.coreOff L
    if bit v 1 then s.startCore L at_ else s

end Sys2Proof.Machine
end

