-- ==== Sys2Proof/Machine/Rings.lean ====
section
/-! DEFINITION. The submission and completion rings (R451 to R458): serving order, entries, completion records, interrupts, enable and disable. -/

namespace Sys2Proof.Machine

open Sys2Proof

/-! Ring registers -/

/-- Entries of both rings of a pair: LOG2_ENTRIES from 4 to 16. -/
def State.ringSize (s : State) (r : Nat) : Nat := 2 ^ (min 16 (max 4 (s.get (HIF_SQ_CFG_LOG2_ENTRIES r))))

def State.sqHead (s : State) (r : Nat) : Nat := s.get (HIF_SQ_HEAD_INDEX r)
def State.sqTail (s : State) (r : Nat) : Nat := s.get (HIF_SQ_TAIL_INDEX r)
def State.cqHead (s : State) (r : Nat) : Nat := s.get (HIF_CQ_HEAD_INDEX r)
def State.cqTail (s : State) (r : Nat) : Nat := s.get (HIF_CQ_TAIL_INDEX r)

/-- Whether a completion ring is full (R457). -/
def State.cqFull (s : State) (r : Nat) : Bool := (s.cqTail r + 1) % s.ringSize r == s.cqHead r

/-- Whether the host bridge serves a ring (R453, R457). -/
def State.ringServed (s : State) (r : Nat) : Bool :=
  (s.ring r).on && s.get (HIF_RING_STATUS_ERROR r) == 0 && s.sqHead r != s.sqTail r && !s.cqFull r

/-- The ring whose entry is fetched next: rotating priority (R453). -/
def State.ringWinner (s : State) : Option Nat :=
  ((List.range 16).map fun i => (s.host.ringPtr + i) % 16).find? s.ringServed

/-! Completion records (R455 to R458) -/

/-- A completion record but for its PHASE bit. -/
structure CqRec where
  tag : Nat
  op : Nat
  status : Nat
  excValid : Bool := false
  faultCore : Nat := 0xFF
  job : Nat := 0
  excCount : Nat := 0
  excAddr : Nat := 0
  excCore : Nat := 0xFF
  sqHead : Nat
  step : Nat := 0
  detail : Nat := 0
deriving DecidableEq, Repr

/-- The 32 bytes of a completion record. -/
def CqRec.bytes (c : CqRec) (phase : Bool) : List Byte :=
  leBytes 4 c.tag ++ leBytes 1 c.op ++ leBytes 1 c.status ++ leBytes 1 (b2n phase + 2 * b2n c.excValid) ++ leBytes 1 c.faultCore ++
    leBytes 4 c.job ++ leBytes 4 c.excCount ++ leBytes 4 c.excAddr ++ leBytes 1 c.excCore ++ [0] ++ leBytes 2 c.sqHead ++
    leBytes 6 c.step ++ leBytes 2 c.detail

/-- Raises a ring's vector: its records are signalled. -/
def State.signalRing (s : State) (r : Nat) : State := (s.modRing r fun x => { x with unsignalled := 0 }).raiseVec (16 + r)

/-- Writes a record at CQ_TAIL and moves it on, a new pass beginning at the wrap; then the interrupt of R458. -/
def State.writeCq (s : State) (r : Nat) (c : CqRec) : State :=
  let t := s.cqTail r
  let s := s.emit (.hostWrite (s.getR64 (HIF_CQ_BASE r) + 32 * t) (c.bytes (!(s.ring r).oddPass)))
  let n := (t + 1) % s.ringSize r
  let s := s.set (HIF_CQ_TAIL_INDEX r) n
  let s := s.modRing r fun x =>
    { x with oddPass := if n = 0 then !x.oddPass else x.oddPass, unsignalled := x.unsignalled + 1
             firstAt := if x.unsignalled = 0 then s.now else x.firstAt }
  if (s.ring r).unsignalled ≥ s.get (HIF_CQ_INT_COALESCE r) then s.signalRing r else s

/-! Fetching (R452, R453) -/

/-- A fetched entry: its bytes. -/
abbrev Entry := List Byte

def sqOp (e : Entry) : Nat := field e 0 1
def sqTag (e : Entry) : Nat := field e 4 4

/-- Reserved bytes of an entry, and the bytes of BODY an opcode leaves zero, as (offset, length). -/
def zeroParts (op : Nat) : List (Nat × Nat) :=
  [(1, 3), (8, 56)] ++ (if op = 2 then [(0x44, 60)] else if op = 0 then [(0x40, 64)] else [])

/-- The offset of the first bad field of an entry: its OPCODE, or a field that has a byte which is not zero. -/
def badEntry (e : Entry) : Option Nat :=
  if sqOp e > 2 then some 0 else ((zeroParts (sqOp e)).find? fun p => !zeroAt e p.1 p.2).map (·.1)

/-- The record of an entry that is no job. -/
def State.plainRec (s : State) (r : Nat) (e : Entry) (status detail : Nat) : State :=
  s.writeCq r { tag := sqTag e, op := sqOp e, status := status, sqHead := s.sqHead r, detail := detail }

/-- The host bridge fetches the next entry of a ring, if the ring is the one to be served: the entry is read, and SQ_HEAD and the rotating priority
move on. A read that fails stops the ring with ERROR 0x14. An entry of another command than the one given is left for that command's row; one with
a bad field completes with BAD_COMMAND. -/
def State.fetch (s : State) (r : Nat) (op : Nat) (entry : Option Entry) (go : State → Entry → State) : State :=
  if s.fatal || s.ringWinner != some r then s
  else
    let asked := s.emit (.hostRead (s.getR64 (HIF_SQ_BASE r) + 128 * s.sqHead r) 128)
    match entry with
    | none => asked.set (HIF_RING_STATUS_ERROR r) 0x14
    | some raw =>
      let e := slice raw 0 128
      if badEntry e = none ∧ sqOp e ≠ op then s
      else
        let s := asked.set (HIF_SQ_HEAD_INDEX r) ((s.sqHead r + 1) % s.ringSize r)
        let s := { s with host := { s.host with ringPtr := (r + 1) % 16 } }
        match badEntry e with
        | some off => s.plainRec r e 0x60 off
        | none => go s e

/-- SQ_NOP (R452). -/
def execSqNop (ring : RingIx) (entry : Option (List Byte)) (s : State) : Host.Outcome State Fault Refusal :=
  done (s.fetch ring.val 0 entry fun s e => s.plainRec ring.val e 0 0)

/-- COMPLETION_TIMEOUT (R453): the read of an entry fails or times out; the ring stops. -/
def execCompletionTimeout (ring : RingIx) (s : State) : Host.Outcome State Fault Refusal :=
  done (s.fetch ring.val 0 none fun s _ => s)

/-- CQ_INT_TIMER (R458): TIMER µs have passed since the oldest record not yet signalled. -/
def execCqIntTimer (ring : RingIx) (s : State) : Host.Outcome State Fault Refusal :=
  let r := ring.val
  let us := s.get (HIF_CQ_INT_TIMER r)
  if us = 0 ∨ (s.ring r).unsignalled = 0 then done s
  else done ((s.passTo ((s.ring r).firstAt + fclk us)).signalRing r)

/-! Enable and disable (R451, R473) -/

/-- HIF_SQ_CFG is written: the stored bits have been taken. A ring is enabled from OFF; a disabled ring fetches nothing more, and is OFF at once,
since the entry in hand is handled within its own step. -/
def State.ringCfg (s : State) (r : Nat) : State :=
  let en := s.flag (HIF_SQ_CFG_EN r)
  if en && !(s.ring r).on then
    let s := (s.set (HIF_SQ_HEAD_INDEX r) 0).set (HIF_CQ_TAIL_INDEX r) 0
    (s.set (HIF_RING_STATUS_ERROR r) 0).modRing r fun _ => { on := true }
  else if !en then s.modRing r fun x => { x with on := false }
  else s

end Sys2Proof.Machine
end

