-- ==== Sys2Proof/Machine/Sync.lean ====
section
/-! DEFINITION. The SYNC class (R61, R70, R71), the ends of its waits, the end of an engine's instruction (R58, R59, R62), and the core
barrier with its step counter, checkpoints and shard swaps (R338, R340, R341, R359). -/

namespace Sys2Proof.Machine

open Sys2Proof

/-! Waits -/

/-- Holds issue after an instruction that waits. -/
def State.holdOn (s : State) (L : Nat) (w : Wait) : State := s.modCore L fun c => { c with wait := some w }

/-- A wait ends. -/
def State.endWait (s : State) (L : Nat) : State :=
  (s.modCore L fun c => { c with wait := none }).set (CORE_STATUS_STALLED L) 0

/-- Whether a core waits in RUN. -/
def State.waits (s : State) (L : Nat) : Bool := !s.fatal && s.cst L == stRun

/-! Event counters -/

/-- EVWAIT (R61): issue goes on once EVT d has reached the low 32 bits of register a. -/
def execEvwait (core : CoreIx) (bad : Option Nat) (s : State) : Host.Outcome State Fault Refusal :=
  done (issue core.val bad 6 0x00 (fun w => onlyFields w [(43, 5), (38, 5)]) (fun w => { g := [wA w] })
    (fun w s =>
      let c := s.core core.val
      let target := c.gval (wA w) % 2 ^ 32
      if evtReached (c.evtVal (wD w)) target then .next s 1
      else .next (s.holdOn core.val (.evwait (wD w) target)) 1) s)

/-- EVWAIT_SATISFIED (R70): the counter a core waits on has reached its target. -/
def execEvwaitSatisfied (core : CoreIx) (s : State) : Host.Outcome State Fault Refusal :=
  match s.waits core.val, (s.core core.val).wait with
  | true, some (.evwait evt target) =>
    done (if evtReached ((s.core core.val).evtVal evt) target then s.endWait core.val else s)
  | _, _ => done s

/-- EVADD (R61). -/
def execEvadd (core : CoreIx) (bad : Option Nat) (s : State) : Host.Outcome State Fault Refusal :=
  done (issue core.val bad 6 0x01 (fun w => onlyFields w [(43, 5), (0, 32)]) (fun _ => {})
    (fun w s => .next (s.addEvt core.val (wD w) (wImm w)) 1) s)

/-- The effect of SIGNAL (R61, R345): adds to an event counter of a core of this device; one that was sent before the fault is not sent again.
DESIGN CHOICE: R61 names no effect for a core number of 144 or more; such a signal reaches no counter. Log 34. -/
def signalEff (L w : Nat) (s : State) : Eff :=
  let n := (s.cdet L).key
  let dst := (s.core L).gval (wA w)
  if (s.logFind L n).isSome then .next s 1
  else
    let s := s.logAdd L { queue := 4, number := n, op := 0, st := .sent }
    .next (if dst < 144 then s.extEvt dst (wD w) (wImm w) else s) 1

/-- SIGNAL (R61, R70). -/
def execSignal (core : CoreIx) (bad : Option Nat) (s : State) : Host.Outcome State Fault Refusal :=
  done (issue core.val bad 6 0x02 (fun w => onlyFields w [(43, 5), (38, 5), (0, 32)]) (fun w => { g := [wA w] })
    (signalEff core.val) s)

/-! Fences and queue waits -/

/-- Whether a core's engines have SRAM writes that are not yet visible. -/
def Core.storing (c : Core) : Bool := c.ops.any fun o => !o.stores.isEmpty

/-- SFENCE (R61, R62): issue goes on once every earlier SRAM write of the core's engines is visible. -/
def execSfence (core : CoreIx) (bad : Option Nat) (s : State) : Host.Outcome State Fault Refusal :=
  done (issue core.val bad 6 0x04 (fun w => onlyFields w []) (fun _ => {})
    (fun _ s => if (s.core core.val).storing then .next (s.holdOn core.val .sfence) 1 else .next s 1) s)

/-- SFENCE_DONE (R62): every earlier write is visible; the operations that hold one end. -/
def execSfenceDone (core : CoreIx) (s : State) : Host.Outcome State Fault Refusal :=
  match s.waits core.val, (s.core core.val).wait with
  | true, some .sfence =>
    let stores := ((s.core core.val).ops.map (·.stores)).flatten
    let s := stores.foldl (fun s st => s.sramWrite core.val st.1 st.2) s
    done ((s.modCore core.val fun c => { c with ops := c.ops.filter (·.stores.isEmpty) }).endWait core.val)
  | _, _ => done s

/-- DMAWAIT (R61): issue goes on once a DMA queue is empty. -/
def execDmawait (core : CoreIx) (bad : Option Nat) (s : State) : Host.Outcome State Fault Refusal :=
  done (issue core.val bad 6 0x05 (fun w => onlyFields w [(0, 2)]) (fun _ => {})
    (fun w s =>
      let q := bits w 0 2
      if (s.queueOf core.val q).isEmpty then .next s 1 else .next (s.holdOn core.val (.dmawait q)) 1) s)

/-- DMAWAIT_DONE (R61): the queue a core waits on is empty. -/
def execDmawaitDone (core : CoreIx) (s : State) : Host.Outcome State Fault Refusal :=
  match s.waits core.val, (s.core core.val).wait with
  | true, some (.dmawait q) => done (if (s.queueOf core.val q).isEmpty then s.endWait core.val else s)
  | _, _ => done s

/-- The engine an index names. -/
def engOf (e : Nat) : Engine := if e = 0 then .scalar else if e = 1 then .mxe else .vxu

/-- ENGINE_OP_DONE (R58, R59, R62): the oldest instruction of an engine ends. -/
def execEngineOpDone (core : CoreIx) (eng : EngIx) (s : State) : Host.Outcome State Fault Refusal :=
  done (if s.fatal then s else s.endOp core.val (engOf eng.val))

/-! The core barrier -/

/-- A replay passes a barrier that completed before the fault: behind a step barrier it stands at the next step. -/
def State.repassBar (s : State) (L : Nat) (step : Bool) : State :=
  if step then s.modDet L fun d => { d with replayStep := d.replayStep.map fun n => (n + 1) % 2 ^ 48 } else s

/-- The effect of GBAR (R61, R338): it records whether the core is quiet, and waits; one that completed without a checkpoint before a fault
passes in the replay (R345). -/
def gbarEff (L w : Nat) (s : State) : Eff :=
  let n := (s.cdet L).key
  match s.logFind L n with
  | some it =>
    if it.st = .completed then .next (s.repassBar L (bit w 0)) 1
    else .next ((s.modDet L fun d => { d with quiet := (s.core L).quiet }).holdOn L (.gbar (bit w 0))) 1
  | none =>
    let s := s.logAdd L { queue := 5, number := n, op := 0, st := .issued }
    .next ((s.modDet L fun d => { d with quiet := (s.core L).quiet }).holdOn L (.gbar (bit w 0))) 1

/-- GBAR (R61, R71). -/
def execGbar (core : CoreIx) (bad : Option Nat) (s : State) : Host.Outcome State Fault Refusal :=
  done (issue core.val bad 6 0x03 (fun w => onlyFields w [(0, 1)]) (fun _ => {}) (gbarEff core.val) s)

/-- The STEP bit of the barrier a core waits in. -/
def Core.gbarStep (c : Core) : Option Bool :=
  match c.wait with
  | some (.gbar b) => some b
  | _ => none

/-- Whether every core of a job waits in a barrier. -/
def State.allAtBar (s : State) (j : Job) : Bool :=
  j.cores.all fun L => s.cst L == stRun && ((s.core L).gbarStep).isSome

/-- A barrier ends for one core: the wait ends, the log entry completes, and a core that was quiet when it issued it is checkpointed
(R341). -/
def State.passBar (s : State) (L : Nat) : State :=
  let s := s.endWait L
  let s := s.modDet L fun d => { d with log := d.log.map fun it => if it.queue = 5 then { it with st := .completed } else it }
  if (s.cdet L).quiet then s.takeCkpt L else s.count (DET_CORE_NONQUIET_COUNT L)

/-- The earliest time the step barrier of a group may complete (R340): COL_CHAIN_TIMEOUT after the latest local completion of a collective that
the group issued in the step before. -/
def State.barFrom (s : State) (g : Nat) : Nat :=
  match Tbl.find s.det.prevCol g with
  | some t => t + fclk (max 1 (s.get COL_CHAIN_TIMEOUT_TIME))
  | none => 0

/-- Whether a collective of the step before is still under way in the job. -/
def State.oldCollective (s : State) (j : Job) : Bool :=
  let step := s.get64 (DET_STEP_STEP j.group)
  j.cores.any fun L => (s.core L).queues.flatten.any fun d => 0x20 ≤ d.op && d.op ≤ 0x28 && d.step != step

/-- A step barrier completes (R338, R340, R359): the counter moves on, the release point is recorded, dirty shards swap, and every core passes. -/
def State.stepBar (s : State) (j : Job) : State :=
  let old := s.get64 (DET_STEP_STEP j.group)
  let s := s.set64 (DET_STEP_STEP j.group) (old + 1)
  let s := s.setR (DET_RELEASED j.group) ((old + 2 ^ 48 - 1) % 2 ^ 48 % 2 ^ 32)
  let s := s.swapGroup j.group ((old + 1) % 2 ^ 48)
  let last := Tbl.find s.det.lastCol j.group
  let s := { s with det := { s.det with
    lastCol := Tbl.drop s.det.lastCol j.group
    prevCol := (match last with | some t => Tbl.insert s.det.prevCol j.group t | none => Tbl.drop s.det.prevCol j.group)
    heldBar := Tbl.drop s.det.heldBar j.group } }
  j.cores.foldl State.passBar s

/-- Completes the barrier of a job if every core of it waits there (R71): an ordinary one, one on which the cores disagree, or a step barrier,
which R340 may hold back. -/
def State.barrier (s : State) (j : Job) : State :=
  if s.fatal || !s.allAtBar j then s
  else
    let steps := j.cores.map fun L => ((s.core L).gbarStep).getD false
    if j.ring.isNone || steps.all (!·) then j.cores.foldl State.passBar s
    else if !steps.all id then
      (j.cores.foldl State.passBar s) |> fun s => j.cores.foldl (fun s L => s.programFault L 0x03) s
    else if s.oldCollective j || decide (s.now < s.barFrom j.group) then
      { s with det := { s.det with heldBar := Tbl.insert s.det.heldBar j.group (s.barFrom j.group) } }
    else s.stepBar j

/-- GBAR_COMPLETE (R71): the barrier of the job that holds a core. -/
def execGbarComplete (core : CoreIx) (s : State) : Host.Outcome State Fault Refusal :=
  match s.coreJob core.val with
  | some j => done (s.barrier j)
  | none => done s

/-! HALT -/

/-- CORE_HALTED (R61, R72): a core that has issued HALT enters HALTED once its engines and DMA queues are empty. -/
def execCoreHalted (core : CoreIx) (s : State) : Host.Outcome State Fault Refusal :=
  let c := s.core core.val
  match s.waits core.val, c.wait with
  | true, some .halt =>
    done (if c.ops.isEmpty && c.queues.all (·.isEmpty) then
        (s.modCore core.val fun c => { c with wait := none }).setCst core.val stHalted
      else s)
  | _, _ => done s

end Sys2Proof.Machine
end

