-- ==== Sys2Proof/Machine/Jobs.lean ====
section
/-! DEFINITION. Jobs (R76 to R79, R91, R338, R353, R454 to R456): admission, launch, the start barrier, the end, and abort; and the resumption and
end of a core replay (R344). -/

namespace Sys2Proof.Machine

open Sys2Proof

/-! The job descriptor (R76) -/

def jId (d : List Byte) : Nat := field d 0x00 4
def jGroup (d : List Byte) : Nat := field d 0x04 1
def jFlags (d : List Byte) : Nat := field d 0x05 1
def jSlots (d : List Byte) : Nat := field d 0x06 1
def jSram (d : List Byte) : Nat := field d 0x08 4
def jTickets (d : List Byte) : Nat := field d 0x0C 2
def jBase (d : List Byte) : Nat := field d 0x10 8
def jLen (d : List Byte) : Nat := field d 0x18 8
def jCells (d : List Byte) : Nat := field d 0x20 4
def jProgLen (d : List Byte) : Nat := field d 0x24 4
def jProg (d : List Byte) : Nat := field d 0x28 8
def jSeed (d : List Byte) : Nat := field d 0x30 8
def jStep (d : List Byte) : Nat := field d 0x38 6

/-- Whether a descriptor keeps the reserved-field, alignment and range rules of R76. -/
def jobFormOk (d : List Byte) : Bool :=
  jGroup d < 32 && jFlags d < 4 && jSlots d ≤ 32 && field d 7 1 == 0 && jSram d % 4096 == 0 && jSram d ≤ sramSize && jTickets d ≤ 1024 &&
    field d 0x0E 2 == 0 && jBase d % 65536 == 0 && jLen d % 65536 == 0 && jProgLen d % 8 == 0 && field d 0x3E 2 == 0

/-! Resources that remain (R78) -/

/-- The COREGROUP record of a group (R77). -/
def State.coregroup (s : State) (g : Nat) : Option (List Byte) := (s.recs 0x06).find? fun r => field r 0 1 == g

/-- The logical cores of a COREGROUP record, ascending. -/
def groupCores (rec : List Byte) : List Nat := onesBelow 144 (field rec 8 18)

/-- Whether a logical core can be given to a job: mapped, not fenced, not held. -/
def State.coreFree (s : State) (L : Nat) : Bool :=
  (match s.phys L with | some P => !s.coreFenced P | none => false) && s.cst L != stFenced && (s.core L).job.isNone

/-- Free sequence slots, ascending. -/
def State.freeSlots (s : State) : List Nat := (List.range 32).filter fun k => (Tbl.read s.slots {} k).job.isNone

/-- Ticket entries not held by a job. -/
def State.freeTickets (s : State) : Nat := 1024 - (s.jobs.map (·.tickets)).sum

/-- Whether a range of n GDDR7 bytes touches a controller (R142): every 24 granules of the hashed part touch each; the local part of a controller is
one range. -/
def State.touchesCtl (s : State) (a n c : Nat) : Bool :=
  let hb := s.hashedUnits * 2 ^ 28
  let lb := 6 * 2 ^ 30 - hb
  let m := min n (24 * hb - a)
  (List.range (min 48 ((a + m + 255) / 256 - a / 256))).any (fun i => decide (0 < m) && s.ctlOf ((a / 256 + i) * 256) == c) ||
    (decide (0 < n) && decide (a < 24 * hb + (c + 1) * lb) && decide (24 * hb + c * lb < a + n))

/-- Whether a GDDR7 range holds a valid retired block (R147). -/
def State.holdsRetired (s : State) (a n : Nat) : Bool :=
  (List.range 64).any fun i => s.flag (MEM_RETIRE_VALID i) && meets a n (s.get (MEM_RETIRE_BLOCK i) * 65536) 65536

/-- Whether a GDDR7 range may not be given to a job: beyond 144 GiB, overlapping a running job, retired, or on a controller that failed or is fenced
(R78, R145, R147). -/
def State.rangeTaken (s : State) (a n : Nat) : Bool :=
  decide (a + n > gddrSize) || (s.jobs.any fun j => n != 0 && j.gLen != 0 && meets a n j.gBase j.gLen) ||
    (n != 0 && s.holdsRetired a n) || (List.range 24).any fun c => (s.get (MEM_CH_STATUS_STATE c) == 3 || s.ctlFenced c) && s.touchesCtl a n c

/-- The admission check (R78): the code of the first failure, 0 when the job is accepted. -/
def State.admission (s : State) (d : List Byte) : Nat :=
  if !jobFormOk d then 0x41
  else if !s.patLive then 0x42
  else match s.coregroup (jGroup d) with
    | none => 0x43
    | some rec =>
      let cores := groupCores rec
      if !cores.all s.coreFree then 0x44
      else if bit (jFlags d) 0 && !(cores.all fun L => (s.phys L).any s.rowSpare) then 0x45
      else if jProgLen d = 0 ∨ jProgLen d > jSram d then 0x46
      else if s.rangeTaken (jBase d) (jLen d) then 0x47
      else if jSlots d > s.freeSlots.length ∨ jSlots d > field rec 2 1 then 0x48
      else if jTickets d > s.freeTickets ∨ jTickets d > field rec 4 2 then 0x49
      else if jCells d > s.sharedFree then 0x4A
      else 0

/-! Admission (R78, R79, R91) -/

/-- An accepted job takes its cores, slots, tickets, cells and GDDR7 range; admitted under an armed start barrier, it waits for it (R353). -/
def State.takeJob (s : State) (r : Nat) (e : Entry) (d : List Byte) : State :=
  let cores := ((s.coregroup (jGroup d)).map groupCores).getD []
  let slots := s.freeSlots.take (jSlots d)
  let (k, s) := s.takeKey
  let j : Job :=
    { key := k, id := jId d, group := jGroup d, cores := cores, ring := some (r, sqTag e), sram := jSram d, slots := slots
      tickets := jTickets d, cells := jCells d, gBase := jBase d, gLen := jLen d, progAddr := jProg d, progLen := jProgLen d
      seed := jSeed d, stepStart := jStep d, zeroSram := bit (jFlags d) 1, held := s.flag DET_START_CTRL_ARM, sqHead := s.sqHead r }
  let s := { s with jobs := s.jobs ++ [j] }
  let s := cores.foldl (fun s L => s.modCore L fun c => { c with job := some k }) s
  slots.zipIdx.foldl (fun s (x, i) =>
    ({ s with slots := Tbl.insert s.slots x { job := some k, index := i } }.setR (CORE_SLOT_POS x) 0).setR (CORE_SLOT_STATE x) (1 + 2 * i)) s

/-- The trace record of a job's end or refusal (R428). -/
def State.traceJobEnd (s : State) (cores : List Nat) (group id code step : Nat) : State :=
  s.trace trJobEnd (cores.headD 0) group 0 (id + code * 2 ^ 32) step

/-- JOB_SUBMIT (R78, R455): the admission code is shown; a refused job gets its record at once. -/
def State.submit (s : State) (r : Nat) (e : Entry) : State :=
  let d := e.drop 64
  let code := s.admission d
  let s := (s.setR CORE_JOB_REFUSE code).setR CORE_JOB_REFUSE_ID (jId d)
  if code = 0 then s.takeJob r e d
  else
    let cores := ((s.coregroup (jGroup d)).map groupCores).getD []
    let s := s.traceJobEnd cores (jGroup d) (jId d) code 0
    s.writeCq r { tag := sqTag e, op := 1, status := code, job := jId d, sqHead := s.sqHead r }

/-- JOB_SUBMIT (R78, R452, R453). -/
def execJobSubmit (ring : RingIx) (entry : Option (List Byte)) (s : State) : Host.Outcome State Fault Refusal :=
  done (s.fetch ring.val 1 entry fun s e => s.submit ring.val e)

/-! Launch (R48, R57, R76, R341, R353, R424, R425) -/

/-- Zeroes the SRAM grant of a core. -/
def State.zeroGrant (s : State) (L n : Nat) : State :=
  match s.phys L with
  | some P =>
    if s.zeroed.contains P then { s with sram := s.sram.filter fun c => !(decide (P * sramSize ≤ c.1) && decide (c.1 < P * sramSize + n)) }
    else s.sramWrite L 0 (List.replicate n 0)
  | none => s

/-- A job's cores enter RUN: the trace record, the reset of their counters and the snapshot. -/
def State.runJob (s : State) (j : Job) : State :=
  let s := j.cores.foldl (fun (s : State) L => if s.cst L = stIdle then s.setCst L stRun else s) s
  let s := s.modJob j.key fun x => { x with held := false }
  let s := s.trace trJobStart (j.cores.headD 0) j.group 0 j.id j.stepStart
  let s := if s.flag OBS_CTRL_RESET_ON_JOB then
      s.resetSets j.cores 1 j.id
    else s
  if s.flag OBS_CTRL_SNAP_ON_JOB then s.snapshot else s

/-- Whether the program image of a job can be read now. -/
def State.imageOpen (s : State) (j : Job) : Bool := !s.memWaits j.progAddr j.progLen

/-- JOB_LAUNCH (R76): the SRAM is zeroed if asked, the program copied, the state of R57 set and checkpointed; the cores enter RUN, or wait in IDLE
under the start barrier. The job is the one that holds the core. -/
def execJobLaunch (core : CoreIx) (s : State) : Host.Outcome State Fault Refusal :=
  match s.coreJob core.val with
  | none => done s
  | some j =>
    if s.fatal || j.launched || j.aborting || !s.imageOpen j || !(j.cores.all fun L => s.cst L == stIdle) then done s
    else
      let s := s.set64 (DET_STEP_STEP j.group) j.stepStart
      let s := { s with det := { s.det with lastCol := Tbl.drop s.det.lastCol j.group, prevCol := Tbl.drop s.det.prevCol j.group
                                            heldBar := Tbl.drop s.det.heldBar j.group } }
      let s := j.cores.foldl (fun (s : State) L =>
        let s := if j.zeroSram then s.zeroGrant L j.sram else s
        let s := (s.copyProgram j L).set (SEQ_PROG_BASE_BASE L) ((j.sram - j.progLen) / 8)
        (s.freshCore L).takeCkpt L) s
      let s := s.modJob j.key fun x => { x with launched := true }
      done (if j.held then s else s.runJob j)

/-! The start barrier (R353) -/

/-- A held job starts; one whose program has not been copied yet runs at its launch. -/
def State.letJobStart (s : State) (j : Job) : State :=
  if j.launched then s.runJob j else s.modJob j.key fun x => { x with held := false }

/-- Every held job starts. -/
def State.startHeld (s : State) : State := (s.jobs.filter (·.held)).foldl State.letJobStart s

/-- DET_START_CTRL is written with ARM = 1: refused, and LATE set, when T is not in the future. -/
def State.armStart (s : State) : State :=
  if s.get64 DET_START_TIME_T ≤ s.ft then ((s.set DET_START_CTRL_ARM 0).set DET_START_CTRL_LATE 1).raiseVec 6
  else s.set DET_START_CTRL_ARM 1

/-- ARM = 0 is written before T: the held jobs start at once. -/
def State.cancelStart (s : State) : State := (s.set DET_START_CTRL_ARM 0).startHeld

/-- START_BARRIER_RELEASE (R353): fabric time reaches T; the held jobs run in the next FCLK. -/
def execStartBarrierRelease (s : State) : Host.Outcome State Fault Refusal :=
  if s.fatal || !s.flag DET_START_CTRL_ARM then done s
  else
    let s := s.passToFt (s.get64 DET_START_TIME_T)
    let s := ((s.set DET_START_CTRL_ARM 0).set DET_START_CTRL_RELEASED 1).raiseVec 6
    done (s.pass 1).startHeld

/-! The end of a job (R79, R454 to R457) -/

/-- Whether a job has ended: it was aborted, a core reported an end status, or it has run and every core has left RUN. A core in FAULTED may
still replay. -/
def State.jobEnded (s : State) (j : Job) : Bool :=
  j.aborting || !j.ends.isEmpty ||
    (j.launched && !j.held && j.cores.all fun L => s.cst L != stRun && s.cst L != stFaulted)

/-- The status of a job's completion record (R456). -/
def jobStatus (j : Job) : Nat := if j.aborting then 0x52 else ((lowestEnd j.ends).map (·.2)).getD 0

/-- The completion record of a job. -/
def State.jobRec (s : State) (j : Job) (tag : Nat) : CqRec :=
  let faults := (j.ends.filter fun e => decide (e.2 ≤ 5)).map (·.1)
  let excs := j.cores.filter fun L => s.getR (CORE_EXC_COUNT L) != 0
  { tag := tag, op := 1, status := jobStatus j, excValid := !excs.isEmpty
    faultCore := faults.foldl min 0xFF, job := j.id
    excCount := min (2 ^ 32 - 1) ((excs.map fun L => s.getR (CORE_EXC_COUNT L)).sum)
    excAddr := ((excs.head?).map fun L => s.getR (CORE_EXC_ADDR L)).getD 0, excCore := excs.headD 0xFF, sqHead := j.sqHead
    step := s.get64 (DET_STEP_STEP j.group) }

/-- A core leaves its job: what is left of its program is stopped, and it returns to IDLE. -/
def State.leaveJob (s : State) (L : Nat) : State :=
  let st := s.cst L
  let s := if st == stShutdown then s else s.stopCore L
  let s := if st == stRun || st == stHalted || st == stFaulted then (s.clearCore L).setCst L stIdle else s
  (s.modCore L fun c => { c with job := none }).showTakeover

/-- Releases what a job holds. -/
def State.releaseJob (s : State) (j : Job) : State :=
  let s := j.cores.foldl State.leaveJob s
  let s := j.slots.foldl (fun s k => ({ s with slots := Tbl.drop s.slots k }.setR (CORE_SLOT_STATE k) 0).setR (CORE_SLOT_POS k) 0) s
  { s with jobs := s.jobs.filter (·.key != j.key) }

/-- JOB_END (R79, R457): the job of a core has ended; its record is written when the completion ring has room, and it releases what it holds. A core
started by hand is its own job and writes none. -/
def execJobEnd (core : CoreIx) (s : State) : Host.Outcome State Fault Refusal :=
  match s.coreJob core.val with
  | none => done s
  | some j =>
    if s.fatal then done s
    else match j.ring with
      | none =>
        let st := s.cst core.val
        done (if st == stHalted || (st == stFaulted && !j.ends.isEmpty) || st == stFenced then s.releaseJob j else s)
      | some (r, tag) =>
        if !s.jobEnded j || s.cqFull r then done s
        else
          let c := s.jobRec j tag
          let s := s.releaseJob j
          let s := (s.traceJobEnd j.cores j.group j.id c.status c.step).writeCq r c
          done (if s.flag OBS_CTRL_SNAP_ON_JOB then s.snapshot else s)

/-! Abort (R454) -/

/-- Aborts a job: its cores enter SHUTDOWN; its record follows at its end. -/
def State.abortJob (s : State) (j : Job) : State :=
  (j.cores.foldl State.shutCore s).modJob j.key fun x => { x with aborting := true, held := false }

/-- Aborts every job with an identifier, and writes the abort's own record. A job that has ended keeps its status and is not counted (DEDUCED, Log
177). -/
def State.abort (s : State) (r : Nat) (e : Entry) : State :=
  let js := s.jobs.filter fun j => j.ring.isSome && j.id == field e 0x40 4 && (j.aborting || !s.jobEnded j)
  let s := js.foldl State.abortJob s
  if js.isEmpty then s.plainRec r e 0x61 0 else s.plainRec r e 0 js.length

/-- JOB_ABORT (R454). -/
def execJobAbort (ring : RingIx) (entry : Option (List Byte)) (s : State) : Host.Outcome State Fault Refusal :=
  done (s.fetch ring.val 2 entry fun s e => s.abort ring.val e)

/-! Replay (R344, R350) -/

/-- REPLAY_RESUME (R344): the grant has been zeroed and the program copied; the checkpoint is restored and the core runs. -/
def execReplayResume (core : CoreIx) (s : State) : Host.Outcome State Fault Refusal :=
  let L := core.val
  match (s.cdet L).resumeAt, (s.cdet L).ckpt, s.coreJob L with
  | some t, some ck, some j =>
    if s.fatal || s.cst L != stFaulted || !s.imageOpen j then done s
    else
      let s := ((s.passTo t).zeroGrant L j.sram).copyProgram j L
      let s := (s.restoreCkpt L ck).setR (SEQ_FAULT L) 0
      let s := s.set (DET_CORE_REPLAY_REPLAYING L) 1
      let s := (s.setCst L stRun).modDet L fun d => { d with resumeAt := none, takeover := false }
      done ((if (s.cdet L).faultCount = 0 then s.caughtUp L else s).showTakeover)
  | _, _, _ => done s

/-- REPLAY_CAUGHT_UP (R344): the instruction count has reached the count at the fault. -/
def execReplayCaughtUp (core : CoreIx) (s : State) : Host.Outcome State Fault Refusal :=
  let L := core.val
  done (if !s.fatal && s.flag (DET_CORE_REPLAY_REPLAYING L) && (s.cdet L).count ≥ (s.cdet L).faultCount then s.caughtUp L else s)

/-- RELEASE_POINT_WAIT (R340): COL_CHAIN_TIMEOUT after the latest completion of the step before has passed, and the held step barrier of a group
completes. -/
def execReleasePointWait (group : GroupIx) (s : State) : Host.Outcome State Fault Refusal :=
  match Tbl.find s.det.heldBar group.val, s.jobs.find? fun j => j.ring.isSome && j.group == group.val with
  | some t, some j => done (if s.fatal then s else (s.passTo t).barrier j)
  | _, _ => done s

end Sys2Proof.Machine
end

