-- ==== Sys2Proof/Machine/Clock.lean ====
section
/-! DEFINITION. Syntonization and fabric time (R389 to R392), and the counters' snapshots and the trace unit's control (R423 to R435). -/

namespace Sys2Proof.Machine

open Sys2Proof

/-! Syntonization (R389 to R391) -/

/-- The clock states of PWR_CLK_STATUS. -/
def ckRef : Nat := 0
def ckToPort : Nat := 1
def ckSynt : Nat := 2
def ckHold : Nat := 3
def ckToRef : Nat := 4

/-- The clock state. -/
def State.clk (s : State) : Nat := s.get PWR_CLK_STATUS_STATE

/-- Enters a clock state, which raises vector 7. -/
def State.goClk (s : State) (st : Nat) : State := (s.set PWR_CLK_STATUS_STATE st).raiseVec 7

/-- Changes the clock's state. -/
def State.modClock (s : State) (f : ClockState → ClockState) : State := { s with clock := f s.clock }

/-- The source port of the live SYNTON piece; 0xFF without one. -/
def State.synPort (s : State) : Nat := ((s.synton).map (field · 0 1)).getD 0xFF

/-- PWR_CLK_CTRL.SYNTON_GO is written 1 (R389): the measurement starts, or the write is discarded. -/
def State.syntonGo (s : State) (at_ : Nat) : State :=
  if s.synPort ≠ 0xFF ∧ s.lst s.synPort = lkActive ∧ (s.clk = ckRef ∨ s.clk = ckHold) then
    s.modClock fun c => { c with measureAt := some s.now }
  else s.discarded at_

/-- The slew back to the module reference starts; without a reference the device is left in HOLDOVER (R391, R487). -/
def State.revert (s : State) : State := if !s.clock.refGone then s.goClk ckToRef else if s.clk = ckHold then s else s.goClk ckHold

/-- PWR_CLK_CTRL.REVERT is written 1 (R391). -/
def State.clkRevert (s : State) : State :=
  let s := s.modClock fun c => { c with measureAt := none, lostAt := none }
  if s.clk = ckRef ∨ s.clk = ckToRef then s else s.revert

/-- PWR_CLK_CTRL is written. -/
def State.clkCtrl (s : State) (at_ v : Nat) : State :=
  let s := if bit v 0 then s.syntonGo at_ else s
  if bit v 1 then s.clkRevert else s

/-- SYNTON_MEASURE_DONE (R390): the offset in units of 0.1 ppm after 100 µs of measurement. One that the register cannot hold has no stated
value. -/
def execSyntonMeasureDone (offset : Int) (s : State) : Host.Outcome State Fault Refusal :=
  match s.clock.measureAt, s.synton with
  | some t, some rec =>
    if s.fatal then done s
    else
      let s := (s.passTo (t + fclk 100)).modClock fun c => { c with measureAt := none }
      let (v, s) := if -32768 ≤ offset ∧ offset < 32768 then (ofSigned 16 offset, s) else s.draw
      let s := s.set PWR_CLK_STATUS_OFFSET v
      if offset.natAbs > 10 * field rec 2 1 then done (s.set PWR_CLK_STATUS_OFFSET_FAIL 1)
      else done ((s.set PWR_CLK_STATUS_PORT (field rec 0 1)).goClk ckToPort)
  | _, _ => done s

/-- SYNTON_SLEW_DONE (R390, R391): the root PLL reaches the port's frequency, or the reference. -/
def execSyntonSlewDone (s : State) : Host.Outcome State Fault Refusal :=
  if s.fatal then done s
  else if s.clk = ckToPort then done (s.goClk ckSynt)
  else if s.clk = ckToRef then done (s.goClk ckRef)
  else done s

/-- Whether the source port is out of service, or its source lane, the lowest active logical lane, has lost lock (R391). -/
def State.sourceGone (s : State) (p : Nat) : Bool :=
  let on := (portLanes p).filter fun l => s.flag (LANE_STATUS_ACTIVE l)
  let low := (on.map fun l => s.get (LANE_STATUS_LOGICAL l)).foldl min 8
  !(s.lst p == lkActive || s.lst p == lkLp1) || on.any fun l => s.get (LANE_STATUS_LOGICAL l) == low && !s.flag (LANE_STATUS_LOCK l)

/-- SYNTON_SOURCE_LOST (R391): the device holds the last frequency, and counts the loss. A measurement from the reference ends without a result. -/
def execSyntonSourceLost (s : State) : Host.Outcome State Fault Refusal :=
  if s.fatal then done s
  else if s.clk = ckToPort ∨ s.clk = ckSynt ∨ (s.clk = ckHold ∧ s.clock.measureAt.isSome) then
    if !s.sourceGone (s.get PWR_CLK_STATUS_PORT) then done s
    else
      let held := s.clk = ckHold
      let s := (s.modClock fun c => { c with measureAt := none, lostAt := some s.now }).count PWR_CLK_LOSS_COUNT
      done (if held then s else s.goClk ckHold)
  else if s.sourceGone s.synPort then done (s.modClock fun c => { c with measureAt := none })
  else done s

/-- HOLDOVER_REVERT_TIMEOUT (R391): the loss has lasted 10 ms and the piece asks to revert. -/
def execHoldoverRevertTimeout (s : State) : Host.Outcome State Fault Refusal :=
  match s.clock.lostAt, s.synton with
  | some t, some rec =>
    if s.fatal || s.clk != ckHold || !bit (field rec 1 1) 0 then done s
    else done (((s.passTo (t + fclk 10000)).modClock fun c => { c with lostAt := none }).revert)
  | _, _ => done s

/-! Fabric time (R392) -/

/-- PWR_FTIME_CTRL.STEP is written 1: refused while a core runs, a seam or the start barrier is armed. -/
def State.ftimeStep (s : State) : State :=
  if (List.range 144).any (fun L => s.cst L == stRun) || s.flag PAT_STATUS_ARMED || s.flag DET_START_CTRL_ARM then
    s.set PWR_FTIME_CTRL_REFUSED 1
  else
    let adj := s.get64 PWR_FTIME_ADJ_ADJ
    let s := s.trace trTimeStep 0xD8 0 0 adj s.ft
    let s := { s with ftime := s.ftime + BitVec.ofNat 64 adj }
    (List.range 35).foldl (fun s o => s.refreshOut o s.tu) s

/-- PWR_FTIME_CTRL.SLEW is written 1: discarded for a magnitude of 2^24 or more. A slew of nothing is finished at once. -/
def State.ftimeSlew (s : State) : State :=
  let adj := toSigned 64 (s.get64 PWR_FTIME_ADJ_ADJ)
  let n := adj.natAbs
  if n ≥ 2 ^ 24 then s
  else if n = 0 then s.raiseVec 6
  else
    let s := (s.set PWR_FTIME_CTRL_SLEWING 1).set PWR_FTIME_SLEW_LEFT_TICKS n
    s.modClock fun c => { c with slewNeg := decide (adj < 0), slewPhase := 0 }

/-- PWR_FTIME_CTRL is written: discarded and recorded while a slew runs, discarded with both commands. -/
def State.ftimeCtrl (s : State) (at_ v : Nat) : State :=
  if s.flag PWR_FTIME_CTRL_SLEWING then s.discarded at_
  else if bit v 0 && bit v 1 then s
  else
    let s := if bit v 3 then s.set PWR_FTIME_CTRL_REFUSED 0 else s
    if bit v 0 then s.ftimeStep else if bit v 1 then s.ftimeSlew else s

/-- SLEW_DONE (R392): the slew's ticks are used up. -/
def execSlewDone (s : State) : Host.Outcome State Fault Refusal :=
  if !s.flag PWR_FTIME_CTRL_SLEWING then done s
  else done (s.pass (16 * s.get PWR_FTIME_SLEW_LEFT_TICKS - s.clock.slewPhase))

/-! Snapshots (R424, R425) -/

/-- Every counter set is reset in the next cycle. -/
def State.resetAllSets (s : State) : State := s.resetSets (List.range 145) 2 0xFFFFFFFF

/-- OBS_CTRL.SNAP_ARM is written: an arm whose time is not in the future is refused. -/
def State.snapArm (s : State) (arm : Bool) : State :=
  if !arm then s.set OBS_CTRL_SNAP_ARM 0
  else if s.flag OBS_CTRL_SNAP_ARM then s
  else if s.get64 OBS_SNAP_TIME_TIME ≤ s.ft then (s.set OBS_CTRL_LATE 1).raiseVec 6
  else s.set OBS_CTRL_SNAP_ARM 1

/-- OBS_CTRL is written: a reset asked for with a snapshot takes effect after it. -/
def State.obsCtrl (s : State) (v : Nat) : State :=
  let s := (s.set OBS_CTRL_SNAP_ON_JOB (bits v 2 1)).set OBS_CTRL_RESET_ON_JOB (bits v 3 1)
  let s := if bit v 5 then s.set OBS_CTRL_LATE 0 else s
  let s := if bit v 4 then s.resetAllSets else s
  let s := if bit v 0 then s.snapshot else s
  s.snapArm (bit v 1)

/-- SNAP_TIME_REACHED (R424). -/
def execSnapTimeReached (s : State) : Host.Outcome State Fault Refusal :=
  if !s.flag OBS_CTRL_SNAP_ARM then done s
  else
    let s := (s.passToFt (s.get64 OBS_SNAP_TIME_TIME)).snapshot
    done ((s.set OBS_CTRL_SNAP_ARM 0).raiseVec 6)

/-- LATENCY_SAMPLE (R290): with sampling on, one FCLK passes, in which the sampler visits its next queue. -/
def execLatencySample (s : State) : Host.Outcome State Fault Refusal :=
  if s.fatal || !s.flag SCH_CTRL_OBS_EN then done s else done (s.pass 1)

/-! The trace unit's control (R426, R431) -/

/-- The states of the trace unit. -/
def trOff : Nat := 0
def trArmed : Nat := 1
def trPost : Nat := 2
def trDraining : Nat := 3
def trFrozen : Nat := 4
def trShutdown : Nat := 5

/-- The trace unit's state. -/
def State.trSt (s : State) : Nat := s.get OBS_TRACE_STATUS_STATE

/-- Enters ARMED from the live TRACE piece (R426, R435). -/
def State.traceArm (s : State) (p : List Byte) : State :=
  let s := ((s.setR OBS_TRACE_STATUS 0).set OBS_TRACE_STATUS_STATE trArmed).set OBS_TRACE_WPTR_INDEX 0
  let s := ((s.set OBS_TRACE_TRIG_INDEX 0).setR OBS_TRACE_LOST 0).setR64 OBS_TRACE_SPILLED 0
  { s with obs := { s.obs with
      ring := [], written := 0, staged := [], matched := 0, postLeft := 0, gap := 0, gapTime := 0
      spill := if bit (field p 0x14 1) 0 then some (field p 0x30 6, field p 0x38 4) else none } }

/-- An enable is taken from OFF: without a live piece the write is discarded and recorded. -/
def State.traceOnAt (s : State) (space at_ : Nat) : State :=
  match s.tracePiece with
  | some p => (s.traceArm p).set OBS_TRACE_CTRL_EN 1
  | none => s.aerr space at_ true 2

/-- OBS_TRACE_CTRL.EN is written. -/
def State.traceEn (s : State) (at_ : Nat) (en : Bool) : State :=
  if en then
    if s.trSt = trOff then s.traceOnAt 0 at_
    else if s.trSt = trShutdown then (s.set OBS_TRACE_CTRL_EN 1).set OBS_TRACE_CTRL_ENABLE_PENDING 1
    else s.set OBS_TRACE_CTRL_EN 1
  else
    let s := (s.set OBS_TRACE_CTRL_EN 0).set OBS_TRACE_CTRL_ENABLE_PENDING 0
    if s.trSt = trArmed ∨ s.trSt = trPost ∨ s.trSt = trDraining then s.set OBS_TRACE_STATUS_STATE trShutdown
    else if s.trSt = trFrozen then s.set OBS_TRACE_STATUS_STATE trOff
    else s

/-- OBS_TRACE_CTRL is written: its enable, then the host trigger and the mark. -/
def State.traceCtrl (s : State) (at_ v : Nat) : State :=
  let s := s.traceEn at_ (bit v 0)
  let s := if bit v 2 then s.traceFire 2 none else s
  if bit v 3 then s.trace trMark 0xFF 0 0 (s.getR64 OBS_TRACE_MARK) s.ft else s

/-- TRACE_POST_DONE (R426): POST_COUNT records have been written. -/
def execTracePostDone (s : State) : Host.Outcome State Fault Refusal :=
  done (if s.trSt = trPost ∧ s.obs.postLeft = 0 then s.set OBS_TRACE_STATUS_STATE trDraining else s)

/-- TRACE_DRAIN_DONE (R426, R432): every record is in its place, spill included; DRAIN enters FROZEN, SHUTDOWN enters OFF, and a pending enable is
checked as one written then (R409). -/
def execTraceDrainDone (s : State) : Host.Outcome State Fault Refusal :=
  if s.fatal || !(s.trSt == trDraining || s.trSt == trShutdown) then done s
  else
    let s := s.pass ((s.obs.staged.length + 1) / 2)
    let s := s.pass (if s.obs.spill.isSome then 4 * (s.obs.written - s.get64 OBS_TRACE_SPILLED_COUNT) else 0)
    if s.obs.spill.isSome ∧ s.get64 OBS_TRACE_SPILLED_COUNT < s.obs.written then done s
    else if s.trSt = trDraining then done ((s.set OBS_TRACE_STATUS_STATE trFrozen).raiseVec 5)
    else
      let again := s.flag OBS_TRACE_CTRL_ENABLE_PENDING
      let s := (s.set OBS_TRACE_STATUS_STATE trOff).set OBS_TRACE_CTRL_ENABLE_PENDING 0
      done (if again then s.traceOnAt 2 OBS_TRACE_CTRL.off else s)

end Sys2Proof.Machine
end

