-- ==== Sys2Proof/Machine/Boot.lean ====
section
/-! DEFINITION. Resets (R378, R379, R449), boot (R380 to R383), power (R477 to R484), and the fatal sources that are events of their own. -/

namespace Sys2Proof.Machine

open Sys2Proof

/-! What survives a reset -/

/-- The registers of a list of offsets, as they are. -/
def State.keepRegs (s : State) (keep : Nat → Bool) : Tbl Word := s.regs.filter fun r => keep r.1

/-- PWR_RESET_CAUSE, PWR_BOOT_STATUS, PWR_FW_VERSION and PWR_ID_HASH (R378). -/
def bootReg (off : Nat) : Bool := decide (4 ≤ off) && decide (off < 0x30)

/-- HIF_BAR2_BASE and the access-error log (R449). -/
def hostKept (off : Nat) : Bool :=
  off == HIF_BAR2_BASE.off || off == HIF_BAR2_BASE.off + 4 || off == HIF_AERR_PROD.off ||
    (decide ((HIF_AERR_ADDR 0).off ≤ off) && decide (off < (HIF_AERR_ADDR 16).off))

/-- What the module holds whatever is reset: the flash, the power input, the local time base, the memories' generation, the free values drawn, what has
left the block and the commands that wait. -/
def State.moduleKept (s : State) (b : BootState) : State :=
  { State.reset with
    now := s.now, gddrGen := s.gddrGen + 1, free := s.free, clock := { refGone := s.clock.refGone }, out := s.out, pending := s.pending, power := { s.power with fast := false }
    boot := { b with slotA := s.boot.slotA, slotB := s.boot.slotB, prefB := s.boot.prefB } }

/-- The lanes of a port carry a signal. -/
def State.portLit (s : State) (p : Nat) : Bool :=
  !(s.lst p == lkOff || s.lst p == lkFailed || s.lst p == lkFenced)

/-- Every lane goes to electrical idle at once (R379). -/
def State.darken (s : State) : State := (List.range 24).foldl (fun (s : State) p => if s.portLit p then s.emit (.idle p) else s) s

/-- The host bridge's state that a device reset keeps (R449): configuration space with the BAR2 size, the MSI-X table and its pending bits. -/
def hostAfter (h : HostState) : HostState :=
  { config := h.config, bar2Log2 := h.bar2Log2, msix := h.msix, msixPending := h.msixPending, raisedAt := h.raisedAt }

/-- A device reset of the block: what R378 and R449 keep, and every other state as after reset. The firmware, and what the boot found, stay. -/
def State.resetDevice (s : State) (keep : Nat → Bool) (h : HostState) : State :=
  let s := s.darken
  { s.moduleKept s.boot with
    regs := s.keepRegs fun o => bootReg o || keep o
    host := h
    boot := { s.boot with resetting := true, recovering := false } }

/-- A device reset (R378): kind DEVICE. -/
def State.deviceReset (s : State) : State :=
  (s.resetDevice hostKept (hostAfter s.host)).set PWR_RESET_CAUSE_DEVICE 1

/-- A reset after which the firmware is read again: the boot starts from RESET, and only the causes stay. -/
def State.bootReset (s : State) (keep : Nat → Bool) (h : HostState) : State :=
  let s := s.resetDevice keep h
  let s := { s with boot := { powered := true, railsGood := s.boot.railsGood, slotA := s.boot.slotA, slotB := s.boot.slotB
                              prefB := s.boot.prefB } }
  let s := s.setR PWR_BOOT_STATUS 0
  (List.range 8).foldl (fun s i => s.setR (PWR_ID_HASH i) 0) s

/-- A full reset (R378). -/
def State.fullReset (s : State) : State := (s.bootReset hostKept (hostAfter s.host)).set PWR_RESET_CAUSE_FULL 1

/-- LINK_RESET (R378): PERST# is asserted and released; PCI Express resets its own state with it. -/
def execLinkReset (s : State) : Host.Outcome State Fault Refusal :=
  if !s.boot.powered then done s else done ((s.bootReset hostKept {}).set PWR_RESET_CAUSE_LINK 1)

/-- FLR (R449): a device reset, then the configuration space, the MSI-X table, HIF_BAR2_BASE and the access-error log return to their reset values. -/
def execFlr (s : State) : Host.Outcome State Fault Refusal :=
  if !s.boot.powered || s.boot.jtagHold then done s
  else
    let s := (s.resetDevice (fun _ => false) { config := s.host.config }).set PWR_RESET_CAUSE_DEVICE 1
    done { s with boot := { s.boot with jtagWait := false } }

/-- PWR_RESET is written: FULL over DEVICE. -/
def State.pwrReset (s : State) (v : Nat) : State :=
  if bit v 1 then s.fullReset
  else if bit v 0 then
    let s := s.deviceReset
    { s with boot := { s.boot with jtagWait := false } }
  else s

/-- DEVICE_RESET_DONE (R379): the device is inert, its root PLL locked to the module reference, fabric time at 0, and requests are served again. -/
def execDeviceResetDone (s : State) : Host.Outcome State Fault Refusal :=
  if !s.boot.resetting || s.clock.refGone then done s
  else done ({ s with boot := { s.boot with resetting := false }, ftime := 0 }.set PWR_CLK_STATUS_ROOT_LOCK 1)

/-! Power (R477 to R479) -/

/-- HOT_SWAP_ON (R477): the input rises through 40 V; the rails follow. -/
def execHotSwapOn (s : State) : Host.Outcome State Fault Refusal := done { s with power := { s.power with inputOn := true } }

/-- POWER_ON_RESET (R378): the rails are good, and the power-on reset is released. -/
def execPowerOnReset (s : State) : Host.Outcome State Fault Refusal :=
  if !s.power.inputOn then done s
  else
    done { s.darken.moduleKept { powered := true, railsGood := some s.now } with power := { inputOn := true, sampledAt := s.now, checkedAt := s.now } }

/-- INPUT_OFF (R479): below 33 V the module turns off; only the flash keeps its content. -/
def execInputOff (s : State) : Host.Outcome State Fault Refusal :=
  done { s.darken.moduleKept {} with power := {} }

/-! Firmware images (R381, R464, R465) -/

/-- The vendor root hash in the boot ROM. -/
def rootHash : List Byte := (List.range 32).map Config.rootHash

/-- Whether the zero fields of a firmware image and of its signature block are zero, and its header and lengths are right (R463, R464). -/
def fwFormOk (bs : List Byte) : Bool :=
  let n := bs.length
  decide (0x100 + 1024 ≤ n) && decide (n ≤ 4 * 2 ^ 20) && field bs 0 4 == 0x57465A4B && field bs 4 2 == 1 && field bs 6 2 == 0x100 &&
    field bs 8 4 == n && field bs 0x10 4 == n - 0x100 - 1024 && zeroAt bs 0x14 44 && field bs 0x60 4 == n - 1024 && zeroAt bs 0x64 156 &&
    zeroAt bs (n - 252) 252

/-- The signature block of a signed object: its last 1,024 bytes. -/
def sigOf (bs : List Byte) : List Byte := bs.drop (bs.length - 1024)

/-- Whether the signer of a firmware image is the vendor (R381, R464). -/
def fwSignerOk (bs : List Byte) : Bool := slice bs 0x40 32 == rootHash && keyHash (sigOf bs) == rootHash

/-- The status of a firmware image's verification (R462): 0 when it verifies. -/
def fwStatus (bs : List Byte) : Nat :=
  if !fwFormOk bs then 5
  else if !fwSignerOk bs then 6
  else if !signatureOk (sigOf bs) (bs.take (bs.length - 1024)) then 7
  else 0

/-- FW_HASH of an image (R464). -/
def fwHash (bs : List Byte) : List Byte := sha256 (bs.take (bs.length - 1024))

/-! Boot (R381 to R383) -/

/-- The boot stages. -/
def bsRom : Nat := 1
def bsFlash : Nat := 2
def bsIdentity : Nat := 4
def bsReady : Nat := 6
def bsFailed : Nat := 7
def bsRecovery : Nat := 8

/-- Enters a boot stage with a code. -/
def State.goBoot (s : State) (stage code : Nat) : State := (s.set PWR_BOOT_STATUS_STAGE stage).set PWR_BOOT_STATUS_CODE code

/-- The boot stage. -/
def State.stage_ (s : State) : Nat := s.get PWR_BOOT_STATUS_STAGE

/-- Changes what the boot holds. -/
def State.modBoot (s : State) (f : BootState → BootState) : State := { s with boot := f s.boot }

/-- The boot ROM starts: it waits for the root PLL (R381). The stages VERIFY and FW_INIT begin and end inside one command, Log 44. -/
def State.romStart (s : State) : State :=
  if s.boot.powered && s.stage_ == 0 && !s.boot.resetting && !s.boot.jtagHold then s.set PWR_BOOT_STATUS_STAGE bsRom else s

/-- The thermal limits of a cooling variant as PWR_THERM_LIMITS holds them (R483, R492). -/
def thermLimits (variant : Nat) : Nat := if variant = 0 then 0x695F6E5F else 0x695F6E64

/-- ROOT_PLL_LOCK (R381): the root PLL locks to the reference, fabric time starts, and the ROM reads the flash: the module data are the serial number in 8
bytes and the cooling variant. -/
def execRootPllLock (modData : List Byte) (s : State) : Host.Outcome State Fault Refusal :=
  if !s.boot.powered || s.clock.refGone || s.stage_ ≥ bsFlash || s.boot.resetting || s.boot.jtagHold then done s
  else
    let m : ModData := { serial := field modData 0 8, variant := min 1 (field modData 8 1), limits := thermLimits (field modData 8 1) }
    let s := { s with ftime := 0, host := { s.host with config := { s.host.config with subsystem := BitVec.ofNat 16 (m.variant + 1) } } }.modBoot
      fun b => { b with mod := m }
    done ((s.set PWR_CLK_STATUS_ROOT_LOCK 1).goBoot bsFlash 0)

/-- Firmware has verified: it is the one that runs (R381). The codes of RECOVERY let no boot continue, so an image from the host leaves none of them;
PREFERRED_FAILED, which did, stands (R383). DEDUCED, Log 44. -/
def State.bootImage (s : State) (bs : List Byte) (fromHost slotB : Bool) : State :=
  let s := (s.set PWR_BOOT_STATUS_STAGE bsIdentity).set PWR_BOOT_STATUS_SLOT (b2n slotB)
  let s := s.set PWR_BOOT_STATUS_FROM_HOST (b2n fromHost)
  let s := if fromHost then s.set PWR_BOOT_STATUS_CODE (if s.boot.tried then 0x03 else 0) else s
  let s := s.setR PWR_FW_VERSION (field bs 0x0C 4)
  let s := (List.range 8).foldl (fun s i =>
    (s.setR (SEC_ROOT_HASH i) (field rootHash (4 * i) 4)).setR (SEC_FW_HASH i) (field (fwHash bs) (4 * i) 4)) s
  s.modBoot fun b => { b with fwHash := fwHash bs, bootB := slotB, recovering := false }

/-- FLASH_SLOT_READ (R381): the flash answers with its slot header and a slot's image, or not at all. The header is empty when it is not valid, else its
first byte says whether slot B is preferred; of what the device itself has written, its own copy counts. -/
def execFlashSlotRead (headers : List Byte) (image : Option (List Byte)) (s : State) : Host.Outcome State Fault Refusal :=
  if s.stage_ != bsFlash || s.boot.resetting || s.boot.jtagHold then done s
  else match image with
    | none => done (s.goBoot bsFailed 0x01)
    | some raw =>
      if headers.isEmpty ∧ s.boot.prefB.isNone then done (s.goBoot bsRecovery 0x02)
      else
        let pref := s.boot.prefB.getD (bit (field headers 0 1) 0)
        let slotB := if s.boot.tried then !pref else pref
        let bs := (if slotB then s.boot.slotB else s.boot.slotA).getD raw
        if fwStatus bs = 0 then done (s.bootImage bs false slotB)
        else if s.boot.tried then done (s.goBoot bsRecovery (if fwStatus bs = 6 then 0x05 else 0x04))
        else done ((s.modBoot fun b => { b with tried := true }).goBoot bsFlash 0x03)

/-- The identity public key's hash (R463, R467): the modulus, and the exponent 65,537. -/
def idHashOf : List Byte := sha256 ((List.range 384).map Config.idModulus ++ leBytes 4 65537)

/-- The identity key is reconstructed (R381, R463); how many bits the helper data corrected is not the spec's. -/
def State.identity (s : State) : State :=
  let s := (List.range 8).foldl (fun s i => s.setR (PWR_ID_HASH i) (field idHashOf (4 * i) 4)) s
  let (n, s) := s.draw
  let (m, s) := s.draw
  ((s.set SEC_PUF_STATUS_CORRECTED n).set SEC_PUF_STATUS_MARGIN_LOW m).set PWR_BOOT_STATUS_ID_VALID 1

/-- BOOT_READY (R381, R383): the identity has been reconstructed, or not, and the firmware is initialised, or FW_INIT_FAIL ends the boot. -/
def execBootReady (parts : BootParts) (s : State) : Host.Outcome State Fault Refusal :=
  if s.stage_ != bsIdentity || s.boot.resetting || s.boot.jtagHold then done s
  else
    let s := if parts.pufOk then s.identity else s.set PWR_BOOT_STATUS_CODE 0x06
    if !parts.fwOk then done (s.goBoot bsFailed 0x07)
    else done ((s.setR PWR_THERM_LIMITS s.boot.mod.limits).set PWR_BOOT_STATUS_STAGE bsReady)

/-- PWR_RECOVERY_LEN is written with GO (R382): the image is read from host memory; ignored outside RECOVERY. -/
def State.recoveryGo (s : State) : State :=
  if s.stage_ ≠ bsRecovery ∨ s.boot.recovering then s
  else
    let s := s.modBoot fun b => { b with recovering := true }
    s.emit (.hostRead (s.getR64 PWR_RECOVERY_ADDR) (s.get PWR_RECOVERY_LEN_LEN))

/-- RECOVERY_IMAGE_READ (R382): the image runs if it verifies; a read that failed gives none. -/
def execRecoveryImageRead (image : Option (List Byte)) (s : State) : Host.Outcome State Fault Refusal :=
  if !s.boot.recovering || s.stage_ != bsRecovery then done s
  else
    let bs := slice (image.getD []) 0 (if image.isSome then s.get PWR_RECOVERY_LEN_LEN else 0)
    if image.isSome && fwStatus bs == 0 then done (s.bootImage bs true false)
    else done ((s.modBoot fun b => { b with recovering := false }).set PWR_BOOT_STATUS_CODE 0x08)

/-! Power and thermal limiting (R481 to R484) -/

/-- Changes the power state. -/
def State.modPower (s : State) (f : PowerState → PowerState) : State := { s with power := f s.power }

/-- Sets K, between 0 and 12; a rise from 0 is counted (R482). -/
def State.setK (s : State) (k : Nat) : State :=
  let old := s.get PWR_THROTTLE_K
  let k := min 12 k
  if k = old then s
  else
    let s := (s.set PWR_THROTTLE_K k).modPower fun p => { p with lastChange := s.now }
    if old = 0 then s.count PWR_THROTTLE_EVENTS_COUNT else s

/-- PWR_LIMIT in watts as it acts. -/
def State.wattLimit (s : State) : Nat := min 850 (max 300 (s.get PWR_LIMIT_WATTS))

/-- POWER_SAMPLE (R472, R482): the input power in 0.1 W, voltage in mV and current in 10 mA, every 10 µs. A sample above 1,050 W raises K by 4, once
between two checks. -/
def execPowerSample (tenths mv current : Nat) (s : State) : Host.Outcome State Fault Refusal :=
  if !s.boot.powered then done s
  else
    let s := s.passTo (s.power.sampledAt + fclk 10)
    let first := !s.power.fast
    let s := s.modPower fun p =>
      { p with samples := (tenths :: p.samples).take 100, sampledAt := s.now, peak := max p.peak tenths, energy := p.energy + tenths }
    let s := if s.now ≥ s.power.refreshAt then
        ((s.set PWR_INPUT_MV mv).set PWR_INPUT_CURRENT current).modPower fun p => { p with refreshAt := s.now + fclk 1000 }
      else s
    if tenths > 10500 then
      let s := (s.set PWR_THROTTLE_FAST 1).modPower fun p => { p with fast := true }
      done (if first then s.setK (s.get PWR_THROTTLE_K + 4) else s)
    else done s

/-- A sensor's temperature in 0.1 °C. -/
def State.temp (s : State) (i : Nat) : Int := toSigned 16 (s.get (PWR_TEMP_TEMP i))

/-- The throttle limit of a sensor in 0.1 °C: die sensors 0 to 7, GDDR7 sensors 8 to 31. -/
def State.throttleAt (s : State) (i : Nat) : Int :=
  if i < 8 then 10 * (s.boot.mod.limits % 256 : Nat) else 10 * (s.boot.mod.limits / 2 ^ 16 % 256 : Nat)

/-- The trip limit of a sensor in 0.1 °C; regulators trip at 125 °C. -/
def State.tripAt (s : State) (i : Nat) : Int :=
  if i < 8 then 10 * (s.boot.mod.limits / 2 ^ 8 % 256 : Nat)
  else if i < 32 then 10 * (s.boot.mod.limits / 2 ^ 24 % 256 : Nat)
  else 1250

/-- Reports the sensors below n that are at or above their trip limits (R484). -/
def State.tripped (s : State) (n : Nat) : State :=
  ((List.range n).filter fun i => (i ≥ 32 || s.boot.mod.limits != 0) && decide (s.temp i ≥ s.tripAt i)).foldl (fun s i => s.report 0x32 0 i) s

/-- LIMITER_CHECK (R482 to R484): every 100 µs, with the temperatures of the 40 sensors in 0.1 °C. -/
def execLimiterCheck (temps : List Int) (s : State) : Host.Outcome State Fault Refusal :=
  if !s.boot.powered then done s
  else
    let s := s.passTo (s.power.checkedAt + fclk 100)
    let s := (temps.take 40).zipIdx.foldl (fun s (t, i) => s.set (PWR_TEMP_TEMP i) (ofSigned 16 t)) s
    let known := s.boot.mod.limits != 0
    let above (is_ : List Nat) : Bool := known && is_.any fun i => decide (s.temp i ≥ s.throttleAt i)
    let die := above (List.range 8)
    let mem := above ((List.range 24).map (8 + ·))
    let n := s.power.samples.length
    let sum := s.power.samples.sum
    let high := decide (sum > 10 * s.wattLimit * n)
    let low := decide (sum + 250 * n ≤ 10 * s.wattLimit * n)
    let cool := known && (List.range 32).all fun i => decide (s.temp i + 30 ≤ s.throttleAt i)
    let fast := s.power.fast
    let s := s.tripped (min 40 temps.length)
    let s := ((s.set PWR_THROTTLE_POWER (b2n high)).set PWR_THROTTLE_DIE (b2n die)).set PWR_THROTTLE_MEM (b2n mem)
    let s := (s.set PWR_THROTTLE_FAST 0).modPower fun p => { p with fast := false, checkedAt := s.now }
    let k := s.get PWR_THROTTLE_K
    if fast then done s
    else if high || die || mem then done (s.setK (k + 1))
    else if decide (s.now - s.power.lastChange ≥ fclk 1000) && low && cool then done (s.setK (k - 1))
    else done s

/-! Fatal sources (R397, R479, R484) and the safe state (R410) -/

/-- THERMAL_TRIP (R484): a sensor's temperature, in 0.1 °C, is at or above its trip limit. -/
def execThermalTrip (sensor : Nat) (temp : Int) (s : State) : Host.Outcome State Fault Refusal :=
  if !s.boot.powered || sensor ≥ 40 || (sensor < 32 && s.boot.mod.limits == 0) then done s
  else
    let s := s.set (PWR_TEMP_TEMP sensor) (ofSigned 16 temp)
    done (if temp ≥ s.tripAt sensor then s.report 0x32 0 sensor else s)

/-- POWER_FAULT (R479): the input, rail 0, or a rail has left its limits for 10 µs. -/
def execPowerFault (rail : Nat) (s : State) : Host.Outcome State Fault Refusal :=
  done (if s.boot.powered && rail ≤ 8 then s.report 0x33 0 rail else s)

/-- PLL_UNLOCK (R397, R487): the root PLL loses lock. -/
def execPllUnlock (s : State) : Host.Outcome State Fault Refusal :=
  done (if s.flag PWR_CLK_STATUS_ROOT_LOCK then (s.set PWR_CLK_STATUS_ROOT_LOCK 0).report 0x31 0 0 else s)

/-- FW_WATCHDOG (R397). -/
def execFwWatchdog (s : State) : Host.Outcome State Fault Refusal := done (if s.ready then s.report 0x34 0 0 else s)

/-- SAFE_STATE_REACHED (R410, R416): outputs are idle, unfenced controllers in self-refresh, the content of those that were not READY undefined
(R144), the fatal interrupt raised. -/
def execSafeStateReached (s : State) : Host.Outcome State Fault Refusal :=
  if !s.fatal || s.safe then done s
  else
    let lost := (List.range 24).filter fun c => !s.ctlFenced c && s.get (MEM_CH_STATUS_STATE c) != 2
    let s := s.gddrForget fun a => lost.contains (s.ctlOf a)
    let s := (List.range 24).foldl (fun (s : State) c => if s.ctlFenced c then s else s.set (MEM_CH_STATUS_STATE c) 4) s
    done ((s.set MEM_STATUS_TRAIN_BUSY 0).set FLT_STATUS_SAFE 1 |>.raiseVec 0)

/-- FAULT_PULSE_END (R412). -/
def execFaultPulseEnd (s : State) : Host.Outcome State Fault Refusal :=
  match s.fault.pulseEnd with
  | none => done s
  | some t =>
    let s := s.passTo t
    done { s.set FLT_FAULTN_PULSING 0 with fault := { s.fault with pulseEnd := none } }

end Sys2Proof.Machine
end

