-- ==== Sys2Proof/Machine/Mailbox.lean ====
section
/-! DEFINITION. The management mailbox (R461, R462): taking a command, the work of each command (R464 to R470), and its end. -/

namespace Sys2Proof.Machine

open Sys2Proof

/-- Changes the host bridge's state. -/
def State.modHost (s : State) (f : HostState → HostState) : State := { s with host := f s.host }

/-- The status with which a mailbox command ends before any work: 0 for none (R461, R462, R469). -/
def State.mboxStatus (s : State) (c : Nat) : Nat :=
  let n := s.get HIF_MBOX_LEN_LEN
  if s.safe && c != 1 then 0x0B
  else if c < 1 || 4 < c then 2
  else if (c == 1 || c == 4) && n != 1536 then 3
  else if c == 2 && (n < 1280 || n > 4 * 2 ^ 20) then 3
  else if c == 3 && n != 0 then 3
  else if c != 2 && !s.flag PWR_BOOT_STATUS_ID_VALID then 9
  else 0

/-- The host address of the buffer. -/
def State.mboxAddr (s : State) : Nat := s.getR64 HIF_MBOX_ADDR

/-- HIF_MBOX_CMD is written with a command (R462): discarded while one runs; else BUSY is set and the buffer is read, if the command has one. -/
def State.mboxCmd (s : State) (at_ c : Nat) : State :=
  if s.host.mbox.isSome then s.discarded at_
  else
    let st := s.mboxStatus c
    let s := (s.set HIF_MBOX_STATUS_BUSY 1).set HIF_MBOX_STATUS_CMD c
    let s := s.modHost fun h => { h with mbox := some (c, if st = 0 then none else some st) }
    if st ≠ 0 || c = 3 then s else s.emit (.hostRead s.mboxAddr (if c = 1 then 32 else s.get HIF_MBOX_LEN_LEN))

/-- Whether a mailbox command's work is still to be done. -/
def State.mboxRuns (s : State) (c : Nat) : Bool := s.host.mbox == some (c, none)

/-- The work of a mailbox command has ended with a status. -/
def State.mboxEnd (s : State) (c st : Nat) : State := s.modHost fun h => { h with mbox := some (c, some st) }

/-! ATTEST (R469) -/

/-- Bytes of n 32-bit registers. -/
def State.regBytes (s : State) (r : Nat → Reg) (n : Nat) : List Byte := ((List.range n).map fun i => leBytes 4 (s.getR (r i))).flatten

/-- A hash of the pattern store, or zeros where there is none yet. -/
def hashOrZero (h : List Byte) : List Byte := if h.isEmpty then List.replicate 32 0 else h

/-- The body of an attestation report. -/
def State.reportBody (s : State) (nonce : List Byte) : List Byte :=
  let live := s.patLive
  let flags := s.get SEC_CTRL_LOCK + 2 * s.get SEC_STATUS_DEBUG_UNLOCKED + 4 * s.get PWR_BOOT_STATUS_FROM_HOST +
    8 * s.get PWR_BOOT_STATUS_SLOT + 16 * b2n live + 32 * b2n s.safe
  let valid := s.get SEC_SIGNER_VALID_VALID
  let signers := ((List.range 8).map fun k =>
    if bit valid k then s.regBytes (fun i => SEC_SIGNER k i) 8 else List.replicate 32 0).flatten
  leBytes 4 0x54415A4B ++ leBytes 2 1 ++ leBytes 2 flags ++ slice nonce 0 32 ++ s.idHash ++ rootHash ++ hashOrZero s.boot.fwHash ++
    leBytes 4 (s.getR PWR_FW_VERSION) ++ leBytes 8 s.boot.mod.serial ++ leBytes 4 (if live then s.getR PAT_GEN_LIVE else 0) ++
    hashOrZero s.pat.fullHash ++ hashOrZero s.pat.appliedHash ++ leBytes 4 (if live then s.ownAddr else 0x1FFFFF) ++
    leBytes 1 (popcount 8 valid) ++ leBytes 1 (s.getR PWR_RESET_CAUSE % 16) ++ leBytes 2 0 ++ leBytes 8 s.ft ++ leBytes 24 0 ++ signers

/-- The signature block of a report (R19, R463, R467): the signature has no stated value. -/
def reportSig (draw : Nat) : List Byte :=
  (List.range 384).map (Config.idSignature draw) ++ (List.range 384).map Config.idModulus ++ leBytes 4 65537 ++ leBytes 252 0

/-- The work of ATTEST: the report is written into the buffer; a nonce that could not be read ends it. -/
def State.attest (s : State) (nonce : Option (List Byte)) : State :=
  match nonce with
  | none => s.mboxEnd 1 4
  | some n => ({ s with free := s.free + 1 }.emit (.hostWrite s.mboxAddr (s.reportBody n ++ reportSig s.free))).mboxEnd 1 0

/-! FW_UPDATE (R464, R465) -/

/-- Whether FW_UPDATE writes slot B: the slot the device did not boot from, slot A after a boot from host memory. -/
def State.updateB (s : State) : Bool := !(s.flag PWR_BOOT_STATUS_FROM_HOST || s.boot.bootB)

/-- The work of FW_UPDATE: the image is verified and written into a slot, whose old content is gone from then on; flashOk says whether it reads back. -/
def State.fwUpdate (s : State) (image : Option (List Byte)) (flashOk : Bool) : State :=
  match image with
  | none => s.mboxEnd 2 4
  | some raw =>
    let bs := slice raw 0 (s.get HIF_MBOX_LEN_LEN)
    let st := fwStatus bs
    if st ≠ 0 then s.mboxEnd 2 st
    else
      let s := s.modBoot fun b => if s.updateB then { b with slotB := none } else { b with slotA := none }
      if !flashOk then s.mboxEnd 2 0x0A
      else (s.modHost fun h => { h with mboxImage := bs }).mboxEnd 2 0

/-- The end of FW_UPDATE: the slot reads back, and the header is rewritten to prefer it. -/
def State.fwCommit (s : State) : State :=
  let b := s.updateB
  let img := s.host.mboxImage
  (s.modBoot fun x => if b then { x with slotB := some img, prefB := some true } else { x with slotA := some img, prefB := some false }).modHost
    fun h => { h with mboxImage := [] }

/-! PUF_REFRESH (R468) and DEBUG_UNLOCK (R470) -/

/-- The work of PUF_REFRESH: new helper data and a newly wrapped key are in the flash, or could not be written. -/
def State.pufRefresh (s : State) (ok : Bool) : State := s.mboxEnd 3 (if ok then 0 else 0x0A)

/-- The status of a debug token. -/
def State.tokenStatus (s : State) (t : List Byte) : Nat :=
  if !(field t 0 4 == 0x54445A4B && field t 4 2 == 1 && zeroAt t 6 2 && zeroAt t 0x2C 468 && zeroAt t 1284 252) then 5
  else if keyHash (sigBlock t) != rootHash then 6
  else if !signatureOk (sigBlock t) (t.take 512) then 7
  else if slice t 8 32 != s.idHash then 8
  else 0

/-- The work of DEBUG_UNLOCK: an accepted token sets DEBUG_UNLOCKED and PERMS. -/
def State.debugUnlock (s : State) (token : Option (List Byte)) : State :=
  match token with
  | none => s.mboxEnd 4 4
  | some raw =>
    let t := slice raw 0 1536
    let st := s.tokenStatus t
    let s := if st = 0 then (s.set SEC_STATUS_DEBUG_UNLOCKED 1).set SEC_STATUS_PERMS (field t 0x28 4) else s
    s.mboxEnd 4 st

/-- MAILBOX_DONE (R462): the command's status is written, BUSY cleared and vector 3 raised. -/
def execMailboxDone (s : State) : Host.Outcome State Fault Refusal :=
  match s.host.mbox with
  | some (c, some st) =>
    let s := if c = 2 ∧ st = 0 then s.fwCommit else s
    let s := if c = 3 ∧ st = 0 then s.set SEC_PUF_STATUS_REFRESHED 1 else s
    let s := (s.set HIF_MBOX_STATUS_CODE st).set HIF_MBOX_STATUS_BUSY 0
    done ((s.modHost fun h => { h with mbox := none }).raiseVec 3)
  | _ => done s

end Sys2Proof.Machine
end

