-- ==== Sys2Proof/Machine/Bar2.lean ====
section
/-! DEFINITION. The BAR2 window (R446, R447). -/

namespace Sys2Proof.Machine

open Sys2Proof

/-- The size of BAR2 in bytes. -/
def State.bar2Size (s : State) : Nat := 2 ^ (30 + s.host.bar2Log2)

/-- The local address behind an offset of BAR2, if there is one (R446): the top 512 MiB map the SRAM windows, the rest GDDR7 from
HIF_BAR2_BASE on. -/
def State.bar2At (s : State) (o : Nat) : Option Nat :=
  let sram := s.bar2Size - 2 ^ 29
  if sram ≤ o then
    if o - sram < 144 * sramSize then some (sramBase + (o - sram)) else none
  else if s.getR64 HIF_BAR2_BASE + o < gddrSize then some (s.getR64 HIF_BAR2_BASE + o)
  else none

/-- Whether the memory behind a local address is unavailable: a fenced controller or one without trained memory, GDDR7 that is not enabled, an unmapped
core's window. -/
def State.bar2Down (s : State) (a : Nat) : Bool :=
  match place a with
  | .gddr a => !s.memOpen || s.ctlDown (s.ctlOf a)
  | .sram L _ => (s.phys L).isNone
  | .nowhere => true

/-- The access-error kind of a BAR2 access to a list of offsets (R447); the shard check is the write's own. -/
def State.bar2Kind (s : State) (write : Bool) (os : List Nat) : Option Nat :=
  let as := os.filterMap s.bar2At
  if s.safe then some 7
  else if as.length < os.length then some 3
  else if as.any fun a => s.holdsRetired a 1 then some 4
  else if write && as.any fun a => (s.shardHit a 1).isSome then some 5
  else if as.any s.bar2Down then some 6
  else none

/-- All-ones. -/
def ones (n : Nat) : List Byte := List.replicate n 0xFF

/-- Records a BAR2 access. -/
def State.bar2Err (s : State) (addr : Nat) (write : Bool) (kind : Nat) : State := s.aerr 1 addr write kind

/-- Reports a BAR2 read whose data fail their check (R146, R414). -/
def State.bar2Bad (s : State) (a : Nat) : State :=
  match place a with
  | .gddr a => s.edcEvent a false
  | .sram L o => s.sramParity L o
  | .nowhere => s

/-- A byte behind an offset of BAR2. -/
def State.bar2Byte (s : State) (o : Nat) : Byte :=
  match s.bar2At o with
  | some a => (s.readLocal a 1).headD 0
  | none => 0xFF

/-- The failing byte of a BAR2 read: the first, when the command says that its data fail, else the first upset in the range. -/
def State.bar2Fail (s : State) (addr len : Nat) (bad : Bool) : Option Nat :=
  (s.bar2At addr).bind fun a => s.badIn a len (if bad then some a else none)

/-- BAR2_READ (R446, R447): len bytes from an offset; bad says that they fail their check. -/
def execBar2Read (addr len : Nat) (bad : Bool) (s : State) : Host.Outcome State Fault Refusal :=
  let os := (List.range len).map (addr + ·)
  if s.inReset || addr + len > s.bar2Size then done (s.emit (.readData (ones len)))
  else if !s.ready then done ((s.emit (.readData (ones len))).bar2Err addr false 8)
  else match s.bar2Kind false os with
    | some 6 => done ((s.emit .completerAbort).bar2Err addr false 6)
    | some k => done ((s.emit (.readData (ones len))).bar2Err addr false k)
    | none =>
      match s.bar2Fail addr len bad with
      | some b =>
        if b < 2 ^ 48 then done (((s.bar2Bad b).emit .completerAbort).bar2Err addr false 6)
        else done ((s.edcEvent (b % 2 ^ 48) true).emit (.readData (os.map s.bar2Byte)))
      | none => done (s.emit (.readData (os.map s.bar2Byte)))

/-- Writes a byte behind an offset of BAR2; one in a NEXT slot marks it. -/
def State.bar2Put (s : State) (o : Nat) (b : Byte) : State :=
  match s.bar2At o with
  | some a => (s.writeRange a [b]).2
  | none => s

/-- BAR2_WRITE (R446, R447, R358): bytes from an offset, those with their byte enable set. -/
def execBar2Write (addr : Nat) (bytes : List Byte) (enables : List Bool) (s : State) : Host.Outcome State Fault Refusal :=
  let bs := bytes.zipIdx.filter fun x => enables.getD x.2 true
  let os := bs.map fun x => addr + x.2
  if s.inReset || addr + bytes.length > s.bar2Size then done s
  else if !s.ready then done (s.bar2Err addr true 8)
  else match s.bar2Kind true os with
    | some 5 =>
      match (os.filterMap s.bar2At).findSome? fun a => s.shardHit a 1 with
      | some (_, e) => done ((s.noteRefused e 0x30).bar2Err addr true 5)
      | none => done (s.bar2Err addr true 5)
    | some k => done (s.bar2Err addr true k)
    | none => done (bs.foldl (fun s x => s.bar2Put (addr + x.2) x.1) s)

end Sys2Proof.Machine
end

