-- ==== Sys2Proof/Machine/Cond.lean ====
section
/-! DEFINITION. The COND class beside LDWS and MMAZ (R86 to R98): ZMAP, SKIP, TOPK, SLOTSET, BCLASS and EMASK. -/

namespace Sys2Proof.Machine

open Sys2Proof

/-! ZMAP -/

/-- Blocks of a row, as log2 in the word. -/
def zmapB (w : Nat) : Nat := 2 ^ bits w 14 2

/-- The fields of ZMAP: a format of the 8-bit, 6-bit and 4-bit rows; 1, 2 or 4 blocks. -/
def zmapLegal (w : Nat) : Bool :=
  onlyFields w [(38, 5), (33, 5), (28, 5), (24, 4), (16, 7), (14, 2)] && bits w 14 2 != 3 &&
    (mxeRow (bits w 24 4) == some 0 || mxeRow (bits w 24 4) == some 1)

/-- Whether a code encodes +0 or -0 in a format; of a block-scaled block the scale byte 0xFF makes every element NaN (R114). -/
def isZeroCode (fmt scale code : Nat) : Bool :=
  match decodeVal fmt scale code with
  | .fin _ m _ => m == 0
  | _ => false

/-- The bits of the blocks of one row (R88): 0 when every element is a zero. -/
def rowMap (fmt b : Nat) (bs : List Byte) : List Bool :=
  let w := elemBits fmt
  let es := unpackElems w (32 * b) (bs.take (32 * b * w / 8))
  let scale (g : Nat) : Nat := field bs (32 * b * w / 8 + g) 1
  (List.range b).map fun g => ((es.drop (32 * g)).take 32).any fun c => !isZeroCode fmt (scale g) c

/-- Bits packed least significant first into bytes. -/
def packBits (bs : List Bool) : List Byte := packElems 1 (bs.map b2n)

/-- The effect of ZMAP (R88). -/
def zmapEff (L : Nat) (bad : Option Nat) (w : Nat) (s : State) : Eff :=
  let c := s.core L
  let fmt := bits w 24 4
  let b := zmapB w
  let rows := bits w 16 7 + 1
  let n := actBytes fmt (32 * b)
  let addr (r : Nat) : Nat := (c.gval (wA w) + r * c.gval (wB w)) % 2 ^ 64
  let dst := c.gval (wC w)
  let map := packBits (((List.range rows).map fun r => rowMap fmt b (s.engRead L .vxu (addr r) n)).flatten)
  orElse [(List.range rows).findSome? fun r => s.accessFault L bad (addr r) n 1, s.storeFault L dst map.length 8]
    (.next (s.startOp L { eng := .vxu, stores := [(dst, map)] }) 1)

/-- ZMAP (R88, R89): writes the zero-skip bitmap of rows. -/
def execZmap (core : CoreIx) (bad : Option Nat) (s : State) : Host.Outcome State Fault Refusal :=
  done (issue core.val bad 8 0x02 zmapLegal (fun w => { g := [wA w, wB w, wC w] }) (zmapEff core.val bad) s)

/-! SKIP -/

/-- The effect of SKIP (R90): the next words are neither fetched nor issued; they must lie in the enclosing loop's body. -/
def skipEff (L w : Nat) (s : State) : Eff :=
  let pc := s.get (SEQ_PC_INDEX L)
  let n := bits w 0 8
  match (s.core L).loops with
  | l :: _ => if l.start ≤ pc ∧ pc < l.stop ∧ l.stop < pc + 1 + n then .fault 0x03 else .next s (1 + n)
  | [] => .next s (1 + n)

/-- SKIP (R89, R90). -/
def execSkip (core : CoreIx) (bad : Option Nat) (s : State) : Host.Outcome State Fault Refusal :=
  done (issue core.val bad 8 0x03 (fun w => onlyFields w [(0, 8)] && bits w 0 8 != 0) (fun _ => {}) (skipEff core.val) s)

/-! TOPK -/

/-- Experts, choices and gate of TOPK. -/
def topkE (w : Nat) : Nat := bits w 20 8 + 1
def topkK (w : Nat) : Nat := bits w 17 3 + 1
def topkGate (w : Nat) : Nat := bits w 15 2

/-- The fields of TOPK: K at most E, gates 0 to 2. -/
def topkLegal (w : Nat) : Bool :=
  onlyFields w [(43, 5), (38, 5), (33, 5), (28, 5), (20, 8), (17, 3), (15, 2)] && topkGate w != 3 && decide (topkK w ≤ topkE w)

/-- Whether logit a at index i comes before logit b at index j (R95): larger first, NaN below minus infinity, ties by ascending index. -/
def logitBefore (a : Nat) (i : Nat) (b : Nat) (j : Nat) : Bool :=
  match val32 a, val32 b with
  | .nan, .nan => i < j
  | .nan, _ => false
  | _, .nan => true
  | x, y => if valLt y x then true else if valLt x y then false else i < j

/-- The best of a list of (logit, index). -/
def bestLogit : List (Nat × Nat) → Option (Nat × Nat)
  | [] => none
  | x :: xs => match bestLogit xs with
    | none => some x
    | some y => if logitBefore y.1 y.2 x.1 x.2 then some y else some x

/-- The K best of a list, in order. -/
def pickLogits : Nat → List (Nat × Nat) → List (Nat × Nat)
  | 0, _ => []
  | k + 1, xs => match bestLogit xs with
    | none => []
    | some x => x :: pickLogits k (xs.erase x)

/-- exp(x - m) as the gate takes it: a logit of minus infinity contributes +0, so that every logit minus infinity gives S = 0 (R96). -/
def gateExp (m x : Nat) : Nat × Flags :=
  match val32 x with
  | .inf true => (0, {})
  | _ =>
    let (d, f) := rn32 false (addVal (val32 x) (negVal (val32 m))).1
    let inv := (addVal (val32 x) (negVal (val32 m))).2
    let (e, g) := vexp false d
    (e, Flags.union [f, g, { inv := inv }])

/-- A left fold of sums from +0, with the flags. -/
def foldSum (xs : List (Nat × Flags)) : Nat × Flags :=
  match xs with
  | [] => (0, {})
  | x :: xs => xs.foldl (fun a y => let (r, f) := add32 false a.1 y.1; (r, Flags.union [a.2, y.2, f])) x

/-- The weights of the chosen logits under a gate, with the flags raised (R96); NaN is written as the canonical one
(R117). -/
def gateWeights (gate : Nat) (logits chosen : List Nat) : List Nat × Flags :=
  if gate = 2 then (chosen.map canon32, {})
  else
    let m := chosen.headD 0
    let (sum, f) := foldSum ((if gate = 0 then logits else chosen).map (gateExp m))
    if sum % 2 ^ 31 = 0 then (chosen.map fun _ => 0, { f with inv := true })
    else
      let (r, g) := vrcp false sum
      let ws := chosen.map fun x =>
        let (e, h) := gateExp m x
        let (p, k) := mul32 false e r
        (p, Flags.union [h, k])
      (ws.map (·.1), Flags.union (f :: g :: ws.map (·.2)))

/-- A routing entry (R97). -/
def routingEntry (token : Nat) (experts weights : List Nat) : List Byte :=
  leBytes 4 token ++ leBytes 1 experts.length ++ [0, 0, 0] ++ slice (experts.map (BitVec.ofNat 8 ·)) 0 8 ++
    slice ((weights.map (leBytes 4)).flatten) 0 32

/-- One token of TOPK: its routing entry and its flags; a NaN logit is invalid (R95). -/
def topkToken (w token : Nat) (logits : List Nat) : List Byte × Flags :=
  let chosen := pickLogits (topkK w) (logits.zip (List.range logits.length))
  let (ws, f) := gateWeights (topkGate w) logits (chosen.map (·.1))
  let nan := logits.any fun x => val32 x == .nan
  (routingEntry token (chosen.map (·.2)) ws, { f with inv := f.inv || nan })

/-- The effect of TOPK (R95 to R98). -/
def topkEff (L : Nat) (bad : Option Nat) (w : Nat) (s : State) : Eff :=
  let c := s.core L
  let E := topkE w
  let n := bits (c.gval (wB w)) 0 13
  let row := (4 * E + 63) / 64 * 64
  let addr (t : Nat) : Nat := c.gval (wA w) + t * row
  let dst := c.gval (wC w)
  let key := c.gval (wD w)
  if n = 0 ∨ n > 4096 then .fault 0x03
  else
    let token (t : Nat) : Nat := (bits key 0 22 + t) % 2 ^ 22 + bits key 22 5 * 2 ^ 22
    let rs := (List.range n).map fun t =>
      let bs := s.engRead L .vxu (addr t) (4 * E)
      (topkToken w (token t) ((List.range E).map fun e => field bs (4 * e) 4), addr t)
    let fs := rs.map fun r => r.1.2
    let first := ((rs.find? fun r => r.1.2.inv).map (·.2)).getD 0
    let out := (rs.map fun r => r.1.1).flatten
    let s' := s.raise L (Flags.union fs) 1 first (invalidCount fs)
    orElse [(List.range n).findSome? fun t => s.accessFault L bad (addr t) (4 * E) 1, s.storeFault L dst (48 * n) 1]
      (.next (s'.startOp L { eng := .vxu, stores := [(dst, out)] }) 1)

/-- TOPK (R89, R95 to R98): routes tokens by their logits. -/
def execTopk (core : CoreIx) (bad : Option Nat) (s : State) : Host.Outcome State Fault Refusal :=
  done (issue core.val bad 8 0x04 topkLegal (fun w => { g := [wA w, wB w, wC w, wD w] }) (topkEff core.val bad) s)

/-! Sequence slots -/

/-- The device slot behind a job-relative index of a core's job (R91). -/
def State.jobSlot (s : State) (L i : Nat) : Option Nat := (s.coreJob L).bind fun j => j.slots[i]?

/-- A slot. -/
def State.slotOf (s : State) (k : Nat) : Slot := Tbl.read s.slots {} k

/-- The slot three registers describe, if their values keep the rules of R92. -/
def slotFrom (a b c : Nat) : Option Slot :=
  let x : Slot := { seqLen := bits a 0 23, qBase := bits a 32 22, qLen := bits b 0 23, mask := bits b 24 3, diag := bit b 27
                    window := bits b 32 16, cpSize := bits c 0 16, cpIndex := bits c 16 16, bitmap := bits c 32 21 }
  if bits a 23 9 = 0 ∧ bits a 54 10 = 0 ∧ bits b 23 1 = 0 ∧ bits b 28 4 = 0 ∧ bits b 48 16 = 0 ∧ bits c 53 11 = 0 ∧
     1 ≤ x.seqLen ∧ x.seqLen ≤ 4194304 ∧ x.qBase % 128 = 0 ∧ 1 ≤ x.qLen ∧ x.qBase + x.qLen ≤ x.seqLen ∧ x.mask ≤ 4 ∧
     x.window ≤ 32767 ∧ 1 ≤ x.cpSize ∧ x.cpSize ≤ 32768 ∧ x.cpIndex < x.cpSize ∧ (x.mask = 4 → x.bitmap % 8 = 0)
  then some x else none

/-- The effect of SLOTSET (R92, R110). -/
def slotsetEff (L w : Nat) (s : State) : Eff :=
  let c := s.core L
  match s.jobSlot L (bits w 20 5), slotFrom (c.gval (wA w)) (c.gval (wB w)) (c.gval (wC w)) with
  | some k, some x =>
    let old := s.slotOf k
    let s := { s with slots := Tbl.write s.slots {} k { x with job := old.job, index := old.index } }
    let s := s.set (CORE_SLOT_STATE_SEQ_LEN k) x.seqLen
    .next ((s.set (CORE_SLOT_POS_Q_BASE k) x.qBase).set (CORE_SLOT_POS_MASK k) x.mask) 1
  | _, _ => .fault 0x03

/-- SLOTSET (R89, R92). -/
def execSlotset (core : CoreIx) (bad : Option Nat) (s : State) : Host.Outcome State Fault Refusal :=
  done (issue core.val bad 8 0x05 (fun w => onlyFields w [(38, 5), (33, 5), (28, 5), (20, 5)])
    (fun w => { g := [wA w, wB w, wC w] }) (slotsetEff core.val) s)

/-- The class of a block pair. -/
inductive PairClass where
  | skip | full | part
deriving DecidableEq, Repr

/-- Blocks a slot's sequence fills. -/
def Slot.blocks (x : Slot) : Nat := (x.seqLen + 127) / 128

/-- Bytes of a bitmap row: one bit a key block, padded to 64 bits. -/
def Slot.rowBytes (x : Slot) : Nat := (x.blocks + 63) / 64 * 8

/-- Whether a query block lies in the member's rows. -/
def Slot.hasRow (x : Slot) (qb : Nat) : Bool := decide (x.qBase / 128 ≤ qb) && decide (128 * qb < x.qBase + x.qLen)

/-- Whether a pair lies outside the sequence. -/
def Slot.outside (x : Slot) (qb kb : Nat) : Bool := decide (128 * kb ≥ x.seqLen) || decide (128 * qb ≥ x.seqLen)

/-- The SRAM offset of the bitmap word that a pair reads, if it reads one. -/
def Slot.mapWord (x : Slot) (qb kb : Nat) : Option Nat :=
  if x.mask = 4 && !x.outside qb kb && x.hasRow qb then some (x.bitmap + (qb - x.qBase / 128) * x.rowBytes + kb / 64 * 8) else none

/-- The class of a pair before the key tail (R93). -/
def Slot.baseClass (x : Slot) (qb kb : Nat) (word : Nat) : PairClass :=
  let far := decide (x.window < qb - kb)
  match x.mask with
  | 0 => .full
  | 1 => if kb > qb then .skip else if kb = qb then .part else .full
  | 2 => if far || decide (x.window < kb - qb) then .skip else .full
  | 3 => if kb > qb || far then .skip else if kb = qb then .part else .full
  | _ => if !x.hasRow qb || !bit word (kb % 64) then .skip else if x.diag && kb == qb then .part else .full

/-- The class of a pair (R93). -/
def Slot.classify (x : Slot) (qb kb : Nat) (word : Nat) : PairClass :=
  if x.outside qb kb then .skip
  else match x.baseClass qb kb word with
    | .full => if 128 * kb + 128 > x.seqLen then .part else .full
    | c => c

/-- The query and key block of a register. -/
def pairQ (g : Nat) : Nat := bits g 0 15
def pairK (g : Nat) : Nat := bits g 16 15

/-- The fields of BCLASS: P1 to P6. -/
def bclassLegal (w : Nat) : Bool := onlyFields w [(43, 3), (38, 5), (20, 5)] && 1 ≤ wPd w && wPd w ≤ 6

/-- The effect of BCLASS (R93). -/
def bclassEff (L : Nat) (bad : Option Nat) (w : Nat) (s : State) : Eff :=
  let c := s.core L
  let g := c.gval (wA w)
  match s.jobSlot L (bits w 20 5) with
  | none => .fault 0x03
  | some k =>
    let x := s.slotOf k
    let at_ := x.mapWord (pairQ g) (pairK g)
    match at_.bind fun a => s.accessFault L bad a 8 1 with
    | some f => f
    | none =>
      let word := (at_.map fun a => leNat (s.engRead L .scalar a 8)).getD 0
      let cl := x.classify (pairQ g) (pairK g) word
      let c := (c.setP (wPd w) (cl != .skip)).setP (wPd w + 1) (cl == .part)
      .next ((s.setCore L c).startOp L { eng := .scalar, ps := [wPd w, wPd w + 1] }) 1

/-- BCLASS (R89, R93): classes a block pair into two predicates. -/
def execBclass (core : CoreIx) (bad : Option Nat) (s : State) : Host.Outcome State Fault Refusal :=
  done (issue core.val bad 8 0x06 bclassLegal (fun w => { g := [wA w], p := [wPd w, wPd w + 1] }) (bclassEff core.val bad) s)

/-- The element mask of a block pair (R94): bit 128 r + c. -/
def Slot.elemMask (x : Slot) (qb kb : Nat) : List Bool :=
  let causal := x.mask == 1 || x.mask == 3 || (x.mask == 4 && x.diag)
  ((List.range 128).map fun r => (List.range 128).map fun c =>
    let q := 128 * kb + c
    decide (q < x.seqLen) && (!causal || decide (q ≤ 128 * qb + r))).flatten

/-- The effect of EMASK (R94). -/
def emaskEff (L w : Nat) (s : State) : Eff :=
  let c := s.core L
  let g := c.gval (wA w)
  let dst := c.gval (wC w)
  match s.jobSlot L (bits w 20 5) with
  | none => .fault 0x03
  | some k =>
    match s.storeFault L dst 2048 1 with
    | some f => f
    | none =>
      let mask := (s.slotOf k).elemMask (pairQ g) (pairK g)
      let bs := ((List.range 128).map fun r => packBits ((mask.drop (128 * r)).take 128)).flatten
      .next (s.startOp L { eng := .vxu, stores := [(dst, bs)] }) 1

/-- EMASK (R89, R94): writes the element mask of a block pair. -/
def execEmask (core : CoreIx) (bad : Option Nat) (s : State) : Host.Outcome State Fault Refusal :=
  done (issue core.val bad 8 0x07 (fun w => onlyFields w [(38, 5), (28, 5), (20, 5)]) (fun w => { g := [wA w, wC w] })
    (emaskEff core.val) s)

end Sys2Proof.Machine
end

