-- ==== Sys2Proof/Machine/Ctrl.lean ====
section
/-! DEFINITION. The CTRL class (R61): NOP, HALT, JMP and LOOP. -/

namespace Sys2Proof.Machine

open Sys2Proof

/-- NOP (R61): nothing. -/
def execNop (core : CoreIx) (bad : Option Nat) (s : State) : Host.Outcome State Fault Refusal :=
  done (issue core.val bad 0 0x00 (fun w => onlyFields w []) (fun _ => {}) (fun _ s => .next s 1) s)

/-- HALT (R61): ends the program; the core enters HALTED once its engines and DMA queues are empty. -/
def execHalt (core : CoreIx) (bad : Option Nat) (s : State) : Host.Outcome State Fault Refusal :=
  done (issue core.val bad 0 0x01 (fun w => onlyFields w []) (fun _ => {})
    (fun _ s => .next (s.modCore core.val fun c => { c with wait := some .halt }) 1) s)

/-- The count of LOOP or the target of JMP: register a when bit [32] is set, else n bits of the immediate. -/
def Core.ctrlOperand (c : Core) (w n : Nat) : Nat := if wSel w then c.gval (wA w) else bits w 0 n

/-- The fields JMP may use. -/
def jmpLegal (w : Nat) : Bool := onlyFields w (if wSel w then [(38, 5), (32, 1)] else [(0, 32)])

/-- JMP (R61): the next index is the target. -/
def execJmp (core : CoreIx) (bad : Option Nat) (s : State) : Host.Outcome State Fault Refusal :=
  done (issue core.val bad 0 0x02 jmpLegal (fun w => { g := if wSel w then [wA w] else [] })
    (fun w s => .jump s ((s.core core.val).ctrlOperand w 32)) s)

/-- The fields LOOP may use: the body length is always in the immediate. -/
def loopLegal (w : Nat) : Bool := onlyFields w (if wSel w then [(38, 5), (32, 1), (16, 16)] else [(0, 32)])

/-- The effect of LOOP (R61): a count of 0 skips the body; a fifth nested loop faults. DESIGN CHOICE: a loop over no words, of which R61 says
nothing, pushes nothing and goes on at the next word. Log 33. -/
def loopEff (L w : Nat) (s : State) : Eff :=
  let c := s.core L
  let count := c.ctrlOperand w 16
  let len := bits w 16 16
  let first := (s.get (SEQ_PC_INDEX L) + 1) % 2 ^ 18
  if count = 0 then .next s (1 + len)
  else if c.loops.length ≥ 4 then .fault 0x05
  else if len = 0 then .next s 1
  else .jump (s.modCore L fun c => { c with loops := { start := first, stop := (first + len) % 2 ^ 18, left := count } :: c.loops }) first

/-- LOOP (R61). -/
def execLoop (core : CoreIx) (bad : Option Nat) (s : State) : Host.Outcome State Fault Refusal :=
  done (issue core.val bad 0 0x03 loopLegal (fun w => { g := if wSel w then [wA w] else [] }) (loopEff core.val) s)

end Sys2Proof.Machine
end

