-- ==== Sys2Proof/Machine/Mgmt.lean ====
section
/-! DEFINITION. The management port: neighbour packets (R208, R387, R388), SMBus (R472) and JTAG (R471). -/

namespace Sys2Proof.Machine

open Sys2Proof

/-! Neighbour packets -/

/-- Opcodes of neighbour packets (R387). -/
def opProbe : Nat := 0x20
def opProbeResp : Nat := 0x21
def opNbrMsg : Nat := 0x22

/-- The switch input and output of the management port. -/
def mgmtPort : Nat := 34

/-- Packets of the management port with one of the opcodes that have not left yet. -/
def State.nbrWaiting (s : State) (ops : List Nat) : Nat :=
  let mine (input : Nat) (p : Pkt) : Bool := input == mgmtPort && p.neighbour && ops.contains p.opcode
  (s.switch.offers.filter fun o => mine o.input o.pkt).length + (s.switch.pkts.filter fun b => mine b.2.input b.2.pkt).length

/-- Sends a neighbour packet on a port (R208): HOPS 0, the tag in CTAG[15:5]. -/
def State.sendNbr (s : State) (op port tag : Nat) (pay : List Byte) : State :=
  s.offer { input := mgmtPort, pkt := s.mkCtl 0x1FFFFF 0xD8 0xD8 op (port + 32 * tag) none pay, orig := .endpoint }

/-- The previous packet of HIF_NBR_TX_CTRL has not left yet. -/
def State.nbrBusy (s : State) : Bool := s.nbrWaiting [opProbe, opNbrMsg] != 0

/-- HIF_NBR_TX_CTRL is written with SEND, its other bits stored (R388). -/
def State.nbrSend (s : State) : State :=
  let port := s.get HIF_NBR_TX_CTRL_PORT
  let kind := s.get HIF_NBR_TX_CTRL_KIND
  let data (n : Nat) : List Byte := s.regBytes (fun i => HIF_NBR_TX_DATA i) n
  if s.nbrBusy || kind ≥ 2 then s
  else if port ≥ 24 || s.lst port != lkActive then s.set HIF_NBR_TX_CTRL_NOT_UP 1
  else s.sendNbr (if kind = 0 then opProbe else opNbrMsg) port (s.get HIF_NBR_TX_CTRL_TAG) (data (if kind = 0 then 2 else 10))

/-- The payload of a PROBE_RESP to a probe that arrived on a port at a fabric time (R387). -/
def State.probeResp (s : State) (port ft : Nat) (challenge : List Byte) : List Byte :=
  let up := ((List.range 24).filter fun p => lkUp (s.lst p)).length
  slice s.idHash 0 8 ++ leBytes 8 s.boot.mod.serial ++ leBytes 4 s.ownAddr ++ leBytes 4 (s.getR PAT_GEN_LIVE) ++
    leBytes 2 (s.get PWR_FW_VERSION_VERSION) ++ leBytes 1 s.boot.mod.variant ++
    leBytes 1 (b2n s.patLive + 2 * b2n (s.get PWR_CLK_STATUS_STATE == 2) + 4 * s.get PWR_BOOT_STATUS_ID_VALID) ++
    leBytes 1 port ++ leBytes 1 up ++ leBytes 2 0 ++ leBytes 8 ft ++ slice challenge 0 8

/-- Takes the first neighbour packet with an opcode that the management port has received. -/
def State.takeNbr (s : State) (op : Nat) : Option (Inb × State) := s.takeInb fun x => x.output == mgmtPort && x.pkt.neighbour && x.pkt.opcode == op

/-- PROBE (R387): answered on the port it came from, unless 8 responses wait. -/
def execProbe (s : State) : Host.Outcome State Fault Refusal :=
  match s.takeNbr opProbe with
  | none => done s
  | some (x, s) =>
    if s.nbrWaiting [opProbeResp] ≥ 8 then done (s.count HIF_NBR_RX_DROP_COUNT)
    else done ((s.sendNbr opProbeResp x.input (x.pkt.ctag / 32) (s.probeResp x.input x.ft x.pkt.pay)).count HIF_NBR_PROBES_COUNT)

/-- A packet for the host enters the receive FIFO (R388, R459): vector 4 when the FIFO was empty. -/
def State.nbrReceive (s : State) (x : Inb) : State :=
  if s.host.nbrRx.length ≥ 16 then s.count HIF_NBR_RX_DROP_COUNT
  else
    let first := s.host.nbrRx.isEmpty
    let s := s.modHost fun h => { h with nbrRx := h.nbrRx ++ [(x.input, x.pkt.opcode, x.pkt.ctag / 32, x.pkt.pay)] }
    if first then s.raiseVec 4 else s

/-- PROBE_RESP (R388). -/
def execProbeResp (s : State) : Host.Outcome State Fault Refusal :=
  match s.takeNbr opProbeResp with
  | some (x, s) => done (s.nbrReceive x)
  | none => done s

/-- NBR_MSG (R388). -/
def execNbrMsg (s : State) : Host.Outcome State Fault Refusal :=
  match s.takeNbr opNbrMsg with
  | some (x, s) => done (s.nbrReceive x)
  | none => done s

/-- HIF_NBR_RX_POP is written with POP (R396). -/
def State.nbrPop (s : State) : State := s.modHost fun h => { h with nbrRx := h.nbrRx.drop 1 }

/-! SMBus (R472) -/

/-- Whether the SMBus target answers. -/
def State.smbusOn (s : State) : Bool :=
  match s.boot.railsGood with
  | some t => s.boot.powered && decide (t + fclk 1000 ≤ s.now)
  | none => false

/-- FAULT_N is driven low (R412). -/
def State.faultNLow (s : State) : Bool := !s.ready || s.flag FLT_FAULTN_PULSING || s.flag FLT_FAULTN_DRIVE

/-- The highest temperature of a range of sensors, in 0.1 °C. -/
def State.hottest (s : State) (first n : Nat) : Int := ((List.range n).map fun i => s.temp (first + i)).foldl max (s.temp first)

/-- Effective ACLK in MHz (R481). -/
def State.aclkMhz (s : State) : Nat := 3300 * (16 - s.get PWR_THROTTLE_K) / 16

/-- The word of an SMBus code. -/
def State.smbusWord (s : State) (code : Nat) : Nat :=
  match code with
  | 0x00 => b2n s.ready + 2 * b2n s.fatal + 4 * b2n s.safe + 8 * b2n s.faultNLow +
      16 * b2n (s.flag PWR_THROTTLE_DIE || s.flag PWR_THROTTLE_MEM) + 256 * s.get PWR_BOOT_STATUS_STAGE
  | 0x08 => s.get PWR_INPUT_MV
  | 0x09 => s.get PWR_INPUT_CURRENT
  | 0x0A => s.power.samples.headD 0 % 65536
  | 0x0B => s.power.peak % 65536
  | 0x10 => ofSigned 16 (s.hottest 0 8)
  | 0x11 => ofSigned 16 (s.hottest 8 24)
  | 0x12 => ofSigned 16 (s.hottest 32 8)
  | 0x18 => s.aclkMhz
  | _ => 0xFFFF

/-- The byte of an SMBus code. -/
def State.smbusByte (s : State) (code : Nat) : Nat :=
  match code with
  | 0x01 => s.get PWR_BOOT_STATUS_CODE
  | 0x02 => s.get FLT_FATAL_CAUSE_SOURCE
  | _ => 0xFF

/-- Fenced physical cores, saturating at 255. -/
def State.coresFenced (s : State) : Nat := min 255 ((List.range 160).filter s.coreFenced).length

/-- The block of an SMBus code, its byte count first; a code that is not listed gives all-ones. -/
def State.smbusBlock (s : State) (code : Nat) : List Byte :=
  let block (bs : List Byte) : List Byte := leBytes 1 bs.length ++ bs
  match code with
  | 0x20 => block (leBytes 8 (s.power.energy / 1000 % 2 ^ 64))
  | 0x28 => block (leBytes 8 s.boot.mod.serial)
  | 0x29 => block s.idHash
  | 0x2A => block (leBytes 4 (s.getR PWR_FW_VERSION))
  | 0x30 => block (leBytes 8 (s.getR FLT_FENCE_PORT % 2 ^ 24 + 2 ^ 24 * (s.getR FLT_FENCE_UNIT % 2 ^ 32) + 2 ^ 56 * s.coresFenced))
  | _ => ones 256

/-- The packet error code of a read: CRC-8 over both address bytes, the command and the data. -/
def smbusPec (code : Nat) (bs : List Byte) : List Byte :=
  let a := 2 * (0x58 + Config.smbusStraps.toNat)
  leBytes 1 (crcMsb 8 7 0 (leBytes 1 a ++ leBytes 1 code ++ leBytes 1 (a + 1) ++ bs))

/-- Answers an SMBus read. -/
def State.smbusAnswer (s : State) (code : Nat) (pec : Bool) (bs : List Byte) : State :=
  if s.smbusOn then s.emit (.smbus (bs ++ if pec then smbusPec code bs else [])) else s

/-- SMBUS_READ_BYTE (R472). -/
def execSmbusReadByte (code : Nat) (pec : Bool) (s : State) : Host.Outcome State Fault Refusal :=
  done (s.smbusAnswer code pec (leBytes 1 (s.smbusByte code)))

/-- SMBUS_READ_WORD (R472); the read of the peak clears it. -/
def execSmbusReadWord (code : Nat) (pec : Bool) (s : State) : Host.Outcome State Fault Refusal :=
  let t := s.smbusAnswer code pec (leBytes 2 (s.smbusWord code))
  done (if code = 0x0B && s.smbusOn then t.modPower fun p => { p with peak := 0 } else t)

/-- SMBUS_BLOCK_READ (R472). -/
def execSmbusBlockRead (code : Nat) (pec : Bool) (s : State) : Host.Outcome State Fault Refusal :=
  done (s.smbusAnswer code pec (s.smbusBlock code))

/-- SMBUS_WRITE (R472): refused at its command byte, whatever it is. -/
def execSmbusWrite (bytes : List Byte) (s : State) : Host.Outcome State Fault Refusal :=
  match bytes with
  | _ => done (if s.smbusOn then s.emit .smbusNack else s)

/-! JTAG (R471) -/

/-- The one-bit bypass register captures 0. -/
def State.bypass (s : State) : State := if s.boot.powered then s.emit (.jtag 1 0) else s

/-- BYPASS: the bit shifted in leaves one TCK later; what is captured is 0. -/
def execBypass (tdi : Bool) (s : State) : Host.Outcome State Fault Refusal := done (if s.boot.powered then s.emit (.jtag 2 (2 * b2n tdi)) else s)

/-- IDCODE. -/
def idcode : Nat := putBits (putBits Config.idcodeOpen.toNat 12 16 0x4816) 0 1 1

/-- The Revision ID of configuration space: the die stepping, which IDCODE shows too (R442, R471). -/
def revisionId : Nat := bits idcode 28 4

/-- What configuration space reports (R442): vendor, device, revision, class code, subsystem. -/
def State.configIds (s : State) : Nat × Nat × Nat × Nat × Nat :=
  (Config.vendorId.toNat, s.host.config.device.toNat, revisionId, s.host.config.classCode.toNat, s.host.config.subsystem.toNat)

/-- IDCODE (R471). -/
def execIdcode (s : State) : Host.Outcome State Fault Refusal := done (if s.boot.powered then s.emit (.jtag 32 idcode) else s)

/-- SAMPLE_PRELOAD (R471): the pins' values leave on TDO; the device goes on. -/
def execSamplePreload (pins : List Bool) (s : State) : Host.Outcome State Fault Refusal :=
  done (if s.boot.powered then s.emit (.jtag pins.length (pins.zipIdx.map fun x => b2n x.1 * 2 ^ x.2).sum) else s)

/-- EXTEST, HIGHZ and the AC instructions first place the device in device reset, and hold it there. -/
def State.jtagReset (s : State) : State :=
  let s := if s.boot.jtagHold then s else s.deviceReset
  s.modBoot fun b => { b with jtagHold := true, jtagWait := false }

/-- HIGHZ (R471). -/
def execHighz (s : State) : Host.Outcome State Fault Refusal := done (if s.boot.powered then s.jtagReset.emit (.jtagPins false []) else s)

/-- EXTEST (R471): the boundary register drives the pins. -/
def execExtest (pins : List Bool) (s : State) : Host.Outcome State Fault Refusal :=
  done (if s.boot.powered then s.jtagReset.emit (.jtagPins true pins) else s)

/-- AC_INSTRUCTION (R471): EXTEST_PULSE or EXTEST_TRAIN of IEEE 1149.6 on the fabric lanes. -/
def execAcInstruction (train : Bool) (s : State) : Host.Outcome State Fault Refusal :=
  done (if s.boot.powered then s.jtagReset.emit (.jtagPins true [train]) else s)

/-- DEBUG_INSTRUCTION (R471): BYPASS without PERMS bit 0. With it the instruction is decoded, and the spec gives none of its effects. -/
def execDebugInstruction (code : Nat) (s : State) : Host.Outcome State Fault Refusal :=
  if bit (s.get SEC_STATUS_PERMS) 0 then .refused (.debugInstruction code) else done s.bypass

/-- TEST_LOGIC_RESET (R471): the TAP lets the device go, which stays inert until a device reset. -/
def execTestLogicReset (s : State) : Host.Outcome State Fault Refusal :=
  done (if s.boot.jtagHold then s.modBoot fun b => { b with jtagHold := false, jtagWait := true } else s)

end Sys2Proof.Machine
end

