-- ==== Sys2Proof/Machine/Write.lean ====
section
/-! DEFINITION. What a write of a register does (R8 to R11, R445): the effect each chapter gives a register's bits, the pairs, the MSI-X table, and the
write of a register at a BAR0 offset. -/

namespace Sys2Proof.Machine

open Sys2Proof

/-- A write that takes effect at one register: its row, offset, the offset accessed, the value and the first index. -/
structure RegWrite where
  row : RegRow
  off : Nat
  at_ : Nat
  v : Nat
  i : Nat
deriving DecidableEq, Repr

/-- Whether a write is of a register of an array. -/
def RegWrite.is (w : RegWrite) (r : Reg) : Bool := w.row.base == r.off

/-- The stored effect of a write. -/
def State.stored (s : State) (w : RegWrite) : State := s.storeBits w.row w.off w.at_ w.v

/-! Management and host (R378, R382, R390 to R392, R462, R466) -/

/-- PWR registers. -/
def State.pwrWrite (s : State) (w : RegWrite) : State :=
  if w.is PWR_RESET then s.pwrReset w.v
  else if w.is PWR_CLK_CTRL then s.clkCtrl w.at_ w.v
  else if w.is PWR_FTIME_CTRL then s.ftimeCtrl w.at_ w.v
  else if w.is PWR_RECOVERY_LEN then
    let s := s.stored w
    if bit w.v 31 then s.recoveryGo else s
  else s.stored w

/-- SQ_TAIL is written (R451): a tail outside the ring is discarded. -/
def State.sqTailWrite (s : State) (w : RegWrite) : State := if w.v % 65536 ≥ s.ringSize w.i then s.discarded w.at_ else s.stored w

/-- HIF registers. -/
def State.hifWrite (s : State) (w : RegWrite) : State :=
  if w.is HIF_NBR_TX_CTRL then
    let s := s.stored w
    if bit w.v 10 then s.nbrSend else s
  else if w.is HIF_NBR_RX_POP then (if bit w.v 0 then s.nbrPop else s)
  else if w.is HIF_MBOX_CMD then s.mboxCmd w.at_ (w.v % 16)
  else if w.is (HIF_SQ_CFG 0) then (s.stored w).ringCfg w.i
  else if w.is (HIF_SQ_TAIL 0) then s.sqTailWrite w
  else s.stored w

/-- SEC registers (R466): LOCK is only set; the signer table is closed once it is set. -/
def State.secWrite (s : State) (w : RegWrite) : State :=
  if w.is SEC_CTRL then (if bit w.v 0 then s.set SEC_CTRL_LOCK 1 else s)
  else if (w.is SEC_SIGNER_VALID || w.is (SEC_SIGNER 0 0)) && s.flag SEC_CTRL_LOCK then s.discarded w.at_
  else s.stored w

/-! Pattern, faults, observation -/

/-- PAT registers (R29, R37, R41, R42). -/
def State.patWrite (s : State) (w : RegWrite) : State :=
  if w.is PAT_CTRL then s.patCtrl w.at_ w.v
  else if w.is PAT_SEAM_CTRL then s.seamCtrl w.at_ w.v
  else s.stored w

/-- FLT_FENCE_CMD is written with GO (R406). -/
def State.fenceCmd (s : State) (at_ v : Nat) : State :=
  let kind := v % 8
  let i := bits v 8 8
  if unitCount kind = 0 then s
  else if i ≥ unitCount kind then s.discarded at_
  else { s with fault := { s.fault with queue := s.fault.queue ++ [{ src := 0x3E, inst := i, detail := kind, fence := some kind }] } }

/-- FLT registers (R406, R410, R415). -/
def State.fltWrite (s : State) (w : RegWrite) : State :=
  let t := s.stored w
  if w.is FLT_CTRL then (if bit w.v 0 then t.report 0x35 0 0 else t)
  else if w.is FLT_STATUS then
    if bit w.v 6 then { t with fault := { t.fault with overrunBase := t.getR FLT_LOG_PROD } } else t
  else if w.is FLT_FENCE_CMD then (if bit w.v 31 then t.fenceCmd w.at_ w.v else t)
  else t

/-- OBS registers (R424 to R426). -/
def State.obsWrite (s : State) (w : RegWrite) : State :=
  if w.is OBS_CTRL then s.obsCtrl w.v
  else if w.is OBS_TRACE_CTRL then s.traceCtrl w.at_ w.v
  else s.stored w

/-! Cores and memory -/

/-- CORE registers (R72, R73, R139): INVALID cleared clears the address of its first event. -/
def State.coreWrite (s : State) (w : RegWrite) : State :=
  if w.is (CORE_CTRL 0) then s.coreCtrl w.i w.at_ w.v
  else if w.is (CORE_EXC 0) then
    let s := s.stored w
    if bit w.v 0 then s.setR (CORE_EXC_ADDR w.i) 0 else s
  else s.stored w

/-- MEM_CTRL is written (R145, R408). -/
def State.memCtrl (s : State) (en : Bool) : State :=
  if en then
    if s.flag MEM_CTRL_EN then s
    else if s.mem.shutting then s.set MEM_CTRL_ENABLE_PENDING 1
    else s.memEnable
  else
    let was := s.flag MEM_CTRL_EN
    let s := (s.set MEM_CTRL_EN 0).set MEM_CTRL_ENABLE_PENDING 0
    if was then { s with mem := { s.mem with shutting := true } } else s

/-- MEM_TRAIN_CTRL is written with START (R144), its other bits stored; each controller takes the rate it trains at. -/
def State.trainStart (s : State) (at_ : Nat) : State :=
  let cs := onesBelow 24 (s.get MEM_TRAIN_CTRL_MASK)
  let skips (c : Nat) : Bool := [1, 4, 5].contains (s.get (MEM_CH_STATUS_STATE c))
  let rate := min 2 (s.get MEM_TRAIN_CTRL_RATE)
  let begin_ (s : State) (c : Nat) : State :=
    (s.set (MEM_CH_STATUS_STATE c) 1).modMem fun m => { m with rates := Tbl.write m.rates 0 c rate }
  let s := ((cs.filter fun c => !skips c).foldl begin_ s).showTraining
  if cs.any skips then s.discarded at_ else s

/-- MEM_SHD_CFG is written (R357): an entry that breaks a rule is not validated. -/
def State.shdCfg (s : State) (w : RegWrite) : State :=
  let t := s.stored w
  if bit w.v 0 && s.rwpOpen w.off && t.shdBad w.i then s.discarded w.at_ else t

/-- MEM_SHD_STATE is written with ROLLBACK (R360). -/
def State.rollback (s : State) (e at_ : Nat) : State :=
  if s.groupHeld (s.get (MEM_SHD_CFG_GROUP e)) || s.flag (MEM_SHD_STATE_ROLLED e) then s.discarded at_ else s.rollbackEntry e

/-- The address of a place in the controllers: controller and controller address, for u hashed units (R142). -/
def addrOf (u c ca : Nat) : Nat :=
  let hb := u * 2 ^ 28
  if ca < hb then
    let q := ca / 256
    let h := (q % 32) ^^^ (q / 2 ^ 5 % 32) ^^^ (q / 2 ^ 10 % 32) ^^^ (q / 2 ^ 15 % 32) ^^^ (q / 2 ^ 20 % 32)
    (q * 24 + (c + 48 - h) % 24) * 256 + ca % 256
  else 24 * hb + c * (6 * 2 ^ 30 - hb) + (ca - hb)

/-- MEM_SPLIT has been changed from u hashed units: the contents stay where they are in the controllers, so each known byte is found at the address
that the new map gives its place (R142). The undefined bytes are new draws. -/
def State.remap (s : State) (u : Nat) : State :=
  let v := s.hashedUnits
  if u = v then s
  else
    let move (a : Nat) : Nat := let p := mapAddr u a; addrOf v p.1 p.2
    { s with gddr := s.gddr.foldl (fun m c => if move c.1 < gddrSize then Tbl.insert m (move c.1) c.2 else m) []
             gddrGen := s.gddrGen + 1 }

/-- MEM registers. -/
def State.memWrite (s : State) (w : RegWrite) : State :=
  if w.is MEM_CTRL then s.memCtrl (bit w.v 0)
  else if w.is MEM_SPLIT then (s.stored w).remap s.hashedUnits
  else if w.is MEM_TRAIN_CTRL then
    if !bit w.v 31 then s.stored w
    else if s.flag MEM_CTRL_EN || s.flag MEM_CTRL_ENABLE_PENDING then s.discarded w.at_
    else (s.stored w).trainStart w.at_
  else if w.is (MEM_SHD_CFG 0) then s.shdCfg w
  else if w.is (MEM_SHD_STATE 0) then (if bit w.v 6 then s.rollback w.i w.at_ else s)
  else if w.is (MEM_XLATE_CTRL 0) then
    let t := s.stored w
    if bit w.v 0 then t
    else { t.set (MEM_XLATE_CTRL_ACTIVE w.i) 0 with mem := { t.mem with xlateAt := Tbl.drop t.mem.xlateAt w.i } }
  else s.stored w

/-! Links and routing -/

/-- LNK_CTRL is written (R173, R195 to R199, R273, R407): an enable of a fenced port or before the switch core's, and LP2 on a port that must not enter
it, discard the write. -/
def State.lnkCtrl (s : State) (w : RegWrite) : State :=
  let p := w.i
  let en := bit w.v 0
  let lp := min 2 (bits w.v 2 2)
  if (en && (s.portFenced p || !s.flag SWC_CTRL_EN)) || (lp == 2 && s.noLp2 p) then s.discarded w.at_
  else
    let was := s.flag (LNK_CTRL_EN p)
    let t := s.stored w
    if s.fatal then t
    else
      let t := if en && !was then t.lnkEnable p else if !en && was then t.lnkDisable p else t
      if bit w.v 8 && (t.lst p == lkActive || t.lst p == lkFailed) then t.lnkRetrain p else if en then t.lpWritten p lp else t

/-- LNK registers. -/
def State.lnkWrite (s : State) (w : RegWrite) : State :=
  if w.is (LNK_CTRL 0) then s.lnkCtrl w
  else if w.is (LNK_PING_CTRL 0) then
    let t := s.stored w
    if bit w.v 0 && !s.fatal then t.pingStart w.i else t
  else s.stored w

/-- RTE_PORT_UP is written (R220): with UP_AUTO = 0 the ones set the bits of ports in service, the others are discarded. -/
def State.portUpWrite (s : State) (w : RegWrite) : State :=
  if s.flag RTE_CFG_UP_AUTO then s
  else
    let ones := onesBelow 24 w.v
    let t := (ones.filter s.portUp).foldl (fun s p => s.setR RTE_PORT_UP (putBits (s.getR RTE_PORT_UP) p 1 1)) s
    if ones.all s.portUp then t else t.discarded w.at_

/-- RTE_CFG is written: with UP_AUTO = 1 every port whose hold time has passed is taken into service (R220). -/
def State.rteCfg (s : State) (w : RegWrite) : State :=
  let t := s.stored w
  if t.fatal || !t.flag RTE_CFG_UP_AUTO then t
  else ((List.range 24).filter fun p => ((t.port p).upAt.map fun a => decide (a + t.upHold ≤ t.now)).getD false).foldl State.portHeld t

/-- RTE registers. -/
def State.rteWrite (s : State) (w : RegWrite) : State :=
  if w.is RTE_PORT_UP then s.portUpWrite w
  else if w.is RTE_CFG then s.rteCfg w
  else if w.is RTE_PORT_MASK then
    let new := (onesBelow 24 w.v).filter fun p => !bit (s.getR RTE_PORT_MASK) p
    if s.fatal then s.stored w else new.foldl State.portMasked (s.stored w)
  else s.stored w

/-! Switch, scheduler, collectives, determinism -/

/-- SWC_CTRL is written (R273). -/
def State.swcCtrl (s : State) (w : RegWrite) : State :=
  if bit w.v 0 then s.stored w
  else if s.anyEnabled then s.discarded w.at_
  else if s.flag SWC_CTRL_EN then s.swcDisable
  else s

/-- BPM registers (R271). -/
def State.bpmWrite (s : State) (w : RegWrite) : State :=
  let t := s.stored w
  if w.is BPM_CTRL && bit w.v 0 && !s.fatal then t.askAudit else t

/-- SCH registers: CLEAR acts at the end of this FCLK (R292). -/
def State.schWrite (s : State) (w : RegWrite) : State :=
  let t := s.stored w
  if w.is SCH_CTRL && bit w.v 1 then t.sw fun x => { x with clearDue := true } else t

/-- SWC_MARK is written: the new limits act on every queue (R262). -/
def State.swcMark (s : State) (w : RegWrite) : State :=
  let t := s.stored w
  if t.fatal then t else (List.range 1120).foldl State.markQueue t

/-- COL_DOM_CTRL is written (R319). -/
def State.domCtrl (s : State) (w : RegWrite) : State :=
  let d := w.i
  let s := if bit w.v 3 then s.set (COL_DOM_CTRL_ORDER_FAULT d) 0 else s
  if s.fatal then s
  else if bit w.v 0 then (if s.flag (COL_DOM_CTRL_EN d) then s else s.domainEn d)
  else if s.flag (COL_DOM_CTRL_EN d) then s.domainOff d
  else s.set (COL_DOM_CTRL_ENABLE_PENDING d) 0

/-- COL registers (R319, R324). -/
def State.colWrite (s : State) (w : RegWrite) : State :=
  if w.is COL_CTRL then
    if s.fatal then s.stored w
    else if bit w.v 0 then (if s.flag COL_CTRL_EN then s else s.colOn)
    else if s.flag COL_CTRL_EN then s.colOff
    else s.set COL_CTRL_ENABLE_PENDING 0
  else if w.is COL_BACKUP_GO then (if bit w.v 31 && !s.fatal then s.backupGo (w.v % 2 ^ 21) else s)
  else if w.is (COL_DOM_CTRL 0) then s.domCtrl w
  else s.stored w

/-- DET_START_CTRL is written (R353): the flags written 1 clear first. -/
def State.startCtrl (s : State) (w : RegWrite) : State :=
  let s := if bit w.v 1 then s.set DET_START_CTRL_RELEASED 0 else s
  let s := if bit w.v 2 then s.set DET_START_CTRL_LATE 0 else s
  if s.fatal then s
  else if bit w.v 0 then (if s.flag DET_START_CTRL_ARM then s else s.armStart)
  else if s.flag DET_START_CTRL_ARM then (if s.get64 DET_START_TIME_T ≤ s.ft then s else s.cancelStart)
  else s

/-- DET registers. -/
def State.detWrite (s : State) (w : RegWrite) : State := if w.is DET_START_CTRL then s.startCtrl w else s.stored w

/-! A register, a pair, the MSI-X table -/

/-- The effect of a write of a register that is no half of a pair, by its block (R444). -/
def State.writeReg (s : State) (w : RegWrite) : State :=
  let b := w.off / 0x10000
  if b = 0x00 then s.pwrWrite w
  else if b = 0x01 then s.hifWrite w
  else if b = 0x02 then s.secWrite w
  else if b = 0x03 then s.patWrite w
  else if b = 0x04 then s.fltWrite w
  else if b = 0x10 then s.coreWrite w
  else if b = 0x14 then s.detWrite w
  else if b = 0x18 then s.memWrite w
  else if b = 0x20 then (if w.is SWC_CTRL then (if s.fatal then s.stored w else s.swcCtrl w) else if w.is SWC_MARK then s.swcMark w else s.stored w)
  else if b = 0x21 then s.bpmWrite w
  else if b = 0x22 then s.schWrite w
  else if b = 0x23 then s.rteWrite w
  else if b = 0x24 then s.colWrite w
  else if b = 0x28 then s.lnkWrite w
  else if b ≥ 0x30 then s.obsWrite w
  else s.stored w

/-- Whether a pair is closed by an arm (R37, R353, R424). -/
def State.pairArmed (s : State) (low : Nat) : Bool :=
  (low == PAT_SEAM_TIME.off && s.flag PAT_STATUS_ARMED) || (low == DET_START_TIME.off && s.flag DET_START_CTRL_ARM) ||
    (low == OBS_SNAP_TIME.off && s.flag OBS_CTRL_SNAP_ARM)

/-- A write of a pair takes effect: the offset of its lower half, the offset accessed, what it stores. -/
def State.pairEffect (s : State) (low at_ : Nat) (store : State → State) : State :=
  match s.turnedAway low true with
  | some k => s.aerr 0 at_ true k
  | none => if s.pairArmed low then s.discarded at_ else store s

/-- A write of a whole pair takes effect. -/
def State.writePair (s : State) (low at_ v : Nat) : State := s.pairEffect low at_ fun s => s.storePair low at_ v

/-- A write of the upper half alone takes effect. -/
def State.writeHigh (s : State) (row : RegRow) (off v : Nat) : State := s.pairEffect (off - 4) off fun s => s.storeBits row off off v

/-- A write of a word of the MSI-X table (R459): a vector that is unmasked while pending sends its message. -/
def State.msixWrite (s : State) (word v : Nat) : State :=
  let vec := word / 4
  let i := word % 4
  let x := if i = 3 then v % 2 else if i = 0 then v / 4 * 4 else v
  let s := s.modHost fun h => { h with msix := Tbl.write h.msix (if i = 3 then 1 else 0) word x }
  if i = 3 ∧ x = 0 ∧ bit s.host.msixPending vec then
    (s.modHost fun h => { h with msixPending := putBits h.msixPending vec 1 0 }).sendMsix vec
  else s

/-- A 4-byte write at an aligned offset by a requester. -/
def State.write4 (s : State) (req off v : Nat) : State :=
  if s.inReset && !(s.boot.jtagWait && !s.boot.resetting && off == PWR_RESET.off) then s
  else if inMsix off then s.msixWrite ((off - 0x12000) / 4) v
  else match regAt off with
    | none => match s.turnedAway off true with
      | some k => s.aerr 0 off true k
      | none => s
    | some (row, ix) => match row.half with
      | .low => s.holdLow req off v
      | .high => match s.heldLow req (off - 4) with
        | some l => (s.dropHeld req (off - 4)).writePair (off - 4) off (l + 2 ^ 32 * v)
        | none => s.writeHigh row off v
      | .single => match s.turnedAway off true with
        | some k => s.aerr 0 off true k
        | none => s.writeReg { row := row, off := off, at_ := off, v := v, i := ix.headD 0 }

/-- Whether an offset is the lower half of a pair. -/
def isLow (off : Nat) : Bool := (regAt off).any fun x => x.1.half == .low

/-- A BAR0 write of a size in bytes by a requester (R445). -/
def State.busWrite (s : State) (req off size v : Nat) : State :=
  if off ≥ 0x2000000 then s
  else if size = 4 ∧ off % 4 = 0 then s.write4 req off (v % 2 ^ 32)
  else if size = 8 ∧ off % 8 = 0 then
    if isLow off then (if s.inReset then s else (s.dropHeld req off).writePair off off (v % 2 ^ 64))
    else (s.write4 req off (v % 2 ^ 32)).write4 req (off + 4) (v / 2 ^ 32 % 2 ^ 32)
  else if s.inReset then s
  else s.aerr 0 off true 9

end Sys2Proof.Machine
end

