-- ==== Sys2Proof/Machine/HostRows.lean ====
section
/-! DEFINITION. The commands that are host writes of one register (R445): each writes its register with the value given and the bit that makes it that
command forced. With them REGISTER_WRITE of any BAR0 offset, the unmask of an MSI-X vector, and the mailbox commands. -/

namespace Sys2Proof.Machine

open Sys2Proof

/-- A value with a bit set. -/
def setBit (v : Word) (i : Nat) : Word := BitVec.ofNat 32 (putBits v.toNat i 1 1)

/-- A value with a bit clear. -/
def clearBit (v : Word) (i : Nat) : Word := BitVec.ofNat 32 (putBits v.toNat i 1 0)

/-- The host writes a 32-bit register. -/
def State.hostWrite (s : State) (r : Reg) (v : Word) : State := s.busWrite hostReq r.off 4 v.toNat

/-- REGISTER_WRITE (R8, R9, R445): a BAR0 write of a size in bytes by a requester. -/
def execRegisterWrite (req off size value : Nat) (s : State) : Host.Outcome State Fault Refusal := done (s.busWrite req off size value)

/-- LOAD (R29). -/
def execLoad (value : Word) (s : State) : Host.Outcome State Fault Refusal :=
  done (s.hostWrite (PAT_CTRL) (setBit value 0))

/-- BASTE (R33). -/
def execBaste (value : Word) (s : State) : Host.Outcome State Fault Refusal :=
  done (s.hostWrite (PAT_CTRL) (setBit value 1))

/-- DRAINED (R27). -/
def execDrained (value : Word) (s : State) : Host.Outcome State Fault Refusal :=
  done (s.hostWrite (PAT_CTRL) (setBit value 2))

/-- DISCARD_BASTE (R33). -/
def execDiscardBaste (value : Word) (s : State) : Host.Outcome State Fault Refusal :=
  done (s.hostWrite (PAT_CTRL) (setBit value 3))

/-- ARM (R37). -/
def execArm (value : Word) (s : State) : Host.Outcome State Fault Refusal :=
  done (s.hostWrite (PAT_SEAM_CTRL) (setBit value 0))

/-- SEAM_CANCEL (R41). -/
def execSeamCancel (value : Word) (s : State) : Host.Outcome State Fault Refusal :=
  done (s.hostWrite (PAT_SEAM_CTRL) (clearBit value 0))

/-- CORE_ENABLE (R72). -/
def execCoreEnable (core : CoreIx) (value : Word) (s : State) : Host.Outcome State Fault Refusal :=
  done (s.hostWrite (CORE_CTRL core.val) (setBit value 0))

/-- CORE_DISABLE (R73). -/
def execCoreDisable (core : CoreIx) (value : Word) (s : State) : Host.Outcome State Fault Refusal :=
  done (s.hostWrite (CORE_CTRL core.val) (clearBit value 0))

/-- CORE_START (R72, R80). -/
def execCoreStart (core : CoreIx) (value : Word) (s : State) : Host.Outcome State Fault Refusal :=
  done (s.hostWrite (CORE_CTRL core.val) (setBit value 1))

/-- SQ_DOORBELL (R451). -/
def execSqDoorbell (ring : RingIx) (value : Word) (s : State) : Host.Outcome State Fault Refusal :=
  done (s.hostWrite (HIF_SQ_TAIL ring.val) (value))

/-- CQ_DOORBELL (R451). -/
def execCqDoorbell (ring : RingIx) (value : Word) (s : State) : Host.Outcome State Fault Refusal :=
  done (s.hostWrite (HIF_CQ_HEAD ring.val) (value))

/-- RING_ENABLE (R451). -/
def execRingEnable (ring : RingIx) (value : Word) (s : State) : Host.Outcome State Fault Refusal :=
  done (s.hostWrite (HIF_SQ_CFG ring.val) (setBit value 8))

/-- RING_DISABLE (R473). -/
def execRingDisable (ring : RingIx) (value : Word) (s : State) : Host.Outcome State Fault Refusal :=
  done (s.hostWrite (HIF_SQ_CFG ring.val) (clearBit value 8))

/-- MEM_TRAIN_START (R144). -/
def execMemTrainStart (value : Word) (s : State) : Host.Outcome State Fault Refusal :=
  done (s.hostWrite (MEM_TRAIN_CTRL) (setBit value 31))

/-- MEM_ENABLE (R145). -/
def execMemEnable (value : Word) (s : State) : Host.Outcome State Fault Refusal :=
  done (s.hostWrite (MEM_CTRL) (setBit value 0))

/-- MEM_DISABLE (R408). -/
def execMemDisable (value : Word) (s : State) : Host.Outcome State Fault Refusal :=
  done (s.hostWrite (MEM_CTRL) (clearBit value 0))

/-- LNK_ENABLE (R173, R385). -/
def execLnkEnable (port : PortIx) (value : Word) (s : State) : Host.Outcome State Fault Refusal :=
  done (s.hostWrite (LNK_CTRL port.val) (setBit value 0))

/-- LNK_DISABLE (R198). -/
def execLnkDisable (port : PortIx) (value : Word) (s : State) : Host.Outcome State Fault Refusal :=
  done (s.hostWrite (LNK_CTRL port.val) (clearBit value 0))

/-- LNK_RETRAIN (R199). -/
def execLnkRetrain (port : PortIx) (value : Word) (s : State) : Host.Outcome State Fault Refusal :=
  done (s.hostWrite (LNK_CTRL port.val) (setBit value 8))

/-- LP_REQUEST (R195): LP is written 1 or 2. -/
def execLpRequest (port : PortIx) (value : Word) (s : State) : Host.Outcome State Fault Refusal :=
  done (s.hostWrite (LNK_CTRL port.val) (BitVec.ofNat 32 (putBits value.toNat 2 2 (max 1 (bits value.toNat 2 2)))))

/-- LP_EXIT_WRITE (R195): LP is written 0. -/
def execLpExitWrite (port : PortIx) (value : Word) (s : State) : Host.Outcome State Fault Refusal :=
  done (s.hostWrite (LNK_CTRL port.val) (BitVec.ofNat 32 (putBits value.toNat 2 2 0)))

/-- PING_START (R193). -/
def execPingStart (port : PortIx) (value : Word) (s : State) : Host.Outcome State Fault Refusal :=
  done (s.hostWrite (LNK_PING_CTRL port.val) (setBit value 0))

/-- AUDIT (R271). -/
def execAudit (value : Word) (s : State) : Host.Outcome State Fault Refusal :=
  done (s.hostWrite (BPM_CTRL) (setBit value 0))

/-- SWC_ENABLE (R273). -/
def execSwcEnable (value : Word) (s : State) : Host.Outcome State Fault Refusal :=
  done (s.hostWrite (SWC_CTRL) (setBit value 0))

/-- SWC_DISABLE (R273). -/
def execSwcDisable (value : Word) (s : State) : Host.Outcome State Fault Refusal :=
  done (s.hostWrite (SWC_CTRL) (clearBit value 0))

/-- SCH_CLEAR (R292). -/
def execSchClear (value : Word) (s : State) : Host.Outcome State Fault Refusal :=
  done (s.hostWrite (SCH_CTRL) (setBit value 1))

/-- COL_ENABLE (R319, R408). -/
def execColEnable (value : Word) (s : State) : Host.Outcome State Fault Refusal :=
  done (s.hostWrite (COL_CTRL) (setBit value 0))

/-- COL_DISABLE (R319, R408). -/
def execColDisable (value : Word) (s : State) : Host.Outcome State Fault Refusal :=
  done (s.hostWrite (COL_CTRL) (clearBit value 0))

/-- DOMAIN_ENABLE (R319). -/
def execDomainEnable (dom : DomIx) (value : Word) (s : State) : Host.Outcome State Fault Refusal :=
  done (s.hostWrite (COL_DOM_CTRL dom.val) (setBit value 0))

/-- DOMAIN_DISABLE (R319). -/
def execDomainDisable (dom : DomIx) (value : Word) (s : State) : Host.Outcome State Fault Refusal :=
  done (s.hostWrite (COL_DOM_CTRL dom.val) (clearBit value 0))

/-- BACKUP_GO (R324). -/
def execBackupGo (value : Word) (s : State) : Host.Outcome State Fault Refusal :=
  done (s.hostWrite (COL_BACKUP_GO) (setBit value 31))

/-- DET_START_ARM (R353). -/
def execDetStartArm (value : Word) (s : State) : Host.Outcome State Fault Refusal :=
  done (s.hostWrite (DET_START_CTRL) (setBit value 0))

/-- DET_START_CANCEL (R353). -/
def execDetStartCancel (value : Word) (s : State) : Host.Outcome State Fault Refusal :=
  done (s.hostWrite (DET_START_CTRL) (clearBit value 0))

/-- MEM_SHD_CFG_VALID (R357). -/
def execMemShdCfgValid (entry : EntryIx) (value : Word) (s : State) : Host.Outcome State Fault Refusal :=
  done (s.hostWrite (MEM_SHD_CFG entry.val) (setBit value 0))

/-- ROLLBACK (R360). -/
def execRollback (entry : EntryIx) (value : Word) (s : State) : Host.Outcome State Fault Refusal :=
  done (s.hostWrite (MEM_SHD_STATE entry.val) (setBit value 6))

/-- FULL_RESET (R378). -/
def execFullReset (value : Word) (s : State) : Host.Outcome State Fault Refusal :=
  done (s.hostWrite (PWR_RESET) (setBit value 1))

/-- DEVICE_RESET (R378). -/
def execDeviceReset (value : Word) (s : State) : Host.Outcome State Fault Refusal :=
  done (s.hostWrite (PWR_RESET) (setBit (clearBit value 1) 0))

/-- RECOVERY_GO (R382). -/
def execRecoveryGo (value : Word) (s : State) : Host.Outcome State Fault Refusal :=
  done (s.hostWrite (PWR_RECOVERY_LEN) (setBit value 31))

/-- SEND_PROBE (R388): SEND with KIND 0. -/
def execSendProbe (value : Word) (s : State) : Host.Outcome State Fault Refusal :=
  done (s.hostWrite (HIF_NBR_TX_CTRL) (setBit (BitVec.ofNat 32 (putBits value.toNat 8 2 0)) 10))

/-- SEND_NBR_MSG (R388): SEND with KIND 1. -/
def execSendNbrMsg (value : Word) (s : State) : Host.Outcome State Fault Refusal :=
  done (s.hostWrite (HIF_NBR_TX_CTRL) (setBit (BitVec.ofNat 32 (putBits value.toNat 8 2 1)) 10))

/-- NBR_RX_POP (R396). -/
def execNbrRxPop (value : Word) (s : State) : Host.Outcome State Fault Refusal :=
  done (s.hostWrite (HIF_NBR_RX_POP) (setBit value 0))

/-- SYNTON_GO (R389). -/
def execSyntonGo (value : Word) (s : State) : Host.Outcome State Fault Refusal :=
  done (s.hostWrite (PWR_CLK_CTRL) (setBit value 0))

/-- CLK_REVERT (R391). -/
def execClkRevert (value : Word) (s : State) : Host.Outcome State Fault Refusal :=
  done (s.hostWrite (PWR_CLK_CTRL) (setBit value 1))

/-- FTIME_STEP (R392). -/
def execFtimeStep (value : Word) (s : State) : Host.Outcome State Fault Refusal :=
  done (s.hostWrite (PWR_FTIME_CTRL) (setBit value 0))

/-- FTIME_SLEW (R392). -/
def execFtimeSlew (value : Word) (s : State) : Host.Outcome State Fault Refusal :=
  done (s.hostWrite (PWR_FTIME_CTRL) (setBit value 1))

/-- FLT_FENCE_CMD (R406). -/
def execFltFenceCmd (value : Word) (s : State) : Host.Outcome State Fault Refusal :=
  done (s.hostWrite (FLT_FENCE_CMD) (setBit value 31))

/-- FORCE_FATAL (R397, R410). -/
def execForceFatal (value : Word) (s : State) : Host.Outcome State Fault Refusal :=
  done (s.hostWrite (FLT_CTRL) (setBit value 0))

/-- SNAP (R424). -/
def execSnap (value : Word) (s : State) : Host.Outcome State Fault Refusal :=
  done (s.hostWrite (OBS_CTRL) (setBit value 0))

/-- SNAP_ARM (R424). -/
def execSnapArm (value : Word) (s : State) : Host.Outcome State Fault Refusal :=
  done (s.hostWrite (OBS_CTRL) (setBit value 1))

/-- RESET_ALL (R425). -/
def execResetAll (value : Word) (s : State) : Host.Outcome State Fault Refusal :=
  done (s.hostWrite (OBS_CTRL) (setBit value 4))

/-- TRACE_ENABLE (R426). -/
def execTraceEnable (value : Word) (s : State) : Host.Outcome State Fault Refusal :=
  done (s.hostWrite (OBS_TRACE_CTRL) (setBit value 0))

/-- TRACE_DISABLE (R426). -/
def execTraceDisable (value : Word) (s : State) : Host.Outcome State Fault Refusal :=
  done (s.hostWrite (OBS_TRACE_CTRL) (clearBit value 0))

/-- TRACE_TRIGGER (R431). -/
def execTraceTrigger (value : Word) (s : State) : Host.Outcome State Fault Refusal :=
  done (s.hostWrite (OBS_TRACE_CTRL) (setBit value 2))

/-- TRACE_MARK (R429). -/
def execTraceMark (value : Word) (s : State) : Host.Outcome State Fault Refusal :=
  done (s.hostWrite (OBS_TRACE_CTRL) (setBit value 3))

/-- SEC_LOCK (R466). -/
def execSecLock (value : Word) (s : State) : Host.Outcome State Fault Refusal :=
  done (s.hostWrite (SEC_CTRL) (setBit value 0))

/-- MSIX_UNMASK (R459): the mask bit of a vector is written 0. -/
def execMsixUnmask (vector : VecIx) (s : State) : Host.Outcome State Fault Refusal :=
  done (s.busWrite hostReq (0x12000 + 16 * vector.val + 12) 4 0)

/-! Mailbox commands (R462): the command is written if it is not already under way, and its work is done with what the host memory, the flash or the
PUF gave. -/

/-- Brings a mailbox command under way. -/
def State.mboxAsk (s : State) (c : Nat) : State :=
  if s.mboxRuns c then s else s.hostWrite HIF_MBOX_CMD (BitVec.ofNat 32 c)

/-- Does a mailbox command's work, if it is under way. -/
def State.mboxDo (s : State) (c : Nat) (work : State → State) : State :=
  let s := s.mboxAsk c
  if s.mboxRuns c && !s.inReset then work s else s

/-- ATTEST (R462, R469): the nonce read from the buffer, none when the read failed. -/
def execAttest (nonce : Option (List Byte)) (s : State) : Host.Outcome State Fault Refusal := done (s.mboxDo 1 fun s => s.attest nonce)

/-- FW_UPDATE (R462, R465): the image read from the buffer, and whether the slot reads back. -/
def execFwUpdate (image : Option (List Byte)) (flashOk : Bool) (s : State) : Host.Outcome State Fault Refusal :=
  done (s.mboxDo 2 fun s => s.fwUpdate image flashOk)

/-- PUF_REFRESH (R462, R468): whether the flash took the new helper data. -/
def execPufRefresh (ok : Bool) (s : State) : Host.Outcome State Fault Refusal := done (s.mboxDo 3 fun s => s.pufRefresh ok)

/-- DEBUG_UNLOCK (R462, R470): the token read from the buffer. -/
def execDebugUnlock (token : Option (List Byte)) (s : State) : Host.Outcome State Fault Refusal := done (s.mboxDo 4 fun s => s.debugUnlock token)

end Sys2Proof.Machine
end

