-- ==== Sys2Proof/Machine/LdSt.lean ====
section
/-! DEFINITION. The LDST class (R61): LDG and STG on the scalar unit, VLD and VST on the vector unit's port. -/

namespace Sys2Proof.Machine

open Sys2Proof

/-- The fields of LDST. -/
def ldstLegal (w : Nat) : Bool := onlyFields w [(43, 5), (38, 5), (0, 32)]

/-- The effect of a load: n bytes at the address, aligned, into a register that stays busy until the engine ends. -/
def loadEff (L : Nat) (bad : Option Nat) (e : Engine) (n align w : Nat) (put : List Byte → Core → Core) (op : EngOp) (s : State) : Eff :=
  let a := (s.core L).ldstAddr w
  match s.accessFault L bad a n align with
  | some f => f
  | none => .next ((s.modCore L (put (s.engRead L e a n))).startOp L op) 1

/-- The effect of a store: bytes at the address, aligned, visible to the other engines once the operation ends. -/
def storeEff (L : Nat) (e : Engine) (align w : Nat) (bytes : Core → List Byte) (s : State) : Eff :=
  let c := s.core L
  let a := c.ldstAddr w
  let bs := bytes c
  match s.storeFault L a bs.length align with
  | some f => f
  | none => .next (s.startOp L { eng := e, stores := [(a, bs)] }) 1

/-- LDG (R61): a 64-bit load of a general register at an 8-byte-aligned offset. -/
def execLdg (core : CoreIx) (bad : Option Nat) (s : State) : Host.Outcome State Fault Refusal :=
  done (issue core.val bad 2 0x00 ldstLegal (fun w => { g := [wD w, wA w] })
    (fun w => loadEff core.val bad .scalar 8 8 w (fun bs c => c.setG (wD w) (leNat bs))
      { eng := .scalar, gs := if wD w = 0 then [] else [wD w] }) s)

/-- STG (R61): a 64-bit store of a general register at an 8-byte-aligned offset. -/
def execStg (core : CoreIx) (bad : Option Nat) (s : State) : Host.Outcome State Fault Refusal :=
  done (issue core.val bad 2 0x01 ldstLegal (fun w => { g := [wD w, wA w] })
    (fun w => storeEff core.val .scalar 8 w (fun c => leBytes 8 (c.gval (wD w)))) s)

/-- VLD (R61): a 256-byte load of a vector register at a 64-byte-aligned offset. -/
def execVld (core : CoreIx) (bad : Option Nat) (s : State) : Host.Outcome State Fault Refusal :=
  done (issue core.val bad 2 0x02 ldstLegal (fun w => { g := [wA w], v := [wD w] })
    (fun w => loadEff core.val bad .vxu 256 64 w (fun bs c => c.setV (wD w) (lanesOf bs)) { eng := .vxu, vs := [wD w] }) s)

/-- VST (R61): a 256-byte store of a vector register at a 64-byte-aligned offset. -/
def execVst (core : CoreIx) (bad : Option Nat) (s : State) : Host.Outcome State Fault Refusal :=
  done (issue core.val bad 2 0x03 ldstLegal (fun w => { g := [wA w], v := [wD w] })
    (fun w => storeEff core.val .vxu 64 w (fun c => c.vbytes (wD w))) s)

end Sys2Proof.Machine
end

