-- ==== Sys2Proof/Machine/Scalar.lean ====
section
/-! DEFINITION. The SCALAR class and the PRED class (R61). -/

namespace Sys2Proof.Machine

open Sys2Proof

/-- The fields of a two-operand SCALAR instruction: b or the immediate, by bit [32]. -/
def scalarLegal (w : Nat) : Bool := onlyFields w (if wSel w then [(43, 5), (38, 5), (32, 1), (0, 32)] else [(43, 5), (38, 5), (33, 5)])

/-- The fields of LI and LIH. DESIGN CHOICE: both always use the immediate, and R61 does not say whether bit [32] then counts as used: it may
be 0 or 1. Log 35. -/
def liLegal (w : Nat) : Bool := onlyFields w [(43, 5), (32, 1), (0, 32)]

/-- A two-operand SCALAR instruction: a 64-bit function of register a and the second operand, into d. -/
def scalarOp (core : CoreIx) (bad : Option Nat) (op : Nat) (f : Nat → Nat → Nat) (s : State) : State :=
  issue core.val bad 1 op scalarLegal (fun w => { g := wD w :: wA w :: opBReads w })
    (fun w s =>
      let c := s.core core.val
      .next (s.setCore core.val (c.setG (wD w) (f (c.gval (wA w)) (c.opB w)))) 1) s

/-- The 64-bit shift amounts of R61 go up to 63; what a larger one gives is a free value. -/
def shiftBy (op : Nat) (f : Nat → Nat → Nat) (a b : Nat) : Nat := if b < 64 then f a b else (Config.shiftBig op a b).toNat

/-- The signedness of MIN and MAX, which the spec does not give: a free value. -/
def minMaxLt (a b : Nat) : Bool :=
  if Config.minMaxSigned then decide (toSigned 64 a < toSigned 64 b) else decide (a < b)

def addFn (a b : Nat) : Nat := a + b
def subFn (a b : Nat) : Nat := a + 2 ^ 64 - b % 2 ^ 64
def shlFn (a b : Nat) : Nat := a * 2 ^ b
def shrFn (a b : Nat) : Nat := a / 2 ^ b
def sraFn (a b : Nat) : Nat := ofSigned 64 (toSigned 64 a / 2 ^ b)
def minFn (a b : Nat) : Nat := if minMaxLt b a then b else a
def maxFn (a b : Nat) : Nat := if minMaxLt a b then b else a

/-- ADD (R61). -/
def execAdd (core : CoreIx) (bad : Option Nat) (s : State) : Host.Outcome State Fault Refusal :=
  done (scalarOp core bad 0x00 addFn s)

/-- SUB (R61). -/
def execSub (core : CoreIx) (bad : Option Nat) (s : State) : Host.Outcome State Fault Refusal :=
  done (scalarOp core bad 0x01 subFn s)

/-- AND (R61). -/
def execAnd (core : CoreIx) (bad : Option Nat) (s : State) : Host.Outcome State Fault Refusal :=
  done (scalarOp core bad 0x02 (· &&& ·) s)

/-- OR (R61). -/
def execOr (core : CoreIx) (bad : Option Nat) (s : State) : Host.Outcome State Fault Refusal :=
  done (scalarOp core bad 0x03 (· ||| ·) s)

/-- XOR (R61). -/
def execXor (core : CoreIx) (bad : Option Nat) (s : State) : Host.Outcome State Fault Refusal :=
  done (scalarOp core bad 0x04 (· ^^^ ·) s)

/-- SHL (R61). -/
def execShl (core : CoreIx) (bad : Option Nat) (s : State) : Host.Outcome State Fault Refusal :=
  done (scalarOp core bad 0x05 (shiftBy 0x05 shlFn) s)

/-- SHR (R61): logical. -/
def execShr (core : CoreIx) (bad : Option Nat) (s : State) : Host.Outcome State Fault Refusal :=
  done (scalarOp core bad 0x06 (shiftBy 0x06 shrFn) s)

/-- SRA (R61): arithmetic. -/
def execSra (core : CoreIx) (bad : Option Nat) (s : State) : Host.Outcome State Fault Refusal :=
  done (scalarOp core bad 0x07 (shiftBy 0x07 sraFn) s)

/-- MUL (R61): the low 64 bits of the product. -/
def execMul (core : CoreIx) (bad : Option Nat) (s : State) : Host.Outcome State Fault Refusal :=
  done (scalarOp core bad 0x08 (· * ·) s)

/-- MIN (R61). -/
def execMin (core : CoreIx) (bad : Option Nat) (s : State) : Host.Outcome State Fault Refusal :=
  done (scalarOp core bad 0x09 minFn s)

/-- MAX (R61). -/
def execMax (core : CoreIx) (bad : Option Nat) (s : State) : Host.Outcome State Fault Refusal :=
  done (scalarOp core bad 0x0A maxFn s)

/-- LI (R61): loads the sign-extended immediate. -/
def execLi (core : CoreIx) (bad : Option Nat) (s : State) : Host.Outcome State Fault Refusal :=
  done (issue core.val bad 1 0x0B liLegal (fun w => { g := [wD w] })
    (fun w s => .next (s.modCore core.val fun c => c.setG (wD w) (wSext w)) 1) s)

/-- LIH (R61): replaces bits [63:32]. -/
def execLih (core : CoreIx) (bad : Option Nat) (s : State) : Host.Outcome State Fault Refusal :=
  done (issue core.val bad 1 0x0C liLegal (fun w => { g := [wD w] })
    (fun w s => .next (s.modCore core.val fun c => c.setG (wD w) (putBits (c.gval (wD w)) 32 32 (wImm w))) 1) s)

/-- The fields of the PRED class. -/
def predLegal (w : Nat) : Bool := onlyFields w (if wSel w then [(43, 3), (38, 5), (32, 1), (0, 32)] else [(43, 3), (38, 5), (33, 5)])

/-- A PRED instruction: a comparison of register a with the second operand, into a predicate; a write to P0 is discarded. -/
def predOp (core : CoreIx) (bad : Option Nat) (op : Nat) (f : Nat → Nat → Bool) (s : State) : State :=
  issue core.val bad 7 op predLegal (fun w => { g := wA w :: opBReads w, p := [wPd w] })
    (fun w s =>
      let c := s.core core.val
      .next (s.setCore core.val (c.setP (wPd w) (f (c.gval (wA w)) (c.opB w)))) 1) s

/-- PEQ (R61). -/
def execPeq (core : CoreIx) (bad : Option Nat) (s : State) : Host.Outcome State Fault Refusal :=
  done (predOp core bad 0x00 (fun a b => a == b) s)

/-- PNE (R61). -/
def execPne (core : CoreIx) (bad : Option Nat) (s : State) : Host.Outcome State Fault Refusal :=
  done (predOp core bad 0x01 (fun a b => a != b) s)

/-- PLT (R61): signed. -/
def execPlt (core : CoreIx) (bad : Option Nat) (s : State) : Host.Outcome State Fault Refusal :=
  done (predOp core bad 0x02 (fun a b => decide (toSigned 64 a < toSigned 64 b)) s)

/-- PGE (R61): signed. -/
def execPge (core : CoreIx) (bad : Option Nat) (s : State) : Host.Outcome State Fault Refusal :=
  done (predOp core bad 0x03 (fun a b => decide (toSigned 64 b ≤ toSigned 64 a)) s)

/-- PLTU (R61): unsigned. -/
def execPltu (core : CoreIx) (bad : Option Nat) (s : State) : Host.Outcome State Fault Refusal :=
  done (predOp core bad 0x04 (fun a b => decide (a < b)) s)

/-- PGEU (R61): unsigned. -/
def execPgeu (core : CoreIx) (bad : Option Nat) (s : State) : Host.Outcome State Fault Refusal :=
  done (predOp core bad 0x05 (fun a b => decide (b ≤ a)) s)

end Sys2Proof.Machine
end

