-- ==== Sys2Proof/Machine/Dispatch.lean ====
section
/-! DEFINITION. The dispatch: one arm per command. -/

namespace Sys2Proof.Machine

open Sys2Proof

/-- The effect of a command on everything but the queue. -/
def exec (i : Instr) (s : State) : Host.Outcome State Fault Refusal :=
  match i with
  | .registerWrite req off size value => Sys2Proof.Machine.execRegisterWrite req off size value s
  | .load value => Sys2Proof.Machine.execLoad value s
  | .baste value => Sys2Proof.Machine.execBaste value s
  | .drained value => Sys2Proof.Machine.execDrained value s
  | .discardBaste value => Sys2Proof.Machine.execDiscardBaste value s
  | .patternCheckDone image => Sys2Proof.Machine.execPatternCheckDone image s
  | .arm value => Sys2Proof.Machine.execArm value s
  | .seamCancel value => Sys2Proof.Machine.execSeamCancel value s
  | .seamApply => Sys2Proof.Machine.execSeamApply s
  | .oldBankRelease => Sys2Proof.Machine.execOldBankRelease s
  | .coreEnable core value => Sys2Proof.Machine.execCoreEnable core value s
  | .coreDisable core value => Sys2Proof.Machine.execCoreDisable core value s
  | .zeroingDone core => Sys2Proof.Machine.execZeroingDone core s
  | .coreShutdownDone core => Sys2Proof.Machine.execCoreShutdownDone core s
  | .coreStart core value => Sys2Proof.Machine.execCoreStart core value s
  | .coreHalted core => Sys2Proof.Machine.execCoreHalted core s
  | .jobEnd core => Sys2Proof.Machine.execJobEnd core s
  | .nop core bad => Sys2Proof.Machine.execNop core bad s
  | .halt core bad => Sys2Proof.Machine.execHalt core bad s
  | .jmp core bad => Sys2Proof.Machine.execJmp core bad s
  | .loop core bad => Sys2Proof.Machine.execLoop core bad s
  | .add core bad => Sys2Proof.Machine.execAdd core bad s
  | .sub core bad => Sys2Proof.Machine.execSub core bad s
  | .and core bad => Sys2Proof.Machine.execAnd core bad s
  | .or core bad => Sys2Proof.Machine.execOr core bad s
  | .xor core bad => Sys2Proof.Machine.execXor core bad s
  | .shl core bad => Sys2Proof.Machine.execShl core bad s
  | .shr core bad => Sys2Proof.Machine.execShr core bad s
  | .sra core bad => Sys2Proof.Machine.execSra core bad s
  | .mul core bad => Sys2Proof.Machine.execMul core bad s
  | .min core bad => Sys2Proof.Machine.execMin core bad s
  | .max core bad => Sys2Proof.Machine.execMax core bad s
  | .li core bad => Sys2Proof.Machine.execLi core bad s
  | .lih core bad => Sys2Proof.Machine.execLih core bad s
  | .ldg core bad => Sys2Proof.Machine.execLdg core bad s
  | .stg core bad => Sys2Proof.Machine.execStg core bad s
  | .vld core bad => Sys2Proof.Machine.execVld core bad s
  | .vst core bad => Sys2Proof.Machine.execVst core bad s
  | .ldw core bad => Sys2Proof.Machine.execLdw core bad s
  | .mma core bad => Sys2Proof.Machine.execMma core bad s
  | .drain core bad => Sys2Proof.Machine.execDrain core bad s
  | .vadd core bad => Sys2Proof.Machine.execVadd core bad s
  | .vsub core bad => Sys2Proof.Machine.execVsub core bad s
  | .vmul core bad => Sys2Proof.Machine.execVmul core bad s
  | .vfma core bad => Sys2Proof.Machine.execVfma core bad s
  | .vmax core bad => Sys2Proof.Machine.execVmax core bad s
  | .vmin core bad => Sys2Proof.Machine.execVmin core bad s
  | .vcmp core bad => Sys2Proof.Machine.execVcmp core bad s
  | .vsel core bad => Sys2Proof.Machine.execVsel core bad s
  | .vcvt core bad => Sys2Proof.Machine.execVcvt core bad s
  | .vexp core bad => Sys2Proof.Machine.execVexp core bad s
  | .vrcp core bad => Sys2Proof.Machine.execVrcp core bad s
  | .vrsq core bad => Sys2Proof.Machine.execVrsq core bad s
  | .vred core bad => Sys2Proof.Machine.execVred core bad s
  | .vbcast core bad => Sys2Proof.Machine.execVbcast core bad s
  | .vmovg core bad => Sys2Proof.Machine.execVmovg core bad s
  | .vmovv core bad => Sys2Proof.Machine.execVmovv core bad s
  | .dmaq core bad => Sys2Proof.Machine.execDmaq core bad s
  | .evwait core bad => Sys2Proof.Machine.execEvwait core bad s
  | .evadd core bad => Sys2Proof.Machine.execEvadd core bad s
  | .signal core bad => Sys2Proof.Machine.execSignal core bad s
  | .gbar core bad => Sys2Proof.Machine.execGbar core bad s
  | .sfence core bad => Sys2Proof.Machine.execSfence core bad s
  | .dmawait core bad => Sys2Proof.Machine.execDmawait core bad s
  | .peq core bad => Sys2Proof.Machine.execPeq core bad s
  | .pne core bad => Sys2Proof.Machine.execPne core bad s
  | .plt core bad => Sys2Proof.Machine.execPlt core bad s
  | .pge core bad => Sys2Proof.Machine.execPge core bad s
  | .pltu core bad => Sys2Proof.Machine.execPltu core bad s
  | .pgeu core bad => Sys2Proof.Machine.execPgeu core bad s
  | .ldws core bad => Sys2Proof.Machine.execLdws core bad s
  | .mmaz core bad => Sys2Proof.Machine.execMmaz core bad s
  | .zmap core bad => Sys2Proof.Machine.execZmap core bad s
  | .skip core bad => Sys2Proof.Machine.execSkip core bad s
  | .topk core bad => Sys2Proof.Machine.execTopk core bad s
  | .slotset core bad => Sys2Proof.Machine.execSlotset core bad s
  | .bclass core bad => Sys2Proof.Machine.execBclass core bad s
  | .emask core bad => Sys2Proof.Machine.execEmask core bad s
  | .engineOpDone core eng => Sys2Proof.Machine.execEngineOpDone core eng s
  | .evwaitSatisfied core => Sys2Proof.Machine.execEvwaitSatisfied core s
  | .sfenceDone core => Sys2Proof.Machine.execSfenceDone core s
  | .dmawaitDone core => Sys2Proof.Machine.execDmawaitDone core s
  | .gbarComplete core => Sys2Proof.Machine.execGbarComplete core s
  | .copy core queue bad => Sys2Proof.Machine.execCopy core queue bad s
  | .fill core queue bad => Sys2Proof.Machine.execFill core queue bad s
  | .fwrite core queue bad => Sys2Proof.Machine.execFwrite core queue bad s
  | .fread core queue bad => Sys2Proof.Machine.execFread core queue bad s
  | .racc core queue bad => Sys2Proof.Machine.execRacc core queue bad s
  | .mcast core queue bad => Sys2Proof.Machine.execMcast core queue bad s
  | .rsignal core queue bad => Sys2Proof.Machine.execRsignal core queue bad s
  | .dispatch core queue bad => Sys2Proof.Machine.execDispatch core queue bad s
  | .dispatchExpertSignal core queue => Sys2Proof.Machine.execDispatchExpertSignal core queue s
  | .combineRecv core queue bad => Sys2Proof.Machine.execCombineRecv core queue bad s
  | .combineTimeout core queue => Sys2Proof.Machine.execCombineTimeout core queue s
  | .combine core queue bad => Sys2Proof.Machine.execCombine core queue bad s
  | .ringpass core queue bad => Sys2Proof.Machine.execRingpass core queue bad s
  | .allreduce core queue bad => Sys2Proof.Machine.execAllreduce core queue bad s
  | .reduce core queue bad => Sys2Proof.Machine.execReduce core queue bad s
  | .reduceScatter core queue bad => Sys2Proof.Machine.execReduceScatter core queue bad s
  | .allgather core queue bad => Sys2Proof.Machine.execAllgather core queue bad s
  | .broadcast core queue bad => Sys2Proof.Machine.execBroadcast core queue bad s
  | .barrier core queue bad => Sys2Proof.Machine.execBarrier core queue bad s
  | .scalar core queue bad => Sys2Proof.Machine.execScalar core queue bad s
  | .permute core queue bad => Sys2Proof.Machine.execPermute core queue bad s
  | .backup core queue bad => Sys2Proof.Machine.execBackup core queue bad s
  | .descriptorComplete core queue => Sys2Proof.Machine.execDescriptorComplete core queue s
  | .jobSubmit ring entry => Sys2Proof.Machine.execJobSubmit ring entry s
  | .jobAbort ring entry => Sys2Proof.Machine.execJobAbort ring entry s
  | .sqNop ring entry => Sys2Proof.Machine.execSqNop ring entry s
  | .sqDoorbell ring value => Sys2Proof.Machine.execSqDoorbell ring value s
  | .cqDoorbell ring value => Sys2Proof.Machine.execCqDoorbell ring value s
  | .cqIntTimer ring => Sys2Proof.Machine.execCqIntTimer ring s
  | .ringEnable ring value => Sys2Proof.Machine.execRingEnable ring value s
  | .ringDisable ring value => Sys2Proof.Machine.execRingDisable ring value s
  | .memTrainStart value => Sys2Proof.Machine.execMemTrainStart value s
  | .trainingDone ctl failCode failMap => Sys2Proof.Machine.execTrainingDone ctl failCode failMap s
  | .memEnable value => Sys2Proof.Machine.execMemEnable value s
  | .memDisable value => Sys2Proof.Machine.execMemDisable value s
  | .memShutdownDone => Sys2Proof.Machine.execMemShutdownDone s
  | .raccPacket bad => Sys2Proof.Machine.execRaccPacket bad s
  | .gateTimeout entry => Sys2Proof.Machine.execGateTimeout entry s
  | .tombstoneExpiry entry => Sys2Proof.Machine.execTombstoneExpiry entry s
  | .raccRetryResend core queue => Sys2Proof.Machine.execRaccRetryResend core queue s
  | .lnkEnable port value => Sys2Proof.Machine.execLnkEnable port value s
  | .lnkDisable port value => Sys2Proof.Machine.execLnkDisable port value s
  | .portShutdownDone port => Sys2Proof.Machine.execPortShutdownDone port s
  | .lnkRetrain port value => Sys2Proof.Machine.execLnkRetrain port value s
  | .lpRequest port value => Sys2Proof.Machine.execLpRequest port value s
  | .lpExitWrite port value => Sys2Proof.Machine.execLpExitWrite port value s
  | .lp1AutoIdle port => Sys2Proof.Machine.execLp1AutoIdle port s
  | .lp2ExitDone port => Sys2Proof.Machine.execLp2ExitDone port s
  | .squelchWake port => Sys2Proof.Machine.execSquelchWake port s
  | .identFrame lane bytes inverted fom => Sys2Proof.Machine.execIdentFrame lane bytes inverted fom s
  | .readyFrame lane bytes => Sys2Proof.Machine.execReadyFrame lane bytes s
  | .eqFrame lane bytes fom => Sys2Proof.Machine.execEqFrame lane bytes fom s
  | .loopReqFrame lane bytes => Sys2Proof.Machine.execLoopReqFrame lane bytes s
  | .narrowFrame lane bytes => Sys2Proof.Machine.execNarrowFrame lane bytes s
  | .laneLock lane => Sys2Proof.Machine.execLaneLock lane s
  | .laneLockLoss lane idle => Sys2Proof.Machine.execLaneLockLoss lane idle s
  | .fomMeasure lane fom => Sys2Proof.Machine.execFomMeasure lane fom s
  | .eqAdaptEnd port => Sys2Proof.Machine.execEqAdaptEnd port s
  | .trainingStepTimeout port => Sys2Proof.Machine.execTrainingStepTimeout port s
  | .failedRetryTimer port => Sys2Proof.Machine.execFailedRetryTimer port s
  | .markerBlock port lanes skews => Sys2Proof.Machine.execMarkerBlock port lanes skews s
  | .markerIntervalEnd port => Sys2Proof.Machine.execMarkerIntervalEnd port s
  | .nullFlit port rx => Sys2Proof.Machine.execNullFlit port rx s
  | .dataFlit port rx header => Sys2Proof.Machine.execDataFlit port rx header s
  | .ctrlFlit port rx replayed => Sys2Proof.Machine.execCtrlFlit port rx replayed s
  | .creditFlit port rx => Sys2Proof.Machine.execCreditFlit port rx s
  | .nak port rx => Sys2Proof.Machine.execNak port rx s
  | .replayStart port rx => Sys2Proof.Machine.execReplayStart port rx s
  | .reqLp1 port rx => Sys2Proof.Machine.execReqLp1 port rx s
  | .reqLp2 port rx => Sys2Proof.Machine.execReqLp2 port rx s
  | .lpmAccept port rx => Sys2Proof.Machine.execLpmAccept port rx s
  | .lpmRefuse port rx => Sys2Proof.Machine.execLpmRefuse port rx s
  | .wake port rx => Sys2Proof.Machine.execWake port rx s
  | .lpmDisable port rx => Sys2Proof.Machine.execLpmDisable port rx s
  | .pingStart port value => Sys2Proof.Machine.execPingStart port value s
  | .pingRequest port rx => Sys2Proof.Machine.execPingRequest port rx s
  | .pingResponse port rx => Sys2Proof.Machine.execPingResponse port rx s
  | .fatalFlit port rx => Sys2Proof.Machine.execFatalFlit port rx s
  | .ackTimeout port => Sys2Proof.Machine.execAckTimeout port s
  | .nakTimeout port => Sys2Proof.Machine.execNakTimeout port s
  | .creditWaitTimeout port => Sys2Proof.Machine.execCreditWaitTimeout port s
  | .openPacketTimeout port => Sys2Proof.Machine.execOpenPacketTimeout port s
  | .portUpHoldExpiry port => Sys2Proof.Machine.execPortUpHoldExpiry port s
  | .portPowerTurn port => Sys2Proof.Machine.execPortPowerTurn port s
  | .ack => Sys2Proof.Machine.execAck s
  | .retry => Sys2Proof.Machine.execRetry s
  | .refuse => Sys2Proof.Machine.execRefuse s
  | .readReq bad => Sys2Proof.Machine.execReadReq bad s
  | .readResp => Sys2Proof.Machine.execReadResp s
  | .write => Sys2Proof.Machine.execWrite s
  | .rsignalPacket => Sys2Proof.Machine.execRsignalPacket s
  | .mcastPacket => Sys2Proof.Machine.execMcastPacket s
  | .mcastResidueServe => Sys2Proof.Machine.execMcastResidueServe s
  | .dispatchRow => Sys2Proof.Machine.execDispatchRow s
  | .combineTerm bad => Sys2Proof.Machine.execCombineTerm bad s
  | .ringBlock => Sys2Proof.Machine.execRingBlock s
  | .accChunk bad => Sys2Proof.Machine.execAccChunk bad s
  | .distChunk => Sys2Proof.Machine.execDistChunk s
  | .handoffChunk bad => Sys2Proof.Machine.execHandoffChunk bad s
  | .permuteData => Sys2Proof.Machine.execPermuteData s
  | .barrierArrive => Sys2Proof.Machine.execBarrierArrive s
  | .barrierRelease => Sys2Proof.Machine.execBarrierRelease s
  | .scalarAcc bad => Sys2Proof.Machine.execScalarAcc bad s
  | .scalarDist => Sys2Proof.Machine.execScalarDist s
  | .chainCredit => Sys2Proof.Machine.execChainCredit s
  | .chainAbort => Sys2Proof.Machine.execChainAbort s
  | .backupAct => Sys2Proof.Machine.execBackupAct s
  | .standbyRelease => Sys2Proof.Machine.execStandbyRelease s
  | .repairReq => Sys2Proof.Machine.execRepairReq s
  | .probe => Sys2Proof.Machine.execProbe s
  | .probeResp => Sys2Proof.Machine.execProbeResp s
  | .nbrMsg => Sys2Proof.Machine.execNbrMsg s
  | .outputSlot output => Sys2Proof.Machine.execOutputSlot output s
  | .gateWindowChange port => Sys2Proof.Machine.execGateWindowChange port s
  | .cellGrant input => Sys2Proof.Machine.execCellGrant input s
  | .congestionHoldEnd input => Sys2Proof.Machine.execCongestionHoldEnd input s
  | .ageScan => Sys2Proof.Machine.execAgeScan s
  | .rsqTimeout flow => Sys2Proof.Machine.execRsqTimeout flow s
  | .rsqIdleRelease flow => Sys2Proof.Machine.execRsqIdleRelease flow s
  | .sweepDone => Sys2Proof.Machine.execSweepDone s
  | .reclaimTimeout => Sys2Proof.Machine.execReclaimTimeout s
  | .audit value => Sys2Proof.Machine.execAudit value s
  | .auditPeriodTimer => Sys2Proof.Machine.execAuditPeriodTimer s
  | .auditDone => Sys2Proof.Machine.execAuditDone s
  | .swcEnable value => Sys2Proof.Machine.execSwcEnable value s
  | .swcDisable value => Sys2Proof.Machine.execSwcDisable value s
  | .schClear value => Sys2Proof.Machine.execSchClear value s
  | .colEnable value => Sys2Proof.Machine.execColEnable value s
  | .colDisable value => Sys2Proof.Machine.execColDisable value s
  | .colShutdownDone => Sys2Proof.Machine.execColShutdownDone s
  | .domainEnable dom value => Sys2Proof.Machine.execDomainEnable dom value s
  | .domainDisable dom value => Sys2Proof.Machine.execDomainDisable dom value s
  | .domainShutdownDone dom => Sys2Proof.Machine.execDomainShutdownDone dom s
  | .ticketStart dom bad => Sys2Proof.Machine.execTicketStart dom bad s
  | .stagingReserved chain => Sys2Proof.Machine.execStagingReserved chain s
  | .chunkSend chain bad => Sys2Proof.Machine.execChunkSend chain bad s
  | .orderTimeout dom => Sys2Proof.Machine.execOrderTimeout dom s
  | .chainTimeout chain => Sys2Proof.Machine.execChainTimeout chain s
  | .backupGo value => Sys2Proof.Machine.execBackupGo value s
  | .heldActivationTimeout => Sys2Proof.Machine.execHeldActivationTimeout s
  | .standbyTimeout chain => Sys2Proof.Machine.execStandbyTimeout chain s
  | .replayResume core => Sys2Proof.Machine.execReplayResume core s
  | .replayCaughtUp core => Sys2Proof.Machine.execReplayCaughtUp core s
  | .detStartArm value => Sys2Proof.Machine.execDetStartArm value s
  | .detStartCancel value => Sys2Proof.Machine.execDetStartCancel value s
  | .startBarrierRelease => Sys2Proof.Machine.execStartBarrierRelease s
  | .memShdCfgValid entry value => Sys2Proof.Machine.execMemShdCfgValid entry value s
  | .rollback entry value => Sys2Proof.Machine.execRollback entry value s
  | .permuteWaitEnd chain => Sys2Proof.Machine.execPermuteWaitEnd chain s
  | .permuteBlockedTimeout chain => Sys2Proof.Machine.execPermuteBlockedTimeout chain s
  | .permuteComplete chain => Sys2Proof.Machine.execPermuteComplete chain s
  | .permuteProgressTimeout chain => Sys2Proof.Machine.execPermuteProgressTimeout chain s
  | .xlateHoldExpiry entry => Sys2Proof.Machine.execXlateHoldExpiry entry s
  | .powerOnReset => Sys2Proof.Machine.execPowerOnReset s
  | .linkReset => Sys2Proof.Machine.execLinkReset s
  | .fullReset value => Sys2Proof.Machine.execFullReset value s
  | .deviceReset value => Sys2Proof.Machine.execDeviceReset value s
  | .flr => Sys2Proof.Machine.execFlr s
  | .rootPllLock modData => Sys2Proof.Machine.execRootPllLock modData s
  | .flashSlotRead headers image => Sys2Proof.Machine.execFlashSlotRead headers image s
  | .bootReady parts => Sys2Proof.Machine.execBootReady parts s
  | .recoveryGo value => Sys2Proof.Machine.execRecoveryGo value s
  | .recoveryImageRead image => Sys2Proof.Machine.execRecoveryImageRead image s
  | .sendProbe value => Sys2Proof.Machine.execSendProbe value s
  | .sendNbrMsg value => Sys2Proof.Machine.execSendNbrMsg value s
  | .nbrRxPop value => Sys2Proof.Machine.execNbrRxPop value s
  | .syntonGo value => Sys2Proof.Machine.execSyntonGo value s
  | .syntonMeasureDone offset => Sys2Proof.Machine.execSyntonMeasureDone offset s
  | .syntonSlewDone => Sys2Proof.Machine.execSyntonSlewDone s
  | .syntonSourceLost => Sys2Proof.Machine.execSyntonSourceLost s
  | .holdoverRevertTimeout => Sys2Proof.Machine.execHoldoverRevertTimeout s
  | .clkRevert value => Sys2Proof.Machine.execClkRevert value s
  | .ftimeStep value => Sys2Proof.Machine.execFtimeStep value s
  | .ftimeSlew value => Sys2Proof.Machine.execFtimeSlew value s
  | .slewDone => Sys2Proof.Machine.execSlewDone s
  | .fltFenceCmd value => Sys2Proof.Machine.execFltFenceCmd value s
  | .forceFatal value => Sys2Proof.Machine.execForceFatal value s
  | .safeStateReached => Sys2Proof.Machine.execSafeStateReached s
  | .pllUnlock => Sys2Proof.Machine.execPllUnlock s
  | .thermalTrip sensor temp => Sys2Proof.Machine.execThermalTrip sensor temp s
  | .powerFault rail => Sys2Proof.Machine.execPowerFault rail s
  | .fwWatchdog => Sys2Proof.Machine.execFwWatchdog s
  | .faultPulseEnd => Sys2Proof.Machine.execFaultPulseEnd s
  | .snap value => Sys2Proof.Machine.execSnap value s
  | .snapArm value => Sys2Proof.Machine.execSnapArm value s
  | .snapTimeReached => Sys2Proof.Machine.execSnapTimeReached s
  | .resetAll value => Sys2Proof.Machine.execResetAll value s
  | .traceEnable value => Sys2Proof.Machine.execTraceEnable value s
  | .traceDisable value => Sys2Proof.Machine.execTraceDisable value s
  | .traceTrigger value => Sys2Proof.Machine.execTraceTrigger value s
  | .traceMark value => Sys2Proof.Machine.execTraceMark value s
  | .tracePostDone => Sys2Proof.Machine.execTracePostDone s
  | .traceDrainDone => Sys2Proof.Machine.execTraceDrainDone s
  | .bar2Read addr len bad => Sys2Proof.Machine.execBar2Read addr len bad s
  | .bar2Write addr bytes enables => Sys2Proof.Machine.execBar2Write addr bytes enables s
  | .attest nonce => Sys2Proof.Machine.execAttest nonce s
  | .fwUpdate image flashOk => Sys2Proof.Machine.execFwUpdate image flashOk s
  | .pufRefresh ok => Sys2Proof.Machine.execPufRefresh ok s
  | .debugUnlock token => Sys2Proof.Machine.execDebugUnlock token s
  | .mailboxDone => Sys2Proof.Machine.execMailboxDone s
  | .secLock value => Sys2Proof.Machine.execSecLock value s
  | .msixUnmask vector => Sys2Proof.Machine.execMsixUnmask vector s
  | .smbusReadByte code pec => Sys2Proof.Machine.execSmbusReadByte code pec s
  | .smbusReadWord code pec => Sys2Proof.Machine.execSmbusReadWord code pec s
  | .smbusBlockRead code pec => Sys2Proof.Machine.execSmbusBlockRead code pec s
  | .smbusWrite bytes => Sys2Proof.Machine.execSmbusWrite bytes s
  | .bypass tdi => Sys2Proof.Machine.execBypass tdi s
  | .idcode => Sys2Proof.Machine.execIdcode s
  | .samplePreload pins => Sys2Proof.Machine.execSamplePreload pins s
  | .highz => Sys2Proof.Machine.execHighz s
  | .extest pins => Sys2Proof.Machine.execExtest pins s
  | .acInstruction train => Sys2Proof.Machine.execAcInstruction train s
  | .debugInstruction code => Sys2Proof.Machine.execDebugInstruction code s
  | .testLogicReset => Sys2Proof.Machine.execTestLogicReset s
  | .hotSwapOn => Sys2Proof.Machine.execHotSwapOn s
  | .inputOff => Sys2Proof.Machine.execInputOff s
  | .powerSample tenths mv current => Sys2Proof.Machine.execPowerSample tenths mv current s
  | .limiterCheck temps => Sys2Proof.Machine.execLimiterCheck temps s
  | .noAckAgeLimit core queue => Sys2Proof.Machine.execNoAckAgeLimit core queue s
  | .jobLaunch core => Sys2Proof.Machine.execJobLaunch core s
  | .completionTimeout ring => Sys2Proof.Machine.execCompletionTimeout ring s
  | .latencySample => Sys2Proof.Machine.execLatencySample s
  | .releasePointWait group => Sys2Proof.Machine.execReleasePointWait group s
  | .deviceResetDone => Sys2Proof.Machine.execDeviceResetDone s

end Sys2Proof.Machine
end

