-- ==== Sys2Proof/Machine/Upset.lean ====
section
/-! DEFINITION. Upsets of the device's own hardware: what its parity and EDC checks find (R48, R146, R203, R248, R270, R327, R347, R397),
and the module reference, which may go and come back (R487). No command of the table says when; the model lets one of these happen, or none, in each
FCLK with nothing commanded, as a free value has it. DESIGN CHOICE, Log 42. -/

namespace Sys2Proof.Machine

open Sys2Proof

/-- A transfer from or to a local address fails its check: uncorrected, or at a GDDR7 address one that is good after a repeat. -/
def State.upsetByte (s : State) (a : Nat) (corrected : Bool) : State :=
  match place a with
  | .gddr x => s.modMem fun m => { m with upsets := m.upsets ++ [x + 2 ^ 48 * b2n corrected] }
  | .sram _ _ => if corrected then s else s.modMem fun m => { m with upsets := m.upsets ++ [a] }
  | .nowhere => s

/-- A bit of a cell of the packet buffer turns: in the data of a bank and row, in its metadata word, or in its link word. -/
def State.upsetCell (s : State) (c : Nat) (f : Cell → Cell) : State :=
  if (s.cell c).state = 3 then s else s.setCell c (f (s.cell c))

/-- A cell that is not free comes to stand in its free list. -/
def State.upsetFree (s : State) (c : Nat) : State :=
  if (s.cell c).state = 0 ∨ (s.cell c).state = 3 ∨ s.switch.stray.contains c then s
  else s.sw fun w => { w with stray := w.stray ++ [c] }

/-- A bit of a chunk in a chain's staging turns. -/
def State.upsetStaging (s : State) (i k : Nat) : State :=
  s.modRole i fun r =>
    match (r.staged.map (·.key.chunk) ++ r.ready.map (·.key.chunk))[k]? with
    | some j => { r with bad := j :: r.bad.erase j }
    | none => r

/-- The parity of a packet in a gateway's queue fails: it is discarded with BUF_PARITY, its REFUSE sent when its header has passed (R397, R414). -/
def State.upsetGateway (s : State) (g vc j : Nat) (hdrOk : Bool) : State :=
  let k := 32 * (24 + g) + vc
  let q := s.queue k
  match q[j % q.length]? with
  | none => s
  | some d => match s.bufPkt d.head with
    | none => s
    | some b =>
      let s := ((s.setQueue k (q.eraseIdx (j % q.length))).noteDiscard 10 b.pkt b.input).report 0x0C g (24 + g)
      let s := s.decRef d.head
      if hdrOk && refusable 10 b.pkt then s.offerC3 (s.refusal 10 b.pkt true) else s

/-- The module reference goes away, or comes back; the root PLL loses lock when it uses it (R487). -/
def State.upsetRef (s : State) (gone : Bool) : State :=
  let s := { s with clock := { s.clock with refGone := gone } }
  let st := s.get PWR_CLK_STATUS_STATE
  if gone && (st == 0 || st == 4) && s.flag PWR_CLK_STATUS_ROOT_LOCK then (s.set PWR_CLK_STATUS_ROOT_LOCK 0).report 0x31 0 0 else s

/-- The upset that a free word names: its kind in [3:0], where it strikes above. -/
def State.strike (s : State) (x : Nat) : State :=
  let a := x / 16
  let c := cellAt (a % 128) (a / 128 % 4096)
  match x % 16 with
  | 1 => s.upsetByte (a % 2 ^ 48) false
  | 2 => s.upsetByte (a % 2 ^ 48) true
  | 3 => s.upsetCell c fun x => { x with badData := true }
  | 4 => s.upsetCell c fun x => { x with badMeta := true }
  | 5 => s.upsetCell c fun x => { x with badLink := true }
  | 6 => s.upsetFree c
  | 7 => s.modDet (a % 144) fun d => { d with badCkpt := d.ckpt.isSome }
  | 8 => s.upsetStaging (a % 8) (a / 8)
  | 9 => s.upsetGateway (a % 8) (a / 8 % 32) (a / 256 % 4096) (a / 2 ^ 20 % 2 == 1)
  | 10 => if a % 16 < s.pat.live.length then s.report 0x30 0 (a % 16) else s
  | 11 => s.upsetRef true
  | 12 => s.upsetRef false
  | _ => s

/-- What strikes the device in an FCLK: nothing before the READY stage nor after the fatal decision. -/
def State.upset (s : State) : State :=
  if s.fatal || !s.ready then s else { s with free := s.free + 1 }.strike (Config.upset s.free).toNat

end Sys2Proof.Machine
end

