-- ==== Sys2Proof/Machine/Step.lean ====
section
/-! DEFINITION. One step: the command at the front of the queue runs; on an empty queue one FCLK passes. -/

namespace Sys2Proof.Machine

open Sys2Proof

/-- An FCLK passes with nothing commanded (R4): what runs by itself goes on, and an upset may strike, if the device has power. -/
def State.tick (s : State) : State := if s.boot.powered then (s.romStart.pass 1).colResend.upset else s

/-- One step of the block. -/
def step (s : State) : Host.Outcome State Fault Refusal :=
  match s.pending with
  | [] => done s.tick
  | c :: rest => exec c { s with pending := rest }

/-- Puts the command that a word of the opcode table spells at the front of the queue. -/
def State.withFetchWord (s : State) (nbits w : Nat) : State :=
  match decodeTableWord nbits w with
  | some c => { s with pending := c :: s.pending }
  | none => s

end Sys2Proof.Machine
end

