-- ==== Sys2Proof/Machine/Read.lean ====
section
/-! DEFINITION. What a read of BAR0 returns (R8, R9, R384, R445, R449). The opcode table has no row for a read; this is the view that host software has of
the state. Registers that show a live count or another part of the state are computed here, all others are stored. -/

namespace Sys2Proof.Machine

open Sys2Proof

/-! Live registers -/

/-- Fields of a cell as BPM_CELL_META shows them. -/
def Cell.metaWord (c : Cell) : Nat :=
  c.state + 4 * b2n c.reclaim + 8 * b2n c.tx + 16 * b2n c.head + 2 ^ 5 * c.gen + 2 ^ 9 * c.owner + 2 ^ 17 * c.ref + 2 ^ 23 * b2n c.mark

/-- Fields of a cell as BPM_CELL_LINK shows them. -/
def Cell.linkWord (c : Cell) : Nat := c.next + 2 ^ 17 * c.acct + 2 ^ 27 * c.charge

/-- The cell BPM_CELL_SEL names. -/
def State.cellShown (s : State) : Cell := s.cell (s.get BPM_CELL_SEL_CELL)

/-- BPM registers that are live counts. -/
def State.bpmView (s : State) (r : Reg) : Option Nat :=
  if r.off == BPM_FREE.off then some s.cellsFree
  else if r.off == BPM_SHARED.off then some s.sharedFree
  else if r.off == BPM_SETASIDE.off then some s.setAside
  else if r.off == BPM_QUARANTINED.off then some s.quarantined
  else if r.off == BPM_CELL_META.off then some s.cellShown.metaWord
  else if r.off == BPM_CELL_LINK.off then some s.cellShown.linkWord
  else if (BPM_OWNER_CELLS 0).off ≤ r.off ∧ r.off < (BPM_OWNER_CELLS 256).off then some (s.ownedBy ((r.off - (BPM_OWNER_CELLS 0).off) / 4))
  else if (BPM_ACCT 0).off ≤ r.off ∧ r.off < (BPM_ACCT 768).off then some (putBits (s.getR r) 0 10 (s.inUse ((r.off - (BPM_ACCT 0).off) / 4)))
  else none

/-- SCH registers that show the live pieces, the gate and the tokens of output o, by their place in its group of eight. -/
def State.schView (s : State) (r : Reg) : Option Nat :=
  let d := r.off - (SCH_OUT_DVTIME 0).off
  let o := d / 0x20
  if r.off < (SCH_OUT_DVTIME 0).off ∨ o ≥ 35 then none
  else match d % 0x20 with
    | 0x08 => some (s.tokens o s.tu)
    | 0x0C =>
      let openBits := ((List.range 4).map fun c => b2n (s.gateOpen o c) * 2 ^ c).sum
      let (entry, gated) := match s.window o with
        | some w => (w.1, 1)
        | none => (0, 0)
      some (openBits + 2 ^ 4 * entry + 2 ^ 10 * gated)
    | 0x10 => some ((List.range 4).map fun c => s.weight o c * 2 ^ (8 * c)).sum
    | 0x14 => some (s.ovhPkt o + 2 ^ 8 * s.ovhFlit o + 2 ^ 16 * s.ctrlRate o + 2 ^ 24 * s.ctrlBurst o)
    | _ => none

/-- The descriptor of a context, running or ending. -/
def State.chainView (s : State) (i part : Nat) : Nat :=
  match s.role i with
  | none => s.chainState i
  | some r =>
    if part = 0 then
      s.chainState i + 2 ^ 3 * r.domain + 2 ^ 9 * (cShape r.bytes % 16) + 2 ^ 13 * ((r.op - 0x20) % 16) + 2 ^ 17 * r.core
    else if part = 1 then r.ticket
    else r.doneChunks + 2 ^ 16 * min 65535 (chunkTotal (s.shp r) r.op r.bytes)

/-- COL registers that show the engine's state. -/
def State.colView (s : State) (r : Reg) : Option Nat :=
  if r.off == COL_STATUS.off then
    some (((List.range 8).map fun i => b2n (s.chainState i != 0) * 2 ^ i).sum + 2 ^ 8 * min 31 s.combines.length +
      2 ^ 13 * s.col.arrivals.length)
  else if (COL_CHAIN_STATE 0).off ≤ r.off ∧ r.off < (COL_CHAIN_STATE 8).off then
    let d := r.off - (COL_CHAIN_STATE 0).off
    some (if d % 0x10 / 4 = 0 ∨ (s.role (d / 0x10)).isSome then s.chainView (d / 0x10) (d % 0x10 / 4) else 0)
  else if (COL_DOM_CTRL 0).off ≤ r.off ∧ r.off < (COL_DOM_CTRL 64).off then
    let d := (r.off - (COL_DOM_CTRL 0).off) / 0x10
    if r.off == (COL_DOM_CTRL d).off then some (putBits (s.getR r) 2 1 (b2n (s.seqdom d).isSome))
    else if r.off == (COL_DOM_HELD d).off then
      some ((s.col.held.filter (·.domain == d)).length + (s.col.roles.filter (·.2.domain == d)).length)
    else none
  else none

/-- CORE_FREE (R80). DEDUCED: its reset value is 0, so SLOTS and TICKETS, like CORES, read 0 until a pattern is live. Log 41. -/
def State.coreFreeView (s : State) : Nat :=
  if s.patLive then ((List.range 144).filter s.coreFree).length + 2 ^ 8 * s.freeSlots.length + 2 ^ 16 * s.freeTickets else 0

/-- A 48-bit counter of a set's snapshot by its place in the layout of R439: 0 BUSY, 1 IDLE, 2 + r STALL r. -/
def CSet.part (c : CSet) (i : Nat) : Nat := if i = 0 then c.busy else if i = 1 then c.idle else c.stall.getD (i - 2) 0

/-- A word of a counter set's snapshot (R423, R439). -/
def State.setWord (s : State) (key d : Nat) : Nat :=
  let v := (Tbl.read s.obs.snap {} key).part (d / 8) % 2 ^ 48
  if d / 4 % 2 = 0 then v % 2 ^ 32 else v / 2 ^ 32

/-- The counter registers of a core's engine: offset within 0x100 of core L. -/
def State.counterView (s : State) (off : Nat) : Option Nat :=
  let core (base eng : Nat) : Option Nat :=
    let d := off - base
    if d / 0x100 < 144 ∧ d % 0x100 < 0x50 ∧ base ≤ off then some (s.setWord (4 * (d / 0x100) + eng) (d % 0x100)) else none
  if 0x120000 ≤ off ∧ off < 0x130000 then core 0x120000 1
  else if 0x130000 ≤ off ∧ off < 0x140000 then core 0x130000 2
  else if 0x300800 ≤ off ∧ off < 0x300850 then some (s.setWord colSet (off - 0x300800))
  else if 0x301000 ≤ off ∧ off < 0x30A000 then
    match core 0x301000 0 with
    | some v => some v
    | none => core 0x301060 3
  else none

/-- A word of the on-die trace ring (R434). -/
def State.traceWin (s : State) (i : Nat) : Nat :=
  if s.trSt = trOff ∨ s.trSt = trFrozen then
    match Tbl.find s.obs.ring (i / 8) with
    | some r => field r.bytes (i % 8 * 4) 4
    | none => 0
  else 0

/-- HIF registers that show the neighbour FIFO and the rings. -/
def State.hifView (s : State) (r : Reg) : Option Nat :=
  if r.off == HIF_NBR_TX_CTRL.off then some (putBits (s.getR r) 11 1 (b2n s.nbrBusy))
  else if r.off == HIF_NBR_RX_STATUS.off then
    some (s.host.nbrRx.length + match s.host.nbrRx with
      | (port, op, tag, _) :: _ => 2 ^ 5 * port + 2 ^ 10 * op + 2 ^ 18 * tag
      | [] => 0)
  else if (HIF_NBR_RX_DATA 0).off ≤ r.off ∧ r.off < (HIF_NBR_RX_DATA 12).off then
    some (match s.host.nbrRx with
      | (_, _, _, pay) :: _ => field pay (r.off - (HIF_NBR_RX_DATA 0).off) 4
      | [] => 0)
  else if (HIF_RING_STATUS 0).off ≤ r.off ∧ r.off < (HIF_RING_STATUS 16).off ∧ (r.off - (HIF_RING_STATUS 0).off) % 0x40 = 0 then
    let k := (r.off - (HIF_RING_STATUS 0).off) / 0x40
    some (putBits (s.getR r) 0 1 (b2n ((s.ring k).on && s.cqFull k)))
  else none

/-- The value of the 32-bit register at an offset, with live fields as they are now. -/
def State.regView (s : State) (off : Nat) : Nat :=
  let r := regOf off
  let live := match off / 0x10000 with
    | 0x00 => if off == PWR_FTIME.off then some (s.ft % 2 ^ 32) else if off == PWR_FTIME.off + 4 then some (s.ft / 2 ^ 32) else none
    | 0x01 => s.hifView r
    | 0x04 => if off == FLT_FAULTN.off then some (putBits (s.getR r) 4 1 (b2n s.faultNLow)) else none
    | 0x10 => if off == CORE_FREE.off then some s.coreFreeView else none
    | 0x18 => if off == MEM_RACC_STATE.off then some (s.mem.gates.length + 2 ^ 11 * s.staging) else none
    | 0x20 => if off == SWC_RSQ_STATE.off then some (s.switch.flows.length + 2 ^ 13 * s.countCells (·.charge == 4)) else none
    | 0x21 => s.bpmView r
    | 0x22 => s.schView r
    | 0x23 => if (RTE_DRAIN 0).off ≤ off ∧ off < (RTE_DRAIN 35).off then some (s.drainCount ((off - (RTE_DRAIN 0).off) / 4)) else none
    | 0x24 => s.colView r
    | 0x31 => some (s.traceWin ((off - 0x310000) / 4))
    | 0x32 => some (s.traceWin ((off - 0x310000) / 4))
    | 0x33 => some (s.traceWin ((off - 0x310000) / 4))
    | 0x34 => some (s.traceWin ((off - 0x310000) / 4))
    | _ => s.counterView off
  match live with
  | some v => v
  | none => if (regAt off).isSome then s.getR r else 0

/-! Accesses -/

/-- The upper half a requester has captured and not yet read. -/
def State.capturedHigh (s : State) (req low : Nat) : Option Nat :=
  (s.captured.find? fun h => h.req == req && h.off == low).map (·.value)

/-- Forgets a requester's captured upper half. -/
def State.dropCaptured (s : State) (req low : Nat) : State :=
  { s with captured := s.captured.filter fun h => !(h.req == req && h.off == low) }

/-- Whether an offset is the lower half of a 64-bit pair, counters included. -/
def pairLow (off : Nat) : Bool :=
  isLow off || ((decide (0x120000 ≤ off) && decide (off < 0x140000)) || (decide (0x300800 ≤ off) && decide (off < 0x30A000))) && off % 8 == 0 &&
    (regAt off).isNone

/-- A 4-byte read at an aligned offset by a requester. -/
def State.read4 (s : State) (req off : Nat) : Nat × State :=
  if s.inReset then (0xFFFFFFFF, s)
  else if inMsix off then (s.msixWord ((off - 0x12000) / 16) ((off - 0x12000) / 4 % 4), s)
  else if inPba off then (s.host.msixPending / 2 ^ (8 * (off - 0x12400)) % 2 ^ 32, s)
  else match s.turnedAway off false with
    | some k => (0, s.aerr 0 off false k)
    | none =>
      if pairLow off then
        let s := s.dropCaptured req off
        (s.regView off, { s with captured := s.captured ++ [{ req := req, off := off, value := s.regView (off + 4) }] })
      else match s.capturedHigh req (off - 4) with
        | some v => (v, s.dropCaptured req (off - 4))
        | none => (s.regView off, s)

/-- A BAR0 read of a size in bytes by a requester (R445). DESIGN CHOICE: an aligned 8-byte read of a pair neither uses nor drops an upper half that the same
requester captured before by a 4-byte read; R8 is silent. -/
def State.busRead (s : State) (req off size : Nat) : Nat × State :=
  if size = 4 ∧ off % 4 = 0 then s.read4 req off
  else if size = 8 ∧ off % 8 = 0 then
    if pairLow off then
      if s.inReset then (2 ^ 64 - 1, s)
      else match s.turnedAway off false with
        | some k => (0, s.aerr 0 off false k)
        | none => (s.regView off + 2 ^ 32 * s.regView (off + 4), s)
    else
      let (a, s) := s.read4 req off
      let (b, s) := s.read4 req (off + 4)
      (a + 2 ^ 32 * b, s)
  else if s.inReset then (2 ^ (8 * size) - 1, s)
  else (0, s.aerr 0 off false 9)

end Sys2Proof.Machine
end

