-- ==== Sys2Proof/Safety.lean ====
section
/-! DEFINITION. What counts as a safe run of the block, and the terms in which the statements about it are put: a state with no report
waiting, a core that issues an instruction, what a retired instruction leaves alone, a register that takes a host write. -/

namespace Sys2Proof

open Machine

/-! Runs -/

/-- A step goes on: it answers a next state. -/
def Goes (s : State) : Prop := ∃ t, step s = .next t

/-- A run of `k` steps goes on to its end: each of its steps answers a next state. -/
def GoesFor : Nat → State → Prop
  | 0, _ => True
  | k + 1, s => ∃ t, step s = .next t ∧ GoesFor k t

/-- Between commands no fault report waits for the collector (R403) and no notice of an origin discard waits for its party (R226). -/
def Quiet (s : State) : Prop := s.fault.queue = [] ∧ s.switch.failed = []

/-! The sequencer -/

/-- Core L issues the instruction of this class and code at its program counter: it is in RUN with nothing holding issue, the word can be
fetched, is of the class and code, uses only its fields, its predicate holds, and no register it uses is still to be written (R58 to R63). -/
structure Issues (s : State) (L : Nat) (bad : Option Nat) (cls op : Nat) (legal : Nat → Bool) (uses : Nat → Uses) : Prop where
  ready : s.canIssue L = true
  fetch : s.fetchFault L bad = none
  cls : wClass (s.wordOf L) = cls
  op : wOp (s.wordOf L) = op
  legal : legal (s.wordOf L) = true
  pfree : (s.core L).conflict { p := [wPred (s.wordOf L)] } = false
  holds : (s.core L).holds (s.wordOf L) = true
  free : (s.core L).conflict (uses (s.wordOf L)) = false

/-- The core after the fetch of its word: the loop buffers hold it where a body of at most 64 words contains it (R58). -/
def fetchedCore (s : State) (L : Nat) : Core := (s.fetched L (s.wordOf L)).core L

/-- Nothing but core L's own state differs: its engine state, its program counter and status registers, its count of issued instructions, and
the cycle its scalar unit was busy. -/
structure OnlyCore (L : Nat) (s t : State) : Prop where
  cores : ∀ M, M ≠ L → t.core M = s.core M
  regs : ∀ r : Reg, r.off ≠ (SEQ_PC L).off → r.off ≠ (CORE_STATUS L).off → t.getR r = s.getR r
  state : t.cst L = s.cst L
  det : t.det = (s.modDet L fun d => { d with count := d.count + 1 }).det
  obs : t.obs = (s.busy (4 * L) 1).obs
  now : t.now = s.now
  ftime : t.ftime = s.ftime
  shadow : t.shadow = s.shadow
  heldWrites : t.heldWrites = s.heldWrites
  captured : t.captured = s.captured
  gddr : t.gddr = s.gddr ∧ t.gddrGen = s.gddrGen
  sram : t.sram = s.sram ∧ t.zeroed = s.zeroed
  pat : t.pat = s.pat
  jobs : t.jobs = s.jobs
  slots : t.slots = s.slots
  combines : t.combines = s.combines
  mem : t.mem = s.mem
  ports : t.ports = s.ports
  lanes : t.lanes = s.lanes
  switch : t.switch = s.switch
  col : t.col = s.col
  boot : t.boot = s.boot
  clock : t.clock = s.clock
  fault : t.fault = s.fault
  host : t.host = s.host
  power : t.power = s.power
  out : t.out = s.out
  free : t.free = s.free
  pending : t.pending = s.pending

/-- Core L retires its instruction and goes on at an index, its state becoming c: nothing else changes (R58, R59). -/
structure Retired (s : State) (L : Nat) (c : Core) (pc : Nat) (t : State) : Prop where
  core : t.core L = c
  pc : t.get (SEQ_PC_INDEX L) = pc % 2 ^ 18
  issues : t.flag (CORE_STATUS_STALLED L) = false
  rest : OnlyCore L s t

/-- Core L retires an instruction that holds its issue: as Retired, but the core shows itself stalled, for a reason of R419 (R74). -/
structure Held (s : State) (L : Nat) (c : Core) (pc reason : Nat) (t : State) : Prop where
  core : t.core L = c
  pc : t.get (SEQ_PC_INDEX L) = pc % 2 ^ 18
  stalled : t.flag (CORE_STATUS_STALLED L) = true
  reason : t.get (CORE_STATUS_STALL L) = reason % 8
  rest : OnlyCore L s t

/-- The index n words further on, and the loops left, once the loop bodies that end there have ended (R61). -/
def onward (s : State) (L : Nat) (c : Core) (n : Nat) : List Loop × Nat :=
  loopEnd c.loops ((s.get (SEQ_PC_INDEX L) + n) % 2 ^ 18)

/-- Core L retires its instruction and goes on n words further, its state becoming c but for the loops that end. -/
def RetiredOn (s : State) (L : Nat) (c : Core) (n : Nat) (t : State) : Prop :=
  Retired s L { c with loops := (onward s L c n).1 } (onward s L c n).2 t

/-- Core L retires an instruction that holds its issue, its state becoming c but for the loops that end; the next index is n words further. -/
def HeldOn (s : State) (L : Nat) (c : Core) (n reason : Nat) (t : State) : Prop :=
  Held s L { c with loops := (onward s L c n).1 } (onward s L c n).2 reason t

/-- Core L takes a program fault (R63): it enters FAULTED, the code and the index of the instruction are shown, the job that holds the core learns
of it, and nothing else changes. -/
structure Faulted (s : State) (L n : Nat) (t : State) : Prop where
  state : t.cst L = stFaulted
  code : t.get (SEQ_FAULT_CODE L) = n
  index : t.get (SEQ_FAULT_PC_INDEX L) = s.get (SEQ_PC_INDEX L)
  job : t.jobs = match (s.core L).job with
    | some k => s.jobs.map fun j => if j.key == k then { j with ends := j.ends ++ [(L, n)] } else j
    | none => s.jobs
  regs : ∀ r : Reg, r.off ≠ (SEQ_FAULT L).off → r.off ≠ (SEQ_FAULT_PC L).off → r.off ≠ (CORE_STATUS L).off → t.getR r = s.getR r
  rest : t = { s with regs := t.regs, jobs := t.jobs }

/-! Host writes -/

/-- The device takes a host write of a register: it has power and no device reset runs, the boot has reached READY or the register is of the PWR or
the HIF block, and the safe state allows the write (R384, R411, R449). -/
def Taken (s : State) (r : Reg) : Prop := s.inReset = false ∧ s.turnedAway r.off true = none

/-! Frames -/

/-- Nothing but registers differs. -/
def RegsOnly (s t : State) : Prop := t = { s with regs := t.regs }

/-- Every register but those at the offsets listed reads as before. -/
def RegsKept (offs : List Nat) (s t : State) : Prop := ∀ r : Reg, r.off ∉ offs → t.getR r = s.getR r

end Sys2Proof
end

