-- ==== Sys2Proof/Certificates/Slice0/Obligations.lean ====
section
/-! DEFINITION. The statements about the block. A statement says "exec answers next t" with t settled: every command ends by handing its fault
reports to the collector (Machine.State.settle), which changes nothing when none waits (Machine.State.settle_of_quiet). A statement of several parts is
the conjunction of propositions defined before it. -/

namespace Sys2Proof

open Machine

/-! The terms of the statements -/

/-- A command answers the next state u, once its reports have been taken up. -/
def Ends (i : Instr) (s u : State) : Prop := exec i s = .next u.settle

/-! The sequencer's instructions -/

/-- An instruction that issues completes: over the state `base` (the flags it raises, what it leaves outside its core), core L becomes `res` and
the program goes on n words further. -/
def CoreResult (mk : CoreIx → Option Nat → Instr) (cls op : Nat) (legal : Nat → Bool) (uses : Nat → Uses)
    (pre : State → Nat → Option Nat → Nat → Prop) (base : State → Nat → Nat → State) (res : State → Nat → Nat → Core → Core) (n : Nat → Nat) :
    Prop :=
  ∀ (core : CoreIx) (bad : Option Nat) (s : State), Quiet s → Issues s core.val bad cls op legal uses →
    let w := s.wordOf core.val
    pre s core.val bad w →
    ∃ t, exec (mk core bad) s = .next t ∧
      RetiredOn (base s core.val w) core.val (res s core.val w (fetchedCore s core.val)) (n w) t

/-- The registers a two-operand scalar instruction uses. -/
def scalarUses (w : Nat) : Uses := { g := wD w :: wA w :: opBReads w }

/-- A two-operand scalar instruction that issues completes: register d becomes f of the operands to 64 bits, G0 discarding it, and nothing else
changes but what retiring changes. -/
def ScalarResult (mk : CoreIx → Option Nat → Instr) (op : Nat) (f : Nat → Nat → Nat) : Prop :=
  ∀ (core : CoreIx) (bad : Option Nat) (s : State), Quiet s → Issues s core.val bad 1 op scalarLegal scalarUses →
    let w := s.wordOf core.val
    let c := s.core core.val
    let v := f (c.gval (wA w)) (c.opB w)
    ∃ t, exec (mk core bad) s = .next t ∧ RetiredOn s core.val ((fetchedCore s core.val).setG (wD w) v) 1 t ∧
      ∀ r, (t.core core.val).gval r = if r = wD w ∧ wD w ≠ 0 then v % 2 ^ 64 else c.gval r

/-- An immediate load that issues completes: register d becomes f of its old value and the word. -/
def ImmediateResult (mk : CoreIx → Option Nat → Instr) (op : Nat) (f : Nat → Nat → Nat) : Prop :=
  ∀ (core : CoreIx) (bad : Option Nat) (s : State), Quiet s → Issues s core.val bad 1 op liLegal (fun w => { g := [wD w] }) →
    let w := s.wordOf core.val
    let c := s.core core.val
    let v := f (c.gval (wD w)) w
    ∃ t, exec (mk core bad) s = .next t ∧ RetiredOn s core.val ((fetchedCore s core.val).setG (wD w) v) 1 t ∧
      ∀ r, (t.core core.val).gval r = if r = wD w ∧ wD w ≠ 0 then v % 2 ^ 64 else c.gval r

/-- A comparison that issues completes: predicate d becomes f of the operands, P0 discarding it, and nothing else changes but what retiring
changes. -/
def PredicateResult (mk : CoreIx → Option Nat → Instr) (op : Nat) (f : Nat → Nat → Bool) : Prop :=
  ∀ (core : CoreIx) (bad : Option Nat) (s : State), Quiet s →
    Issues s core.val bad 7 op predLegal (fun w => { g := wA w :: opBReads w, p := [wPd w] }) →
    let w := s.wordOf core.val
    let c := s.core core.val
    let b := f (c.gval (wA w)) (c.opB w)
    ∃ t, exec (mk core bad) s = .next t ∧ RetiredOn s core.val ((fetchedCore s core.val).setP (wPd w) b) 1 t ∧
      ∀ i, (t.core core.val).pval i = if i = wPd w ∧ wPd w ≠ 0 then b else c.pval i

/-- A vector instruction that issues completes: vector register d takes the lanes, the union of their flags sticks to CORE_EXC, and the register
stays busy until the engine ends. -/
def VectorResult (mk : CoreIx → Option Nat → Instr) (op : Nat) (legal : Nat → Bool) (uses : Nat → Uses)
    (lanes : Nat → Core → List (Nat × Flags)) : Prop :=
  ∀ (core : CoreIx) (bad : Option Nat) (s : State), Quiet s → Issues s core.val bad 4 op legal uses →
    let L := core.val
    let w := s.wordOf L
    let c := s.core L
    let rs := lanes w c
    let fs := rs.map (·.2)
    ∃ t, exec (mk core bad) s = .next t ∧
      RetiredOn (s.raise L (Flags.union fs) 1 (s.wordAt L) (invalidCount fs)) L
        { (fetchedCore s L).setV (wD w) (rs.map (·.1)) with ops := c.ops ++ [{ eng := .vxu, vs := [wD w] }] } 1 t ∧
      ∀ r, (t.core L).vreg r = if r = wD w then rs.map (·.1) else c.vreg r

/-- A mnemonic row of the sequencer: the constructor, its class, its code, and the fields it may use. -/
abbrev SeqRow := (CoreIx → Option Nat → Instr) × Nat × Nat × (Nat → Bool)

def scalarRows : List SeqRow :=
  [(.nop, 0, 0, fun w => onlyFields w []), (.halt, 0, 1, fun w => onlyFields w []), (.jmp, 0, 2, jmpLegal), (.loop, 0, 3, loopLegal),
   (.add, 1, 0, scalarLegal), (.sub, 1, 1, scalarLegal), (.and, 1, 2, scalarLegal), (.or, 1, 3, scalarLegal), (.xor, 1, 4, scalarLegal),
   (.shl, 1, 5, scalarLegal), (.shr, 1, 6, scalarLegal), (.sra, 1, 7, scalarLegal), (.mul, 1, 8, scalarLegal), (.min, 1, 9, scalarLegal),
   (.max, 1, 10, scalarLegal), (.li, 1, 11, liLegal), (.lih, 1, 12, liLegal),
   (.ldg, 2, 0, ldstLegal), (.stg, 2, 1, ldstLegal), (.vld, 2, 2, ldstLegal), (.vst, 2, 3, ldstLegal),
   (.ldw, 3, 0, ldwLegal), (.mma, 3, 1, mmaLegal), (.drain, 3, 2, drainLegal)]

def vectorRows : List SeqRow :=
  [(.vadd, 4, 0, v2Legal true), (.vsub, 4, 1, v2Legal true), (.vmul, 4, 2, v2Legal true), (.vfma, 4, 3, v3Legal true), (.vmax, 4, 4, v2Legal false),
   (.vmin, 4, 5, v2Legal false), (.vcmp, 4, 6, v3Legal false), (.vsel, 4, 7, v3Legal false), (.vcvt, 4, 8, vcvtLegal), (.vexp, 4, 9, v1Legal),
   (.vrcp, 4, 10, v1Legal), (.vrsq, 4, 11, v1Legal), (.vred, 4, 12, vredLegal), (.vbcast, 4, 13, vmoveLegal), (.vmovg, 4, 14, vmoveLegal),
   (.vmovv, 4, 15, fun w => onlyFields w [(43, 5), (38, 5)])]

def syncRows : List SeqRow :=
  [(.dmaq, 5, 0, dmaqLegal), (.evwait, 6, 0, fun w => onlyFields w [(43, 5), (38, 5)]),
   (.evadd, 6, 1, fun w => onlyFields w [(43, 5), (0, 32)]), (.signal, 6, 2, fun w => onlyFields w [(43, 5), (38, 5), (0, 32)]),
   (.gbar, 6, 3, fun w => onlyFields w [(0, 1)]), (.sfence, 6, 4, fun w => onlyFields w []), (.dmawait, 6, 5, fun w => onlyFields w [(0, 2)]),
   (.peq, 7, 0, predLegal), (.pne, 7, 1, predLegal), (.plt, 7, 2, predLegal), (.pge, 7, 3, predLegal), (.pltu, 7, 4, predLegal),
   (.pgeu, 7, 5, predLegal)]

def condRows : List SeqRow :=
  [(.ldws, 8, 0, ldwsLegal), (.mmaz, 8, 1, mmazLegal), (.zmap, 8, 2, zmapLegal), (.skip, 8, 3, fun w => onlyFields w [(0, 8)] && bits w 0 8 != 0),
   (.topk, 8, 4, topkLegal), (.slotset, 8, 5, fun w => onlyFields w [(38, 5), (33, 5), (28, 5), (20, 5)]), (.bclass, 8, 6, bclassLegal),
   (.emask, 8, 7, fun w => onlyFields w [(38, 5), (28, 5), (20, 5)])]

/-- The mnemonic rows of the sequencer. -/
def sequencerRows : List SeqRow := scalarRows ++ vectorRows ++ syncRows ++ condRows

/-- An SRAM access that is aligned, inside the grant, and of good parity. -/
def AccessOk (s : State) (L : Nat) (bad : Option Nat) (a n align : Nat) : Prop :=
  a % align = 0 ∧ a + n ≤ s.grant L ∧ ∀ b, bad = some b → ¬(a ≤ b ∧ b < a + n)

/-- A load or store address of LDST that keeps the rules of R61 and R63. -/
def LdstOk (s : State) (L : Nat) (bad : Option Nat) (w n align : Nat) : Prop := AccessOk s L bad ((s.core L).ldstAddr w) n align

/-- What an MMA or MMAZ needs to run on a tile: the formats suit, and every activation row, and the bitmap of an MMAZ, can be read. -/
structure MmaReady (s : State) (L : Nat) (bad : Option Nat) (x : MmaArgs) (t : WTile) : Prop where
  fits : mmaFits x t = true
  map : ∀ a, x.bitmap = some a → s.accessFault L bad a ((x.rows * max 1 (tileK ((mxeRow x.fmtA).getD 0) t.mode / 32) + 7) / 8) 8 = none
  rows : ∀ r < x.rows, s.accessFault L bad (x.rowAddr r) (actBytes x.fmtA (tileK ((mxeRow x.fmtA).getD 0) t.mode)) 1 = none
  inside : ∀ r < x.rows, s.accessFault L none (x.rowAddr r) (actBytes x.fmtA (tileK ((mxeRow x.fmtA).getD 0) t.mode)) 1 = none

/-- What an MMA or MMAZ computes on a tile (R51, R86, R87, R128 to R132). -/
def mmaOutcome (s : State) (L : Nat) (x : MmaArgs) (t : WTile) : MmaRes :=
  let row := (mxeRow x.fmtA).getD 0
  let k := tileK row t.mode
  let b := max 1 (k / 32)
  let bm := x.bitmap.map fun a => s.engRead L .mxe a ((x.rows * b + 7) / 8)
  mmaRun t row x.fmtA x.fmtW x.ovf x.accum ((s.core L).tile x.tile) (s.actRows L x (actBytes x.fmtA k) b bm)

/-- An MMA or MMAZ that issues completes (R51, R52): the shadow tile is taken, the accumulator tile holds the outcome, and its flags stick. -/
def MmaResult (mk : CoreIx → Option Nat → Instr) (cls op : Nat) (legal : Nat → Bool) (uses : Nat → Uses) (args : Core → Nat → MmaArgs) : Prop :=
  ∀ (core : CoreIx) (bad : Option Nat) (s : State) (tile : WTile) (k : Core), Quiet s → Issues s core.val bad cls op legal uses →
    let L := core.val
    let w := s.wordOf L
    let x := args (s.core L) w
    (fetchedCore s L).takeTile = (some tile, k) → MmaReady s L bad x tile →
    let r := mmaOutcome s L x tile
    ∃ t, exec (mk core bad) s = .next t ∧
      RetiredOn (s.raise L r.flags 0 (r.first.getD 0) r.invalids) L
        { k.setTile x.tile r.tile with
          accInt := putBits k.accInt x.tile 1 (b2n (mulKind ((mxeRow x.fmtA).getD 0) x.fmtA x.fmtW == .ints))
          ops := k.ops ++ [{ eng := .mxe, accs := [x.tile] }] } 1 t ∧
      (t.core L).tile x.tile = r.tile ∧ (t.core L).wShadow = none ∧ (t.core L).wActive = some tile

/-! Waits and their ends -/

/-- The wait of core L ends: it may issue again, and nothing else changes. -/
structure WaitEnds (s : State) (L : Nat) (t : State) : Prop where
  core : t.core L = { s.core L with wait := none }
  others : ∀ M, M ≠ L → t.core M = s.core M
  issues : t.flag (CORE_STATUS_STALLED L) = false
  state : t.cst L = s.cst L
  regs : RegsKept [(CORE_STATUS L).off] s t
  rest : t = { s with regs := t.regs, cores := t.cores }

/-! Host writes -/

/-- A register with a meaning beyond its stored bits, by the offset of its array. -/
def controlRegs : List Reg :=
  [PWR_RESET, PWR_CLK_CTRL, PWR_FTIME_CTRL, PWR_RECOVERY_LEN, HIF_NBR_TX_CTRL, HIF_NBR_RX_POP, HIF_MBOX_CMD, HIF_SQ_CFG 0, HIF_SQ_TAIL 0,
   SEC_CTRL, SEC_SIGNER_VALID, SEC_SIGNER 0 0, PAT_CTRL, PAT_SEAM_CTRL, FLT_CTRL, FLT_STATUS, FLT_FENCE_CMD, OBS_CTRL, OBS_TRACE_CTRL,
   CORE_CTRL 0, CORE_EXC 0, MEM_CTRL, MEM_SPLIT, MEM_TRAIN_CTRL, MEM_SHD_CFG 0, MEM_SHD_STATE 0, MEM_XLATE_CTRL 0, LNK_CTRL 0, LNK_PING_CTRL 0] ++
  [RTE_PORT_UP, RTE_CFG, RTE_PORT_MASK, SWC_CTRL, SWC_MARK, BPM_CTRL, SCH_CTRL, COL_CTRL, COL_BACKUP_GO, COL_DOM_CTRL 0, DET_START_CTRL]

/-- The value a register keeps from a write, the owner of its RWP bits disabled (R9): RW and RWP bits take the value, W1C bits clear where it is
one, every other bit stays. -/
def storedValue (row : RegRow) (old v : Nat) : Nat := maskIn (maskIn (maskIn old v row.rw) 0 (v &&& row.w1c)) v row.rwp

/-! Cores, jobs, rings -/

/-- Value v without its bit i, or with it. -/
abbrev wordWith (v : Word) (i : Nat) : Nat := (setBit v i).toNat

abbrev wordWithout (v : Word) (i : Nat) : Nat := (clearBit v i).toNat

/-- A command that is a host write of one register: the register and the value written. -/
abbrev HostWrite := Instr × Reg × Word

def IsHostWrite (s : State) (x : HostWrite) : Prop := exec x.1 s = exec (.registerWrite hostReq x.2.1.off 4 x.2.2.toNat) s

/-! Memory -/

/-- The state of a memory controller. -/
abbrev ctlState (s : State) (c : Nat) : Nat := s.get (MEM_CH_STATUS_STATE c)

/-! Packets at the endpoints -/

/-! The core DMA -/

/-- A row that starts a descriptor: the constructor, the operation, when its memory makes it wait, and what it then does. -/
abbrev DescRow := (CoreIx → QueueIx → Option Nat → Instr) × Nat × (Nat → State → Desc → Bool) × (Nat → Nat → Option Nat → State → Desc → State)

def dmaRows : List DescRow :=
  [(.copy, 0x01, fun _ s d => s.memWaits d.src d.len || s.memWaits d.dst d.len, copyDesc),
   (.fill, 0x02, fun _ s d => s.memWaits d.dst d.len, fillDesc),
   (.fwrite, 0x10, fun _ s d => s.memWaits d.src d.len, fwriteDesc),
   (.fread, 0x11, fun _ s d => s.memWaits d.dst d.len, freadDesc),
   (.racc, 0x12, fun _ s d => s.memWaits d.src d.len, raccDesc),
   (.mcast, 0x13, fun _ s d => s.memWaits d.src d.len, mcastDesc),
   (.rsignal, 0x14, fun _ _ _ => false, fun L q _ => rsignalDesc L q),
   (.dispatch, 0x30, fun _ s d => s.memWaits d.src 1 || s.memWaits d.dst 1 || s.memWaits (dsMap d) 1, dispatchDesc),
   (.combine, 0x31, fun _ s d => s.memWaits d.src 1 || s.memWaits d.dst 1, combineDesc),
   (.combineRecv, 0x32, fun _ s d => s.memWaits d.src 1 || s.memWaits d.dst 1 || s.memWaits (cmScratch d.bytes) 1,
     fun L q _ => combineRecvDesc L q),
   (.ringpass, 0x33, fun _ s d => s.memWaits d.src d.len, ringpassDesc)]

def collectiveRows : List DescRow :=
  [(.allreduce, 0x20, fun L s d => s.noEntry L d || s.memWaits d.src 1 || s.memWaits d.dst 1, colDesc),
   (.reduce, 0x21, fun L s d => s.noEntry L d || s.memWaits d.src 1 || s.memWaits d.dst 1, colDesc),
   (.reduceScatter, 0x22, fun L s d => s.noEntry L d || s.memWaits d.src 1 || s.memWaits d.dst 1, colDesc),
   (.allgather, 0x23, fun L s d => s.noEntry L d || s.memWaits d.src 1 || s.memWaits d.dst 1, colDesc),
   (.broadcast, 0x24, fun L s d => s.noEntry L d || s.memWaits d.src 1 || s.memWaits d.dst 1, colDesc),
   (.barrier, 0x25, fun L s d => s.noEntry L d || s.memWaits d.src 1 || s.memWaits d.dst 1, colDesc),
   (.scalar, 0x26, fun L s d => s.noEntry L d || s.memWaits d.src 1 || s.memWaits d.dst 1, colDesc),
   (.permute, 0x27, fun L s d => s.noEntry L d || s.memWaits d.src 1 || s.memWaits d.dst 1, colDesc),
   (.backup, 0x28, fun L s d => s.noEntry L d || s.memWaits d.src 1 || s.memWaits d.dst 1, colDesc)]

/-- The rows that start a descriptor. -/
def descriptorRows : List DescRow := dmaRows ++ collectiveRows

/-! The collective engine -/

/-- The role in a context, and that the device has not met its fatal decision. -/
def RunsRole (s : State) (i : Nat) (r : Role) : Prop := s.fatal = false ∧ s.role i = some r

/-! Links -/

/-- What a write of LNK_CTRL stores before it acts: registers, and a record when RWP bits were refused; the link state stays. -/
structure LinkStored (s u : State) (p : Nat) (en : Bool) : Prop where
  same : u = { s with regs := u.regs, host := u.host, out := u.out }
  enabled : u.flag (LNK_CTRL_EN p) = en
  state : u.lst p = s.lst p

/-! Switch core -/

/-! Pattern -/

/-- An image accepted for a command of PAT_CTRL: its pieces, its generation, its hash (R15, R18, R29). -/
def acceptImage (s : State) (op : Nat) (bs : List Byte) : State :=
  let ps := (entriesOf bs).map (·.piece bs)
  let hash := sha256 (bs.take (bs.length - 1024))
  if op = 0 then s.install ps (field bs 0x0C 4) hash else if op = 1 then s.stage ps (field bs 0x0C 4) hash else s.drained ps (field bs 0x0C 4) hash

/-! Resets and boot -/

/-- A device that a reset has left inert (R13, R378): nothing of the pattern, the cores, the jobs, the memories, the links, the switch, the collectives, the
faults and the counters is left; the local time base, the free values drawn and the commands that wait stay. -/
structure Inert (s t : State) : Prop where
  pat : t.pat = {}
  cores : t.cores = [] ∧ t.jobs = [] ∧ t.slots = [] ∧ t.combines = [] ∧ t.det = {}
  memory : t.gddr = [] ∧ t.gddrGen = s.gddrGen + 1 ∧ t.sram = [] ∧ t.zeroed = [] ∧ t.mem = {}
  fabric : t.ports = [] ∧ t.lanes = [] ∧ t.switch = {} ∧ t.col = {}
  rest : t.clock = { refGone := s.clock.refGone } ∧ t.fault = {} ∧ t.obs = {} ∧ t.shadow = [] ∧ t.heldWrites = [] ∧ t.captured = []
  time : t.now = s.now ∧ t.ftime = 0 ∧ t.free = s.free ∧ t.pending = s.pending
  /-- The lanes of the ports that carried a signal have gone to electrical idle (R379), and nothing else has left the block. -/
  out : ∃ ps : List Nat, t.out = s.out ++ ps.map Out.idle
  flash : t.boot.slotA = s.boot.slotA ∧ t.boot.slotB = s.boot.slotB ∧ t.boot.prefB = s.boot.prefB

/-- A reset keeps the registers that a test names, but for the causes of reset, and returns every other to its reset value. -/
def KeepsRegs (keep : Nat → Bool) (s t : State) : Prop :=
  ∀ r : Reg, r.off ≠ PWR_RESET_CAUSE.off → t.getR r = if keep r.off then s.getR r else r.reset % 2 ^ 32

/-- PWR_BOOT_STATUS and PWR_ID_HASH. -/
def bootResult (off : Nat) : Bool := off == PWR_BOOT_STATUS.off || (decide ((PWR_ID_HASH 0).off ≤ off) && decide (off < (PWR_ID_HASH 0).off + 32))

/-! Clock and fabric time -/

/-! Faults, power -/

/-- The reports a batch holds of fatal-class sources. -/
def fatalReports (es : List FaultEv) : Nat := (es.filter fun e => (source e.src).any (·.cls == 2)).length

/-! Observability -/

/-- OBS_CTRL with the two settings of a value stored. -/
def obsSet (s : State) (v : Word) : State := (s.set OBS_CTRL_SNAP_ON_JOB (bits v.toNat 2 1)).set OBS_CTRL_RESET_ON_JOB (bits v.toNat 3 1)

/-! Host memory and mailbox -/

/-! Management port -/

/-- A word whose predicate, after inversion, is false retires as a no-op, whatever its instruction (R60): nothing changes but what retiring
changes. -/
def FalsePredicateSkips : Prop :=
  ∀ row ∈ sequencerRows, ∀ (core : CoreIx) (bad : Option Nat) (s : State), Quiet s →
    let L := core.val
    let w := s.wordOf L
    s.canIssue L = true → s.fetchFault L bad = none → wClass w = row.2.1 → wOp w = row.2.2.1 → row.2.2.2 w = true →
    (s.core L).conflict { p := [wPred w] } = false → (s.core L).holds w = false →
    ∃ t, exec (row.1 core bad) s = .next t ∧ RetiredOn s L (fetchedCore s L) 1 t

/-- A word that cannot be had, has a reserved class, an undefined code or a nonzero unused field is a program fault of codes 0x04, 0x01, 0x02
and 0x03, whatever its predicate (R63); and a word of another instruction is not this row's: nothing changes. -/
def IllegalWordsFault : Prop :=
  ∀ row ∈ sequencerRows, ∀ (core : CoreIx) (bad : Option Nat) (s : State), Quiet s →
    let L := core.val
    let w := s.wordOf L
    s.canIssue L = true →
    (s.fetchFault L bad = some 0x04 → ∃ t, exec (row.1 core bad) s = .next t ∧ Faulted s L 0x04 t) ∧
    (s.fetchFault L bad = none → 9 ≤ wClass w → ∃ t, exec (row.1 core bad) s = .next t ∧ Faulted s L 0x01 t) ∧
    (s.fetchFault L bad = none → wClass w < 9 → definedOp (wClass w) (wOp w) = false →
      ∃ t, exec (row.1 core bad) s = .next t ∧ Faulted s L 0x02 t) ∧
    (s.fetchFault L bad = none → wClass w = row.2.1 → wOp w = row.2.2.1 → row.2.2.2 w = false →
      ∃ t, exec (row.1 core bad) s = .next t ∧ Faulted s L 0x03 t) ∧
    (s.fetchFault L bad = none → definedOp (wClass w) (wOp w) = true → (wClass w ≠ row.2.1 ∨ wOp w ≠ row.2.2.1) →
      exec (row.1 core bad) s = .next s)

/-- The ends of waits (R61, R62, R70 to R72): issue goes on exactly when the condition holds; an engine's oldest operation ends with its stores
visible. While the condition does not hold nothing changes. -/
def WaitsEnd : Prop :=
  (∀ (core : CoreIx) (s : State) (e target : Nat), Quiet s → s.fatal = false → s.cst core.val = stRun →
    (s.core core.val).wait = some (.evwait e target) →
    (evtReached ((s.core core.val).evtVal e) target = true → ∃ t, exec (.evwaitSatisfied core) s = .next t ∧ WaitEnds s core.val t) ∧
    (evtReached ((s.core core.val).evtVal e) target = false → exec (.evwaitSatisfied core) s = .next s)) ∧
  (∀ (core : CoreIx) (s : State) (q : Nat), Quiet s → s.fatal = false → s.cst core.val = stRun →
    (s.core core.val).wait = some (.dmawait q) →
    (s.queueOf core.val q = [] → ∃ t, exec (.dmawaitDone core) s = .next t ∧ WaitEnds s core.val t) ∧
    (s.queueOf core.val q ≠ [] → exec (.dmawaitDone core) s = .next s)) ∧
  (∀ (core : CoreIx) (s : State), Quiet s → s.fatal = false → s.cst core.val = stRun → (s.core core.val).wait = some .sfence →
    let L := core.val
    let stores := ((s.core L).ops.map (·.stores)).flatten
    let shown := stores.foldl (fun u st => u.sramWrite L st.1 st.2) s
    ∃ t, exec (.sfenceDone core) s = .next t ∧
      WaitEnds (shown.modCore L fun c => { c with ops := c.ops.filter (·.stores.isEmpty) }) L t) ∧
  (∀ (core : CoreIx) (s : State), Quiet s → s.fatal = false → s.cst core.val = stRun → (s.core core.val).wait = some .halt →
    let L := core.val
    ((s.core L).ops = [] → (s.core L).queues.all (·.isEmpty) = true →
      ∃ t, exec (.coreHalted core) s = .next t ∧ t.cst L = stHalted ∧ t.core L = { s.core L with wait := none } ∧
        RegsKept [(CORE_STATUS L).off] s t ∧ t = { s with regs := t.regs, cores := t.cores }) ∧
    (((s.core L).ops ≠ [] ∨ (s.core L).queues.all (·.isEmpty) = false) → exec (.coreHalted core) s = .next s)) ∧
  (∀ (core : CoreIx) (eng : EngIx) (s : State), Quiet s → s.fatal = false →
    let L := core.val
    (∀ o, (s.core L).ops.find? (·.eng == engOf eng.val) = some o → ∃ t, exec (.engineOpDone core eng) s = .next t ∧
      t = (o.stores.foldl (fun u st => u.sramWrite L st.1 st.2) s).modCore L fun c => { c with ops := c.ops.erase o }) ∧
    ((s.core L).ops.find? (·.eng == engOf eng.val) = none → exec (.engineOpDone core eng) s = .next s))

/-- The barrier of a job (R71, R338, R340): nothing happens until every core of it waits there; an ordinary one passes every core; cores that
disagree on STEP pass and fault with ILLEGAL_OPERAND; a step barrier moves the step counter on unless a collective of the step before is still
under way or its time has not come. -/
def BarrierCompletes : Prop :=
  ∀ (core : CoreIx) (s : State) (j : Job), Quiet s → s.fatal = false → s.coreJob core.val = some j →
    let steps := j.cores.map fun L => ((s.core L).gbarStep).getD false
    (s.allAtBar j = false → exec (.gbarComplete core) s = .next s) ∧
    (s.allAtBar j = true → (j.ring = none ∨ ∀ b ∈ steps, b = false) → Ends (.gbarComplete core) s (j.cores.foldl State.passBar s)) ∧
    (s.allAtBar j = true → j.ring ≠ none → true ∈ steps → false ∈ steps →
      Ends (.gbarComplete core) s (j.cores.foldl (fun u L => u.programFault L 0x03) (j.cores.foldl State.passBar s))) ∧
    (s.allAtBar j = true → j.ring ≠ none → true ∈ steps → false ∉ steps → s.oldCollective j = false → s.barFrom j.group ≤ s.now →
      Ends (.gbarComplete core) s (s.stepBar j))

/-- Answers to the packets of a core (R67, R154, R210, R225, R256, R261, R265): an acknowledgement ends its packet, a retry sends it again after a
microsecond, a refusal fails its descriptor; an answer that matches nothing is counted as stale. -/
def AnswerPackets : Prop :=
  (∀ s : State, Quiet s → (s.takePkt false 0x01 = none → exec .ack s = .next s) ∧ (s.takePkt false 0x02 = none → exec .retry s = .next s) ∧
    (s.takePkt false 0x03 = none → exec .refuse s = .next s)) ∧
  (∀ (s u : State) (x : Inb), Quiet s → s.takePkt false 0x01 = some (x, u) → x.pkt.destEp < 144 →
    let p := x.pkt
    let L := p.destEp
    (∀ q d o, u.outstOf L (answersOutst p) = some (q, d, o) → o.xfer.op ≠ 0x43 → o.need ≤ 1 →
      Ends .ack s ((u.dropOutst L q d.number o).advance L q d.number o.xfer)) ∧
    (u.outstOf L (answersOutst p) = none → u.loggedSignal L p.ctag = none → (u.core L).left.find? (answersOutst p) = none →
      Ends .ack s (u.count (DET_CORE_STALE_COUNT L)))) ∧
  (∀ (s u : State) (x : Inb), Quiet s → s.takePkt false 0x02 = some (x, u) → x.pkt.destEp < 144 →
    let L := x.pkt.destEp
    (∀ q d o, u.outstOf L (answersOutst x.pkt) = some (q, d, o) →
      Ends .retry s (u.modDesc L q d.number fun d =>
        { d with outst := d.outst.map fun y => if y = o then { o with retryAt := some (u.now + 1650) } else y })) ∧
    (u.outstOf L (answersOutst x.pkt) = none → (u.core L).left.find? (answersOutst x.pkt) = none →
      Ends .retry s (u.count (DET_CORE_STALE_COUNT L)))) ∧
  (∀ (s u : State) (x : Inb), Quiet s → s.takePkt false 0x03 = some (x, u) → x.pkt.destEp < 144 →
    let L := x.pkt.destEp
    let code := field x.pkt.pay 0 1
    ∀ q d o, u.outstOf L (answersOutst x.pkt) = some (q, d, o) →
      Ends .refuse s ((u.failPacket L q d.number o (if (1 ≤ code ∧ code ≤ 7) ∨ code = 14 then 7 else if code = 8 then 9 else 8)).pump L))

/-- The replicator (R253 to R255): it works on the packet that waits longest, and on the oldest residue with a destination that has become ready,
until the fatal decision. -/
def ReplicatorRows : Prop :=
  ∀ s : State, Quiet s →
    (s.fatal = true → exec .mcastPacket s = .next s ∧ exec .mcastResidueServe s = .next s) ∧
    (s.fatal = false → Ends .mcastPacket s s.replicate ∧
      let ready (r : Residue) : Bool := match s.bufPkt r.head with
        | some b => (onesBelow 25 r.dests).any fun d => s.mcastReady b.pkt b.input d
        | none => true
      (∀ i, s.switch.residues.findIdx? ready = some i → Ends .mcastResidueServe s (s.serveResidue i false)) ∧
      (s.switch.residues.findIdx? ready = none → exec .mcastResidueServe s = .next s))

/-- CORE_ENABLE, CORE_DISABLE and CORE_START (R72, R73, R80, R407): an enabled core of OFF zeroes its SRAM for 1,024 ACLK, one in SHUTDOWN waits, a
fenced one discards the write, and without a live pattern a core stays in OFF (R13); a disabled core stops and enters SHUTDOWN; START runs an idle
core that no job holds, from word 0. -/
def CoreControl : Prop :=
  (∀ (core : CoreIx) (v : Word) (s : State), Quiet s → Taken s (CORE_CTRL core.val) → bit v.toNat 1 = false →
    let L := core.val
    (s.cst L = stOff → s.patLive = false → Ends (.coreEnable core v) s (s.set (CORE_CTRL_EN L) 1)) ∧
    (s.cst L = stOff → s.patLive = true → ∃ t, exec (.coreEnable core v) s = .next t ∧ t.cst L = stZeroing ∧
      t.core L = { s.core L with zeroEnd := s.now + 512 } ∧ (∀ M, M ≠ L → t.core M = s.core M) ∧ t.flag (CORE_CTRL_EN L) = true ∧
      RegsKept [(CORE_CTRL L).off, (CORE_STATUS L).off] s t ∧ t = { s with regs := t.regs, cores := t.cores }) ∧
    (s.cst L = stShutdown → Ends (.coreEnable core v) s ((s.set (CORE_CTRL_EN L) 1).set (CORE_CTRL_ENABLE_PENDING L) 1)) ∧
    (s.cst L = stFenced → Ends (.coreEnable core v) s (s.aerr 0 (CORE_CTRL L).off true 2))) ∧
  (∀ (core : CoreIx) (v : Word) (s : State), Quiet s → Taken s (CORE_CTRL core.val) → bit v.toNat 1 = false →
    let L := core.val
    let u := (s.set (CORE_CTRL_EN L) 0).set (CORE_CTRL_ENABLE_PENDING L) 0
    (s.cst L ∈ [stIdle, stRun, stHalted, stFaulted] → ∃ k, Ends (.coreDisable core v) s k ∧ k = u.shutCore L ∧ k.cst L = stShutdown) ∧
    (s.cst L ∈ [stOff, stZeroing, stShutdown] → Ends (.coreDisable core v) s u)) ∧
  (∀ (core : CoreIx) (v : Word) (s : State), Quiet s → Taken s (CORE_CTRL core.val) → bit v.toNat 0 = true →
    let L := core.val
    (s.cst L = stIdle → (s.core L).job = none → ∃ k, Ends (.coreStart core v) s k ∧ k.cst L = stRun ∧ k.get (SEQ_PC_INDEX L) = 0 ∧
      k.getR (SEQ_FAULT L) = 0 ∧ k.core L = { job := some s.host.nextJob }) ∧
    (s.cst L ∈ [stRun, stHalted, stFaulted] → Ends (.coreStart core v) s ((s.set (CORE_CTRL_EN L) 1).aerr 0 (CORE_CTRL L).off true 2)))

/-- ZEROING_DONE and CORE_SHUTDOWN_DONE (R48, R72, R73): at the end of the 1,024 ACLK a core is IDLE with its SRAM zero; a core that has shut down is
OFF, its engines cleared, and zeroes again when EN is set; answers that are missing are waited for up to the age limit. A core in another state is
left alone. -/
def CoreZeroingAndShutdown : Prop :=
  (∀ (core : CoreIx) (s : State), Quiet s → s.fatal = false →
    let L := core.val
    let u := s.passTo (s.core L).zeroEnd
    let z := match u.phys L with
      | some P => u.sramZero P
      | none => u
    (s.cst L = stZeroing → z.flag (CORE_CTRL_EN L) = true → Ends (.zeroingDone core) s (z.setCst L stIdle) ∧ (z.setCst L stIdle).cst L = stIdle) ∧
    (s.cst L = stZeroing → z.flag (CORE_CTRL_EN L) = false → Ends (.zeroingDone core) s (z.setCst L stOff) ∧ (z.setCst L stOff).cst L = stOff) ∧
    (s.cst L ≠ stZeroing → exec (.zeroingDone core) s = .next s)) ∧
  (∀ (core : CoreIx) (s : State), Quiet s → s.fatal = false →
    let L := core.val
    (s.cst L = stShutdown →
      let w := if (s.core L).left = [] then s else s.passTo ((s.core L).shutAt + s.ageLimit)
      let u := w.endShut L
      u.core L = { job := (u.core L).job } ∧ u.cst L = stOff ∧ u.flag (CORE_CTRL_ENABLE_PENDING L) = false ∧
        ((s.core L).job = none → (s.core L).left = [] → u.core L = {}) ∧
        (u.flag (CORE_CTRL_EN L) = false → Ends (.coreShutdownDone core) s u) ∧
        (u.flag (CORE_CTRL_EN L) = true → Ends (.coreShutdownDone core) s (u.zeroCore L))) ∧
    (s.cst L ≠ stShutdown → exec (.coreShutdownDone core) s = .next s))

/-- Ring control (R451, R473): a ring enabled from OFF starts at index 0 with no error and is on; a disabled one is off; a tail outside the ring
is discarded and recorded with kind 2; any other tail, and any head of the completion ring, is taken. -/
def RingControl : Prop :=
  (∀ (ring : RingIx) (v : Word) (s : State), Quiet s → Taken s (HIF_SQ_CFG ring.val) → (s.ring ring.val).on = false →
    ∃ t, exec (.ringEnable ring v) s = .next t ∧ (t.ring ring.val).on = true ∧ t.sqHead ring.val = 0 ∧ t.cqTail ring.val = 0 ∧
      t.get (HIF_RING_STATUS_ERROR ring.val) = 0 ∧ t.get (HIF_SQ_CFG_LOG2_ENTRIES ring.val) = v.toNat % 32 ∧
      RegsKept [(HIF_SQ_CFG ring.val).off, (HIF_SQ_HEAD ring.val).off, (HIF_CQ_TAIL ring.val).off, (HIF_RING_STATUS ring.val).off] s t ∧
      t = { s with regs := t.regs, host := t.host }) ∧
  (∀ (ring : RingIx) (v : Word) (s : State), Quiet s → Taken s (HIF_SQ_CFG ring.val) →
    ∃ t, exec (.ringDisable ring v) s = .next t ∧ (t.ring ring.val).on = false ∧ t.flag (HIF_SQ_CFG_EN ring.val) = false ∧
      t = { s with regs := t.regs, host := t.host, out := t.out }) ∧
  (∀ (ring : RingIx) (v : Word) (s : State), Quiet s → Taken s (HIF_SQ_TAIL ring.val) →
    (v.toNat % 65536 < s.ringSize ring.val → ∃ t, exec (.sqDoorbell ring v) s = .next t ∧ t.sqTail ring.val = v.toNat % 65536 ∧
      RegsKept [(HIF_SQ_TAIL ring.val).off] s t ∧ RegsOnly s t) ∧
    (s.ringSize ring.val ≤ v.toNat % 65536 → Ends (.sqDoorbell ring v) s (s.aerr 0 (HIF_SQ_TAIL ring.val).off true 2))) ∧
  (∀ (ring : RingIx) (v : Word) (s : State), Quiet s → Taken s (HIF_CQ_HEAD ring.val) →
    ∃ t, exec (.cqDoorbell ring v) s = .next t ∧ t.cqHead ring.val = v.toNat % 65536 ∧
      RegsKept [(HIF_CQ_HEAD ring.val).off] s t ∧ RegsOnly s t)

/-- A completion record (R455 to R458) is 32 bytes, is written at CQ_TAIL, and moves CQ_TAIL on modulo the size of the ring; after TIMER microseconds
from the first record not signalled the ring's vector is raised. -/
def CompletionRecords : Prop :=
  (∀ (c : CqRec) (phase : Bool), (c.bytes phase).length = 32) ∧
  (∀ (s : State) (r : Nat) (c : CqRec), r < 16 →
    let t := s.writeCq r c
    t.cqTail r = (s.cqTail r + 1) % s.ringSize r % 65536 ∧
      (∃ more, t.out = s.out ++ .hostWrite (s.getR64 (HIF_CQ_BASE r) + 32 * s.cqTail r) (c.bytes (!(s.ring r).oddPass)) :: more) ∧
      RegsKept [(HIF_CQ_TAIL r).off] s t) ∧
  (∀ (ring : RingIx) (s : State), Quiet s →
    let r := ring.val
    let us := s.get (HIF_CQ_INT_TIMER r)
    (us ≠ 0 → (s.ring r).unsignalled ≠ 0 → Ends (.cqIntTimer ring) s ((s.passTo ((s.ring r).firstAt + fclk us)).signalRing r)) ∧
    ((us = 0 ∨ (s.ring r).unsignalled = 0) → exec (.cqIntTimer ring) s = .next s))

/-- Snapshots and resets of the counters (R290, R423 to R425): a snapshot copies every set and its fabric time, once in an FCLK; an arm waits for a time to
come, else LATE is set; a reset of all sets is due in the next cycle; and the sampler's visit passes an FCLK. -/
def Snapshots : Prop :=
  (∀ s : State, s.obs.lastSnap ≠ some s.now → s.snapshot.obs = { s.obs with snap := s.obs.live, lastSnap := some s.now } ∧
    s.snapshot.getR64 OBS_SNAP_TAKEN = s.ft ∧ s.snapshot.get OBS_SNAP_COUNT_COUNT = (s.get OBS_SNAP_COUNT_COUNT + 1) % 2 ^ 32 ∧
    (∀ L < 144, Tbl.find s.obs.resetDue L = none → s.snapshot.getR (OBS_CORE_SNAPINFO L) % 2 = 0) ∧
    (∀ L < 144, ∀ x, Tbl.find s.obs.resetDue L = some x → s.snapshot.getR (OBS_CORE_SNAPINFO L) % 2 = 1)) ∧
  (∀ s : State, s.obs.lastSnap = some s.now → s.snapshot = s) ∧
  (∀ (v : Word) (s : State), Quiet s → Taken s OBS_CTRL →
    (bit v.toNat 1 = false → bits v.toNat 4 2 = 0 → Ends (.snap v) s ((obsSet s v).snapshot.set OBS_CTRL_SNAP_ARM 0)) ∧
    (bits v.toNat 0 2 = 0 → bit v.toNat 5 = false → ∃ t, exec (.resetAll v) s = .next t ∧
      (∀ L ≤ 144, Tbl.find t.obs.resetDue L = some (2, 0xFFFFFFFF)) ∧ t.flag OBS_CTRL_SNAP_ARM = false ∧
      (s.obs.lastSnap ≠ some s.now → RegsKept [OBS_CTRL.off] s t) ∧
      (s.obs.lastSnap = some s.now → ∀ L < 144, t.getR (OBS_CORE_SNAPINFO L) = 5 ∧ t.getR (OBS_CORE_SNAPTAG L) = 0xFFFFFFFF)) ∧
    (bit v.toNat 0 = false → bits v.toNat 4 2 = 0 →
      (s.flag OBS_CTRL_SNAP_ARM = true → Ends (.snapArm v) s (obsSet s v)) ∧
      (s.flag OBS_CTRL_SNAP_ARM = false → s.get64 OBS_SNAP_TIME_TIME ≤ s.ft →
        Ends (.snapArm v) s (((obsSet s v).set OBS_CTRL_LATE 1).raiseVec 6)) ∧
      (s.flag OBS_CTRL_SNAP_ARM = false → s.ft < s.get64 OBS_SNAP_TIME_TIME →
        Ends (.snapArm v) s ((obsSet s v).set OBS_CTRL_SNAP_ARM 1)))) ∧
  (∀ s : State, Quiet s → (s.flag OBS_CTRL_SNAP_ARM = false → exec .snapTimeReached s = .next s) ∧
    (s.flag OBS_CTRL_SNAP_ARM = true → Ends .snapTimeReached s
      (((s.passToFt (s.get64 OBS_SNAP_TIME_TIME)).snapshot.set OBS_CTRL_SNAP_ARM 0).raiseVec 6))) ∧
  (∀ s : State, Quiet s → s.fatal = false → (s.flag SCH_CTRL_OBS_EN = false → exec .latencySample s = .next s) ∧
    (s.flag SCH_CTRL_OBS_EN = true → Ends .latencySample s (s.pass 1)))

/-- The trace unit (R409, R426, R429, R431, R434): an enable from OFF arms it by the live piece, and is turned away without one; a disable drains it or, when
FROZEN, ends it; the host's trigger fires once, and writes the TRIGGER record's index; a mark offers a record; POST and DRAIN end; the window shows the ring in OFF and FROZEN only. -/
def TraceControl : Prop :=
  (∀ (v : Word) (s : State), Quiet s → Taken s OBS_TRACE_CTRL → bits v.toNat 2 2 = 0 →
    (s.trSt = 0 → ∀ p, s.tracePiece = some p → ∃ t, exec (.traceEnable v) s = .next t ∧ t = (s.traceArm p).set OBS_TRACE_CTRL_EN 1 ∧
      t.trSt = 1 ∧ t.get OBS_TRACE_WPTR_INDEX = 0 ∧ t.flag OBS_TRACE_STATUS_TRIGGERED = false ∧ t.obs.ring = [] ∧ t.obs.staged = []) ∧
    (s.trSt = 0 → s.tracePiece = none → Ends (.traceEnable v) s (s.aerr 0 OBS_TRACE_CTRL.off true 2)) ∧
    (s.trSt = 5 → Ends (.traceEnable v) s ((s.set OBS_TRACE_CTRL_EN 1).set OBS_TRACE_CTRL_ENABLE_PENDING 1)) ∧
    (s.trSt ∈ [1, 2, 3, 4] → Ends (.traceEnable v) s (s.set OBS_TRACE_CTRL_EN 1)) ∧
    let off := (s.set OBS_TRACE_CTRL_EN 0).set OBS_TRACE_CTRL_ENABLE_PENDING 0
    (s.trSt ∈ [1, 2, 3] → Ends (.traceDisable v) s (off.set OBS_TRACE_STATUS_STATE 5)) ∧
    (s.trSt = 4 → Ends (.traceDisable v) s (off.set OBS_TRACE_STATUS_STATE 0)) ∧
    (s.trSt ∈ [0, 5] → Ends (.traceDisable v) s off)) ∧
  (∀ (v : Word) (s : State), Quiet s → Taken s OBS_TRACE_CTRL → bit v.toNat 0 = true → s.trSt ∈ [1, 2, 3, 4] →
    let u := s.set OBS_TRACE_CTRL_EN 1
    (bit v.toNat 3 = false → Ends (.traceTrigger v) s (u.traceFire 2 none) ∧
      (s.trSt = 1 → s.flag OBS_TRACE_STATUS_TRIGGERED = false → s.obs.gap = 0 → s.obs.spill = none →
        (u.traceFire 2 none).trSt = 2 ∧ (u.traceFire 2 none).flag OBS_TRACE_STATUS_TRIGGERED = true ∧
        (u.traceFire 2 none).get OBS_TRACE_TRIG_INDEX = s.get OBS_TRACE_WPTR_INDEX ∧
        ((Tbl.find (u.traceFire 2 none).obs.ring (s.get OBS_TRACE_WPTR_INDEX)).map (·.type)) = some 0x0E) ∧
      (s.trSt ≠ 1 → u.traceFire 2 none = u)) ∧
    (bit v.toNat 2 = false → Ends (.traceMark v) s (u.trace 0x0C 0xFF 0 0 (s.getR64 OBS_TRACE_MARK) s.ft))) ∧
  (∀ s : State, Quiet s →
    (s.trSt = 2 → s.obs.postLeft = 0 → exec .tracePostDone s = .next (s.set OBS_TRACE_STATUS_STATE 3)) ∧
    ((s.trSt ≠ 2 ∨ s.obs.postLeft ≠ 0) → exec .tracePostDone s = .next s) ∧
    (s.trSt ∉ [3, 5] → exec .traceDrainDone s = .next s) ∧
    (s.fatal = false → s.trSt ∈ [3, 5] →
      let u := s.pass ((s.obs.staged.length + 1) / 2)
      let k := u.pass (if u.obs.spill.isSome then 4 * (u.obs.written - u.get64 OBS_TRACE_SPILLED_COUNT) else 0)
      (k.obs.spill.isSome = true → k.get64 OBS_TRACE_SPILLED_COUNT < k.obs.written → Ends .traceDrainDone s k) ∧
      ((k.obs.spill = none ∨ k.obs.written ≤ k.get64 OBS_TRACE_SPILLED_COUNT) → k.trSt = 3 →
        Ends .traceDrainDone s ((k.set OBS_TRACE_STATUS_STATE 4).raiseVec 5)) ∧
      ((k.obs.spill = none ∨ k.obs.written ≤ k.get64 OBS_TRACE_SPILLED_COUNT) → k.trSt = 5 → k.flag OBS_TRACE_CTRL_ENABLE_PENDING = false →
        Ends .traceDrainDone s ((k.set OBS_TRACE_STATUS_STATE 0).set OBS_TRACE_CTRL_ENABLE_PENDING 0)))) ∧
  (∀ (s : State) (i : Nat), i < 65536 → (s.trSt ∉ [0, 4] → s.regView (OBS_TRACE_WIN i).off = 0) ∧
    ∀ r, s.trSt ∈ [0, 4] → Tbl.find s.obs.ring (i / 8) = some r → s.regView (OBS_TRACE_WIN i).off = field r.bytes (4 * (i % 8)) 4)

/-- Syntonization (R389 to R391): SYNTON_GO measures a source port in service from REF or HOLDOVER, else it is discarded; an offset within MAX_OFFSET
slews to the port, a larger one sets OFFSET_FAIL; the end of a slew is SYNTONIZED or REF; a lost source is counted and held over; a loss of 10 ms
reverts when the piece asks for it, and REVERT at any time, while there is a reference to revert to (log entry 79). Each change of state raises vector 7. -/
def Syntonization : Prop :=
  (∀ (v : Word) (s : State), Quiet s → Taken s PWR_CLK_CTRL → bit v.toNat 1 = false →
    (s.synPort ≠ 0xFF → s.lst s.synPort = lkActive → (s.clk = 0 ∨ s.clk = 3) →
      exec (.syntonGo v) s = .next (s.modClock fun c => { c with measureAt := some s.now })) ∧
    ((s.synPort = 0xFF ∨ s.lst s.synPort ≠ lkActive ∨ (s.clk ≠ 0 ∧ s.clk ≠ 3)) → Ends (.syntonGo v) s (s.aerr 0 PWR_CLK_CTRL.off true 2))) ∧
  (∀ (v : Word) (s : State), Quiet s → Taken s PWR_CLK_CTRL → bit v.toNat 0 = false →
    let u := s.modClock fun c => { c with measureAt := none, lostAt := none }
    ((s.clk = 0 ∨ s.clk = 4) → exec (.clkRevert v) s = .next u) ∧
    ((s.clk = 1 ∨ s.clk = 2 ∨ s.clk = 3) → s.clock.refGone = false → Ends (.clkRevert v) s (u.goClk 4) ∧ (u.goClk 4).clk = 4) ∧
    ((s.clk = 1 ∨ s.clk = 2) → s.clock.refGone = true → Ends (.clkRevert v) s (u.goClk 3)) ∧
    (s.clk = 3 → s.clock.refGone = true → exec (.clkRevert v) s = .next u)) ∧
  (∀ (offset : Int) (s : State) (t : Nat) (rec : List Byte), Quiet s → s.fatal = false → s.clock.measureAt = some t → s.synton = some rec →
    -32768 ≤ offset → offset < 32768 →
    let u := ((s.passTo (t + 165000)).modClock fun c => { c with measureAt := none }).set PWR_CLK_STATUS_OFFSET (ofSigned 16 offset)
    (10 * field rec 2 1 < offset.natAbs → Ends (.syntonMeasureDone offset) s (u.set PWR_CLK_STATUS_OFFSET_FAIL 1)) ∧
    (offset.natAbs ≤ 10 * field rec 2 1 → Ends (.syntonMeasureDone offset) s ((u.set PWR_CLK_STATUS_PORT (field rec 0 1)).goClk 1))) ∧
  (∀ (offset : Int) (s : State), Quiet s → s.clock.measureAt = none → exec (.syntonMeasureDone offset) s = .next s) ∧
  (∀ s : State, Quiet s → s.fatal = false →
    (s.clk = 1 → Ends .syntonSlewDone s (s.goClk 2)) ∧ (s.clk = 4 → Ends .syntonSlewDone s (s.goClk 0)) ∧
    ((s.clk = 0 ∨ s.clk = 2 ∨ s.clk = 3) → exec .syntonSlewDone s = .next s)) ∧
  (∀ s : State, Quiet s → s.fatal = false → (s.clk = 1 ∨ s.clk = 2) →
    (s.sourceGone (s.get PWR_CLK_STATUS_PORT) = false → exec .syntonSourceLost s = .next s) ∧
    (s.sourceGone (s.get PWR_CLK_STATUS_PORT) = true →
      let u := (s.modClock fun c => { c with measureAt := none, lostAt := some s.now }).count PWR_CLK_LOSS_COUNT
      Ends .syntonSourceLost s (u.goClk 3) ∧ (u.goClk 3).clk = 3 ∧
        (u.goClk 3).get PWR_CLK_LOSS_COUNT = min 0xFFFF (s.get PWR_CLK_LOSS_COUNT + 1))) ∧
  (∀ s : State, Quiet s → s.fatal = false → s.clk = 0 →
    (s.sourceGone s.synPort = false → exec .syntonSourceLost s = .next s) ∧
    (s.sourceGone s.synPort = true → exec .syntonSourceLost s = .next (s.modClock fun c => { c with measureAt := none }))) ∧
  (∀ (s : State) (t : Nat) (rec : List Byte), Quiet s → s.fatal = false → s.clock.lostAt = some t → s.synton = some rec → s.clk = 3 →
    (bit (field rec 1 1) 0 = false → exec .holdoverRevertTimeout s = .next s) ∧
    (bit (field rec 1 1) 0 = true →
      let u := (s.passTo (t + 16500000)).modClock fun c => { c with lostAt := none }
      (u.clock.refGone = false → Ends .holdoverRevertTimeout s (u.goClk 4)) ∧
      (u.clock.refGone = true → u.clk = 3 → Ends .holdoverRevertTimeout s u))) ∧
  (∀ s : State, Quiet s → (s.clock.lostAt = none ∨ s.clk ≠ 3) → exec .holdoverRevertTimeout s = .next s)

/-- Fabric time is set (R392): STEP adds ADJ at once, refused while a core runs or a seam or the barrier is armed; SLEW begins when its magnitude is below
2^24 ticks, and SLEW_DONE passes the time it takes; while a slew runs a write is discarded. -/
def FabricTime : Prop :=
  (∀ (v : Word) (s : State), Quiet s → Taken s PWR_FTIME_CTRL → s.flag PWR_FTIME_CTRL_SLEWING = true →
    Ends (.ftimeStep v) s (s.aerr 0 PWR_FTIME_CTRL.off true 2) ∧ Ends (.ftimeSlew v) s (s.aerr 0 PWR_FTIME_CTRL.off true 2)) ∧
  (∀ (v : Word) (s : State), Quiet s → Taken s PWR_FTIME_CTRL → s.flag PWR_FTIME_CTRL_SLEWING = false → bit v.toNat 1 = false →
    bit v.toNat 3 = false →
    (((∃ L < 144, s.cst L = stRun) ∨ s.flag PAT_STATUS_ARMED = true ∨ s.flag DET_START_CTRL_ARM = true) →
      Ends (.ftimeStep v) s (s.set PWR_FTIME_CTRL_REFUSED 1)) ∧
    ((∀ L < 144, s.cst L ≠ stRun) → s.flag PAT_STATUS_ARMED = false → s.flag DET_START_CTRL_ARM = false →
      ∃ t, exec (.ftimeStep v) s = .next t ∧ t.ftime = s.ftime + BitVec.ofNat 64 (s.get64 PWR_FTIME_ADJ_ADJ) ∧ t.now = s.now ∧
        t.pat = s.pat ∧ t.cores = s.cores ∧ t.gddr = s.gddr)) ∧
  (∀ (v : Word) (s : State), Quiet s → Taken s PWR_FTIME_CTRL → s.flag PWR_FTIME_CTRL_SLEWING = false → bit v.toNat 0 = false →
    bit v.toNat 3 = false →
    let n := (toSigned 64 (s.get64 PWR_FTIME_ADJ_ADJ)).natAbs
    (2 ^ 24 ≤ n → exec (.ftimeSlew v) s = .next s) ∧
    (n = 0 → Ends (.ftimeSlew v) s (s.raiseVec 6)) ∧
    (0 < n → n < 2 ^ 24 → ∃ t, exec (.ftimeSlew v) s = .next t ∧ t.flag PWR_FTIME_CTRL_SLEWING = true ∧ t.get PWR_FTIME_SLEW_LEFT_TICKS = n ∧
      t.clock = { s.clock with slewNeg := decide (toSigned 64 (s.get64 PWR_FTIME_ADJ_ADJ) < 0), slewPhase := 0 } ∧
      RegsKept [PWR_FTIME_CTRL.off, PWR_FTIME_SLEW_LEFT.off] s t ∧ t = { s with regs := t.regs, clock := t.clock })) ∧
  (∀ s : State, Quiet s → (s.flag PWR_FTIME_CTRL_SLEWING = false → exec .slewDone s = .next s) ∧
    (s.flag PWR_FTIME_CTRL_SLEWING = true →
      Ends .slewDone s (s.pass (16 * s.get PWR_FTIME_SLEW_LEFT_TICKS - s.clock.slewPhase)))) ∧
  (∀ (s : State) (n : Nat), s.flag PWR_CLK_STATUS_ROOT_LOCK = true → s.flag PWR_FTIME_CTRL_SLEWING = false →
    (s.passClock n).ftime = s.ftime + BitVec.ofNat 64 n ∧ (s.passClock n).now = s.now + n)

/-- DMAQ (R61, R64): the 64 bytes at G a join the queue, which holds 16; while it is full the instruction waits for the sequencer. -/
def DescriptorQueued : Prop :=
  ∀ (core : CoreIx) (bad : Option Nat) (s : State), Quiet s → Issues s core.val bad 5 0 dmaqLegal (fun w => { g := [wA w] }) →
    let L := core.val
    let w := s.wordOf L
    let q := bits w 46 2
    let a := (s.core L).gval (wA w)
    ((s.core L).queues.length = 4 → (s.queueOf L q).length < 16 → AccessOk s L bad a 64 1 → s.logFind L (s.cdet L).key = none →
      ∃ t d, exec (.dmaq core bad) s = .next t ∧ t.queueOf L q = s.queueOf L q ++ [d] ∧ d.bytes = s.sramRead L a 64 ∧ d.started = false ∧
        d.number = (s.cdet L).key ∧ (∀ r < 4, r ≠ q → t.queueOf L r = s.queueOf L r) ∧
        t.get (SEQ_PC_INDEX L) = (onward s L (fetchedCore s L) 1).2 % 2 ^ 18 ∧ (∀ M, M ≠ L → t.core M = s.core M)) ∧
    (16 ≤ (s.queueOf L q).length → Ends (.dmaq core bad) s ((s.fetched L w).stallCore L 5))

/-- A row of a DMA operation (R64 to R67, R100 to R108, R303) starts the descriptor that is next in its queue, if it is of that operation and its
memory takes accesses: it is traced, started, and does its work. Otherwise nothing changes. -/
def DescriptorsStart : Prop :=
  ∀ x ∈ descriptorRows, ∀ (core : CoreIx) (queue : QueueIx) (bad : Option Nat) (s : State) (d : Desc), Quiet s →
    let L := core.val
    let q := queue.val
    let traced := s.trace trDescStart L q d.pc (d.tag + d.op * 2 ^ 32) d.len
    (s.dmaLive L = true → nextDesc (s.queueOf L q) = some d → d.op = x.2.1 → x.2.2.1 L s d = false →
      Ends (x.1 core queue bad) s
        (x.2.2.2 L q bad (traced.modDesc L q d.number fun d => { d with started := true }) { d with started := true })) ∧
    ((s.dmaLive L = false ∨ nextDesc (s.queueOf L q) = none ∨ (nextDesc (s.queueOf L q) = some d ∧ (d.op ≠ x.2.1 ∨ x.2.2.1 L s d = true))) →
      exec (x.1 core queue bad) s = .next s)

end Sys2Proof

open Sys2Proof Sys2Proof.Machine

/-- A step takes the command at the front of the queue and runs it on the state with the queue's rest. -/
def Obligations.StepRunsFrontCommand : Prop :=
  ∀ (s : State) (c : Instr) (rest : List Instr), s.pending = c :: rest → step s = exec c { s with pending := rest }

/-- On an empty queue a step passes one FCLK of a device that has power: the boot ROM starts with the first (R375), what runs by itself goes on, and
an upset may strike, which is left open (log entry 42); nothing changes of a device without power. The model's choice: the table has no row for
the clock (log entry 30). -/
def Obligations.EmptyQueuePassesTime : Prop :=
  ∀ s : State, s.pending = [] →
    (s.boot.powered = true → step s = .next ((s.romStart.pass 1).colResend.upset).settle) ∧
    (s.boot.powered = false → Quiet s → step s = .next s)

/-- Right after reset every register of the register tables reads as its reset value, no report waits, no command is queued, no memory is
listed, the memories have their canonical form, and nothing has been sent. -/
def Obligations.ResetRegisters : Prop :=
  (∀ r : Reg, State.reset.getR r = r.reset % 2 ^ 32) ∧ Quiet State.reset ∧ State.reset.pending = [] ∧ State.reset.gddr = [] ∧
    State.reset.sram = [] ∧ Memory.wf State.reset = true ∧ State.reset.out = []

/-- Every step leaves the fault collector's queue empty (R403) and no origin discard unannounced (R226), whatever the command. -/
def Obligations.EveryStepLeavesQuiet : Prop := ∀ s t : State, Quiet s → step s = .next t → Quiet t

/-- Every command answers a next state in every state, with no report waiting and no discard unannounced, but for DEBUG_INSTRUCTION while PERMS bit 0
is set; and in such a state the end of a command changes nothing. -/
def Obligations.EveryCommandGoesOn : Prop :=
  (∀ (s : State) (i : Instr), (∀ code, i = .debugInstruction code → bit (s.get SEC_STATUS_PERMS) 0 = false) →
    ∃ t, exec i s = .next t ∧ Quiet t) ∧
  ∀ s : State, Quiet s → s.settle = s

/-- ADD to MAX (R61): the result register, for every word that issues, G0 as destination included. MUL keeps the low 64 bits. Shifts by 64 or
more and the signedness of MIN and MAX are free values (log entries 15 and 16): stated for whatever they are. -/
def Obligations.ScalarResults : Prop :=
  ScalarResult .add 0x00 (fun a b => a + b) ∧
  ScalarResult .sub 0x01 (fun a b => a + 2 ^ 64 - b % 2 ^ 64) ∧
  ScalarResult .and 0x02 (fun a b => a &&& b) ∧
  ScalarResult .or 0x03 (fun a b => a ||| b) ∧
  ScalarResult .xor 0x04 (fun a b => a ^^^ b) ∧
  ScalarResult .shl 0x05 (fun a b => if b < 64 then a * 2 ^ b else (Config.shiftBig 5 a b).toNat) ∧
  ScalarResult .shr 0x06 (fun a b => if b < 64 then a / 2 ^ b else (Config.shiftBig 6 a b).toNat) ∧
  ScalarResult .sra 0x07 (fun a b => if b < 64 then ofSigned 64 (toSigned 64 a / 2 ^ b) else (Config.shiftBig 7 a b).toNat) ∧
  ScalarResult .mul 0x08 (fun a b => a * b) ∧
  ScalarResult .min 0x09 (fun a b => if minMaxLt b a then b else a) ∧
  ScalarResult .max 0x0A (fun a b => if minMaxLt a b then b else a)

/-- LI loads the sign-extended immediate, LIH replaces bits [63:32]; PEQ to PGEU compare into a predicate, a write of P0 being discarded (R57,
R61). -/
def Obligations.ImmediatesAndPredicates : Prop :=
  ImmediateResult .li 0x0B (fun _ w => ofSigned 64 (toSigned 32 (wImm w))) ∧
  ImmediateResult .lih 0x0C (fun old w => old % 2 ^ 32 + 2 ^ 32 * wImm w) ∧
  PredicateResult .peq 0x00 (fun a b => decide (a = b)) ∧
  PredicateResult .pne 0x01 (fun a b => decide (a ≠ b)) ∧
  PredicateResult .plt 0x02 (fun a b => decide (toSigned 64 a < toSigned 64 b)) ∧
  PredicateResult .pge 0x03 (fun a b => decide (toSigned 64 b ≤ toSigned 64 a)) ∧
  PredicateResult .pltu 0x04 (fun a b => decide (a < b)) ∧
  PredicateResult .pgeu 0x05 (fun a b => decide (b ≤ a))

/-- The words that have no effect of their own (R60, R63): a false predicate skips, an illegal word faults with its code. -/
def Obligations.SkipsAndFaults : Prop := FalsePredicateSkips ∧ IllegalWordsFault

/-- NOP, JMP, LOOP, SKIP and HALT (R61, R89, R90): where the program goes on, what LOOP pushes, its skip on a count of 0 and its fault on a fifth
nesting; HALT holds issue. -/
def Obligations.ControlFlow : Prop :=
  CoreResult .nop 0 0 (fun w => onlyFields w []) (fun _ => {}) (fun _ _ _ _ => True) (fun s _ _ => s) (fun _ _ _ c => c) (fun _ => 1) ∧
  (∀ (core : CoreIx) (bad : Option Nat) (s : State), Quiet s →
    Issues s core.val bad 0 2 jmpLegal (fun w => { g := if wSel w then [wA w] else [] }) →
    let w := s.wordOf core.val
    ∃ t, exec (.jmp core bad) s = .next t ∧
      Retired s core.val (fetchedCore s core.val) (if wSel w then (s.core core.val).gval (wA w) else wImm w) t) ∧
  (∀ (core : CoreIx) (bad : Option Nat) (s : State), Quiet s →
    Issues s core.val bad 0 3 loopLegal (fun w => { g := if wSel w then [wA w] else [] }) →
    let L := core.val
    let w := s.wordOf L
    let c := fetchedCore s L
    let count := if wSel w then c.gval (wA w) else bits w 0 16
    let len := bits w 16 16
    let first := (s.get (SEQ_PC_INDEX L) + 1) % 2 ^ 18
    (count = 0 → ∃ t, exec (.loop core bad) s = .next t ∧ RetiredOn s L c (1 + len) t) ∧
    (count ≠ 0 → 4 ≤ (s.core L).loops.length → ∃ t, exec (.loop core bad) s = .next t ∧ Faulted (s.fetched L w) L 0x05 t) ∧
    (count ≠ 0 → (s.core L).loops.length < 4 → len = 0 → ∃ t, exec (.loop core bad) s = .next t ∧ RetiredOn s L c 1 t) ∧
    (count ≠ 0 → (s.core L).loops.length < 4 → len ≠ 0 → ∃ t, exec (.loop core bad) s = .next t ∧
      Retired s L { c with loops := { start := first, stop := (first + len) % 2 ^ 18, left := count } :: c.loops } first t)) ∧
  CoreResult .skip 8 3 (fun w => onlyFields w [(0, 8)] && bits w 0 8 != 0) (fun _ => {})
    (fun s L _ w => ∀ l ∈ (s.core L).loops.head?, s.get (SEQ_PC_INDEX L) < l.stop → l.start ≤ s.get (SEQ_PC_INDEX L) →
      s.get (SEQ_PC_INDEX L) + 1 + bits w 0 8 ≤ l.stop)
    (fun s _ _ => s) (fun _ _ _ c => c) (fun w => 1 + bits w 0 8) ∧
  (∀ (core : CoreIx) (bad : Option Nat) (s : State), Quiet s → Issues s core.val bad 0 1 (fun w => onlyFields w []) (fun _ => {}) →
    ∃ t, exec (.halt core bad) s = .next t ∧ HeldOn s core.val { fetchedCore s core.val with wait := some .halt } 1 5 t)

/-- LDG, STG, VLD and VST on an aligned offset inside the grant (R61, R62): a load takes the bytes as its engine reads them, in little-endian
order, and its register stays busy; a store's bytes wait on their engine until it ends. -/
def Obligations.LoadsAndStores : Prop :=
  CoreResult .ldg 2 0 ldstLegal (fun w => { g := [wD w, wA w] }) (fun s L bad w => LdstOk s L bad w 8 8) (fun s _ _ => s)
    (fun s L w c => { c.setG (wD w) (leNat (s.engRead L .scalar (c.ldstAddr w) 8)) with
      ops := c.ops ++ [{ eng := .scalar, gs := if wD w = 0 then [] else [wD w] }] }) (fun _ => 1) ∧
  CoreResult .stg 2 1 ldstLegal (fun w => { g := [wD w, wA w] }) (fun s L _ w => LdstOk s L none w 8 8) (fun s _ _ => s)
    (fun _ _ w c => { c with ops := c.ops ++ [{ eng := .scalar, stores := [(c.ldstAddr w, leBytes 8 (c.gval (wD w)))] }] }) (fun _ => 1) ∧
  CoreResult .vld 2 2 ldstLegal (fun w => { g := [wA w], v := [wD w] }) (fun s L bad w => LdstOk s L bad w 256 64) (fun s _ _ => s)
    (fun s L w c => { c.setV (wD w) (lanesOf (s.engRead L .vxu (c.ldstAddr w) 256)) with ops := c.ops ++ [{ eng := .vxu, vs := [wD w] }] })
    (fun _ => 1) ∧
  CoreResult .vst 2 3 ldstLegal (fun w => { g := [wA w], v := [wD w] })
    (fun s L _ w => LdstOk s L none w ((s.core L).vbytes (wD w)).length 64) (fun s _ _ => s)
    (fun _ _ w c => { c with ops := c.ops ++ [{ eng := .vxu, stores := [(c.ldstAddr w, c.vbytes (wD w))] }] }) (fun _ => 1)

/-- The lane arithmetic of the vector unit (R55, R56, R61, R121, R135): each lane is one correctly rounded operation on the lanes of its
operands, its flags going to CORE_EXC. -/
def Obligations.VectorArithmetic : Prop :=
  let two (f : Nat → Nat → Nat → Nat × Flags) (w : Nat) (c : Core) := (c.vreg (wA w)).zipWith (f w) (c.vreg (wB w))
  VectorResult .vadd 0 (v2Legal true) (fun w => { v := [wD w, wA w, wB w] }) (two fun w a b => vRn w (addVal (val32 a) (val32 b))) ∧
  VectorResult .vsub 1 (v2Legal true) (fun w => { v := [wD w, wA w, wB w] }) (two fun w a b => vRn w (addVal (val32 a) (negVal (val32 b)))) ∧
  VectorResult .vmul 2 (v2Legal true) (fun w => { v := [wD w, wA w, wB w] }) (two fun w a b => vRn w (mulVal (val32 a) (val32 b))) ∧
  VectorResult .vmax 4 (v2Legal false) (fun w => { v := [wD w, wA w, wB w] }) (two fun _ a b =>
    if val32 a == .nan || val32 b == .nan then (fp32.nanCode, {}) else (if valLtSigned (val32 a) (val32 b) then b else a, {})) ∧
  VectorResult .vmin 5 (v2Legal false) (fun w => { v := [wD w, wA w, wB w] }) (two fun _ a b =>
    if val32 a == .nan || val32 b == .nan then (fp32.nanCode, {}) else (if valLtSigned (val32 b) (val32 a) then b else a, {})) ∧
  VectorResult .vfma 3 (v3Legal true) (fun w => { v := [wD w, wA w, wB w, wC w] })
    (fun w c => ((c.vreg (wA w)).zip (c.vreg (wB w))).zipWith (fun p z => vfmaFn w p.1 p.2 z) (c.vreg (wC w))) ∧
  VectorResult .vexp 9 v1Legal (fun w => { v := [wD w, wA w] }) (fun w c => (c.vreg (wA w)).map (vexp (vOvf w))) ∧
  VectorResult .vrcp 10 v1Legal (fun w => { v := [wD w, wA w] }) (fun w c => (c.vreg (wA w)).map (vrcp (vOvf w))) ∧
  VectorResult .vrsq 11 v1Legal (fun w => { v := [wD w, wA w] }) (fun w c => (c.vreg (wA w)).map (vrsq (vOvf w)))

/-- Comparison, selection, reduction, broadcast, moves and conversion (R55, R122). What the c fields of VCMP and VRED name, the lanes of VRED
beside lane 0, the shape of VBCAST and VMOVG, what a mask of VSEL other than 0 and all-ones selects, and the upper half of the general register
that VMOVG writes are free values (log entries 17 to 21, 36 and 37): stated for whatever they are. That VSEL's mask is register c is the model's
choice (log entry 36). -/
def Obligations.VectorMoves : Prop :=
  VectorResult .vcmp 6 (v3Legal false) (fun w => { v := [wD w, wA w, wB w] })
    (fun w c => (c.vreg (wA w)).zipWith
      (fun a b => (if compare32 (Config.vcmpKind (wC w)).toNat a b then 2 ^ 32 - 1 else 0, ({} : Flags))) (c.vreg (wB w))) ∧
  VectorResult .vsel 7 (v3Legal false) (fun w => { v := [wD w, wA w, wB w, wC w] })
    (fun w c => ((c.vreg (wA w)).zip (c.vreg (wB w))).zipWith
      (fun p z => ((if z = 2 ^ 32 - 1 ∨ (z ≠ 0 ∧ Config.selOther (BitVec.ofNat 32 z) = true) then p.1 else p.2), ({} : Flags))) (c.vreg (wC w))) ∧
  VectorResult .vred 12 vredLegal (fun w => { v := [wD w, wA w] })
    (fun w c =>
      let f := match (Config.vredOp (wC w)).toNat with
        | 0 => vaddFn w
        | 1 => vmaxFn w
        | _ => vminFn w
      let (r, fl) := vredTree f 6 (c.vreg (wA w))
      (c.vreg (wD w)).zipIdx.map fun (x, i) =>
        if i = 0 then (r, fl) else ((Config.vredLane i (BitVec.ofNat 32 x) (BitVec.ofNat 32 r)).toNat, {})) ∧
  VectorResult .vbcast 13 vmoveLegal
    (fun w => { v := if Config.bcastFromG (wB w) then [wD w] else [wD w, wA w], g := if Config.bcastFromG (wB w) then [wA w] else [] })
    (fun w c => List.replicate 64
      (if Config.bcastFromG (wB w) then c.gval (wA w) % 2 ^ 32 else (c.vreg (wA w)).getD (moveLane w) 0, ({} : Flags))) ∧
  VectorResult .vmovv 15 (fun w => onlyFields w [(43, 5), (38, 5)]) (fun w => { v := [wD w, wA w] })
    (fun w c => (c.vreg (wA w)).map fun x => (x, ({} : Flags))) ∧
  CoreResult .vmovg 4 14 vmoveLegal (fun w => if Config.movgToG (wC w) then { g := [wD w], v := [wA w] } else { g := [wA w], v := [wD w] })
    (fun _ _ _ _ => True) (fun s _ _ => s)
    (fun _ _ w c =>
      if Config.movgToG (wC w) then
        { c.setG (wD w) ((c.vreg (wA w)).getD (moveLane w) 0 % 2 ^ 32 + 2 ^ 32 * (Config.movgHigh (BitVec.ofNat 64 (c.gval (wD w)))
            (BitVec.ofNat 32 ((c.vreg (wA w)).getD (moveLane w) 0))).toNat) with
          ops := c.ops ++ [{ eng := .vxu, gs := if wD w = 0 then [] else [wD w] }] }
      else
        { c.setV (wD w) ((c.vreg (wD w)).set (moveLane w) (c.gval (wA w) % 2 ^ 32)) with
          ops := c.ops ++ [{ eng := .vxu, vs := [wD w] }] }) (fun _ => 1) ∧
  (∀ (core : CoreIx) (bad : Option Nat) (s : State), Quiet s →
    Issues s core.val bad 4 8 vcvtLegal (fun w => { v := [wD w, wA w], g := if vRound w = 2 then [wB w] else [] }) →
    let L := core.val
    let w := s.wordOf L
    let c := s.core L
    let src := (actVals (bits w 28 4) 64 (c.vbytes (wA w))).zipIdx
    let r := convertVals (vFmt w) (vRound w) (vOvf w)
      (src.map fun (v, i) => (v, if vRound w = 2 then s.elemDraw L (c.gval (wB w)) 64 i else 0))
    ∃ t, exec (.vcvt core bad) s = .next t ∧
      RetiredOn (s.raise L (Flags.union r.2) 1 (s.wordAt L) (invalidCount r.2)) L
        { (fetchedCore s L).setV (wD w) (lanesOf (slice r.1 0 256)) with ops := c.ops ++ [{ eng := .vxu, vs := [wD w] }] } 1 t)

/-- LDW and LDWS load a tile into an empty shadow buffer, MMA and MMAZ take it and stream activation rows through it into an accumulator
tile, DRAIN converts and clears a tile, its rows waiting on the engine as stores (R51 to R54, R85 to R87, R89, R116). -/
def Obligations.MatrixResults : Prop :=
  CoreResult .ldw 3 0 ldwLegal (fun w => { g := [wA w] })
    (fun s L bad w => (s.core L).wShadow = none ∧
      s.accessFault L bad ((s.core L).gval (wA w)) (tileBytes (weightFmt (bits w 25 4)) ((mxeRowW (bits w 25 4)).getD 0) 0) 1 = none)
    (fun s _ _ => s)
    (fun s L w c =>
      let n := tileBytes (weightFmt (bits w 25 4)) ((mxeRowW (bits w 25 4)).getD 0) 0
      let a := c.gval (wA w)
      { c with wShadow := some { fmt := weightFmt (bits w 25 4), mode := 0, addr := a, bytes := s.engRead L .mxe a n }
               ops := c.ops ++ [{ eng := .mxe }] }) (fun _ => 1) ∧
  CoreResult .ldws 8 0 ldwsLegal (fun w => { g := [wA w] })
    (fun s L bad w =>
      let fmt := bits w 24 4
      let n := tileBytes fmt ((mxeRow fmt).getD 0) (bits w 22 2)
      let a := (s.core L).gval (wA w)
      (s.core L).wShadow = none ∧ s.accessFault L bad a n 64 = none ∧
        indicesAscend fmt ((mxeRow fmt).getD 0) (bits w 22 2) (s.engRead L .mxe a n) = true)
    (fun s _ _ => s)
    (fun s L w c =>
      let fmt := bits w 24 4
      let n := tileBytes fmt ((mxeRow fmt).getD 0) (bits w 22 2)
      let a := c.gval (wA w)
      { c with wShadow := some { fmt := fmt, mode := bits w 22 2, addr := a, bytes := s.engRead L .mxe a n }
               ops := c.ops ++ [{ eng := .mxe }] }) (fun _ => 1) ∧
  MmaResult .mma 3 1 mmaLegal (fun w => { g := [wA w, wB w], acc := [wTile w] }) Core.mmaArgs ∧
  MmaResult .mmaz 8 1 mmazLegal (fun w => { g := [wA w, wB w, wC w], acc := [wTile w] }) Core.mmazArgs ∧
  (∀ (core : CoreIx) (bad : Option Nat) (s : State), Quiet s →
    Issues s core.val bad 3 2 drainLegal (fun w => { g := [wA w, wB w], acc := [wTile w] }) →
    let L := core.val
    let w := s.wordOf L
    let c := s.core L
    let rows := bits w 13 7 + 1
    let r := drainRun (bit c.accInt (wTile w)) (bits w 25 4) (bits w 23 2) rows (bit w 22) (c.tile (wTile w)) (s.elemDraw L (c.gval (wB w)) 4096)
    let f := Flags.union r.2
    c.gval (wA w) + rows * drainRow (bits w 25 4) ≤ s.grant L →
    ∃ t, exec (.drain core bad) s = .next t ∧
      RetiredOn ((if f.inv then s.draw.2 else s).raise L f 0 (if f.inv then s.draw.1 else 0) (invalidCount r.2)) L
        { (fetchedCore s L).clearTile (wTile w) with
          ops := c.ops ++ [{ eng := .mxe, accs := [wTile w], stores := [(c.gval (wA w), r.1)] }] } 1 t ∧
      (t.core L).tile (wTile w) = zeros 4096)

/-- EVWAIT, EVADD, SFENCE and DMAWAIT (R61, R62, R70, R74): a wait whose condition holds goes on, another holds issue with the stall reason of
R419; EVADD adds modulo 2^32. -/
def Obligations.EventAndFenceWaits : Prop :=
  (∀ (core : CoreIx) (bad : Option Nat) (s : State), Quiet s →
    Issues s core.val bad 6 0 (fun w => onlyFields w [(43, 5), (38, 5)]) (fun w => { g := [wA w] }) →
    let L := core.val
    let w := s.wordOf L
    let c := s.core L
    let target := c.gval (wA w) % 2 ^ 32
    let behind := toSigned 32 (c.evtVal (wD w) + 2 ^ 32 - target)
    (0 ≤ behind → ∃ t, exec (.evwait core bad) s = .next t ∧ RetiredOn s L (fetchedCore s L) 1 t) ∧
    (behind < 0 → ∃ t, exec (.evwait core bad) s = .next t ∧
      HeldOn s L { fetchedCore s L with wait := some (.evwait (wD w) target) } 1
        (if c.queues.flatten.any fun d => 0x20 ≤ d.op && d.op ≤ 0x28 && d.evt == wD w then 4 else 3) t)) ∧
  (∀ (core : CoreIx) (bad : Option Nat) (s : State), Quiet s →
    Issues s core.val bad 6 1 (fun w => onlyFields w [(43, 5), (0, 32)]) (fun _ => {}) →
    let L := core.val
    let w := s.wordOf L
    ∃ t, exec (.evadd core bad) s = .next t ∧ RetiredOn s L ((fetchedCore s L).addEvt (wD w) (wImm w)) 1 t ∧
      ∀ e, (t.core L).evtVal e = if e = wD w then ((s.core L).evtVal e + wImm w) % 2 ^ 32 else (s.core L).evtVal e) ∧
  (∀ (core : CoreIx) (bad : Option Nat) (s : State), Quiet s → Issues s core.val bad 6 4 (fun w => onlyFields w []) (fun _ => {}) →
    let L := core.val
    ((∀ o ∈ (s.core L).ops, o.stores = []) → ∃ t, exec (.sfence core bad) s = .next t ∧ RetiredOn s L (fetchedCore s L) 1 t) ∧
    ((∃ o ∈ (s.core L).ops, o.stores ≠ []) → ∃ t, exec (.sfence core bad) s = .next t ∧
      HeldOn s L { fetchedCore s L with wait := some .sfence } 1 5 t)) ∧
  (∀ (core : CoreIx) (bad : Option Nat) (s : State), Quiet s → Issues s core.val bad 6 5 (fun w => onlyFields w [(0, 2)]) (fun _ => {}) →
    let L := core.val
    let q := bits (s.wordOf L) 0 2
    (s.queueOf L q = [] → ∃ t, exec (.dmawait core bad) s = .next t ∧ RetiredOn s L (fetchedCore s L) 1 t) ∧
    (s.queueOf L q ≠ [] → ∃ t, exec (.dmawait core bad) s = .next t ∧
      HeldOn s L { fetchedCore s L with wait := some (.dmawait q) } 1 3 t))

/-- SIGNAL adds to an event counter of a core of this device and to its replay accumulator, unless its log says that it was sent before a
fault; GBAR waits, noting whether the core is quiet, unless its log says that it completed before one (R61, R71, R341, R342, R345). -/
def Obligations.SignalAndBarrierIssue : Prop :=
  (∀ (core : CoreIx) (bad : Option Nat) (s : State), Quiet s →
    Issues s core.val bad 6 2 (fun w => onlyFields w [(43, 5), (38, 5), (0, 32)]) (fun w => { g := [wA w] }) →
    let L := core.val
    let w := s.wordOf L
    let M := (s.core L).gval (wA w)
    let sent := s.logAdd L { queue := 4, number := (s.cdet L).key, op := 0, st := .sent }
    (s.logFind L (s.cdet L).key = none → M < 144 → ∃ t, exec (.signal core bad) s = .next t ∧
      RetiredOn (sent.extEvt M (wD w) (wImm w)) L
        (if M = L then (fetchedCore s L).addEvt (wD w) (wImm w) else fetchedCore s L) 1 t) ∧
    (s.logFind L (s.cdet L).key = none → 144 ≤ M → ∃ t, exec (.signal core bad) s = .next t ∧ RetiredOn sent L (fetchedCore s L) 1 t) ∧
    (s.logFind L (s.cdet L).key ≠ none → ∃ t, exec (.signal core bad) s = .next t ∧ RetiredOn s L (fetchedCore s L) 1 t)) ∧
  (∀ (core : CoreIx) (bad : Option Nat) (s : State), Quiet s → Issues s core.val bad 6 3 (fun w => onlyFields w [(0, 1)]) (fun _ => {}) →
    let L := core.val
    let waits := { fetchedCore s L with wait := some (.gbar (bit (s.wordOf L) 0)) }
    let noted (u : State) := u.modDet L fun d => { d with quiet := (s.core L).quiet }
    (s.logFind L (s.cdet L).key = none → ∃ t, exec (.gbar core bad) s = .next t ∧
      HeldOn (noted (s.logAdd L { queue := 5, number := (s.cdet L).key, op := 0, st := .issued })) L waits 1 3 t) ∧
    (∀ it, s.logFind L (s.cdet L).key = some it →
      (it.st = .completed → ∃ t, exec (.gbar core bad) s = .next t ∧
        RetiredOn (if bit (s.wordOf L) 0 = true then s.modDet L fun d => { d with replayStep := d.replayStep.map fun n => (n + 1) % 2 ^ 48 } else s) L
          (fetchedCore s L) 1 t) ∧
      (it.st ≠ .completed → ∃ t, exec (.gbar core bad) s = .next t ∧ HeldOn (noted s) L waits 1 3 t)))

/-- The ends of the waits of a core, and of the barrier of a job (R61, R62, R70 to R72, R338, R340). -/
def Obligations.WaitsAndBarriersEnd : Prop := WaitsEnd ∧ BarrierCompletes

/-- ZMAP, TOPK, SLOTSET, BCLASS and EMASK on operands that keep their rules (R86 to R98): the bytes that ZMAP, TOPK and EMASK compute wait on the
vector unit as stores, SLOTSET fills a slot of the job and shows it, BCLASS writes two predicates. -/
def Obligations.ConditionalResults : Prop :=
  CoreResult .zmap 8 2 zmapLegal (fun w => { g := [wA w, wB w, wC w] })
    (fun s L bad w =>
      let c := s.core L
      let n := actBytes (bits w 24 4) (32 * zmapB w)
      (∀ r < bits w 16 7 + 1, AccessOk s L bad ((c.gval (wA w) + r * c.gval (wB w)) % 2 ^ 64) n 1) ∧
        AccessOk s L none (c.gval (wC w)) (packBits (((List.range (bits w 16 7 + 1)).map fun r =>
          rowMap (bits w 24 4) (zmapB w) (s.engRead L .vxu ((c.gval (wA w) + r * c.gval (wB w)) % 2 ^ 64) n)).flatten)).length 8)
    (fun s _ _ => s)
    (fun s L w c =>
      let n := actBytes (bits w 24 4) (32 * zmapB w)
      let map := packBits (((List.range (bits w 16 7 + 1)).map fun r =>
        rowMap (bits w 24 4) (zmapB w) (s.engRead L .vxu ((c.gval (wA w) + r * c.gval (wB w)) % 2 ^ 64) n)).flatten)
      { c with ops := c.ops ++ [{ eng := .vxu, stores := [(c.gval (wC w), map)] }] }) (fun _ => 1) ∧
  (∀ (core : CoreIx) (bad : Option Nat) (s : State), Quiet s →
    Issues s core.val bad 8 4 topkLegal (fun w => { g := [wA w, wB w, wC w, wD w] }) →
    let L := core.val
    let w := s.wordOf L
    let c := s.core L
    let E := topkE w
    let n := bits (c.gval (wB w)) 0 13
    let addr (t : Nat) := c.gval (wA w) + t * ((4 * E + 63) / 64 * 64)
    let key := c.gval (wD w)
    let rs := (List.range n).map fun t =>
      (topkToken w ((bits key 0 22 + t) % 2 ^ 22 + bits key 22 5 * 2 ^ 22)
        ((List.range E).map fun e => field (s.engRead L .vxu (addr t) (4 * E)) (4 * e) 4), addr t)
    let fs := rs.map fun r => r.1.2
    let first := ((rs.find? fun r => r.1.2.inv).map (·.2)).getD 0
    1 ≤ n → n ≤ 4096 → (∀ t < n, AccessOk s L bad (addr t) (4 * E) 1) → AccessOk s L none (c.gval (wC w)) (48 * n) 1 →
    ∃ t, exec (.topk core bad) s = .next t ∧
      RetiredOn (s.raise L (Flags.union fs) 1 first (invalidCount fs)) L
        { fetchedCore s L with ops := c.ops ++ [{ eng := .vxu, stores := [(c.gval (wC w), (rs.map fun r => r.1.1).flatten)] }] } 1 t) ∧
  (∀ (core : CoreIx) (bad : Option Nat) (s : State) (k : Nat) (x : Slot), Quiet s →
    Issues s core.val bad 8 5 (fun w => onlyFields w [(38, 5), (33, 5), (28, 5), (20, 5)]) (fun w => { g := [wA w, wB w, wC w] }) →
    let L := core.val
    let w := s.wordOf L
    let c := s.core L
    s.jobSlot L (bits w 20 5) = some k → slotFrom (c.gval (wA w)) (c.gval (wB w)) (c.gval (wC w)) = some x →
    let filled := { s with slots := Tbl.write s.slots {} k { x with job := (s.slotOf k).job, index := (s.slotOf k).index } }
    ∃ t, exec (.slotset core bad) s = .next t ∧
      RetiredOn (((filled.set (CORE_SLOT_STATE_SEQ_LEN k) x.seqLen).set (CORE_SLOT_POS_Q_BASE k) x.qBase).set (CORE_SLOT_POS_MASK k) x.mask) L
        (fetchedCore s L) 1 t) ∧
  CoreResult .bclass 8 6 bclassLegal (fun w => { g := [wA w], p := [wPd w, wPd w + 1] })
    (fun s L bad w => ∃ k, s.jobSlot L (bits w 20 5) = some k ∧
      ∀ a, (s.slotOf k).mapWord (pairQ ((s.core L).gval (wA w))) (pairK ((s.core L).gval (wA w))) = some a → AccessOk s L bad a 8 1)
    (fun s _ _ => s)
    (fun s L w c =>
      let g := c.gval (wA w)
      let x := s.slotOf ((s.jobSlot L (bits w 20 5)).getD 0)
      let word := ((x.mapWord (pairQ g) (pairK g)).map fun a => leNat (s.engRead L .scalar a 8)).getD 0
      let cl := x.classify (pairQ g) (pairK g) word
      { (c.setP (wPd w) (cl != .skip)).setP (wPd w + 1) (cl == .part) with ops := c.ops ++ [{ eng := .scalar, ps := [wPd w, wPd w + 1] }] })
    (fun _ => 1) ∧
  CoreResult .emask 8 7 (fun w => onlyFields w [(38, 5), (28, 5), (20, 5)]) (fun w => { g := [wA w, wC w] })
    (fun s L _ w => s.jobSlot L (bits w 20 5) ≠ none ∧ AccessOk s L none ((s.core L).gval (wC w)) 2048 1) (fun s _ _ => s)
    (fun s L w c =>
      let g := c.gval (wA w)
      let x := s.slotOf ((s.jobSlot L (bits w 20 5)).getD 0)
      let mask := x.elemMask (pairQ g) (pairK g)
      { c with ops := c.ops ++ [{ eng := .vxu, stores := [(c.gval (wC w),
        ((List.range 128).map fun r => packBits ((mask.drop (128 * r)).take 128)).flatten)] }] }) (fun _ => 1)

/-- A 4-byte write of a register without a meaning of its own, no half of a pair, whose RWP bits are open: the bits take their values by their
access codes, and nothing else of the device changes (R8, R9). -/
def Obligations.RegisterWriteStores : Prop :=
  ∀ (req off v : Nat) (row : RegRow) (ix : List Nat) (s : State), Quiet s → off < 0x2000000 → off % 4 = 0 → inMsix off = false →
    regAt off = some (row, ix) → row.half = .single → row.rwb = 0 → (∀ r ∈ controlRegs, row.base ≠ r.off) → Taken s (regOf off) →
    (row.rwp = 0 ∨ s.rwpOpen off = true) →
    ∃ t, exec (.registerWrite req off 4 v) s = .next t ∧ t.getR (regOf off) = storedValue row (s.getR (regOf off)) (v % 2 ^ 32) % 2 ^ 32 ∧
      RegsKept [off] s t ∧ RegsOnly s t

/-- Accesses that have no effect, and reads (R8, R384, R411, R445, R449): nothing answers beyond BAR0 or in a device reset; a write that is no aligned one of 4
or 8 bytes is recorded with kind 9, one before READY outside PWR and HIF with kind 8, one that the safe state does not allow with kind 2. A read
gives all-ones in a device reset, and 0 with kind 8 before READY; the read of a pair's lower half captures the upper for the reader's next read. -/
def Obligations.AccessesTurnedAway : Prop :=
  (∀ (req off size v : Nat) (s : State), Quiet s → 0x2000000 ≤ off → exec (.registerWrite req off size v) s = .next s) ∧
  (∀ (req off v : Nat) (s : State), Quiet s → s.inReset = true → s.boot.jtagWait = false → exec (.registerWrite req off 4 v) s = .next s) ∧
  (∀ (req off size v : Nat) (s : State), Quiet s → off < 0x2000000 → s.inReset = false → (size ≠ 4 ∨ off % 4 ≠ 0) → (size ≠ 8 ∨ off % 8 ≠ 0) →
    Ends (.registerWrite req off size v) s (s.aerr 0 off true 9)) ∧
  (∀ (req off v : Nat) (row : RegRow) (ix : List Nat) (s : State), Quiet s → off < 0x2000000 → off % 4 = 0 → inMsix off = false →
    s.inReset = false → regAt off = some (row, ix) → row.half = .single →
    (s.ready = false → inPwrHif off = false → Ends (.registerWrite req off 4 v) s (s.aerr 0 off true 8)) ∧
    (s.ready = true → s.safe = true → safeAllows off = false → Ends (.registerWrite req off 4 v) s (s.aerr 0 off true 2))) ∧
  (∀ (req off : Nat) (s : State), off % 4 = 0 → s.inReset = true → s.busRead req off 4 = (0xFFFFFFFF, s)) ∧
  (∀ (req off : Nat) (s : State), off % 4 = 0 → inMsix off = false → inPba off = false → s.inReset = false →
    (s.ready = false → inPwrHif off = false → (regAt off).isSome = true → s.busRead req off 4 = (0, s.aerr 0 off false 8)) ∧
    (s.ready = true → pairLow off = true → pairLow (off + 4) = false → inMsix (off + 4) = false → inPba (off + 4) = false →
      let r := s.busRead req off 4
      r.1 = s.regView off ∧ (r.2.busRead req (off + 4) 4).1 = s.regView (off + 4)))

/-- The access-error log and the MSI-X mask bits (R459, R460): the entry at PROD modulo 16 takes the address, the kind and the low half of fabric
time, PROD counts it, and every register outside the log reads as before; the unmask of a vector that is pending sends its message once. -/
def Obligations.ErrorLogAndUnmask : Prop :=
  (∀ (s : State) (space off kind : Nat) (write : Bool), space < 4 → off < 2 ^ 32 → kind < 16 →
    let i := s.getR HIF_AERR_PROD % 16
    let t := s.aerr space off write kind
    t.getR (HIF_AERR_INFO i) = space + 4 * b2n write + 16 * kind ∧ t.getR64 (HIF_AERR_ADDR i) = off ∧
      t.getR (HIF_AERR_TIME i) = s.ft % 2 ^ 32 ∧ t.getR HIF_AERR_PROD = (s.getR HIF_AERR_PROD + 1) % 2 ^ 32 ∧
      RegsKept [(HIF_AERR_INFO i).off, (HIF_AERR_ADDR i).off, (HIF_AERR_ADDR i).off + 4, (HIF_AERR_TIME i).off, HIF_AERR_PROD.off] s t ∧
      t = { s with regs := t.regs, host := t.host, out := t.out }) ∧
  (∀ (vector : VecIx) (s : State), Quiet s → s.inReset = false →
    ∃ t, exec (.msixUnmask vector) s = .next t ∧ t.msixWord vector.val 3 = 0 ∧
      (∀ w i, i < 4 → ¬(w = vector.val ∧ i = 3) → t.msixWord w i = s.msixWord w i) ∧
      (bit s.host.msixPending vector.val = false → t.out = s.out ∧ t.host.msixPending = s.host.msixPending) ∧
      (bit s.host.msixPending vector.val = true → bit t.host.msixPending vector.val = false ∧
        t.out = s.out ++ [.msix vector.val (s.msixWord vector.val 0 + 2 ^ 32 * s.msixWord vector.val 1) (s.msixWord vector.val 2)]) ∧
      t.regs = s.regs)

/-- The commands that are a host write of one register (R445): each has the effect of that write, with the bit of the command set or clear. -/
def Obligations.HostCommandsAreWrites : Prop :=
  ∀ (core : CoreIx) (ring : RingIx) (port : PortIx) (dom : DomIx) (entry : EntryIx) (v : Word) (s : State),
    (∀ x ∈ ([(.load v, PAT_CTRL, setBit v 0), (.baste v, PAT_CTRL, setBit v 1), (.drained v, PAT_CTRL, setBit v 2),
        (.discardBaste v, PAT_CTRL, setBit v 3), (.arm v, PAT_SEAM_CTRL, setBit v 0), (.seamCancel v, PAT_SEAM_CTRL, clearBit v 0),
        (.coreEnable core v, CORE_CTRL core.val, setBit v 0), (.coreDisable core v, CORE_CTRL core.val, clearBit v 0),
        (.coreStart core v, CORE_CTRL core.val, setBit v 1), (.sqDoorbell ring v, HIF_SQ_TAIL ring.val, v),
        (.cqDoorbell ring v, HIF_CQ_HEAD ring.val, v), (.ringEnable ring v, HIF_SQ_CFG ring.val, setBit v 8),
        (.ringDisable ring v, HIF_SQ_CFG ring.val, clearBit v 8), (.memTrainStart v, MEM_TRAIN_CTRL, setBit v 31),
        (.memEnable v, MEM_CTRL, setBit v 0), (.memDisable v, MEM_CTRL, clearBit v 0), (.lnkEnable port v, LNK_CTRL port.val, setBit v 0),
        (.lnkDisable port v, LNK_CTRL port.val, clearBit v 0), (.lnkRetrain port v, LNK_CTRL port.val, setBit v 8),
        (.lpExitWrite port v, LNK_CTRL port.val, BitVec.ofNat 32 (putBits v.toNat 2 2 0)), (.pingStart port v, LNK_PING_CTRL port.val, setBit v 0)] : List HostWrite), IsHostWrite s x) ∧
    (∀ x ∈ ([(.audit v, BPM_CTRL, setBit v 0), (.swcEnable v, SWC_CTRL, setBit v 0), (.swcDisable v, SWC_CTRL, clearBit v 0),
        (.schClear v, SCH_CTRL, setBit v 1), (.colEnable v, COL_CTRL, setBit v 0), (.colDisable v, COL_CTRL, clearBit v 0),
        (.domainEnable dom v, COL_DOM_CTRL dom.val, setBit v 0), (.domainDisable dom v, COL_DOM_CTRL dom.val, clearBit v 0),
        (.backupGo v, COL_BACKUP_GO, setBit v 31), (.detStartArm v, DET_START_CTRL, setBit v 0),
        (.detStartCancel v, DET_START_CTRL, clearBit v 0), (.memShdCfgValid entry v, MEM_SHD_CFG entry.val, setBit v 0),
        (.rollback entry v, MEM_SHD_STATE entry.val, setBit v 6), (.fullReset v, PWR_RESET, setBit v 1),
        (.deviceReset v, PWR_RESET, setBit (clearBit v 1) 0), (.recoveryGo v, PWR_RECOVERY_LEN, setBit v 31)] : List HostWrite), IsHostWrite s x) ∧
    (∀ x ∈ ([(.nbrRxPop v, HIF_NBR_RX_POP, setBit v 0),
        (.syntonGo v, PWR_CLK_CTRL, setBit v 0), (.clkRevert v, PWR_CLK_CTRL, setBit v 1), (.ftimeStep v, PWR_FTIME_CTRL, setBit v 0),
        (.ftimeSlew v, PWR_FTIME_CTRL, setBit v 1), (.fltFenceCmd v, FLT_FENCE_CMD, setBit v 31), (.forceFatal v, FLT_CTRL, setBit v 0),
        (.snap v, OBS_CTRL, setBit v 0), (.snapArm v, OBS_CTRL, setBit v 1), (.resetAll v, OBS_CTRL, setBit v 4),
        (.traceEnable v, OBS_TRACE_CTRL, setBit v 0), (.traceDisable v, OBS_TRACE_CTRL, clearBit v 0),
        (.traceTrigger v, OBS_TRACE_CTRL, setBit v 2), (.traceMark v, OBS_TRACE_CTRL, setBit v 3), (.secLock v, SEC_CTRL, setBit v 0)] : List HostWrite), IsHostWrite s x)

/-- The states of a core: its enable, disable and start by hand, and the ends of zeroing and shutdown (R48, R72, R73). -/
def Obligations.CoreStates : Prop := CoreControl ∧ CoreZeroingAndShutdown

/-- Jobs (R76 to R79, R454 to R457): a job whose image can be read and whose cores are idle is launched, every core cleared, given its program and
checkpointed, and runs unless it was admitted under an armed start barrier; a job that has ended and whose ring has room leaves its cores and writes its record. -/
def Obligations.JobLaunchAndEnd : Prop :=
  (∀ (core : CoreIx) (s : State) (j : Job), Quiet s → s.fatal = false → s.coreJob core.val = some j → j.launched = false → j.aborting = false →
    s.imageOpen j = true → (∀ L ∈ j.cores, s.cst L = stIdle) →
    let u := j.cores.foldl (fun (s : State) L =>
        let z := if j.zeroSram then s.zeroGrant L j.sram else s
        ((((z.copyProgram j L).set (SEQ_PROG_BASE_BASE L) ((j.sram - j.progLen) / 8)).freshCore L).takeCkpt L))
      { s.set64 (DET_STEP_STEP j.group) j.stepStart with
        det := { s.det with lastCol := Tbl.drop s.det.lastCol j.group, prevCol := Tbl.drop s.det.prevCol j.group
                            heldBar := Tbl.drop s.det.heldBar j.group } }
    let k := u.modJob j.key fun x => { x with launched := true }
    (j.held = false → Ends (.jobLaunch core) s (k.runJob j)) ∧ (j.held = true → Ends (.jobLaunch core) s k)) ∧
  (∀ (core : CoreIx) (s : State) (j : Job) (r tag : Nat), Quiet s → s.fatal = false → s.coreJob core.val = some j → j.ring = some (r, tag) →
    s.jobEnded j = true → s.cqFull r = false →
    let c := s.jobRec j tag
    let u := ((s.releaseJob j).traceJobEnd j.cores j.group j.id c.status c.step).writeCq r c
    Ends (.jobEnd core) s (if u.flag OBS_CTRL_SNAP_ON_JOB then u.snapshot else u)) ∧
  (∀ (core : CoreIx) (s : State) (j : Job) (r tag : Nat), Quiet s → s.coreJob core.val = some j → j.ring = some (r, tag) →
    (s.jobEnded j = false ∨ s.cqFull r = true) → exec (.jobEnd core) s = .next s)

/-- The control of a ring, and its completion records (R451, R455 to R458, R473). -/
def Obligations.RingsAndRecords : Prop := RingControl ∧ CompletionRecords

/-- A ring entry (R451 to R457): when the ring is the one served, its 128 bytes are read, the head and the rotating priority move on, and the entry
is carried out; one with a bad field completes with BAD_COMMAND and the offset of the field; a read that fails stops the ring with error 0x14. An
entry of a ring that is not served changes nothing. -/
def Obligations.RingEntries : Prop :=
  (∀ (ring : RingIx) (raw : List Byte) (s : State), Quiet s → s.fatal = false → s.ringWinner = some ring.val →
    let r := ring.val
    let e := slice raw 0 128
    let read := s.emit (.hostRead (s.getR64 (HIF_SQ_BASE r) + 128 * s.sqHead r) 128)
    let u := read.set (HIF_SQ_HEAD_INDEX r) ((s.sqHead r + 1) % s.ringSize r)
    let u := { u with host := { u.host with ringPtr := (r + 1) % 16 } }
    (badEntry e = none →
      (sqOp e = 0 → Ends (.sqNop ring (some raw)) s (u.plainRec r e 0 0)) ∧
      (sqOp e = 1 → u.admission (e.drop 64) = 0 → Ends (.jobSubmit ring (some raw)) s
        (((u.setR CORE_JOB_REFUSE 0).setR CORE_JOB_REFUSE_ID (jId (e.drop 64))).takeJob r e (e.drop 64))) ∧
      (∀ code, sqOp e = 1 → u.admission (e.drop 64) = code → code ≠ 0 →
        let d := e.drop 64
        let shown := (u.setR CORE_JOB_REFUSE code).setR CORE_JOB_REFUSE_ID (jId d)
        let cores := ((shown.coregroup (jGroup d)).map groupCores).getD []
        let traced := shown.traceJobEnd cores (jGroup d) (jId d) code 0
        Ends (.jobSubmit ring (some raw)) s
          (traced.writeCq r { tag := sqTag e, op := 1, status := code, job := jId d, sqHead := traced.sqHead r })) ∧
      (sqOp e = 2 →
        let js := u.jobs.filter fun j => j.ring.isSome && j.id == field e 0x40 4 && (j.aborting || !u.jobEnded j)
        (js = [] → Ends (.jobAbort ring (some raw)) s (u.plainRec r e 0x61 0)) ∧
        (js ≠ [] → Ends (.jobAbort ring (some raw)) s ((js.foldl State.abortJob u).plainRec r e 0 js.length)))) ∧
    (∀ off, badEntry e = some off → Ends (.sqNop ring (some raw)) s (u.plainRec r e 0x60 off) ∧
      Ends (.jobSubmit ring (some raw)) s (u.plainRec r e 0x60 off) ∧ Ends (.jobAbort ring (some raw)) s (u.plainRec r e 0x60 off)) ∧
    Ends (.completionTimeout ring) s (read.set (HIF_RING_STATUS_ERROR r) 0x14)) ∧
  (∀ (ring : RingIx) (entry : Option (List Byte)) (s : State), Quiet s → s.ringWinner ≠ some ring.val →
    exec (.sqNop ring entry) s = .next s ∧ exec (.jobSubmit ring entry) s = .next s ∧ exec (.jobAbort ring entry) s = .next s ∧
      exec (.completionTimeout ring) s = .next s)

/-- What the operations over the memories do: a byte reads back as written, every byte outside the write reads as before, and a zeroed SRAM
reads as zero (R45, R48, R141). -/
def Obligations.MemoryReadAfterWrite : Prop :=
  (∀ (s : State) (a : Nat) (bs : List Byte), a + bs.length ≤ gddrSize → (s.gddrWrite a bs).gddrRead a bs.length = bs) ∧
  (∀ (s : State) (a b : Nat) (bs : List Byte), b < a ∨ a + bs.length ≤ b → (s.gddrWrite a bs).gddrByte b = s.gddrByte b) ∧
  (∀ (s : State) (L P off : Nat) (bs : List Byte), s.phys L = some P → off + bs.length ≤ sramSize →
    (s.sramWrite L off bs).sramRead L off bs.length = bs ∧
    ∀ Q b, b < sramSize → ¬(Q = P ∧ off ≤ b ∧ b < off + bs.length) → (s.sramWrite L off bs).sramByte Q b = s.sramByte Q b) ∧
  (∀ (s : State) (P off : Nat), off < sramSize → (s.sramZero P).sramByte P off = 0 ∧
    ∀ Q, Q ≠ P → (s.sramZero P).sramByte Q off = s.sramByte Q off)

/-- Training and enabling GDDR7 (R144, R145, R408, R409): an enable is refused with code 1 while a controller is untrained or in training and with
code 2 while one is failed or fenced and the hashed part is not empty; a disable waits for the accepted accesses; a controller trains at the rate
that stands when its training starts, and becomes ready, or failed with its code. -/
def Obligations.MemoryControl : Prop :=
  (∀ (v : Word) (s : State), Quiet s → Taken s MEM_CTRL → s.flag MEM_CTRL_EN = false →
    let refused (n : Nat) := (s.set MEM_CTRL_EN 0).set MEM_STATUS_REFUSE n
    (s.mem.shutting = true → Ends (.memEnable v) s (s.set MEM_CTRL_ENABLE_PENDING 1)) ∧
    (s.mem.shutting = false →
      ((∃ c < 24, ctlState s c = 0 ∨ ctlState s c = 1) → Ends (.memEnable v) s (refused 1)) ∧
      ((∀ c < 24, ctlState s c ≠ 0 ∧ ctlState s c ≠ 1) → s.hashedUnits ≠ 0 → (∃ c < 24, ctlState s c = 3 ∨ ctlState s c = 5) →
        Ends (.memEnable v) s (refused 2)) ∧
      ((∀ c < 24, ctlState s c ≠ 0 ∧ ctlState s c ≠ 1) → (s.hashedUnits = 0 ∨ ∀ c < 24, ctlState s c ≠ 3 ∧ ctlState s c ≠ 5) →
        ∃ t, exec (.memEnable v) s = .next t ∧ t.flag MEM_CTRL_EN = true ∧ RegsKept [MEM_CTRL.off] s t ∧ RegsOnly s t))) ∧
  (∀ (v : Word) (s : State), Quiet s → Taken s MEM_CTRL →
    ∃ t, exec (.memDisable v) s = .next t ∧ t.flag MEM_CTRL_EN = false ∧ t.flag MEM_CTRL_ENABLE_PENDING = false ∧
      t.mem.shutting = (s.mem.shutting || s.flag MEM_CTRL_EN) ∧ RegsKept [MEM_CTRL.off] s t) ∧
  (∀ (v : Word) (s : State), Quiet s → Taken s MEM_TRAIN_CTRL → s.flag MEM_CTRL_EN = false →
    s.flag MEM_CTRL_ENABLE_PENDING = false → (∀ c < 24, ctlState s c ≠ 1 ∧ ctlState s c ≠ 4 ∧ ctlState s c ≠ 5) →
    ∃ t, exec (.memTrainStart v) s = .next t ∧
      ∀ c < 24, (ctlState t c = if bit (bits v.toNat 0 24) c then 1 else ctlState s c) ∧
        Tbl.read t.mem.rates 0 c = if bit (bits v.toNat 0 24) c then min 2 (t.get MEM_TRAIN_CTRL_RATE) else Tbl.read s.mem.rates 0 c) ∧
  (∀ (ctl : CtlIx) (failCode failMap : Nat) (s : State), Quiet s → s.fatal = false → failCode < 256 →
    (ctlState s ctl.val = 1 → ∃ t, exec (.trainingDone ctl failCode failMap) s = .next t ∧
      ctlState t ctl.val = (if failCode = 0 then 2 else 3) ∧ t.get (MEM_CH_STATUS_CODE ctl.val) = failCode ∧
      (failCode = 0 → t.get (MEM_CH_STATUS_RATE ctl.val) = Tbl.read s.mem.rates 0 ctl.val % 4) ∧
      RegsKept [(MEM_CH_STATUS ctl.val).off, MEM_STATUS.off] s t) ∧
    (ctlState s ctl.val ≠ 1 → exec (.trainingDone ctl failCode failMap) s = .next s)) ∧
  (∀ s : State, Quiet s → s.fatal = false → s.mem.shutting = true →
    let u := { s with mem := { s.mem with shutting := false } }
    (s.flag MEM_CTRL_ENABLE_PENDING = false → exec .memShutdownDone s = .next u) ∧
    (s.flag MEM_CTRL_ENABLE_PENDING = true → Ends .memShutdownDone s ((u.set MEM_CTRL_ENABLE_PENDING 0).memEnable)))

/-- The rank-ordered gate (R149 to R154, R374): a RACC packet meets translation first, which may move it, send it on or refuse it as stale; one outside
its descriptor's range or a job's GDDR7 range is refused and counted, one that meets a protected slot too; then a packet of a closed entry is
acknowledged and counted, and one of an open entry goes through the gate: a packet of the awaited rank is added and acknowledged, one of a later
rank is parked and acknowledged, or answered RETRY and counted when no cells can be had. The rank awaited for MEM_GATE_TIMEOUT closes the entry
with GATE_MISSING, and a tombstone leaves at the end of its life. -/
def Obligations.GatedAccumulation : Prop :=
  (∀ (bad : Option Nat) (s u : State) (x : Inb), Quiet s → s.memOpen = true →
    s.takeInb (fun x => x.pkt.data && x.pkt.opcode == 0x42) = some (x, u) →
    (u.xlate x.pkt = .stale → Ends (.raccPacket bad) s ((u.answer x.pkt 0x03 0x10 0).count MEM_XLATE_STALE_COUNT)) ∧
    (∀ q dev, u.xlate x.pkt = .away q dev → Ends (.raccPacket bad) s (u.raccForward x.pkt q dev)) ∧
    ∀ p : Pkt, (u.xlate x.pkt = .keep ∧ p = x.pkt) ∨ u.xlate x.pkt = .moved p →
      (u.raccRange p = false → Ends (.raccPacket bad) s ((u.answer p 0x03 0x10 0).count MEM_RACC_REJECT_COUNT)) ∧
      (∀ off e, u.raccRange p = true → u.shardHit p.addr p.byteCount = some (off, e) →
        Ends (.raccPacket bad) s (((u.noteRefused e 0x30).answer p 0x03 0x10 (0x30000000 + e)).count MEM_RACC_REJECT_COUNT)) ∧
      (u.raccRange p = true → u.shardHit p.addr p.byteCount = none →
        (u.gateOf p.rChunk p.rStep = none → Ends (.raccPacket bad) s (u.raccOpen bad p)) ∧
        ∀ g, u.gateOf p.rChunk p.rStep = some g →
          (g.closed.isSome = true → Ends (.raccPacket bad) s ((u.answer p 0x01 0 0).count MEM_RACC_DUP_COUNT)) ∧
          (g.closed = none → Ends (.raccPacket bad) s (u.raccGate bad g p)) ∧
          (g.closed = none → (g.first = p.rFirst ∧ g.count = p.rCount ∧ g.length = p.rLength ∧ g.dst = p.rDst) →
            g.first ≤ p.rRank → p.rRank < g.first + g.count → (p.rRank, p.rK) ∉ g.got →
            let h := { g with got := g.got ++ [(p.rRank, p.rK)] }
            (p.rRank = g.first + g.next → ∀ z k,
              State.addPacket bad (List.range ((p.byteCount + 63) / 64)) p { h with lastAt := u.now } (u.putGate { h with lastAt := u.now }) =
                (true, z, k) → z.applied + 1 < raccPackets z.length →
              Ends (.raccPacket bad) s ((k.putGate { z with applied := z.applied + 1 }).answer p 0x01 0 0)) ∧
            (g.first + g.next < p.rRank →
              (u.stageCells p = none → Ends (.raccPacket bad) s ((u.answer p 0x02 0 0).count MEM_RACC_RETRY_COUNT)) ∧
              ∀ cs k, u.stageCells p = some (cs, k) → Ends (.raccPacket bad) s
                ((k.putGate { h with parked := h.parked ++ [{ rank := p.rRank, k := p.rK, pkt := p, cells := cs }] }).answer p 0x01 0 0))))) ∧
  (∀ (s : State) (i : Nat) (g : Gate), Quiet s → s.fatal = false → s.mem.gates[i]? = some g →
    (g.closed = none → Ends (.gateTimeout i) s ((s.passTo (g.lastAt + s.gateTime)).closeGate g 1)) ∧
    (g.closed.isSome = true → exec (.gateTimeout i) s = .next s) ∧
    (g.closed = none → exec (.tombstoneExpiry i) s = .next s) ∧
    (∀ t, g.closed = some t → Ends (.tombstoneExpiry i) s ((s.passTo t).modMem fun m => { m with gates := m.gates.erase g }))) ∧
  (∀ (s : State) (i : Nat), Quiet s → s.mem.gates[i]? = none →
    exec (.gateTimeout i) s = .next s ∧ exec (.tombstoneExpiry i) s = .next s)

/-- Writes at an endpoint (R67, R100, R102, R108, R204, R256, R358): a delivered data packet is taken in its order; inside its endpoint's range and
clear of protected slots it is written and acknowledged; outside it, in a protected slot, or when the write fails, it is refused with code 0x10. With
none to take nothing changes. -/
def Obligations.WritePackets : Prop :=
  ∀ (c : Instr) (ops : List Nat), (c, ops) ∈ ([(.write, [0x40, 0x43]), (.dispatchRow, [0x44]), (.ringBlock, [0x46])] : List (Instr × List Nat)) →
    ∀ s : State, Quiet s →
      let ok (x : Inb) : Bool := x.pkt.data && ops.contains x.pkt.opcode && !s.epWaits x.pkt.destEp
      (s.takeInb ok = none → exec c s = .next s) ∧
      ∀ x u, s.takeInb ok = some (x, u) →
        let p := x.pkt
        (epRange p.destEp p.addr p.byteCount = false → Ends c s (u.answer p 0x03 0x10 0)) ∧
        (epRange p.destEp p.addr p.byteCount = true →
          (∀ i e, p.destEp = 0xC0 → u.shardHit p.addr p.byteCount = some (i, e) →
            Ends c s ((u.noteRefused e 0x30).answer p 0x03 0x10 (0x30000000 + e))) ∧
          ((p.destEp = 0xC0 → u.shardHit p.addr p.byteCount = none) →
            let r := u.writeRange p.addr p.payload
            (r.1 = none → Ends c s (r.2.answer p 0x01 0 (b2n p.mcast))) ∧ (r.1 ≠ none → Ends c s (r.2.answer p 0x03 0x10 0))))

/-- Reads and signals at an endpoint (R66, R67, R70, R204, R210): a good request is answered with its bytes, a bad one is refused; a response is
written where its request asked; a signal adds to its event counter and is acknowledged. -/
def Obligations.ReadAndSignalPackets : Prop :=
  (∀ (bad : Option Nat) (s : State), Quiet s →
    let ok (x : Inb) : Bool := !x.pkt.data && x.pkt.opcode == 0x04 && !s.epWaits x.pkt.destEp
    (s.takeInb ok = none → exec (.readReq bad) s = .next s) ∧
    ∀ x u, s.takeInb ok = some (x, u) →
      let p := x.pkt
      let a := field p.pay 0 6
      (readOk p = false → Ends (.readReq bad) s (u.answer p 0x03 0x10 0)) ∧
      (readOk p = true → ∀ r k, u.readRange a (field p.pay 0x10 2) bad = (r, k) →
        (r.fail.isSome = true → Ends (.readReq bad) s (k.answer p 0x03 0x10 0)) ∧
        (r.fail = none →
          let q := k.mkData p.srcAddr p.srcEp p.destEp 0x41 p.ctag none 4 0 (field p.pay 0x12 1) (field p.pay 8 6) [] r.bytes
          Ends (.readReq bad) s (k.offer { input := k.inputOf p.destEp a, pkt := q, orig := .endpoint })))) ∧
  (∀ s : State, Quiet s →
    let ok (x : Inb) : Bool := x.pkt.data && x.pkt.opcode == 0x41 && !s.memWaits x.pkt.addr x.pkt.byteCount
    (s.takeInb ok = none → exec .readResp s = .next s) ∧
    ∀ x u, s.takeInb ok = some (x, u) → x.pkt.destEp < 144 →
      let p := x.pkt
      let L := p.destEp
      (u.outstOf L (answersRead p) = none → (u.core L).left.find? (answersRead p) = none → Ends .readResp s (u.count (DET_CORE_STALE_COUNT L))) ∧
      ∀ q d o, u.outstOf L (answersRead p) = some (q, d, o) → ∀ k, u.shardStatus p.addr p.byteCount = (none, k) →
        ∀ z, k.writeRange p.addr p.payload = (none, z) →
        Ends .readResp s ((((z.busy (4 * L + 3) (2 * ((p.byteCount + 63) / 64))).dropOutst L q d.number o).advance L q d.number o.xfer))) ∧
  (∀ s : State, Quiet s → (s.takePkt false 0x05 = none → exec .rsignalPacket s = .next s) ∧
    ∀ x u, s.takePkt false 0x05 = some (x, u) →
      Ends .rsignalPacket s ((u.extEvt x.pkt.destEp (field x.pkt.pay 4 1 % 32) (field x.pkt.pay 0 4)).answer x.pkt 0x01 0 0))

/-- The answers to a core's packets, and the replicator of the switch (R67, R225, R253 to R256). -/
def Obligations.AnswersAndReplication : Prop := AnswerPackets ∧ ReplicatorRows

/-- A descriptor is queued by DMA, and started by the row of its operation (R62, R64 to R66). -/
def Obligations.DescriptorsIssueAndStart : Prop := DescriptorQueued ∧ DescriptorsStart

/-- What the DMA operations do (R66 to R68, R106, R108, R148): the first rule broken, in the order of the rules, ends the descriptor with its
status; else COPY and FILL write locally, and the others give the descriptor its packets, which end at every 2,048-byte boundary. -/
def Obligations.DescriptorWork : Prop :=
  ∀ (L q : Nat) (bad : Option Nat) (s : State) (d : Desc),
    (∀ st off, firstStatus [lengthStatus d.len 1, s.rangeStatus L d.src d.len, s.rangeStatus L d.dst d.len] = some (st, off) →
      copyDesc L q bad s d = s.endFailed L q d.number st off) ∧
    (firstStatus [lengthStatus d.len 1, s.rangeStatus L d.src d.len, s.rangeStatus L d.dst d.len] = none →
      ∀ u r v, s.shardStatus d.dst d.len = (none, u) → u.readRange d.src d.len bad = (r, v) →
      copyDesc L q bad s d = v.storeLocal L q d.number d.dst r.bytes r.fail bad) ∧
    (firstStatus [lengthStatus d.len 4, s.rangeStatus L d.dst d.len] = none → ∀ u, s.shardStatus d.dst d.len = (none, u) →
      fillDesc L q bad s d = u.storeLocal L q d.number d.dst ((List.replicate (d.len / 4) (leBytes 4 (d.ext % 2 ^ 32))).flatten) none bad) ∧
    (firstStatus [lengthStatus d.len 1, s.rangeStatus L d.src d.len] = none →
      fwriteDesc L q bad s d = s.launchXfers L q d (dataXfers 0x40 d.dev d.sel d.src d.dst d.len []) bad ∧
      (d.mgroup < 256 → s.flag (SWC_MG_CFG_VALID d.mgroup) = true →
        mcastDesc L q bad s d = s.launchXfers L q d (dataXfers 0x43 s.ownAddr d.sel d.src d.dst d.len (leBytes 2 d.mgroup)) bad) ∧
      (d.mgroup < 256 → s.flag (SWC_MG_CFG_VALID d.mgroup) = false → mcastDesc L q bad s d = s.endFailed L q d.number 7 0)) ∧
    (d.dst % 2048 = 0 → d.len % 64 = 0 → 0 < d.len → d.len ≤ 65536 → s.rangeStatus L d.src d.len = none →
      raccDesc L q bad s d = s.launchXfers L q d (dataXfers 0x42 d.dev d.sel d.src d.dst d.len (raccFields d (s.seedStep L).2)) bad) ∧
    (∀ op dev sel src dst len fields, ((dataXfers op dev sel src dst len fields).map (·.len)).sum = len ∧
      ∀ x ∈ dataXfers op dev sel src dst len fields, 0 < x.len ∧ x.addr / 2048 = (x.addr + x.len - 1) / 2048 ∧ x.src = src + (x.addr - dst))

/-- The ends of a descriptor (R64, R67, R68, R102, R107, R154, R265): the first descriptor whose effects have all taken place completes; one of an
undefined operation completes with BAD_OP; a packet, or a combine, that waits for the age limit ends with its status; a retried packet goes again, its BASE
that of the flow now (R258); the count of an expert whose rows are acknowledged follows. -/
def Obligations.DescriptorEnds : Prop :=
  ∀ (core : CoreIx) (queue : QueueIx) (s : State), Quiet s →
    let L := core.val
    let q := queue.val
    let ds := s.queueOf L q
    (s.dmaLive L = true →
      (∀ d, ds.find? (·.ready) = some d → Ends (.descriptorComplete core queue) s (s.finishDesc L q d)) ∧
      (∀ d, ds.find? (·.ready) = none → nextDesc ds = some d → knownOp d.op = false →
        Ends (.descriptorComplete core queue) s (s.complete L q { d with status := 1 })) ∧
      (∀ d o, s.findOutst L q (fun o => o.retryAt.isNone) = some (d, o) →
        Ends (.noAckAgeLimit core queue) s ((((s.passTo (o.firstSent + s.ageLimit)).failPacket L q d.number o 9).pump L))) ∧
      (s.findOutst L q (fun o => o.retryAt.isNone) = none → ∀ d it, s.tookOver L q = some (d, it) →
        Ends (.noAckAgeLimit core queue) s ((s.passTo (it.at_ + s.ageLimit)).endTaken L q d.number 9)) ∧
      (∀ d o, s.findOutst L q (fun o => o.retryAt.isSome) = some (d, o) →
        let u := s.passTo (o.retryAt.getD 0)
        let base := (u.flowFor L o.pkt.sq o.xfer.flowDev o.xfer.sel).base
        let again := { o with retryAt := none, ctag := base, pkt := o.pkt.setH 104 16 base }
        (u.now - o.firstSent ≤ u.ageLimit → Ends (.raccRetryResend core queue) s (((u.modDesc L q d.number fun d =>
          { d with outst := d.outst.map fun x => if x = o then again else x }).coreOffer L q d.number again.pkt).takeFailed)) ∧
        (u.ageLimit < u.now - o.firstSent → Ends (.raccRetryResend core queue) s ((u.failPacket L q d.number o 9).pump L))) ∧
      (∀ d e, (ds.findSome? fun d =>
          if d.op == 0x30 && d.started && d.status == 0 then (d.groups.find? fun e => !d.open_ (3 * e)).map fun e => (d, e) else none) = some (d, e) →
        let x := expertOf (s.readLocal (dsMap d) (16 * dsE d)) e
        let count := leBytes 4 (rowsTo (s.readLocal d.dst d.len) d e)
        let xf : Xfer := { op := 0x44, dev := x.dev, sel := bufferEp x, addr := x.base + 4 * d.rank, src := 0, len := 4, off := d.len
                           fields := [], grp := 3 * e + 1, lit := some count }
        Ends (.dispatchExpertSignal core queue) s ((s.modDesc L q d.number fun d =>
          { d with groups := d.groups.erase e, todo := d.todo ++ [xf] }).pump L))) ∧
    (s.fatal = false → ∀ c, s.stalest L q = some c →
      Ends (.combineTimeout core queue) s ((s.passTo (c.lastTerm + s.ageLimit)).endCombine c 0x24)) ∧
    (s.dmaLive L = false → exec (.descriptorComplete core queue) s = .next s ∧ exec (.noAckAgeLimit core queue) s = .next s ∧
      exec (.raccRetryResend core queue) s = .next s ∧ exec (.dispatchExpertSignal core queue) s = .next s)

/-- A collective descriptor at the engine, and the start of tickets (R296, R305, R317, R318): the first check that fails completes it with
BAD_COLLECTIVE and the check's number; else it is held until its ticket is next and a context is free. A ticket not issued for its domain's time while
others are held completes those with ORDER_TIMEOUT and sets the fault. -/
def Obligations.CollectiveTickets : Prop :=
  (∀ (L q : Nat) (bad : Option Nat) (s : State) (d : Desc),
    let u := s.modDesc L q d.number fun d => { d with held := true }
    let h : HeldDesc := { core := L, queue := q, number := d.number, bytes := d.bytes, gen := u.getR PAT_GEN_LIVE, domain := cDomain d.bytes
                          ticket := cTicket d.bytes, since := u.now }
    (∀ n, u.colBad d.bytes = n → n ≠ 0 → colDesc L q bad s d = u.endRole L q d.number { d with status := 0x19, failOff := 0, detail := n }) ∧
    (u.colBad d.bytes = 0 → ∀ st, u.colRefuse L d.bytes = (some st, none) → colDesc L q bad s d = u.endHeld h st 0) ∧
    (u.colBad d.bytes = 0 → ∀ st e, u.colRefuse L d.bytes = (some st, some e) → colDesc L q bad s d = (u.noteRefused e 0x30).endHeld h st 0) ∧
    (u.colBad d.bytes = 0 → (u.colRefuse L d.bytes).1 = none →
      let k := u.modCol fun c => { c with held := c.held ++ [h], doneAhead := c.doneAhead.erase (h.domain, h.ticket) }
      (k.freeChain = none → colDesc L q bad s d = k.orderNote h.domain) ∧
      ∀ i, k.freeChain = some i →
        ((d.op = opBackup ∨ h.ticket = k.nextTicket h.domain) → colDesc L q bad s d = k.startRole h i bad) ∧
        (d.op ≠ opBackup → h.ticket ≠ k.nextTicket h.domain → colDesc L q bad s d = k.orderNote h.domain))) ∧
  (∀ (dom : DomIx) (bad : Option Nat) (s : State), Quiet s → s.fatal = false →
    let mine (h : HeldDesc) : Bool := h.domain == dom.val && (h.ticket == s.nextTicket dom.val || field h.bytes 0 1 == opBackup)
    (∀ i h, s.freeChain = some i → s.col.held.find? mine = some h → Ends (.ticketStart dom bad) s (s.startRole h i bad)) ∧
    ((s.freeChain = none ∨ s.col.held.find? mine = none) → exec (.ticketStart dom bad) s = .next s)) ∧
  (∀ (dom : DomIx) (s : State), Quiet s → s.fatal = false →
    let d := dom.val
    (∀ t, Tbl.find s.col.orderAt d = some t →
      let u := s.passTo (t + 1650 * ((s.seqdom d).map (field · 4 4)).getD 1)
      let next := u.nextTicket d
      let hs := u.col.held.filter fun h => field h.bytes 0 1 != opBackup && h.domain == d
      Ends (.orderTimeout dom) s (((hs.foldl (fun s h => s.endHeld h 0x10 next) u).set (COL_DOM_CTRL_ORDER_FAULT d) 1).count COL_ORDER_FAULTS_COUNT)) ∧
    (Tbl.find s.col.orderAt d = none → exec (.orderTimeout dom) s = .next s))

/-- Chunks (R309 to R315): a chunk that arrives is acknowledged and goes to the role of its ticket and course, or is discarded and counted; one of
another pattern generation, step or fold position fails the role with 0x12, 0x13 or 0x14, and is discarded by a role that only passes late chunks on; a
role gets its staging, and sends the first chunk that has its credit. -/
def Obligations.ChunkPackets : Prop :=
  (∀ (bad : Option Nat) (course : Nat) (c : Instr), (c, course) ∈ ([(.accChunk bad, 0), (.handoffChunk bad, 1)] : List (Instr × Nat)) ∨
      (c = .distChunk ∧ course = 2 ∧ bad = none) →
    ∀ s : State, Quiet s →
      let ok (x : Inb) : Bool := x.pkt.data && x.pkt.opcode == courseOp course && s.chunkOpen course x.pkt
      (s.takeInb ok = none → exec c s = .next s) ∧
      ∀ x u, s.takeInb ok = some (x, u) →
        let p := x.pkt
        let level := p.op 0x21 1 % 8
        let stripe := p.op 0x21 1 / 8 % 8
        let k := u.answer p 0x01 0 0
        (∀ i r rec, k.chunkRole course level stripe p = some i → k.role i = some r → k.ring? r level stripe = some rec →
          Ends c s ((k.takeChunk i r rec course level p bad).colEnd)) ∧
        (k.chunkRole course level stripe p = none →
          ((course ≠ 2 ∨ k.latePass level stripe p = none) → Ends c s (k.count COL_DISCARD_COUNT)) ∧
          (course = 2 → ∀ d i z r rec, k.latePass level stripe p = some d → k.beginPassing d = some (i, z) → z.role i = some r →
            z.ring? r level stripe = some rec → Ends c s ((z.takeChunk i r rec course level p bad).colEnd)))) ∧
  (∀ (s : State) (i : Nat) (r : Role) (rec : List Byte) (course level : Nat) (p : Pkt) (bad : Option Nat),
    let j := s.chunkNumber r course level p
    (p.pgen ≠ r.gen % 256 ∨ p.op 0x2A 2 ≠ r.step % 65536 ∨ s.foldHiOk r rec course p = false → r.passing.isSome = true →
      s.takeChunk i r rec course level p bad = s.count COL_DISCARD_COUNT) ∧
    (r.passing = none →
      (p.pgen ≠ r.gen % 256 → s.takeChunk i r rec course level p bad = s.failRole i 0x12 j) ∧
      (p.pgen = r.gen % 256 → p.op 0x2A 2 ≠ r.step % 65536 → s.takeChunk i r rec course level p bad = s.failRole i 0x13 j) ∧
      (p.pgen = r.gen % 256 → p.op 0x2A 2 = r.step % 65536 → s.foldHiOk r rec course p = false →
        s.takeChunk i r rec course level p bad = s.failRole i 0x14 j))) ∧
  (∀ (chain : ChainIx) (s : State) (r : Role), Quiet s → RunsRole s chain.val r →
    (r.granted = false → r.standby = false → r.waiting = false → Ends (.stagingReserved chain) s (s.reserve chain.val r)) ∧
    ((r.granted = true ∨ r.standby = true ∨ r.waiting = true) → exec (.stagingReserved chain) s = .next s)) ∧
  (∀ (chain : ChainIx) (bad : Option Nat) (s : State) (r : Role), Quiet s → RunsRole s chain.val r → r.standby = false →
    (r.waiting = true → s.termsWait r = true → exec (.chunkSend chain bad) s = .next s) ∧
    (r.waiting = true → s.termsWait r = false → Ends (.chunkSend chain bad) s ((s.takeUp chain.val bad).colEnd)) ∧
    (r.waiting = false → r.isScalar = false →
      (∀ o, r.granted = true → r.ready.find? (r.hasCredit s.ownAddr) = some o → Ends (.chunkSend chain bad) s ((s.sendChunk chain.val r o).colEnd)) ∧
      (r.granted = false → exec (.chunkSend chain bad) s = .next s)))

/-- The engine's control packets and combine terms (R105, R313, R319 to R321, R324, R325, R327 to R329): scalars, barriers, credits, aborts, notices
and repairs each go to the roles of their ticket; a term is folded and acknowledged, or refused and counted. -/
def Obligations.EngineControlPackets : Prop :=
  (∀ (c : Instr) (lo hi : Nat) (bad : Option Nat), (c = .scalarAcc bad ∧ lo = 0x12 ∧ hi = 0x16) ∨ (c = .scalarDist ∧ lo = 0x17 ∧ hi = 0x1B ∧ bad = none) →
    ∀ s : State, Quiet s →
      let ok (p : Pkt) : Bool := decide (lo ≤ p.opcode) && decide (p.opcode ≤ hi) && s.scalarOpen p
      (s.takeCtl ok = none → exec c s = .next s) ∧
      ∀ p u, s.takeCtl ok = some (p, u) →
        (∀ i r, u.scalarRole p = some i → u.role i = some r → Ends c s ((u.takeScalar i r p bad).colEnd)) ∧
        (u.scalarRole p = none → Ends c s (u.modCol fun c => { c with early := c.early ++ [p] }))) ∧
  (∀ (s u : State) (p : Pkt), Quiet s → (s.takeCtl fun p => p.opcode == 0x10) = some (p, u) →
    ∀ ok k, State.arriveAt 6 (field p.pay 0 1) (field p.pay 1 1) (field p.pay 2 1) (field p.pay 4 4) p.srcAddr u = (ok, k) →
      Ends .barrierArrive s (if ok then k.colEnd else k.answer p 0x02 0 0)) ∧
  (∀ (s u : State) (p : Pkt), Quiet s → (s.takeCtl fun p => p.opcode == 0x11) = some (p, u) →
    Ends .barrierRelease s (State.releaseAt (field p.pay 1 1) (field p.pay 0 1) (field p.pay 2 1) (field p.pay 4 4) u).colEnd) ∧
  (∀ (s u : State) (p : Pkt), Quiet s → (s.takeCtl fun p => p.opcode == 0x1C) = some (p, u) → ∀ d t c, creditOf p = (d, t, c) →
    (∀ i r, u.keyRoles d t = [i] → u.role i = some r → u.wantsCredit r c = true →
      Ends .chainCredit s (u.modRole i fun r => r.addCredit c)) ∧
    (u.keyRoles d t = [] → (u.col.done.any fun x => x.role.domain == d && x.role.ticket == t) = false →
      (u.domainOn d = true → 0 ≤ ticketDiff t (u.nextTicket d) → Ends .chainCredit s (u.modCol fun y => { y with early := y.early ++ [p] })) ∧
      (u.domainOn d = false → Ends .chainCredit s u))) ∧
  (∀ (s u : State) (p : Pkt), Quiet s → (s.takeCtl fun p => p.opcode == 0x1D) = some (p, u) →
    let d := field p.pay 0 1
    let t := field p.pay 4 4
    (u.col.aborted.contains (d, t) = true → Ends .chainAbort s u) ∧
    (u.col.aborted.contains (d, t) = false →
      Ends .chainAbort s ((u.keyRoles d t).foldl (fun s i => s.failRole i 0x16 0 (some (field p.pay 1 1, field p.pay 3 1 % 16))) u).colEnd)) ∧
  (∀ (s u : State) (p : Pkt), Quiet s → s.takeNotice 1 = some (p, u) →
    (∀ i r, u.standbyOf p = some i → u.role i = some r → Ends .backupAct s ((u.activate i r).colEnd)) ∧
    (u.standbyOf p = none → u.activeFor p = false → Ends .backupAct s (u.modCol fun c => { c with acts := c.acts ++ [{ pay := p.pay, at_ := u.now }] }))) ∧
  (∀ (s u : State) (p : Pkt), Quiet s → s.takeNotice 2 = some (p, u) →
    (∀ i, u.standbyOf p = some i → Ends .standbyRelease s ((u.closeRole i 0x18 0).colEnd)) ∧ (u.standbyOf p = none → Ends .standbyRelease s u)) ∧
  (∀ (s u : State) (p : Pkt), Quiet s → s.takeNotice 3 = some (p, u) →
    let d := field p.pay 0 1
    let t := field p.pay 4 4
    let j := field p.pay 0x0C 2
    (u.col.repairs.contains (d, t, j) = true → Ends .repairReq s u) ∧
    (∀ i r, u.col.repairs.contains (d, t, j) = false → u.keyRoles d t = [i] → u.role i = some r →
      Ends .repairReq s (((((u.modCol fun c => { c with repairs := c.repairs ++ [(d, t, j)] }).beginRepair i j).tellRepair r j (some p.srcAddr))).colEnd)) ∧
    (u.col.repairs.contains (d, t, j) = false → u.keyRoles d t = [] → u.col.done = [] → Ends .repairReq s (u.count COL_DISCARD_COUNT))) ∧
  (∀ (bad : Option Nat) (s u : State) (x : Inb), Quiet s → s.memOpen = true → (s.takeInb fun x => x.pkt.data && x.pkt.opcode == 0x45) = some (x, u) →
    u.combineOf (x.pkt.op 0x20 4) (x.pkt.op 0x24 2) = none → Ends (.combineTerm bad) s ((u.answer x.pkt 0x03 0x10 0).count COL_DISCARD_COUNT)) ∧
  (∀ (bad : Option Nat) (s u k : State) (x : Inb) (c : Combine) (r : ReadRes), Quiet s → s.memOpen = true →
    (s.takeInb fun x => x.pkt.data && x.pkt.opcode == 0x45) = some (x, u) → u.combineOf (x.pkt.op 0x20 4) (x.pkt.op 0x24 2) = some c →
    let p := x.pkt
    let t := p.op 0x26 2
    let j := p.op 0x28 1
    u.readRange (c.desc.src + 48 * t) 48 bad = (r, k) →
    (∀ st off, r.fail = some (st, off) → Ends (.combineTerm bad) s ((k.endCombine c st).answer p 0x03 0x10 0)) ∧
    (r.fail = none →
    ((t ≥ cmEntries c.bytes ∨ (reSlots r.bytes).contains j = false) → Ends (.combineTerm bad) s ((k.answer p 0x03 0x10 0).count COL_DISCARD_COUNT)) ∧
    (t < cmEntries c.bytes → (reSlots r.bytes).contains j = true → ∀ c' v, k.takePiece c t j (p.addr % 2 ^ 16) p.payload = (c', v) →
      let z := v.busy colSet ((p.byteCount / cmTermSize c.bytes + 127) / 128)
      Ends (.combineTerm bad) s ((z.putCombine c { c' with lastTerm := z.now }).answer p 0x01 0 0)))) ∧
  ∀ s : State, Quiet s → s.fatal = true →
    exec .barrierArrive s = .next s ∧ exec .barrierRelease s = .next s ∧ exec .chainCredit s = .next s ∧ exec .chainAbort s = .next s ∧
      exec .backupAct s = .next s ∧ exec .standbyRelease s = .next s ∧ exec .repairReq s = .next s

/-- Control and timers of the engine (R319, R323 to R325, R408): a role that has waited for the chain time fails with 0x11, a standby ends with
BACKUP_IDLE, a held activation is dropped; domains and the engine turn on and off, an enable written in a shutdown waiting for its end. -/
def Obligations.EngineControl : Prop :=
  (∀ (chain : ChainIx) (s : State) (r : Role), Quiet s → RunsRole s chain.val r →
    (r.standby = false → r.op ≠ opPermute →
      let u := s.passTo (r.lastAt + s.chainTime)
      Ends (.chainTimeout chain) s (u.failRole chain.val 0x11 (u.firstOpen r)).colEnd) ∧
    (r.standby = true → exec (.chainTimeout chain) s = .next s ∧
      Ends (.standbyTimeout chain) s (((s.passTo (r.postedAt + s.chainTime)).closeRole chain.val 0x18 0).colEnd)) ∧
    (r.standby = false → exec (.standbyTimeout chain) s = .next s)) ∧
  (∀ s : State, Quiet s → s.fatal = false →
    (s.col.acts = [] → exec .heldActivationTimeout s = .next s) ∧
    ∀ a as, s.col.acts = a :: as → Ends .heldActivationTimeout s ((s.passTo (a.at_ + s.chainTime)).modCol fun c => { c with acts := as })) ∧
  (∀ (v : Word) (s : State), Quiet s → Taken s COL_CTRL → s.fatal = false →
    (s.flag COL_CTRL_EN = false → s.col.shutting = false → ∃ t, exec (.colEnable v) s = .next t ∧ t.flag COL_CTRL_EN = true ∧
      RegsKept [COL_CTRL.off] s t ∧ RegsOnly s t) ∧
    (s.flag COL_CTRL_EN = false → s.col.shutting = true → Ends (.colEnable v) s (s.set COL_CTRL_ENABLE_PENDING 1)) ∧
    (s.flag COL_CTRL_EN = true → exec (.colEnable v) s = .next s ∧ Ends (.colDisable v) s s.colOff) ∧
    (s.flag COL_CTRL_EN = false → Ends (.colDisable v) s (s.set COL_CTRL_ENABLE_PENDING 0))) ∧
  (∀ s : State, Quiet s → s.fatal = false → s.col.shutting = true → s.col.closing = [] → s.combines = [] →
    let u := s.modCol fun c => { c with shutting := false }
    (s.flag COL_CTRL_ENABLE_PENDING = false → exec .colShutdownDone s = .next u) ∧
    (s.flag COL_CTRL_ENABLE_PENDING = true → exec .colShutdownDone s = .next ((u.set COL_CTRL_ENABLE_PENDING 0).set COL_CTRL_EN 1))) ∧
  (∀ (dom : DomIx) (v : Word) (s : State), Quiet s → Taken s (COL_DOM_CTRL dom.val) → s.fatal = false → bit v.toNat 3 = false →
    let d := dom.val
    (s.flag (COL_DOM_CTRL_EN d) = false → (s.seqdom d).isSome = true → s.col.closing.contains d = false →
      ∃ t, exec (.domainEnable dom v) s = .next t ∧ t.flag (COL_DOM_CTRL_EN d) = true ∧ RegsKept [(COL_DOM_CTRL d).off] s t ∧ RegsOnly s t) ∧
    (s.flag (COL_DOM_CTRL_EN d) = false → s.seqdom d = none → exec (.domainEnable dom v) s = .next s) ∧
    (s.flag (COL_DOM_CTRL_EN d) = true → Ends (.domainDisable dom v) s (s.domainOff d)) ∧
    (s.flag (COL_DOM_CTRL_EN d) = false → Ends (.domainDisable dom v) s (s.set (COL_DOM_CTRL_ENABLE_PENDING d) 0))) ∧
  (∀ (dom : DomIx) (s : State), Quiet s → s.fatal = false → s.col.closing.contains dom.val = true → s.domainIdle dom.val = true →
    let u := s.modCol fun c => { c with closing := c.closing.erase dom.val }
    (s.flag (COL_DOM_CTRL_ENABLE_PENDING dom.val) = false → exec (.domainShutdownDone dom) s = .next u) ∧
    (s.flag (COL_DOM_CTRL_ENABLE_PENDING dom.val) = true →
      exec (.domainShutdownDone dom) s = .next ((u.set (COL_DOM_CTRL_ENABLE_PENDING dom.val) 0).domainEn dom.val))) ∧
  (∀ (v : Word) (s : State), Quiet s → Taken s COL_BACKUP_GO → s.fatal = false → Ends (.backupGo v) s (s.backupGo (v.toNat % 2 ^ 21)))

/-- Sharded training (R357, R360, R368 to R373, R375): the moves of a permute go once the old reductions are done; shard data for an entry that waits
for it is written and acknowledged, other data, or data that cannot be written, refused; an entry whose moves are acknowledged and whose bytes have come swaps to the new layout; a
roll-back makes the slot before current again; a translation leaves at the end of its life. -/
def Obligations.ShardsAndPermutes : Prop :=
  (∀ (chain : ChainIx) (s : State) (r : Role), Quiet s → RunsRole s chain.val r → r.op = opPermute →
    (r.waitOver = false → s.oldOpen r = false → s.memOpen = true → Ends (.permuteWaitEnd chain) s (s.permGo chain.val r).colEnd) ∧
    ((r.waitOver = true ∨ s.oldOpen r = true ∨ s.memOpen = false) → exec (.permuteWaitEnd chain) s = .next s) ∧
    (r.waitOver = false → Ends (.permuteBlockedTimeout chain) s ((s.passTo (r.postedAt + s.chainTime)).closeRole chain.val 0x35 0).colEnd) ∧
    (r.waitOver = true →
      let move := (((r.movesOut.map (·.xfer.grp)) ++ r.moves.map (·.grp)).head?).getD 0
      Ends (.permuteProgressTimeout chain) s ((s.passTo (r.lastAt + s.chainTime)).permFail chain.val move).colEnd) ∧
    (r.waitOver = true → r.moves = [] → r.movesOut = [] →
      let e := r.entry
      let got := s.getR (MEM_SHD_RECV e)
      (got < cRecv r.bytes / 64 → exec (.permuteComplete chain) s = .next s) ∧
      (cRecv r.bytes / 64 < got → Ends (.permuteComplete chain) s (s.permFail chain.val 0).colEnd) ∧
      (got = cRecv r.bytes / 64 →
        let swapped := (s.swapEntry e (s.get64 (DET_STEP_STEP r.group))).set (MEM_SHD_EPOCH_EPOCH e) (cEpoch r.bytes)
        let shown := (swapped.set (MEM_SHD_STATE_PERMUTING e) 0).setR (MEM_SHD_RECV e) 0
        let moved := if epochOlder (shown.get MEM_LAYOUT_EPOCH) (cEpoch r.bytes) then shown.set MEM_LAYOUT_EPOCH (cEpoch r.bytes) else shown
        Ends (.permuteComplete chain) s ((moved.modCol fun c => { c with permOwner := Tbl.drop c.permOwner e }).closeRole chain.val 0 0).colEnd))) ∧
  (∀ (s u : State) (x : Inb), Quiet s → s.memOpen = true → (s.takeInb fun x => x.pkt.data && x.pkt.opcode == 0x54) = some (x, u) →
    (∀ e, u.permEntry x.pkt = some e → ∀ ok k, u.permStore e x.pkt.addr x.pkt.payload = (ok, k) →
      Ends .permuteData s (if u.permOther e x.pkt then (u.noteRefused e 0x30).answer x.pkt 0x03 0x10 (0x30000000 + e)
        else if ok then ((k.takeMove e x.pkt).answer x.pkt 0x01 0 0).colEnd else k.answer x.pkt 0x03 0x10 0)) ∧
    (u.permEntry x.pkt = none → Ends .permuteData s (u.answer x.pkt 0x03 0x10 0))) ∧
  (∀ (entry : EntryIx) (s : State), Quiet s → s.fatal = false →
    let x := entry.val
    (s.flag (MEM_XLATE_CTRL_ACTIVE x) = false → exec (.xlateHoldExpiry entry) s = .next s) ∧
    (s.flag (MEM_XLATE_CTRL_ACTIVE x) = true →
      let u := s.passTo (Tbl.read s.mem.xlateAt 0 x + 1650 * (1000 * max 1 (s.get MEM_XLATE_HOLD_HOLD)))
      Ends (.xlateHoldExpiry entry) s (((u.modMem fun m => { m with xlateAt := Tbl.drop m.xlateAt x }).set (MEM_XLATE_CTRL_VALID x) 0).set
        (MEM_XLATE_CTRL_ACTIVE x) 0))) ∧
  (∀ (entry : EntryIx) (v : Word) (s : State), Quiet s → Taken s (MEM_SHD_STATE entry.val) →
    let e := entry.val
    (s.groupHeld (s.get (MEM_SHD_CFG_GROUP e)) = false → s.flag (MEM_SHD_STATE_ROLLED e) = false →
      ∃ t, exec (.rollback entry v) s = .next t ∧ t.get (MEM_SHD_STATE_CUR e) = (s.get (MEM_SHD_STATE_CUR e) + 2) % 3 ∧
        t.get (MEM_SHD_VERSION_VERSION e) = (s.get (MEM_SHD_VERSION_VERSION e) + 2 ^ 32 - 1) % 2 ^ 32 ∧
        t.get (MEM_SHD_EPOCH_EPOCH e) = s.get (MEM_SHD_EPOCH_PREV_EPOCH e) ∧ t.flag (MEM_SHD_STATE_DIRTY e) = false ∧
        t.flag (MEM_SHD_STATE_ROLLED e) = true ∧
        RegsKept [(MEM_SHD_STATE e).off, (MEM_SHD_VERSION e).off, (MEM_SHD_EPOCH e).off] s t ∧ RegsOnly s t) ∧
    ((s.groupHeld (s.get (MEM_SHD_CFG_GROUP e)) = true ∨ s.flag (MEM_SHD_STATE_ROLLED e) = true) →
      Ends (.rollback entry v) s (s.aerr 0 (MEM_SHD_STATE e).off true 2))) ∧
  (∀ (entry : EntryIx) (v : Word) (s : State), Quiet s → Taken s (MEM_SHD_CFG entry.val) → s.groupHeld (s.get (MEM_SHD_CFG_GROUP entry.val)) = false →
    ∃ u, RegsOnly s u ∧ RegsKept [(MEM_SHD_CFG entry.val).off] s u ∧ u.flag (MEM_SHD_CFG_VALID entry.val) = true ∧
      u.get (MEM_SHD_CFG_KIND entry.val) = bits v.toNat 1 2 ∧ u.get (MEM_SHD_CFG_SLOT_UNITS entry.val) = bits v.toNat 16 16 ∧
      (u.shdBad entry.val = false → exec (.memShdCfgValid entry v) s = .next u) ∧
      (u.shdBad entry.val = true → Ends (.memShdCfgValid entry v) s (s.aerr 0 (MEM_SHD_CFG entry.val).off true 2)))

/-- The control of a port (R173, R194 to R199, R220, R273, R385, R408, R409): an enable starts a port of OFF and waits in SHUTDOWN; a fenced port, or
one before the switch core, discards it, and so does LP = 2 on a port that must not enter LP2; a disable of an active port drains it; RETRAIN, LP, the
round-trip measurement and the timers of low power and of power-up act in the states of the rules only. -/
def Obligations.LinkControl : Prop :=
  (∀ (port : PortIx) (v : Word) (s : State), Quiet s → Taken s (LNK_CTRL port.val) → s.fatal = false → bit v.toNat 8 = false → bits v.toNat 2 2 = 0 →
    let p := port.val
    ((s.portFenced p = true ∨ s.flag SWC_CTRL_EN = false) → Ends (.lnkEnable port v) s (s.aerr 0 (LNK_CTRL p).off true 2)) ∧
    (s.portFenced p = false → s.flag SWC_CTRL_EN = true → s.flag (LNK_CTRL_EN p) = false →
      (s.lst p = lkOff → ∃ u, LinkStored s u p true ∧ Ends (.lnkEnable port v) s ((u.powerPort p).lpWritten p 0)) ∧
      (s.lst p = lkShutdown → ∃ u, LinkStored s u p true ∧ Ends (.lnkEnable port v) s ((u.set (LNK_CTRL_ENABLE_PENDING p) 1).lpWritten p 0))) ∧
    (s.flag (LNK_CTRL_EN p) = true →
      (s.lst p = lkActive → ∃ u, LinkStored s u p false ∧ Ends (.lnkDisable port v) s (u.goPort p lkShutdown)) ∧
      (s.lst p = lkShutdown → ∃ u, LinkStored s u p false ∧ Ends (.lnkDisable port v) s (u.set (LNK_CTRL_ENABLE_PENDING p) 0)))) ∧
  (∀ (port : PortIx) (v : Word) (s : State), Quiet s → Taken s (LNK_CTRL port.val) → s.fatal = false → bit v.toNat 0 = true → bits v.toNat 2 2 = 0 →
    s.portFenced port.val = false → s.flag SWC_CTRL_EN = true → s.flag (LNK_CTRL_EN port.val) = true →
    let p := port.val
    (s.lst p = lkActive → ∃ u, LinkStored s u p true ∧ Ends (.lnkRetrain port v) s ((u.sendDisable p).enterDetect p)) ∧
    (s.lst p = lkFailed → ∃ u, LinkStored s u p true ∧ Ends (.lnkRetrain port v) s (u.enterDetect p)) ∧
    (s.lst p = lkLp1 → ∃ u, LinkStored s u p true ∧ Ends (.lnkRetrain port v) s
      ((u.modPort p fun q => { q with lpAsked := if q.lpAsked = 3 then 0 else q.lpAsked }).wakeLp1 p)) ∧
    (s.lst p ∉ [lkActive, lkFailed, lkLp1, lkLp2] → ∃ u, LinkStored s u p true ∧ Ends (.lnkRetrain port v) s (u.lpWritten p 0)) ∧
    (bit v.toNat 8 = false → ∃ u, LinkStored s u p true ∧ Ends (.lpRequest port v) s (u.lpWritten p 1)) ∧
    (bit v.toNat 8 = false → ∃ u, LinkStored s u p true ∧ Ends (.lpExitWrite port v) s (u.lpWritten p 0))) ∧
  (∀ (port : PortIx) (v : Word) (s : State), Quiet s → Taken s (LNK_CTRL port.val) → s.fatal = false → bit v.toNat 0 = true → bits v.toNat 2 2 = 2 →
    s.portFenced port.val = false → s.flag SWC_CTRL_EN = true → s.flag (LNK_CTRL_EN port.val) = true → bit v.toNat 8 = false →
    let p := port.val
    (s.noLp2 p = true → Ends (.lpRequest port v) s (s.aerr 0 (LNK_CTRL p).off true 2)) ∧
    (s.noLp2 p = false → ∃ u, LinkStored s u p true ∧ Ends (.lpRequest port v) s
      (u.modPort p fun q => { q with lpAsked := if q.lpAsked = 3 then 0 else q.lpAsked }))) ∧
  (∀ (port : PortIx) (v : Word) (s : State), Quiet s → Taken s (LNK_PING_CTRL port.val) → s.fatal = false →
    ∃ u, RegsOnly s u ∧ RegsKept [(LNK_PING_CTRL port.val).off] s u ∧
      (s.lst port.val = lkActive → Ends (.pingStart port v) s (u.sendCtl port.val 0xB (leBytes 1 1))) ∧
      (s.lst port.val ≠ lkActive → exec (.pingStart port v) s = .next u)) ∧
  (∀ (port : PortIx) (s : State), Quiet s → s.fatal = false →
    let p := port.val
    (s.lst p = lkShutdown →
      let d := if (s.port p).drained then s else s.passTo ((s.port p).stepAt + 1650 * 100)
      let k := d.pass (((d.outSt p).slotDue - d.tu) / 160)
      let u := (k.putInSlot p 0xA (leBytes 1 6)).portOff p
      (k.flag (LNK_CTRL_ENABLE_PENDING p) = false → Ends (.portShutdownDone port) s u) ∧
      (k.flag (LNK_CTRL_ENABLE_PENDING p) = true → Ends (.portShutdownDone port) s (u.powerPort p))) ∧
    (s.lst p ≠ lkShutdown → exec (.portShutdownDone port) s = .next s) ∧
    (s.lst p = lkActive → s.flag (LNK_CTRL_LP1_AUTO p) = true →
      Ends (.lp1AutoIdle port) s ((s.passTo ((s.port p).idleSince + 1650 * max 1 (s.get (LNK_LP_CFG_IDLE p)))).modPort p fun q => { q with autoDue := true })) ∧
    (s.lst p = lkLp2 → (s.port p).waking = none → (s.port p).relocked = false →
      exec (.squelchWake port) s = .next (s.modPort p fun q => { q with waking := some s.now })) ∧
    (s.lst p = lkLp2 → (s.port p).waking.isSome = true → exec (.squelchWake port) s = .next s) ∧
    (∀ t, s.lst p = lkLp2 → (s.port p).waking = some t →
      let d := s.passTo (t + 1650 * 12)
      let u := (d.widthLanes p).foldl (fun s l => s.set (LANE_STATUS_LOCK l) 1) d
      let u := u.modPort p fun q => { q with waking := none }
      let k := (List.range 32).foldl (fun s v => s.setR (LNK_CRED p v) 0) u
      let k := k.modPort p fun q => { q with relocked := true, credNew := [], credSent := false, credSeen := false, goodMarkers := 0 }
      (u.lst p = lkLp2 → Ends (.lp2ExitDone port) s ((k.initCredits p).sendMarker p).2) ∧
      (u.lst p ≠ lkLp2 → Ends (.lp2ExitDone port) s (u.sendMarker p).2)) ∧
    (s.lst p = lkLp2 → (s.port p).waking = none → (s.port p).relocked = true → (s.port p).goodMarkers ≥ 1 → (s.port p).credSent = true →
      (s.port p).credSeen = true → Ends (.lp2ExitDone port) s ((s.goPort p lkActive).modPort p fun q => { q with relocked := false })) ∧
    ((s.port p).waitPower = true → (∀ i < p, (s.port i).waitPower = false) → s.recentPower < 4 → Ends (.portPowerTurn port) s (s.powerPort p)) ∧
    ((s.port p).waitPower = false → exec (.portPowerTurn port) s = .next s) ∧
    (∀ t, (s.port p).upAt = some t →
      let u := s.passTo (t + 1650 * max 1 (s.get RTE_UP_HOLD_HOLD))
      let k := u.modPort p fun q => { q with upAt := none }
      (u.flag RTE_CFG_UP_AUTO = true → Ends (.portUpHoldExpiry port) s (k.setR RTE_PORT_UP (putBits (k.getR RTE_PORT_UP) p 1 1))) ∧
      (u.flag RTE_CFG_UP_AUTO = false → Ends (.portUpHoldExpiry port) s u)))

/-- Training (R163 to R178, R197): a frame, a lock, a marker block or a time limit moves a port on, or fails it with its code, in the states of the
rules; in others it changes nothing. -/
def Obligations.LinkTraining : Prop :=
  (∀ (lane : LaneIx) (bytes : List Byte) (inverted : Bool) (fom : Nat) (s : State), Quiet s → s.fatal = false →
    let l := lane.val
    let p := l / 8
    let seen := (s.set (LANE_STATUS_POL_INV l) (b2n inverted)).set (LANE_STATUS_FOM l) (min 255 fom)
    ((s.lst p = lkDetect ∨ s.lst p = lkConfig) → frameGood bytes 1 = false →
      Ends (.identFrame lane bytes inverted fom) s (seen.modLane l fun x => { x with goodFrames := 0 })) ∧
    ((s.lst p = lkDetect ∨ s.lst p = lkConfig) → frameGood bytes 1 = true →
      let taken := ((seen.takeFrame l bytes).takeIdent p bytes).detectDone p
      let agreed := taken.agree p (taken.lane l).goodFrames
      agreed.laneMask p = seen.laneMask p → Ends (.identFrame lane bytes inverted fom) s (agreed.bothReady p)) ∧
    (s.lst p = lkDetect → frameGood bytes 2 = true → ((s.takeFrame l bytes).detectDone p).lst p ≠ lkConfig →
      Ends (.readyFrame lane bytes) s ((s.takeFrame l bytes).detectDone p)) ∧
    (((s.takeFrame l bytes).detectDone p).lst p = lkConfig → (s.lst p = lkDetect ∨ s.lst p = lkConfig) → frameGood bytes 2 = true →
      let u := (s.takeFrame l bytes).detectDone p
      Ends (.readyFrame lane bytes) s (((u.agree p (u.lane l).goodFrames).modPort p fun q => { q with peerReady := true }).bothReady p)) ∧
    (s.lst p = lkEq → frameGood bytes 3 = true →
      let t := 8 * p + s.get (LANE_STATUS_LOGICAL l)
      let req := field bytes 20 1
      let pre := txStep (s.get (LANE_TXEQ_PRE t)) (bits req 0 2) 16
      let post := txStep (s.get (LANE_TXEQ_POST t)) (bits req 2 2) 24
      let u := ((s.set (LANE_TXEQ_PRE t) pre.1).set (LANE_TXEQ_POST t) post.1).set (LANE_STATUS_FOM l) (min 255 fom)
      let u := u.modLane l fun x => if u.get (LANE_STATUS_FOM l) > x.bestFom then { x with bestFom := u.get (LANE_STATUS_FOM l), flat := 0 }
        else { x with flat := x.flat + 1 }
      ∃ code n, let k := { u with free := n }
        Ends (.eqFrame lane bytes fom) s (k.sendFrame t (k.frame t 3 code (b2n pre.2 + 4 * b2n post.2 + 16 * b2n (decide ((u.lane l).flat ≥ 8)))))) ∧
    (frameGood bytes 4 = true → s.lst p = lkEq → (s.port p).loopAsked = true → Ends (.loopReqFrame lane bytes) s (s.enterLoop p)) ∧
    (frameGood bytes 4 = true → (s.lst p = lkEq ∨ s.lst p = lkDeskew) → (s.port p).loopAsked = false → s.flag (LNK_CTRL_FAR_ALLOW p) = true →
      Ends (.loopReqFrame lane bytes) s (((s.enterLoop p).modPort p fun q => { q with farLoop := true }).sendFrame lane bytes)) ∧
    (frameGood bytes 4 = true → (s.lst p = lkEq ∨ s.lst p = lkDeskew) → (s.port p).loopAsked = false → s.flag (LNK_CTRL_FAR_ALLOW p) = false →
      exec (.loopReqFrame lane bytes) s = .next s) ∧
    (frameGood bytes 5 = true → s.lst p = lkActive →
      let upper := decide (s.get (LANE_STATUS_LOGICAL l) ≥ 4)
      ((s.mayNarrow p && s.halfGood p (4 * b2n upper)) = true → Ends (.narrowFrame lane bytes) s ((s.narrow p upper).sendMarker p).2) ∧
      ((s.mayNarrow p && s.halfGood p (4 * b2n upper)) = false → Ends (.narrowFrame lane bytes) s (s.failPort p 0xA))) ∧
    (s.lst p ≠ lkEq → exec (.eqFrame lane bytes fom) s = .next s) ∧
    (s.lst p ∉ [lkDetect, lkConfig] → exec (.identFrame lane bytes inverted fom) s = .next s ∧ exec (.readyFrame lane bytes) s = .next s)) ∧
  (∀ (lane : LaneIx) (idle : Bool) (fom : Nat) (s : State), Quiet s → s.fatal = false →
    let l := lane.val
    let p := l / 8
    (s.lst p ∈ [lkOff, lkFailed, lkFenced] → exec (.laneLock lane) s = .next s) ∧
    (s.lst p = lkLp2 → (s.port p).waking = none → exec (.laneLock lane) s = .next s) ∧
    (s.lst p ∉ [lkOff, lkLp2, lkFailed, lkFenced, lkDetect, lkSpeed] → Ends (.laneLock lane) s (s.set (LANE_STATUS_LOCK l) 1)) ∧
    (s.lst p = lkActive →
      let lost (s : State) (l : Nat) : State := (s.set (LANE_STATUS_LOCK l) 0).modLane l fun x => { x with goodFrames := 0 }
      (idle = false → s.flag (LANE_STATUS_ACTIVE l) = true → Ends (.laneLockLoss lane idle) s ((lost s l).laneFault l)) ∧
      (idle = false → s.flag (LANE_STATUS_ACTIVE l) = false → Ends (.laneLockLoss lane idle) s (lost s l)) ∧
      (idle = true → bit (s.pmap p 6 2) 0 = false → Ends (.laneLockLoss lane idle) s (((portLanes p).foldl lost s).failPort p 9)) ∧
      (idle = true → bit (s.pmap p 6 2) 0 = true → Ends (.laneLockLoss lane idle) s ((portLanes p).foldl lost s))) ∧
    (s.lst p = lkLp1 → l ∉ s.rxLanes p → exec (.laneLockLoss lane idle) s = .next s) ∧
    (s.lst p = lkActive → s.flag (LANE_STATUS_ACTIVE l) = true →
      let u := s.set (LANE_STATUS_FOM l) (min 255 fom)
      (s.get (LNK_FOM_MIN_FOM p) ≤ min 255 fom → Ends (.fomMeasure lane fom) s (u.modLane l fun x => { x with lowFom := 0 })) ∧
      (min 255 fom < s.get (LNK_FOM_MIN_FOM p) → (s.lane l).lowFom + 1 < 3 →
        Ends (.fomMeasure lane fom) s (u.modLane l fun x => { x with lowFom := (s.lane l).lowFom + 1 })) ∧
      (min 255 fom < s.get (LNK_FOM_MIN_FOM p) → 3 ≤ (s.lane l).lowFom + 1 → s.flag (LANE_STATUS_FAULT l) = false →
        Ends (.fomMeasure lane fom) s ((u.modLane l fun x => { x with lowFom := (s.lane l).lowFom + 1 }).laneFault l)))) ∧
  (∀ (port : PortIx) (lanes : List (List Byte)) (skews : List Nat) (s : State), Quiet s → s.fatal = false →
    let p := port.val
    (s.lst p = lkEq → (s.port p).loopAsked = false →
      let u := if ∀ l ∈ s.widthLanes p, 8 ≤ (s.lane l).flat then s else s.passTo ((s.port p).stepAt + 1650 * 16000)
      ((∃ l ∈ u.widthLanes p, u.get (LANE_STATUS_FOM l) < u.get (LNK_FOM_MIN_FOM p)) → Ends (.eqAdaptEnd port) s (u.failPort p 5)) ∧
      ((∀ l ∈ u.widthLanes p, u.get (LNK_FOM_MIN_FOM p) ≤ u.get (LANE_STATUS_FOM l)) →
        (u.get (LNK_CTRL_LOOP p) ≠ 3 → Ends (.eqAdaptEnd port) s ((u.goPort p lkDeskew).sendMarker p).2) ∧
        (u.get (LNK_CTRL_LOOP p) = 3 → Ends (.eqAdaptEnd port) s ((u.modPort p fun q => { q with loopAsked := true }).sendFrames (u.txLanes p) 4)))) ∧
    (s.lst p ∈ [lkOff, lkDetect, lkConfig, lkSpeed, lkEq, lkFailed, lkFenced] → exec (.markerBlock port lanes skews) s = .next s) ∧
    (s.lst p = lkDeskew → (s.port p).farLoop = false → (s.port p).onLane0 = false → s.widthLanes p ≠ [] →
      let ls := s.widthLanes p
      (∀ l ∈ ls, markerHolds (lanes.getD (l % 8) []) = true) → ∀ m,
      (∀ l ∈ ls, markerSeq (lanes.getD (l % 8) []) (s.get (LANE_STATUS_LOGICAL l)) = some m) →
      let sk := ls.map fun l => skews.getD (l % 8) 0
      let first := sk.foldl min (sk.headD 0)
      let u := (ls.foldl (fun s l => s.modLane l fun x => { x with badMarkers := 0 }) s).seedRx p ls (ls.map fun _ => some m)
      let u := (ls.zip sk).foldl (fun s x => s.set (LANE_STATUS_SKEW x.1) (min 255 ((x.2 - first) / 4))) u
      let limit := 64 * 2 ^ u.get (LNK_STATUS_SPEED p)
      ((∃ x ∈ sk, limit < x - first) → Ends (.markerBlock port lanes skews) s (u.failPort p 6)) ∧
      ((∀ x ∈ sk, x - first ≤ limit) →
        let k := u.modPort p fun q => { q with goodMarkers := q.goodMarkers + 1 }
        ((u.port p).goodMarkers = 0 → Ends (.markerBlock port lanes skews) s (k.sendMarker p).2) ∧
        ((u.port p).goodMarkers = 1 → Ends (.markerBlock port lanes skews) s (k.enterInit p)))) ∧
    (∀ us, stepLimit (s.lst p) = some us →
      let u := s.passTo ((s.port p).stepAt + 1650 * us)
      Ends (.trainingStepTimeout port) s (u.failPort p (if u.lst p = lkRetrain then 0xA else if (u.port p).loopAsked then 0xC
        else if u.lst p = lkEq ∧ u.fomLow p = true then 5 else 1))) ∧
    (stepLimit (s.lst p) = none → exec (.trainingStepTimeout port) s = .next s) ∧
    (s.lst p = lkFailed → s.get (LNK_STATUS_FAIL_CODE p) ≠ 4 → s.flag (LNK_CTRL_EN p) = true →
      Ends (.failedRetryTimer port) s ((s.passTo ((s.port p).stepAt + 1650 * 100000)).enterDetect p)) ∧
    (s.get (LNK_STATUS_FAIL_CODE p) = 4 → exec (.failedRetryTimer port) s = .next s))

/-- Flits (R179 to R196, R245 to R247): each flit that is good, known and of its type does what its rule says; a bad or stomped one is counted and does
nothing else; the retry, credit and open-packet timers act when their time comes. -/
def Obligations.FlitsAndTimers : Prop :=
  (∀ (port : PortIx) (rx : RxFlit) (header replayed : Bool) (s : State), Quiet s → s.rxOn port.val = false →
    exec (.nullFlit port rx) s = .next s ∧ exec (.dataFlit port rx header) s = .next s ∧ exec (.ctrlFlit port rx replayed) s = .next s ∧
      exec (.creditFlit port rx) s = .next s ∧ exec (.nak port rx) s = .next s ∧ exec (.replayStart port rx) s = .next s ∧
      exec (.pingRequest port rx) s = .next s ∧ exec (.wake port rx) s = .next s ∧ exec (.nakTimeout port) s = .next s) ∧
  (∀ (port : PortIx) (rx : RxFlit) (s : State), Quiet s → s.rxOn port.val = true → s.lst port.val = lkLoopback →
    Ends (.nullFlit port rx) s (s.rxLoop port.val rx)) ∧
  (∀ (port : PortIx) (rx : RxFlit) (header replayed : Bool) (s r : State) (bytes : List Byte) (v : Verdict), Quiet s → s.rxOn port.val = true →
    s.lst port.val ≠ lkLoopback → s.rxIn port.val rx = (bytes, v, r) →
    let p := port.val
    (v = .stomped → Ends (.nullFlit port rx) s (r.rxBad p true) ∧ Ends (.dataFlit port rx header) s (r.rxBad p true)) ∧
    (v = .bad → Ends (.nullFlit port rx) s (r.rxBad p false) ∧ Ends (.dataFlit port rx header) s (r.rxBad p false) ∧
      (flitType bytes = 2 → (s.port p).inOrder bytes = true → Ends (.ctrlFlit port rx false) s ((r.ctlBad p bytes).rxBad p false)) ∧
      Ends (.ctrlFlit port rx true) s (r.rxBad p false)) ∧
    (v = .good → typeKnown (flitType bytes) = false → Ends (.nullFlit port rx) s ((r.rxGood p bytes).count (LNK_PROTO_ERR_COUNT p))) ∧
    (v = .good →
      let u := r.rxGood p bytes
      (flitType bytes = 0 → Ends (.nullFlit port rx) s u) ∧
      (flitType bytes = 1 → ∀ k, u.rxSeq p bytes = (k, true) →
        Ends (.dataFlit port rx header) s (if header then k.dataHeader p (bytes.take 64) else k.dataPayload p (bytes.take 64))) ∧
      (flitType bytes = 2 → ∀ k, u.rxSeq p bytes = (k, true) → Ends (.ctrlFlit port rx replayed) s
        (k.ctlGood p bytes (!replayed && (s.port p).inOrder bytes))) ∧
      (flitType bytes = 3 → ∀ k, u.rxSeq p bytes = (k, true) →
        let c := (List.range 32).foldl (fun s i => s.addCredit p (field bytes (2 * i) 1 % 32) (field bytes (2 * i + 1) 1)) k
        Ends (.creditFlit port rx) s ((c.modPort p fun q => { q with credSeen := true }).initDone p)) ∧
      (flitType bytes = 8 → Ends (.nak port rx) s (u.takeNak p (field bytes 0 2 % 4096) (field bytes 2 1 % 16))) ∧
      (flitType bytes = 9 →
        let skip := ((u.port p).expected + 4096 - field bytes 0 2 % 4096) % 4096
        (1024 < skip → Ends (.replayStart port rx) s ((u.count (LNK_PROTO_ERR_COUNT p)).failPort p 0xB)) ∧
        (skip ≤ 1024 → Ends (.replayStart port rx) s
          (u.modPort p fun q => { q with rxGen := field bytes 2 1 % 16, skip := skip, rxWait := false, resend := 0 }))) ∧
      (flitType bytes = 0xF →
        let k := (u.set (LNK_PEER_FATAL_ADDR p) (field bytes 0 4)).set (LNK_PEER_FATAL_CODE p) (field bytes 4 1)
        let k := (k.setR64 (LNK_PEER_FATAL_TIME p) (field bytes 8 8)).set (LNK_STATUS_PEER_FATAL p) 1
        Ends (.fatalFlit port rx) s ((k.failPort p 8).report 0x04 p (field bytes 4 1))) ∧
      (flitType bytes = 0xA →
        (field bytes 0 1 = 1 → Ends (.reqLp1 port rx) s (u.lpAskedFor p 1)) ∧ (field bytes 0 1 = 2 → Ends (.reqLp2 port rx) s (u.lpAskedFor p 2)) ∧
        (field bytes 0 1 = 3 → u.lst p = lkActive → ∀ k ∈ [1, 2], (u.port p).lpAsked = k → Ends (.lpmAccept port rx) s (u.enterLp p k)) ∧
        (field bytes 0 1 = 4 → (u.port p).lpAsked ≠ 0 →
          Ends (.lpmRefuse port rx) s (u.modPort p fun q => { q with lpAsked := 3, autoDue := false })) ∧
        (field bytes 0 1 = 5 → u.lst p = lkLp1 → Ends (.wake port rx) s ((u.modPort p fun q => { q with onLane0 := false }).goPort p lkActive)) ∧
        (field bytes 0 1 = 6 → u.lst p ≠ lkShutdown → Ends (.lpmDisable port rx) s ((u.emit (.idle p)).enterDetect p))) ∧
      (flitType bytes = 0xB →
        (field bytes 0 1 = 1 → Ends (.pingRequest port rx) s
          (u.sendCtl p 0xB (leBytes 8 2 ++ slice bytes 8 8 ++ leBytes 8 u.ft))) ∧
        (field bytes 0 1 = 2 →
          let k := [0, 1, 2].foldl (fun s i => s.setR64 (LNK_PING_T p i) (field bytes (8 + 8 * i) 8)) u
          Ends (.pingResponse port rx) s ((k.setR64 (LNK_PING_T p 3) k.ft).set (LNK_PING_CTRL_DONE p) 1))))) ∧
  (∀ (port : PortIx) (s : State), Quiet s → s.fatal = false →
    let p := port.val
    let limit := max 1 (s.get (LNK_RETRY_CFG_ACK_TIMEOUT p))
    (s.lst p ∈ [lkActive, lkLp1, lkShutdown] → (s.port p).stored ≠ [] → (s.port p).replayFrom = none →
      let u := s.passTo ((s.port p).ackAt + limit)
      Ends (.ackTimeout port) s (u.replayLink p (u.port p).oldest)) ∧
    ((s.port p).stored = [] → exec (.ackTimeout port) s = .next s) ∧
    (s.lst p = lkActive → (s.port p).rxWait = true →
      let u := (s.passTo ((s.port p).nakAt + limit)).modPort p fun q => { q with resend := q.resend + 1 }
      ((u.port p).resend ≤ u.get (LNK_RETRY_CFG_RETRY_LIMIT p) → Ends (.nakTimeout port) s (u.sendNak p)) ∧
      (u.get (LNK_RETRY_CFG_RETRY_LIMIT p) < (u.port p).resend → Ends (.nakTimeout port) s (u.failPort p 7))) ∧
    (∀ t, (s.port p).owedAt = some t → (s.lst p = lkActive ∨ s.lst p = lkLp1) →
      Ends (.creditWaitTimeout port) s ((s.passTo (t + 106)).runSlot p)) ∧
    ((s.port p).owedAt = none → exec (.creditWaitTimeout port) s = .next s) ∧
    (∀ o, Tbl.find s.switch.opens p = some o → Ends (.openPacketTimeout port) s ((s.passTo (o.lastAt + 16500)).dropOpen p)) ∧
    (Tbl.find s.switch.opens p = none → exec (.openPacketTimeout port) s = .next s) ∧
    (s.lst p ∈ [lkInit, lkActive, lkLp1, lkShutdown] → s.markerDue p = true →
      let due := max (s.outSt p).slotDue s.tu
      let r := s.sendMarker p
      Ends (.markerIntervalEnd port) s (r.2.modOut p fun y => { y with slotDue := due + r.1 * r.2.slotTime p })) ∧
    (s.markerDue p = false → exec (.markerIntervalEnd port) s = .next s))

/-- The switch core's own events (R226, R243, R261 to R264, R275, R287): an output decides in its next slot; the gate list goes on to its next window;
an input's next packet gets its cells when they are there; a hold ends; the scanner discards an aged head; a flow whose gap has lasted loses what it
holds; an idle flow's entry is released. -/
def Obligations.SwitchEvents : Prop :=
  (∀ (output : OutIx) (s : State), Quiet s → s.fatal = false → 24 ≤ output.val →
    let u := s.pass (((s.outSt output.val).slotDue - s.tu) / 160)
    (∀ x ∈ u.switch.cuts, x.output ≠ output.val) → Ends (.outputSlot output) s (u.slot output.val (max (u.outSt output.val).slotDue u.tu))) ∧
  (∀ (output : OutIx) (s : State), Quiet s → s.fatal = false → output.val < 24 →
    let o := output.val
    let u := s.pass (((s.outSt o).slotDue - s.tu) / 160)
    ((u.cutTurn o).outSt o |>.slotDue) ≠ (u.outSt o).slotDue → Ends (.outputSlot output) s (u.cutTurn o)) ∧
  (∀ (output : OutIx) (s : State), Quiet s → s.fatal = false → output.val < 24 →
    let o := output.val
    let u := s.pass (((s.outSt o).slotDue - s.tu) / 160)
    (∀ x ∈ u.switch.cuts, x.output ≠ o) →
      (u.lst o ≠ lkLp1 → Ends (.outputSlot output) s ((u.slot o (max (u.outSt o).slotDue u.tu)).initDone o)) ∧
      (u.lst o = lkLp1 → u.seqWaiting o = true →
        Ends (.outputSlot output) s (((u.wakeLp1 o).slot o (max (u.outSt o).slotDue (u.wakeLp1 o).tu)).initDone o))) ∧
  (∀ (port : PortIx) (s : State), Quiet s → s.fatal = false →
    (s.window port.val = none → exec (.gateWindowChange port) s = .next s) ∧
    ∀ i open_ len past, s.window port.val = some (i, open_, len, past) →
      let u := s.passToFt (s.ft + (len - past))
      Ends (.gateWindowChange port) s (u.refreshOut port.val u.tu)) ∧
  (∀ (input : OutIx) (s : State), Quiet s → s.fatal = false →
    (s.grantTurn = none → exec (.cellGrant input) s = .next s) ∧
    ∀ o tie, s.grantTurn = some (o, tie) →
      let rest := s.sw fun w => { w with offers := w.offers.erase o, tieWon := if tie then some o.input else w.tieWon }
      let d := rest.originRoute (o.pkt.setH 72 16 rest.usFt)
      (o.input ≠ input.val → exec (.cellGrant input) s = .next s) ∧
      (o.input = input.val → d.out = none → Ends (.cellGrant input) s (rest.originDiscard d.reason o).offersEnd) ∧
      (o.input = input.val → Ends (.cellGrant input) s
        (rest.placeOffer State.offerC3 o ((rest.grantAside (cellsOf o.pkt.flits) o.job).getD 0)).offersEnd)) ∧
  (∀ (input : OutIx) (s : State), Quiet s → s.fatal = false →
    ((∀ o ∈ s.switch.offers, o.input = input.val → o.heldAt = none) → exec (.congestionHoldEnd input) s = .next s) ∧
    ∀ o k, s.switch.offers.find? (fun o => o.input == input.val && o.heldAt.isSome) = some o → (s.originRoute o.pkt).queueKey o.pkt = some k →
      let d := if s.marked k then s.passTo (o.heldAt.getD s.now + 1650 * s.get SWC_CONG_HOLD_HOLD) else s
      let u := d.sw fun w => { w with offers := w.offers.map fun x => if x = o then { o with heldAt := none, came := d.now } else x }
      (u.grantTurn = none → Ends (.congestionHoldEnd input) s u) ∧
      ∀ x tie, u.grantTurn = some (x, tie) →
        (x.input ≠ input.val → Ends (.congestionHoldEnd input) s u) ∧ (x.input = input.val → Ends (.congestionHoldEnd input) s (u.grantNext x tie))) ∧
  (∀ s : State, Quiet s → s.fatal = false → (s.scanNext = none → exec .ageScan s = .next s) ∧
    ∀ k d rest, s.scanNext = some k → s.queue k = d :: rest →
      let u := s.sw fun w => { w with scanPtr := k }
      (s.pdLive d = false → Ends .ageScan s (u.setQueue k rest).dropStale) ∧
      ∀ b, s.pdLive d = true → s.bufPkt d.head = some b →
        ((s.aged b.pkt = false ∨ b.left = true) → exec .ageScan s = .next u) ∧
        (s.aged b.pkt = true → b.left = false →
          Ends .ageScan s ((u.setQueue k rest).discardHead State.offerC3 8 d.head true (decide (768 ≤ k))))) ∧
  (∀ (i : Nat) (s : State), Quiet s → s.fatal = false →
    (s.switch.flows[i]? = none → exec (.rsqTimeout i) s = .next s ∧ exec (.rsqIdleRelease i) s = .next s) ∧
    ∀ f, s.switch.flows[i]? = some f →
      (f.gapAt = none → exec (.rsqTimeout i) s = .next s) ∧
      (∀ t, f.gapAt = some t →
        let u := s.passTo (t + 1650 * max 1 (s.get SWC_RSQ_CFG_TIMEOUT))
        let far := (f.slots.map fun x => (x.1 + 65536 - f.expected) % 65536).foldl max 0
        let k := u.modFlow i fun f => { f with slots := [], expected := (f.expected + far + 1) % 65536, gapAt := none }
        Ends (.rsqTimeout i) s ((f.slots.foldl (fun s x =>
          if s.pdLive x.2 then s.discardHead State.offerC3 11 x.2.head true true else s.dropStale) k).sweep [0x78])) ∧
      (f.slots ≠ [] → exec (.rsqIdleRelease i) s = .next s) ∧
      (f.slots = [] → Ends (.rsqIdleRelease i) s ((s.passTo (f.lastAt + 1650 * max 1 (s.get SWC_RSQ_CFG_IDLE))).sw fun w =>
        { w with flows := w.flows.eraseIdx i })))

/-- Sweeps, audits and the control registers of the switch (R268 to R273, R292): a sweep's walk of 16 cells an FCLK ends and the next begins; what a sweep
marked and is still held is freed by force; an audit waits for the sweeps and compares its totals; the switch core is enabled, disabled only when
nothing it serves is enabled, and the sampler's fields clear at the end of the FCLK. -/
def Obligations.SweepsAndSwitchControl : Prop :=
  (∀ s : State, Quiet s → (s.switch.sweeps = [] → exec .sweepDone s = .next s) ∧
    (∀ w0 ws0, s.switch.sweeps = w0 :: ws0 →
      let u := s.pass ((131072 - w0.pos + 15) / 16)
      ∀ w, u.switch.sweeps = [w] → u.switch.auditAsked = false → Ends .sweepDone s ((u.sw fun x =>
        { x with sweeps := [], swept := if w.marked.isEmpty then x.swept else x.swept ++ [w] }).set BPM_STATUS_SWEEP_BUSY 0))) ∧
  (∀ s : State, Quiet s → (s.switch.swept = [] → s.switch.sweeps = [] → exec .reclaimTimeout s = .next s) ∧
    ∀ w ws, s.switch.swept = w :: ws →
      let u := s.passTo (w.start.getD 0 + 1650 * max 1 (s.get BPM_RECLAIM_TIMEOUT_TIME))
      Ends .reclaimTimeout s (w.marked.foldl State.forceFree (u.sw fun x => { x with swept := x.swept.erase w }))) ∧
  (∀ (v : Word) (s : State), Quiet s → Taken s BPM_CTRL → s.fatal = false →
    ∃ u, RegsOnly s u ∧ RegsKept [BPM_CTRL.off] s u ∧ Ends (.audit v) s u.askAudit) ∧
  (∀ s : State, Quiet s → (s.get BPM_CTRL_AUDIT_PERIOD = 0 → exec .auditPeriodTimer s = .next s) ∧
    (s.get BPM_CTRL_AUDIT_PERIOD ≠ 0 → Ends .auditPeriodTimer s
      (s.passTo (s.switch.auditStart + s.get BPM_CTRL_AUDIT_PERIOD * 16500000)).askAudit)) ∧
  (∀ s : State, Quiet s → (s.switch.audit = none → exec .auditDone s = .next s) ∧
    ∀ a0, s.switch.audit = some a0 → (s.switch.sweeps ≠ [] → exec .auditDone s = .next s) ∧
      (s.switch.sweeps = [] →
        let u := s.pass ((131072 - a0.pos + 15) / 16)
        ∀ a, u.switch.audit = some a →
          let k := ((u.sw fun w => { w with audit := none }).set BPM_STATUS_AUDIT_BUSY 0).set BPM_AUDIT_RESULT_LEAKED (min 0x3FFFF a.leaked)
          let k := if a.leaked > 0 then k.set BPM_STATUS_LEAK 1 else (k.set BPM_AUDIT_RESULT_OWNER 0).setR BPM_AUDIT_CELL 0
          (a.free + a.frees = k.cellsFree + a.allocs → Ends .auditDone s k) ∧
          (a.free + a.frees ≠ k.cellsFree + a.allocs → Ends .auditDone s ((k.set BPM_STATUS_AUDIT_MISMATCH 1).report 0x1D 0 k.cellsFree)))) ∧
  (∀ (v : Word) (s : State), Quiet s → Taken s SWC_CTRL → s.fatal = false →
    (∃ t, exec (.swcEnable v) s = .next t ∧ t.flag SWC_CTRL_EN = true ∧ RegsKept [SWC_CTRL.off] s t ∧ RegsOnly s t) ∧
    (s.anyEnabled = true → Ends (.swcDisable v) s (s.aerr 0 SWC_CTRL.off true 2)) ∧
    (s.anyEnabled = false → s.flag SWC_CTRL_EN = true → Ends (.swcDisable v) s s.swcDisable) ∧
    (s.anyEnabled = false → s.flag SWC_CTRL_EN = false → exec (.swcDisable v) s = .next s)) ∧
  (∀ (v : Word) (s : State), Quiet s → Taken s SCH_CTRL →
    ∃ u, Ends (.schClear v) s (u.sw fun w => { w with clearDue := true }) ∧ u.flag SCH_CTRL_OBS_EN = bit v.toNat 0 ∧ RegsKept [SCH_CTRL.off] s u ∧
      RegsOnly s u) ∧
  (∀ s : State, s.fatal = false → s.switch.clearDue = true →
    let u := (s.cutAll.elapse 1).switchPass 1
    u.switch.clearDue = true → (s.pass 1).switch.clearDue = false ∧
      (∀ r : Reg, (SCH_Q_SAMPLES 0).off ≤ r.off → r.off < (SCH_CQ_HWM 280).off → (s.pass 1).getR r = r.reset % 2 ^ 32) ∧
      (∀ r : Reg, ¬((SCH_Q_SAMPLES 0).off ≤ r.off ∧ r.off < (SCH_CQ_HWM 280).off) → (s.pass 1).getR r = u.getR r))

/-- The commands of PAT_CTRL and the end of a check (R29, R32, R42): one command at a time reads its image or is refused; a failed read refuses with
0x14, a failed check with its code, piece, type and record, and an accepted image is installed, staged or applied. The staged pieces can be
discarded while no seam is armed. -/
def Obligations.PatternImages : Prop :=
  (∀ (v : Word) (s : State), Quiet s → Taken s PAT_CTRL → ∀ x ∈ ([(.load v, 0), (.baste v, 1), (.drained v, 2)] : List (Instr × Nat)),
    (bits v.toNat 0 4 &&& (15 ^^^ 2 ^ x.2) ≠ 0 → Ends x.1 s (s.aerr 0 PAT_CTRL.off true 2)) ∧
    (bits v.toNat 0 4 &&& (15 ^^^ 2 ^ x.2) = 0 → ∀ c, s.startCheck x.2 = some c → Ends x.1 s (s.patResult x.2 { code := c })) ∧
    (bits v.toNat 0 4 &&& (15 ^^^ 2 ^ x.2) = 0 → s.startCheck x.2 = none → ∃ t, exec x.1 s = .next t ∧
      t.pat = { s.pat with check := some { op := x.2, addr := s.getR64 PAT_LOAD_ADDR, len := s.get PAT_LOAD_LEN_LEN } } ∧
      t.flag PAT_STATUS_BUSY = true ∧ t.out = s.out ++ [.hostRead (s.getR64 PAT_LOAD_ADDR) (s.get PAT_LOAD_LEN_LEN)] ∧
      RegsKept [PAT_STATUS.off] s t)) ∧
  (∀ (v : Word) (s : State), Quiet s → Taken s PAT_CTRL → bits v.toNat 0 3 = 0 →
    (s.flag PAT_STATUS_ARMED = true → exec (.discardBaste v) s = .next s) ∧
    (s.flag PAT_STATUS_ARMED = false → ∃ t, exec (.discardBaste v) s = .next t ∧ t.flag PAT_STATUS_STAGED = false ∧ t.pat.staged = [] ∧
      t.pat.live = s.pat.live ∧ RegsKept [PAT_STATUS.off, PAT_EPOCH_STATUS.off] s t)) ∧
  (∀ (image : Option (List Byte)) (s : State), Quiet s → s.pat.check = none → exec (.patternCheckDone image) s = .next s) ∧
  (∀ (image : Option (List Byte)) (s : State) (c : PatCheck), Quiet s → s.fatal = false → s.pat.check = some c →
    let u := { s with pat := { s.pat with check := none } }.set PAT_STATUS_BUSY 0
    (image = none → Ends (.patternCheckDone image) s (u.patResult c.op { code := 0x14 })) ∧
    ∀ raw, image = some raw →
      (∀ r, u.imageCheck c.op (slice raw 0 c.len) = some r → Ends (.patternCheckDone image) s (u.patResult c.op r)) ∧
      (u.imageCheck c.op (slice raw 0 c.len) = none → c.op ≤ 2 →
        Ends (.patternCheckDone image) s ((acceptImage u c.op (slice raw 0 c.len)).patResult c.op { code := 0 })))

/-- Arming, the seam and the release of the old bank (R37, R38, R40, R41): an arm that passes the tests arms, one that fails is refused with its code, 0x21
counted as missed; a cancel before the armed time leaves the shadow staged, and one at that time is discarded; the seam takes up the writes and pieces that wait, and reports itself; the old bank is
released when every drain count is zero. -/
def Obligations.SeamCommands : Prop :=
  (∀ (v : Word) (s : State), Quiet s → Taken s PAT_SEAM_CTRL →
    let gen := bits v.toNat 16 16
    (s.armRefusal gen = none →
      Ends (.arm v) s (((s.setR PAT_SEAM_CTRL (gen * 2 ^ 16 + 1)).set PAT_STATUS_ARMED 1).patResult 3 { code := 0 })) ∧
    (∀ c, s.armRefusal gen = some c → s.flag PAT_STATUS_ARMED = true → c ≠ 0x21 → Ends (.arm v) s (s.patResult 3 { code := c })) ∧
    (∀ c, s.armRefusal gen = some c → s.flag PAT_STATUS_ARMED = false → c ≠ 0x21 →
      Ends (.arm v) s (((s.setR PAT_SEAM_CTRL (gen * 2 ^ 16 + 1)).set PAT_SEAM_CTRL_ARM 0).patResult 3 { code := c })) ∧
    (s.armRefusal gen = some 0x21 → Ends (.arm v) s (((((s.setR PAT_SEAM_CTRL (gen * 2 ^ 16 + 1)).set PAT_SEAM_CTRL_ARM 0).set PAT_STATUS_MISSED 1).count
      PAT_SEAM_MISS_COUNT_COUNT).patResult 3 { code := 0x21 })) ∧
    (s.flag PAT_STATUS_ARMED = true → s.get64 PAT_SEAM_TIME_T ≤ s.ft → Ends (.seamCancel v) s (s.aerr 0 PAT_SEAM_CTRL.off true 2)) ∧
    ((s.flag PAT_STATUS_ARMED = false ∨ s.ft < s.get64 PAT_SEAM_TIME_T) →
      ∃ t, exec (.seamCancel v) s = .next t ∧ t.flag PAT_STATUS_ARMED = false ∧ t.getR PAT_SEAM_CTRL = gen * 2 ^ 16 ∧
        t.flag PAT_STATUS_STAGED = s.flag PAT_STATUS_STAGED ∧ RegsKept [PAT_SEAM_CTRL.off, PAT_STATUS.off] s t ∧ RegsOnly s t)) ∧
  (∀ s : State, Quiet s → s.fatal = false →
    (s.flag PAT_STATUS_ARMED = false → exec .seamApply s = .next s) ∧
    (s.flag PAT_STATUS_ARMED = true →
      let u := s.passToFt (s.get64 PAT_SEAM_TIME_T)
      Ends .seamApply s u.applySeam ∧ u.applySeam.flag PAT_STATUS_ARMED = false ∧ u.applySeam.flag PAT_STATUS_STAGED = false ∧
        u.applySeam.flag PAT_STATUS_SEAM_DONE = true ∧ u.applySeam.shadow = [] ∧
        u.applySeam.pat.live = (if u.flag PAT_STATUS_STAGED then mergePieces u.pat.live u.pat.staged else u.pat.live))) ∧
  (∀ s : State, Quiet s → s.fatal = false →
    (s.flag PAT_EPOCH_STATUS_OLD_DRAINING = true → (∀ p < 35, s.drainCount p = 0) →
      Ends .oldBankRelease s ((s.setBank (1 - s.curEpoch) {} false).set PAT_EPOCH_STATUS_OLD_DRAINING 0)) ∧
    ((s.flag PAT_EPOCH_STATUS_OLD_DRAINING = false ∨ ∃ p < 35, s.drainCount p ≠ 0) → exec .oldBankRelease s = .next s))

/-- Replay and the start barrier (R340, R344, R353): a core whose replay is prepared takes up its checkpoint and runs; it has caught up when it has
issued as many instructions as before the fault. The barrier is armed for a fabric time to come, else LATE is set; a cancel before that time starts the held
jobs, and so does the release one FCLK after the time is reached. A held step barrier goes on when its time has passed. -/
def Obligations.ReplayAndStart : Prop :=
  (∀ (core : CoreIx) (s : State) (t : Nat) (ck : Ckpt) (j : Job), Quiet s → s.fatal = false →
    let L := core.val
    (s.cdet L).resumeAt = some t → (s.cdet L).ckpt = some ck → s.coreJob L = some j → s.cst L = stFaulted → s.imageOpen j = true →
    let u := (((((s.passTo t).zeroGrant L j.sram).copyProgram j L).restoreCkpt L ck).setR (SEQ_FAULT L) 0).set (DET_CORE_REPLAY_REPLAYING L) 1
    let k := (u.setCst L stRun).modDet L fun d => { d with resumeAt := none, takeover := false }
    (k.cst L = stRun ∧ k.get (SEQ_PC_INDEX L) = ck.pc % 2 ^ 18 ∧ (k.core L).p = ck.p ∧ (k.core L).loops = ck.loops) ∧
    ((k.cdet L).faultCount ≠ 0 → Ends (.replayResume core) s k.showTakeover) ∧
    ((k.cdet L).faultCount = 0 → Ends (.replayResume core) s (k.caughtUp L).showTakeover)) ∧
  (∀ (core : CoreIx) (s : State), Quiet s → ((s.cdet core.val).resumeAt = none ∨ s.cst core.val ≠ stFaulted) →
    exec (.replayResume core) s = .next s) ∧
  (∀ (core : CoreIx) (s : State), Quiet s → s.fatal = false →
    let L := core.val
    (s.flag (DET_CORE_REPLAY_REPLAYING L) = true → (s.cdet L).faultCount ≤ (s.cdet L).count →
      ∃ t, exec (.replayCaughtUp core) s = .next t ∧ t.flag (DET_CORE_REPLAY_REPLAYING L) = false ∧
        t.get DET_REPLAYS_COUNT = min (2 ^ 32 - 1) (s.get DET_REPLAYS_COUNT + 1) ∧
        RegsKept [(DET_CORE_REPLAY L).off, DET_REPLAYS.off] s t ∧ RegsOnly s t) ∧
    ((s.flag (DET_CORE_REPLAY_REPLAYING L) = false ∨ (s.cdet L).count < (s.cdet L).faultCount) → exec (.replayCaughtUp core) s = .next s)) ∧
  (∀ (v : Word) (s : State), Quiet s → Taken s DET_START_CTRL → s.fatal = false → bits v.toNat 1 2 = 0 →
    (s.flag DET_START_CTRL_ARM = false → s.get64 DET_START_TIME_T ≤ s.ft →
      Ends (.detStartArm v) s (((s.set DET_START_CTRL_ARM 0).set DET_START_CTRL_LATE 1).raiseVec 6)) ∧
    (s.flag DET_START_CTRL_ARM = false → s.ft < s.get64 DET_START_TIME_T →
      ∃ t, exec (.detStartArm v) s = .next t ∧ t.flag DET_START_CTRL_ARM = true ∧ RegsKept [DET_START_CTRL.off] s t ∧ RegsOnly s t) ∧
    (s.flag DET_START_CTRL_ARM = true → exec (.detStartArm v) s = .next s ∧
      (s.ft < s.get64 DET_START_TIME_T → Ends (.detStartCancel v) s (s.set DET_START_CTRL_ARM 0).startHeld) ∧
      (s.get64 DET_START_TIME_T ≤ s.ft → exec (.detStartCancel v) s = .next s)) ∧
    (s.flag DET_START_CTRL_ARM = false → exec (.detStartCancel v) s = .next s)) ∧
  (∀ s : State, Quiet s → s.fatal = false → (s.flag DET_START_CTRL_ARM = false → exec .startBarrierRelease s = .next s) ∧
    (s.flag DET_START_CTRL_ARM = true →
      let u := s.passToFt (s.get64 DET_START_TIME_T)
      Ends .startBarrierRelease s (((((u.set DET_START_CTRL_ARM 0).set DET_START_CTRL_RELEASED 1).raiseVec 6).pass 1).startHeld))) ∧
  (∀ (group : GroupIx) (s : State), Quiet s → s.fatal = false →
    (Tbl.find s.det.heldBar group.val = none → exec (.releasePointWait group) s = .next s) ∧
    ∀ t j, Tbl.find s.det.heldBar group.val = some t → s.jobs.find? (fun j => j.ring.isSome && j.group == group.val) = some j →
      Ends (.releasePointWait group) s ((s.passTo t).barrier j))

/-- The kinds of reset (R378, R379, R449, R471): each leaves the device inert and sets its cause; a device reset keeps the boot's registers, and with
it BAR2's base, the access-error log, and the MSI-X table and pending bits; a full reset keeps them and boots again; PERST# resets PCI Express too;
a function-level reset keeps the boot's registers alone; power-on keeps none but the flash. -/
def Obligations.Resets : Prop :=
  (∀ (v : Word) (s : State), Quiet s → Taken s PWR_RESET → ∃ t, exec (.deviceReset v) s = .next t ∧ Inert s t ∧ t.boot.resetting = true ∧
    KeepsRegs (fun o => bootReg o || hostKept o) s t ∧ t.flag PWR_RESET_CAUSE_DEVICE = true ∧ t.host.config = s.host.config ∧
    t.host.msix = s.host.msix ∧ t.host.msixPending = s.host.msixPending ∧ t.host.bar2Log2 = s.host.bar2Log2) ∧
  (∀ (v : Word) (s : State), Quiet s → Taken s PWR_RESET → ∃ t, exec (.fullReset v) s = .next t ∧ Inert s t ∧ t.boot.resetting = false ∧
    KeepsRegs (fun o => (bootReg o && !bootResult o) || hostKept o) s t ∧ t.flag PWR_RESET_CAUSE_FULL = true ∧ t.host.msix = s.host.msix ∧
    t.host.msixPending = s.host.msixPending) ∧
  (∀ s : State, Quiet s → s.boot.powered = true → ∃ t, exec .linkReset s = .next t ∧ Inert s t ∧ t.boot.resetting = false ∧
    KeepsRegs (fun o => (bootReg o && !bootResult o) || hostKept o) s t ∧ t.flag PWR_RESET_CAUSE_LINK = true ∧ t.host = {}) ∧
  (∀ s : State, Quiet s → s.boot.powered = true → s.boot.jtagHold = false → ∃ t, exec .flr s = .next t ∧ Inert s t ∧ t.boot.resetting = true ∧
    KeepsRegs bootReg s t ∧ t.flag PWR_RESET_CAUSE_DEVICE = true ∧ t.host = { config := s.host.config }) ∧
  (∀ s : State, Quiet s → (s.power.inputOn = false → exec .powerOnReset s = .next s) ∧
    (s.power.inputOn = true → ∃ t, exec .powerOnReset s = .next t ∧ Inert s t ∧ t.boot.powered = true ∧ t.regs = [] ∧ t.host = {} ∧
      t.flag PWR_RESET_CAUSE_POWER_ON = true)) ∧
  (∀ s : State, Quiet s → exec .hotSwapOn s = .next { s with power := { s.power with inputOn := true } } ∧
    ∃ t, exec .inputOff s = .next t ∧ Inert s t ∧ t.boot.powered = false ∧ t.regs = [] ∧ t.power = {}) ∧
  (∀ s : State, Quiet s → ((s.boot.resetting = false ∨ s.clock.refGone = true) → exec .deviceResetDone s = .next s) ∧
    (s.boot.resetting = true → s.clock.refGone = false → exec .deviceResetDone s =
      .next ({ s with boot := { s.boot with resetting := false }, ftime := 0 }.set PWR_CLK_STATUS_ROOT_LOCK 1)))

/-- Boot (R381 to R383, R464): the root PLL locks and the flash is read; no answer, no valid header, an image that does not verify, the lack of an
identity and firmware that does not start have their codes; an image that verifies is the firmware that runs, from the flash or from the host; each command acts in its stage only. -/
def Obligations.Boot : Prop :=
  (∀ (modData : List Byte) (s : State), Quiet s → ((2 ≤ s.stage_ ∨ s.clock.refGone = true) → exec (.rootPllLock modData) s = .next s) ∧
    (s.stage_ < 2 → s.boot.powered = true → s.clock.refGone = false → s.boot.resetting = false → s.boot.jtagHold = false →
      ∃ t, exec (.rootPllLock modData) s = .next t ∧ t.stage_ = 2 ∧ t.get PWR_BOOT_STATUS_CODE = 0 ∧ t.flag PWR_CLK_STATUS_ROOT_LOCK = true ∧
        t.ftime = 0 ∧ t.boot.mod.serial = field modData 0 8 ∧ t.host.config.subsystem.toNat = min 1 (field modData 8 1) + 1 ∧ RegsKept [PWR_BOOT_STATUS.off, PWR_CLK_STATUS.off] s t)) ∧
  (∀ (headers : List Byte) (image : Option (List Byte)) (s : State), Quiet s → s.stage_ ≠ 2 → exec (.flashSlotRead headers image) s = .next s) ∧
  (∀ (headers : List Byte) (image : Option (List Byte)) (s : State), Quiet s → s.stage_ = 2 → s.boot.resetting = false → s.boot.jtagHold = false →
    (image = none → Ends (.flashSlotRead headers image) s (s.goBoot 7 1)) ∧
    ∀ raw, image = some raw →
      (headers = [] → s.boot.prefB = none → Ends (.flashSlotRead headers image) s (s.goBoot 8 2)) ∧
      (headers ≠ [] →
        let pref := s.boot.prefB.getD (bit (field headers 0 1) 0)
        let slotB := if s.boot.tried then !pref else pref
        let bs := (if slotB then s.boot.slotB else s.boot.slotA).getD raw
        (fwStatus bs = 0 → Ends (.flashSlotRead headers image) s (s.bootImage bs false slotB)) ∧
        (fwStatus bs ≠ 0 → s.boot.tried = false →
          Ends (.flashSlotRead headers image) s ((s.modBoot fun b => { b with tried := true }).goBoot 2 3)) ∧
        (fwStatus bs ≠ 0 → s.boot.tried = true → Ends (.flashSlotRead headers image) s (s.goBoot 8 (if fwStatus bs = 6 then 5 else 4))))) ∧
  (∀ (parts : BootParts) (s : State), Quiet s → (s.stage_ ≠ 4 → exec (.bootReady parts) s = .next s) ∧
    (s.stage_ = 4 → s.boot.resetting = false → s.boot.jtagHold = false → parts.fwOk = false →
      ∃ t, exec (.bootReady parts) s = .next t ∧ t.stage_ = 7 ∧ t.get PWR_BOOT_STATUS_CODE = 7) ∧
    (s.stage_ = 4 → s.boot.resetting = false → s.boot.jtagHold = false → parts.fwOk = true →
      ∃ t, exec (.bootReady parts) s = .next t ∧ t.ready = true ∧ t.getR PWR_THERM_LIMITS = s.boot.mod.limits % 2 ^ 32 ∧
        (parts.pufOk = true → t.flag PWR_BOOT_STATUS_ID_VALID = true ∧
          ∀ i < 8, t.getR (PWR_ID_HASH i) = field idHashOf (4 * i) 4) ∧
        (parts.pufOk = false → t.get PWR_BOOT_STATUS_CODE = 6 ∧ RegsKept [PWR_BOOT_STATUS.off, PWR_THERM_LIMITS.off] s t))) ∧
  (∀ (v : Word) (s : State), Quiet s → Taken s PWR_RECOVERY_LEN →
    (s.stage_ ≠ 8 → ∃ t, exec (.recoveryGo v) s = .next t ∧ RegsOnly s t ∧ RegsKept [PWR_RECOVERY_LEN.off] s t) ∧
    (s.stage_ = 8 → s.boot.recovering = false → ∃ t, exec (.recoveryGo v) s = .next t ∧ t.boot.recovering = true ∧
      t.get PWR_RECOVERY_LEN_LEN = bits v.toNat 0 23 ∧ t.out = s.out ++ [.hostRead (s.getR64 PWR_RECOVERY_ADDR) (bits v.toNat 0 23)] ∧
      RegsKept [PWR_RECOVERY_LEN.off] s t)) ∧
  (∀ (image : Option (List Byte)) (s : State), Quiet s → (s.boot.recovering = false → exec (.recoveryImageRead image) s = .next s) ∧
    (s.boot.recovering = true → s.stage_ = 8 →
      let refused := (s.modBoot fun b => { b with recovering := false }).set PWR_BOOT_STATUS_CODE 8
      (image = none → Ends (.recoveryImageRead image) s refused) ∧
      ∀ raw, image = some raw →
        let bs := slice raw 0 (s.get PWR_RECOVERY_LEN_LEN)
        (fwStatus bs ≠ 0 → Ends (.recoveryImageRead image) s refused) ∧
        (fwStatus bs = 0 → Ends (.recoveryImageRead image) s (s.bootImage bs true false))))

/-- Syntonization and the setting of fabric time (R389 to R392). -/
def Obligations.ClockCommands : Prop := Syntonization ∧ FabricTime

/-- A fatal event that occurs after the decision is not carried out a second time: it increments FLT_FATAL_CAUSE.MORE and nothing else, so that no pulse
starts; when several meet in the decision, the lowest source code is recorded as the cause, and each other increments MORE (R413). -/
def Obligations.FatalAfterDecision : Prop :=
  (∀ (s : State) (es : List FaultEv), s.fatal = true →
    (s.batch es).get FLT_FATAL_CAUSE_MORE = min 0xFF (s.get FLT_FATAL_CAUSE_MORE + fatalReports es) ∧
      RegsOnly s (s.batch es) ∧ RegsKept [FLT_FATAL_CAUSE.off] s (s.batch es) ∧
      (s.batch es).get FLT_FATAL_CAUSE_SOURCE = s.get FLT_FATAL_CAUSE_SOURCE ∧
      (s.batch es).get FLT_FATAL_CAUSE_INSTANCE = s.get FLT_FATAL_CAUSE_INSTANCE ∧ (s.batch es).fault.pulseEnd = s.fault.pulseEnd) ∧
  (∀ (s : State) (es : List FaultEv), s.fatal = false → es ≠ [] → s.get FLT_FATAL_CAUSE_MORE = 0 →
    (∀ e ∈ es, e.fence = none ∧ e.src < 256 ∧ (source e.src).any (·.cls == 2) = true) →
    let t := s.batch es
    t.fatal = true ∧ t.flag FLT_FATAL_CAUSE_VALID = true ∧ (∃ e ∈ es, t.get FLT_FATAL_CAUSE_SOURCE = e.src) ∧
      (∀ e ∈ es, t.get FLT_FATAL_CAUSE_SOURCE ≤ e.src) ∧ t.get FLT_FATAL_CAUSE_MORE = min 0xFF (es.length - 1))

/-- The commands of the fault collector and the fatal sources (R397, R405, R406, R410, R412, R479, R484): each reports its source once, which settle takes up; a
fence by the host names a unit that exists; the safe state puts the unfenced controllers into self-refresh, which keeps what those hold that were READY
(R144), and raises vector 0. -/
def Obligations.FaultEvents : Prop :=
  (∀ (v : Word) (s : State), Quiet s → Taken s FLT_CTRL → ∃ u, RegsOnly s u ∧ RegsKept [FLT_CTRL.off] s u ∧
    Ends (.forceFatal v) s (u.report 0x35 0 0)) ∧
  (∀ (v : Word) (s : State), Quiet s → Taken s FLT_FENCE_CMD →
    let kind := bits v.toNat 0 3
    let i := bits v.toNat 8 8
    ∃ u, RegsOnly s u ∧ RegsKept [FLT_FENCE_CMD.off] s u ∧
      (unitCount kind = 0 → exec (.fltFenceCmd v) s = .next u) ∧
      (unitCount kind ≠ 0 → unitCount kind ≤ i → Ends (.fltFenceCmd v) s (u.aerr 0 FLT_FENCE_CMD.off true 2)) ∧
      (i < unitCount kind → s.fatal = false → s.unitFenced kind i = false →
        let e : FaultEv := { src := 0x3E, inst := i, detail := kind, fence := some kind }
        let k := u.logFault e 0 false true
        let k := if s.flag FLT_CTRL_INT_LASTING then k.raiseVec 0 else k
        exec (.fltFenceCmd v) s =
          .next ((State.takeFaults 63 ((k.set FLT_STATUS_FENCED 1).fenceUnit kind i)).sw fun w => { w with failed := [] }))) ∧
  (∀ s : State, Quiet s →
    (s.flag PWR_CLK_STATUS_ROOT_LOCK = true → Ends .pllUnlock s ((s.set PWR_CLK_STATUS_ROOT_LOCK 0).report 0x31 0 0)) ∧
    (s.flag PWR_CLK_STATUS_ROOT_LOCK = false → exec .pllUnlock s = .next s) ∧
    (s.ready = true → Ends .fwWatchdog s (s.report 0x34 0 0)) ∧ (s.ready = false → exec .fwWatchdog s = .next s) ∧
    (∀ rail, rail ≤ 8 → s.boot.powered = true → Ends (.powerFault rail) s (s.report 0x33 0 rail)) ∧
    (∀ rail, (8 < rail ∨ s.boot.powered = false) → exec (.powerFault rail) s = .next s)) ∧
  (∀ (sensor : Nat) (temp : Int) (s : State), Quiet s → s.boot.powered = true → sensor < 40 → s.boot.mod.limits ≠ 0 →
    let u := s.set (PWR_TEMP_TEMP sensor) (ofSigned 16 temp)
    (s.tripAt sensor ≤ temp → Ends (.thermalTrip sensor temp) s (u.report 0x32 0 sensor)) ∧
    (temp < s.tripAt sensor → exec (.thermalTrip sensor temp) s = .next u)) ∧
  (∀ s : State, Quiet s → ((s.fatal = false ∨ s.safe = true) → exec .safeStateReached s = .next s) ∧
    (s.fatal = true → s.safe = false → ∃ t, exec .safeStateReached s = .next t ∧ t.safe = true ∧ t.fatal = true ∧
      (∀ c < 24, s.ctlFenced c = false → ctlState t c = 4) ∧ (∀ c < 24, s.ctlFenced c = true → ctlState t c = ctlState s c) ∧
      RegsKept ([FLT_STATUS.off, MEM_STATUS.off] ++ (List.range 24).map fun c => (MEM_CH_STATUS c).off) s t ∧
      t = { s with regs := t.regs, host := t.host, out := t.out, gddr := t.gddr, gddrGen := t.gddrGen } ∧
      (gddrWf s.gddr = true → t.gddr = s.gddr.filter fun x => s.ctlFenced (s.ctlOf x.1) || ctlState s (s.ctlOf x.1) == 2))) ∧
  (∀ s : State, Quiet s → (s.fault.pulseEnd = none → exec .faultPulseEnd s = .next s) ∧
    ∀ t, s.fault.pulseEnd = some t →
      let u := s.passTo t
      Ends .faultPulseEnd s { u.set FLT_FAULTN_PULSING 0 with fault := { u.fault with pulseEnd := none } })

/-- Power and thermal limiting (R481 to R483): a sample above 1,050 W raises K by 4 once between two checks; a check raises K by 1 while the mean power, a die or
a memory sensor is over its limit, and lowers it by 1 after 1 ms with both well below; K stays within 0 to 12, and a rise from 0 is counted. -/
def Obligations.PowerLimiter : Prop :=
  (∀ (s : State) (k : Nat),
    (s.setK k).get PWR_THROTTLE_K = min 12 k ∧ RegsKept [PWR_THROTTLE.off, PWR_THROTTLE_EVENTS.off] s (s.setK k) ∧
    (s.get PWR_THROTTLE_K = 0 → 0 < k →
      (s.setK k).get PWR_THROTTLE_EVENTS_COUNT = min (2 ^ 32 - 1) (s.get PWR_THROTTLE_EVENTS_COUNT + 1)) ∧
    (s.get PWR_THROTTLE_K ≠ 0 → (s.setK k).get PWR_THROTTLE_EVENTS_COUNT = s.get PWR_THROTTLE_EVENTS_COUNT)) ∧
  (∀ (tenths mv current : Nat) (s : State), Quiet s → (s.boot.powered = false → exec (.powerSample tenths mv current) s = .next s) ∧
    (s.boot.powered = true →
      let u := s.passTo (s.power.sampledAt + 16500)
      let k := u.modPower fun p =>
        { p with samples := (tenths :: p.samples).take 100, sampledAt := u.now, peak := max p.peak tenths, energy := p.energy + tenths }
      let r := if u.power.refreshAt ≤ u.now then
          ((k.set PWR_INPUT_MV mv).set PWR_INPUT_CURRENT current).modPower fun p => { p with refreshAt := u.now + 1650000 }
        else k
      (tenths ≤ 10500 → Ends (.powerSample tenths mv current) s r) ∧
      (10500 < tenths →
        let f := (r.set PWR_THROTTLE_FAST 1).modPower fun p => { p with fast := true }
        (u.power.fast = false → Ends (.powerSample tenths mv current) s (f.setK (f.get PWR_THROTTLE_K + 4))) ∧
        (u.power.fast = true → Ends (.powerSample tenths mv current) s f)))) ∧
  (∀ (temps : List Int) (s : State), Quiet s → (s.boot.powered = false → exec (.limiterCheck temps) s = .next s) ∧
    (s.boot.powered = true → ∃ u t : State,
      u = (temps.take 40).zipIdx.foldl (fun (s : State) (x : Int × Nat) => s.set (PWR_TEMP_TEMP x.2) (ofSigned 16 x.1))
        (s.passTo (s.power.checkedAt + 165000)) ∧
      exec (.limiterCheck temps) s = .next t.settle ∧ t.fault = (u.tripped (min 40 temps.length)).fault ∧ t.flag PWR_THROTTLE_FAST = false ∧ t.power.fast = false ∧ t.power.checkedAt = u.now ∧
      (t.flag PWR_THROTTLE_POWER = true ↔ 10 * u.wattLimit * u.power.samples.length < u.power.samples.sum) ∧
      (t.flag PWR_THROTTLE_DIE = true ↔ u.boot.mod.limits ≠ 0 ∧ ∃ i < 8, u.throttleAt i ≤ u.temp i) ∧
      (t.flag PWR_THROTTLE_MEM = true ↔ u.boot.mod.limits ≠ 0 ∧ ∃ i < 24, u.throttleAt (8 + i) ≤ u.temp (8 + i)) ∧
      (u.power.fast = false → (t.flag PWR_THROTTLE_POWER = true ∨ t.flag PWR_THROTTLE_DIE = true ∨ t.flag PWR_THROTTLE_MEM = true) →
        t.get PWR_THROTTLE_K = min 12 (u.get PWR_THROTTLE_K + 1)) ∧
      (u.power.fast = false → t.flag PWR_THROTTLE_POWER = false → t.flag PWR_THROTTLE_DIE = false → t.flag PWR_THROTTLE_MEM = false →
        ((u.power.lastChange + 1650000 ≤ u.now ∧
            u.power.samples.sum + 250 * u.power.samples.length ≤ 10 * u.wattLimit * u.power.samples.length ∧ u.boot.mod.limits ≠ 0 ∧
            ∀ i < 32, u.temp i + 30 ≤ u.throttleAt i) → t.get PWR_THROTTLE_K = min 12 (u.get PWR_THROTTLE_K - 1)) ∧
        ((u.now < u.power.lastChange + 1650000 ∨
            10 * u.wattLimit * u.power.samples.length < u.power.samples.sum + 250 * u.power.samples.length ∨ u.boot.mod.limits = 0 ∨
            ∃ i < 32, u.throttleAt i < u.temp i + 30) → t.get PWR_THROTTLE_K = u.get PWR_THROTTLE_K)) ∧
      (u.power.fast = true → t.get PWR_THROTTLE_K = u.get PWR_THROTTLE_K)))

/-- The counters' snapshots and resets, and the trace unit (R423 to R435). -/
def Obligations.CountersAndTrace : Prop := Snapshots ∧ TraceControl

/-- BAR2 (R446, R447): an access in a reset or beyond the window gives all-ones or is dropped; one that a condition of the table meets gives all-ones, or
Completer Abort for kind 6, and is recorded with its kind; another reads or writes the bytes behind its addresses. -/
def Obligations.HostMemoryWindow : Prop :=
  (∀ (addr len : Nat) (bad : Bool) (s : State), Quiet s →
    let os := (List.range len).map (addr + ·)
    let ones := List.replicate len (0xFF : Byte)
    ((s.inReset = true ∨ s.bar2Size < addr + len) → exec (.bar2Read addr len bad) s = .next (s.emit (.readData ones))) ∧
    (s.inReset = false → addr + len ≤ s.bar2Size →
      (s.ready = false → Ends (.bar2Read addr len bad) s ((s.emit (.readData ones)).aerr 1 addr false 8)) ∧
      (s.ready = true →
        (∀ k, s.bar2Kind false os = some k → k ≠ 6 → Ends (.bar2Read addr len bad) s ((s.emit (.readData ones)).aerr 1 addr false k)) ∧
        (s.bar2Kind false os = some 6 → Ends (.bar2Read addr len bad) s ((s.emit .completerAbort).aerr 1 addr false 6)) ∧
        (s.bar2Kind false os = none → s.bar2Fail addr len bad = none →
          exec (.bar2Read addr len bad) s = .next (s.emit (.readData (os.map s.bar2Byte)))) ∧
        (s.bar2Kind false os = none → ∀ b, s.bar2Fail addr len bad = some b →
          (b < 2 ^ 48 → Ends (.bar2Read addr len bad) s (((s.bar2Bad b).emit .completerAbort).aerr 1 addr false 6)) ∧
          (2 ^ 48 ≤ b → Ends (.bar2Read addr len bad) s ((s.edcEvent (b % 2 ^ 48) true).emit (.readData (os.map s.bar2Byte)))))))) ∧
  (∀ (addr : Nat) (bytes : List Byte) (enables : List Bool) (s : State), Quiet s →
    let bs := bytes.zipIdx.filter fun x => enables.getD x.2 true
    let os := bs.map fun x => addr + x.2
    ((s.inReset = true ∨ s.bar2Size < addr + bytes.length) → exec (.bar2Write addr bytes enables) s = .next s) ∧
    (s.inReset = false → addr + bytes.length ≤ s.bar2Size →
      (s.ready = false → Ends (.bar2Write addr bytes enables) s (s.aerr 1 addr true 8)) ∧
      (s.ready = true →
        (∀ k, s.bar2Kind true os = some k → k ≠ 5 → Ends (.bar2Write addr bytes enables) s (s.aerr 1 addr true k)) ∧
        (s.bar2Kind true os = some 5 → ∀ x e, ((os.filterMap s.bar2At).findSome? fun a => s.shardHit a 1) = some (x, e) →
          Ends (.bar2Write addr bytes enables) s ((s.noteRefused e 0x30).aerr 1 addr true 5)) ∧
        (s.bar2Kind true os = none →
          Ends (.bar2Write addr bytes enables) s (bs.foldl (fun u x => u.bar2Put (addr + x.2) x.1) s) ∧
          (s.mem.upsets = [] → ∀ b, b < gddrSize → (∀ o ∈ os, s.bar2At o ≠ some b) →
            (bs.foldl (fun u x => u.bar2Put (addr + x.2) x.1) s).gddrByte b = s.gddrByte b))))) ∧
  (∀ (s : State) (write : Bool) (os : List Nat), s.safe = true → s.bar2Kind write os = some 7)

/-- In the safe state the host's writes of the MSI-X table and pending bits, of HIF_CQ_HEAD, HIF_NBR_RX_POP, HIF_MBOX_ADDR, HIF_MBOX_LEN and of
HIF_MBOX_CMD with ATTEST are taken, any other mailbox command completes with NOT_ALLOWED, 0x0B, and a write of another HIF register is discarded and
recorded (R411, R461). -/
def Obligations.SafeStateHostWrites : Prop :=
  ∀ (req v : Nat) (s : State), Quiet s → s.inReset = false → s.ready = true → s.safe = true → v < 2 ^ 32 →
    let write (off : Nat) := exec (.registerWrite req off 4 v) s
    (∀ vec < 64, ∀ i < 4, ∃ t, write (0x12000 + 16 * vec + 4 * i) = .next t ∧ t.regs = s.regs ∧
      t.msixWord vec i = if i = 3 then v % 2 else if i = 0 then v / 4 * 4 else v) ∧
    (∀ i < 2, ∃ t, write (0x12400 + 4 * i) = .next t ∧ t.getR HIF_AERR_PROD = s.getR HIF_AERR_PROD) ∧
    (∀ r < 16, ∃ t, write (HIF_CQ_HEAD r).off = .next t ∧ t.cqHead r = v % 65536 ∧ RegsKept [(HIF_CQ_HEAD r).off] s t) ∧
    (∃ t, write HIF_NBR_RX_POP.off = .next t ∧ t.host.nbrRx = s.host.nbrRx.drop (v % 2) ∧ t.regs = s.regs) ∧
    (∀ a < 2 ^ 64, ∃ t, exec (.registerWrite req HIF_MBOX_ADDR.off 8 a) s = .next t ∧ t.getR64 HIF_MBOX_ADDR / 4096 = a / 4096 ∧
      RegsKept [HIF_MBOX_ADDR.off, HIF_MBOX_ADDR.off + 4] s t) ∧
    (∃ t, write HIF_MBOX_LEN.off = .next t ∧ t.get HIF_MBOX_LEN_LEN = v % 2 ^ 23 ∧ RegsKept [HIF_MBOX_LEN.off] s t) ∧
    (s.host.mbox = none →
      (v % 16 = 1 → ∃ t, write HIF_MBOX_CMD.off = .next t ∧ t.flag HIF_MBOX_STATUS_BUSY = true ∧ t.get HIF_MBOX_STATUS_CMD = 1 ∧
        RegsKept [HIF_MBOX_STATUS.off] s t) ∧
      (v % 16 ≠ 1 → ∃ t u, write HIF_MBOX_CMD.off = .next t ∧ exec .mailboxDone t = .next u ∧ u.get HIF_MBOX_STATUS_CODE = 0x0B ∧
        u.flag HIF_MBOX_STATUS_BUSY = false ∧ u.get HIF_MBOX_STATUS_CMD = v % 16)) ∧
    (∀ off row ix, 0x10000 ≤ off → off < 0x20000 → off % 4 = 0 → inMsix off = false → inPba off = false → regAt off = some (row, ix) →
      row.half = .single → off ∉ [HIF_NBR_RX_POP.off, HIF_MBOX_LEN.off, HIF_MBOX_CMD.off] → (∀ r < 16, off ≠ (HIF_CQ_HEAD r).off) →
      write off = .next (s.aerr 0 off true 2).settle)

/-- The mailbox (R461, R462, R464 to R470): a command that fails its first checks ends with their status; one under way does its work with the bytes read,
status 4 when they could not be; MAILBOX_DONE shows the status, clears BUSY and raises vector 3. LOCK closes the signer table. -/
def Obligations.MailboxCommands : Prop :=
  (∀ (nonce token image : Option (List Byte)) (ok : Bool) (s : State), Quiet s → s.inReset = false →
    ∀ x ∈ ([(.attest nonce, 1, fun u => u.attest nonce), (.fwUpdate image ok, 2, fun u => u.fwUpdate image ok),
        (.pufRefresh ok, 3, fun u => u.pufRefresh ok), (.debugUnlock token, 4, fun u => u.debugUnlock token)] :
        List (Instr × Nat × (State → State))),
      (s.host.mbox = some (x.2.1, none) → Ends x.1 s (x.2.2 s)) ∧
      (s.host.mbox = none → s.turnedAway HIF_MBOX_CMD.off true = none → s.mboxStatus x.2.1 = 0 →
        Ends x.1 s (x.2.2 (s.mboxCmd HIF_MBOX_CMD.off x.2.1))) ∧
      (s.host.mbox = none → s.turnedAway HIF_MBOX_CMD.off true = none → s.mboxStatus x.2.1 ≠ 0 →
        ∃ t, exec x.1 s = .next t ∧ t.host.mbox = some (x.2.1, some (s.mboxStatus x.2.1)) ∧ t.flag HIF_MBOX_STATUS_BUSY = true ∧ t.out = s.out ∧
          RegsKept [HIF_MBOX_STATUS.off] s t) ∧
      (∀ c st, s.host.mbox = some (c, st) → (c, st) ≠ (x.2.1, none) → s.turnedAway HIF_MBOX_CMD.off true = none →
        Ends x.1 s (s.aerr 0 HIF_MBOX_CMD.off true 2))) ∧
  (∀ s : State,
    (s.attest none).host.mbox = some (1, some 4) ∧ (s.fwUpdate none true).host.mbox = some (2, some 4) ∧
    (s.debugUnlock none).host.mbox = some (4, some 4) ∧ (s.pufRefresh true).host.mbox = some (3, some 0) ∧
    (s.pufRefresh false).host.mbox = some (3, some 0x0A) ∧
    (∀ n, (s.attest (some n)).host.mbox = some (1, some 0) ∧
      (s.attest (some n)).out = s.out ++ [.hostWrite (s.getR64 HIF_MBOX_ADDR) (s.reportBody n ++ reportSig s.free)]) ∧
    (∀ raw, s.tokenStatus (slice raw 0 1536) = 0 → (s.debugUnlock (some raw)).flag SEC_STATUS_DEBUG_UNLOCKED = true ∧
      (s.debugUnlock (some raw)).get SEC_STATUS_PERMS = field (slice raw 0 1536) 0x28 4 % 4) ∧
    (∀ raw, s.tokenStatus (slice raw 0 1536) ≠ 0 → (s.debugUnlock (some raw)).regs = s.regs)) ∧
  (∀ s : State, Quiet s → (s.host.mbox = none → exec .mailboxDone s = .next s) ∧
    (∀ c, s.host.mbox = some (c, none) → exec .mailboxDone s = .next s) ∧
    (∀ c st, s.host.mbox = some (c, some st) →
      let u := if c = 2 ∧ st = 0 then s.fwCommit else if c = 3 ∧ st = 0 then s.set SEC_PUF_STATUS_REFRESHED 1 else s
      Ends .mailboxDone s ((((u.set HIF_MBOX_STATUS_CODE st).set HIF_MBOX_STATUS_BUSY 0).modHost fun h => { h with mbox := none }).raiseVec 3))) ∧
  (∀ (v : Word) (s : State), Quiet s → Taken s SEC_CTRL →
    ∃ t, exec (.secLock v) s = .next t ∧ t.flag SEC_CTRL_LOCK = true ∧ RegsKept [SEC_CTRL.off] s t ∧ RegsOnly s t) ∧
  (∀ (req v k i : Nat) (s : State), Quiet s → k < 8 → i < 8 → Taken s (SEC_SIGNER k i) → s.flag SEC_CTRL_LOCK = true →
    Ends (.registerWrite req (SEC_SIGNER k i).off 4 v) s (s.aerr 0 (SEC_SIGNER k i).off true 2))

/-- Neighbour packets (R208, R387, R388, R396): a send leaves on a port in service, else sets NOT_UP; a probe is answered on the port it came by unless eight
answers wait; an answer or a message enters the receive FIFO of 16, which POP takes from; what does not fit is counted. -/
def Obligations.NeighbourPackets : Prop :=
  (∀ (v : Word) (s : State), Quiet s → Taken s HIF_NBR_TX_CTRL →
    ∀ x ∈ ([(.sendProbe v, 0x20, 2), (.sendNbrMsg v, 0x22, 10)] : List (Instr × Nat × Nat)),
      let port := bits v.toNat 0 5
      let data := ((List.range x.2.2).map fun i => leBytes 4 (s.getR (HIF_NBR_TX_DATA i))).flatten
      ∃ u, RegsOnly s u ∧ RegsKept [HIF_NBR_TX_CTRL.off] s u ∧
        (s.nbrBusy = true → exec x.1 s = .next u) ∧
        (s.nbrBusy = false → (24 ≤ port ∨ s.lst port ≠ lkActive) → Ends x.1 s (u.set HIF_NBR_TX_CTRL_NOT_UP 1)) ∧
        (s.nbrBusy = false → port < 24 → s.lst port = lkActive → Ends x.1 s (u.sendNbr x.2.1 port (bits v.toNat 16 11) data))) ∧
  (∀ (v : Word) (s : State), Quiet s → Taken s HIF_NBR_RX_POP →
    exec (.nbrRxPop v) s = .next (s.modHost fun h => { h with nbrRx := h.nbrRx.drop 1 })) ∧
  (∀ s : State, Quiet s → (s.takeNbr 0x20 = none → exec .probe s = .next s) ∧ (s.takeNbr 0x21 = none → exec .probeResp s = .next s) ∧
    (s.takeNbr 0x22 = none → exec .nbrMsg s = .next s)) ∧
  (∀ (s u : State) (x : Inb), Quiet s → s.takeNbr 0x20 = some (x, u) →
    (8 ≤ u.nbrWaiting [0x21] → Ends .probe s (u.count HIF_NBR_RX_DROP_COUNT)) ∧
    (u.nbrWaiting [0x21] < 8 →
      Ends .probe s ((u.sendNbr 0x21 x.input (x.pkt.ctag / 32) (u.probeResp x.input x.ft x.pkt.pay)).count HIF_NBR_PROBES_COUNT))) ∧
  (∀ (s u : State) (x : Inb), Quiet s → ∀ y ∈ ([(.probeResp, 0x21), (.nbrMsg, 0x22)] : List (Instr × Nat)), s.takeNbr y.2 = some (x, u) →
    (16 ≤ s.host.nbrRx.length → Ends y.1 s (u.count HIF_NBR_RX_DROP_COUNT)) ∧
    (s.host.nbrRx.length < 16 → ∃ t : State, exec y.1 s = .next t.settle ∧
      t.host.nbrRx = s.host.nbrRx ++ [(x.input, x.pkt.opcode, x.pkt.ctag / 32, x.pkt.pay)] ∧ t.regs = s.regs ∧
      t.switch = u.switch ∧ (s.host.nbrRx ≠ [] → t.out = s.out)))

/-- SMBus and JTAG (R471, R472): a read answers its bytes, with a packet error code when asked, from 1 ms after the rails; the read of the peak clears it; a
write is refused. BYPASS, IDCODE and SAMPLE leave the device alone; EXTEST, HIGHZ and the AC instructions reset it and hold it, and it stays
inert after Test-Logic-Reset until a device reset; a debug instruction acts as BYPASS while PERMS bit 0 is 0 and is refused otherwise, since
the spec gives no effect for it. -/
def Obligations.SmbusAndJtag : Prop :=
  (∀ (code : Nat) (pec : Bool) (bytes : List Byte) (s : State), Quiet s →
    let answer (bs : List Byte) : State := s.emit (.smbus (bs ++ if pec then smbusPec code bs else []))
    (s.smbusOn = false → exec (.smbusReadByte code pec) s = .next s ∧ exec (.smbusReadWord code pec) s = .next s ∧
      exec (.smbusBlockRead code pec) s = .next s ∧ exec (.smbusWrite bytes) s = .next s) ∧
    (s.smbusOn = true → exec (.smbusReadByte code pec) s = .next (answer (leBytes 1 (s.smbusByte code))) ∧
      (code ≠ 0x0B → exec (.smbusReadWord code pec) s = .next (answer (leBytes 2 (s.smbusWord code)))) ∧
      (code = 0x0B → exec (.smbusReadWord code pec) s =
        .next ((answer (leBytes 2 (s.power.peak % 65536))).modPower fun p => { p with peak := 0 })) ∧
      exec (.smbusBlockRead code pec) s = .next (answer (s.smbusBlock code)) ∧
      exec (.smbusWrite bytes) s = .next (s.emit .smbusNack))) ∧
  (∀ (tdi : Bool) (pins : List Bool) (code : Nat) (s : State), Quiet s → s.boot.powered = true →
    exec (.bypass tdi) s = .next (s.emit (.jtag 2 (2 * b2n tdi))) ∧
    (∃ id, exec .idcode s = .next (s.emit (.jtag 32 id)) ∧ bit id 0 = true ∧ bits id 12 16 = 0x4816) ∧
    exec (.samplePreload pins) s = .next (s.emit (.jtag pins.length ((pins.zipIdx.map fun x => b2n x.1 * 2 ^ x.2).sum))) ∧
    (bit (s.get SEC_STATUS_PERMS) 0 = false → exec (.debugInstruction code) s = .next (s.emit (.jtag 1 0))) ∧
    (bit (s.get SEC_STATUS_PERMS) 0 = true → exec (.debugInstruction code) s = .refused (.debugInstruction code))) ∧
  (∀ (train : Bool) (pins : List Bool) (s : State), Quiet s → s.boot.powered = true →
    ∀ x ∈ ([(.highz, .jtagPins false []), (.extest pins, .jtagPins true pins), (.acInstruction train, .jtagPins true [train])] : List (Instr × Out)),
      (s.boot.jtagHold = false → ∃ u, exec x.1 s = .next (u.emit x.2) ∧ Inert s u ∧ u.boot.jtagHold = true ∧ u.inReset = true ∧
        KeepsRegs (fun o => bootReg o || hostKept o) s u) ∧
      (s.boot.jtagHold = true → exec x.1 s = .next ((s.modBoot fun b => { b with jtagHold := true, jtagWait := false }).emit x.2))) ∧
  (∀ s : State, Quiet s →
    (s.boot.jtagHold = true → exec .testLogicReset s = .next (s.modBoot fun b => { b with jtagHold := false, jtagWait := true })) ∧
    (s.boot.jtagHold = false → exec .testLogicReset s = .next s))

/-- A packet's age is (now − AGE_STAMP) mod 65,536, now being fabric time ÷ 1,650 modulo 65,536, and it is aged when its age exceeds the limit, at most
32,767 (R263): a packet stamped d µs ago, d up to 65,535, is aged exactly when d exceeds the limit, so that a wrap makes no old packet look young. -/
def Obligations.PacketAge : Prop :=
  (∀ (s : State) (p : Pkt), s.aged p = true ↔
    ((max 1 (s.get SWC_AGE_LIMIT_LIMIT) : Nat) : Int) < (((s.ft / 1650 % 65536 : Nat) : Int) - (p.age : Int)) % 65536) ∧
  (∀ s : State, s.get SWC_AGE_LIMIT_LIMIT ≤ 32767) ∧
  (∀ (s : State) (p : Pkt) (t d : Nat), p.age = t / 1650 % 65536 → s.ft / 1650 = t / 1650 + d → d < 65536 →
    (s.aged p = true ↔ max 1 (s.get SWC_AGE_LIMIT_LIMIT) < d))
end

