-- ==== Sys2Proof/Laws/State.lean ====
section
/-! SUPPORT. What each named update of the state leaves alone: one lemma per update and field, true by unfolding. -/

namespace Sys2Proof.Machine

variable (s : State)

/-! setR changes regs alone. -/

@[simp] theorem State.setR_now (r : Reg) (v : Nat) : (s.setR r v).now = s.now := (rfl)
@[simp] theorem State.setR_ftime (r : Reg) (v : Nat) : (s.setR r v).ftime = s.ftime := (rfl)
@[simp] theorem State.setR_shadow (r : Reg) (v : Nat) : (s.setR r v).shadow = s.shadow := (rfl)
@[simp] theorem State.setR_heldWrites (r : Reg) (v : Nat) : (s.setR r v).heldWrites = s.heldWrites := (rfl)
@[simp] theorem State.setR_captured (r : Reg) (v : Nat) : (s.setR r v).captured = s.captured := (rfl)
@[simp] theorem State.setR_gddr (r : Reg) (v : Nat) : (s.setR r v).gddr = s.gddr := (rfl)
@[simp] theorem State.setR_gddrGen (r : Reg) (v : Nat) : (s.setR r v).gddrGen = s.gddrGen := (rfl)
@[simp] theorem State.setR_sram (r : Reg) (v : Nat) : (s.setR r v).sram = s.sram := (rfl)
@[simp] theorem State.setR_zeroed (r : Reg) (v : Nat) : (s.setR r v).zeroed = s.zeroed := (rfl)
@[simp] theorem State.setR_pat (r : Reg) (v : Nat) : (s.setR r v).pat = s.pat := (rfl)
@[simp] theorem State.setR_cores (r : Reg) (v : Nat) : (s.setR r v).cores = s.cores := (rfl)
@[simp] theorem State.setR_jobs (r : Reg) (v : Nat) : (s.setR r v).jobs = s.jobs := (rfl)
@[simp] theorem State.setR_slots (r : Reg) (v : Nat) : (s.setR r v).slots = s.slots := (rfl)
@[simp] theorem State.setR_combines (r : Reg) (v : Nat) : (s.setR r v).combines = s.combines := (rfl)
@[simp] theorem State.setR_mem (r : Reg) (v : Nat) : (s.setR r v).mem = s.mem := (rfl)
@[simp] theorem State.setR_ports (r : Reg) (v : Nat) : (s.setR r v).ports = s.ports := (rfl)
@[simp] theorem State.setR_lanes (r : Reg) (v : Nat) : (s.setR r v).lanes = s.lanes := (rfl)
@[simp] theorem State.setR_switch (r : Reg) (v : Nat) : (s.setR r v).switch = s.switch := (rfl)
@[simp] theorem State.setR_col (r : Reg) (v : Nat) : (s.setR r v).col = s.col := (rfl)
@[simp] theorem State.setR_det (r : Reg) (v : Nat) : (s.setR r v).det = s.det := (rfl)
@[simp] theorem State.setR_boot (r : Reg) (v : Nat) : (s.setR r v).boot = s.boot := (rfl)
@[simp] theorem State.setR_clock (r : Reg) (v : Nat) : (s.setR r v).clock = s.clock := (rfl)
@[simp] theorem State.setR_fault (r : Reg) (v : Nat) : (s.setR r v).fault = s.fault := (rfl)
@[simp] theorem State.setR_obs (r : Reg) (v : Nat) : (s.setR r v).obs = s.obs := (rfl)
@[simp] theorem State.setR_host (r : Reg) (v : Nat) : (s.setR r v).host = s.host := (rfl)
@[simp] theorem State.setR_power (r : Reg) (v : Nat) : (s.setR r v).power = s.power := (rfl)
@[simp] theorem State.setR_out (r : Reg) (v : Nat) : (s.setR r v).out = s.out := (rfl)
@[simp] theorem State.setR_free (r : Reg) (v : Nat) : (s.setR r v).free = s.free := (rfl)
@[simp] theorem State.setR_pending (r : Reg) (v : Nat) : (s.setR r v).pending = s.pending := (rfl)

/-! set changes regs alone. -/

@[simp] theorem State.set_now (f : Fld) (v : Nat) : (s.set f v).now = s.now := (rfl)
@[simp] theorem State.set_ftime (f : Fld) (v : Nat) : (s.set f v).ftime = s.ftime := (rfl)
@[simp] theorem State.set_shadow (f : Fld) (v : Nat) : (s.set f v).shadow = s.shadow := (rfl)
@[simp] theorem State.set_heldWrites (f : Fld) (v : Nat) : (s.set f v).heldWrites = s.heldWrites := (rfl)
@[simp] theorem State.set_captured (f : Fld) (v : Nat) : (s.set f v).captured = s.captured := (rfl)
@[simp] theorem State.set_gddr (f : Fld) (v : Nat) : (s.set f v).gddr = s.gddr := (rfl)
@[simp] theorem State.set_gddrGen (f : Fld) (v : Nat) : (s.set f v).gddrGen = s.gddrGen := (rfl)
@[simp] theorem State.set_sram (f : Fld) (v : Nat) : (s.set f v).sram = s.sram := (rfl)
@[simp] theorem State.set_zeroed (f : Fld) (v : Nat) : (s.set f v).zeroed = s.zeroed := (rfl)
@[simp] theorem State.set_pat (f : Fld) (v : Nat) : (s.set f v).pat = s.pat := (rfl)
@[simp] theorem State.set_cores (f : Fld) (v : Nat) : (s.set f v).cores = s.cores := (rfl)
@[simp] theorem State.set_jobs (f : Fld) (v : Nat) : (s.set f v).jobs = s.jobs := (rfl)
@[simp] theorem State.set_slots (f : Fld) (v : Nat) : (s.set f v).slots = s.slots := (rfl)
@[simp] theorem State.set_combines (f : Fld) (v : Nat) : (s.set f v).combines = s.combines := (rfl)
@[simp] theorem State.set_mem (f : Fld) (v : Nat) : (s.set f v).mem = s.mem := (rfl)
@[simp] theorem State.set_ports (f : Fld) (v : Nat) : (s.set f v).ports = s.ports := (rfl)
@[simp] theorem State.set_lanes (f : Fld) (v : Nat) : (s.set f v).lanes = s.lanes := (rfl)
@[simp] theorem State.set_switch (f : Fld) (v : Nat) : (s.set f v).switch = s.switch := (rfl)
@[simp] theorem State.set_col (f : Fld) (v : Nat) : (s.set f v).col = s.col := (rfl)
@[simp] theorem State.set_det (f : Fld) (v : Nat) : (s.set f v).det = s.det := (rfl)
@[simp] theorem State.set_boot (f : Fld) (v : Nat) : (s.set f v).boot = s.boot := (rfl)
@[simp] theorem State.set_clock (f : Fld) (v : Nat) : (s.set f v).clock = s.clock := (rfl)
@[simp] theorem State.set_fault (f : Fld) (v : Nat) : (s.set f v).fault = s.fault := (rfl)
@[simp] theorem State.set_obs (f : Fld) (v : Nat) : (s.set f v).obs = s.obs := (rfl)
@[simp] theorem State.set_host (f : Fld) (v : Nat) : (s.set f v).host = s.host := (rfl)
@[simp] theorem State.set_power (f : Fld) (v : Nat) : (s.set f v).power = s.power := (rfl)
@[simp] theorem State.set_out (f : Fld) (v : Nat) : (s.set f v).out = s.out := (rfl)
@[simp] theorem State.set_free (f : Fld) (v : Nat) : (s.set f v).free = s.free := (rfl)
@[simp] theorem State.set_pending (f : Fld) (v : Nat) : (s.set f v).pending = s.pending := (rfl)

/-! setR64 changes regs alone. -/

@[simp] theorem State.setR64_now (r : Reg64) (v : Nat) : (s.setR64 r v).now = s.now := (rfl)
@[simp] theorem State.setR64_ftime (r : Reg64) (v : Nat) : (s.setR64 r v).ftime = s.ftime := (rfl)
@[simp] theorem State.setR64_shadow (r : Reg64) (v : Nat) : (s.setR64 r v).shadow = s.shadow := (rfl)
@[simp] theorem State.setR64_heldWrites (r : Reg64) (v : Nat) : (s.setR64 r v).heldWrites = s.heldWrites := (rfl)
@[simp] theorem State.setR64_captured (r : Reg64) (v : Nat) : (s.setR64 r v).captured = s.captured := (rfl)
@[simp] theorem State.setR64_gddr (r : Reg64) (v : Nat) : (s.setR64 r v).gddr = s.gddr := (rfl)
@[simp] theorem State.setR64_gddrGen (r : Reg64) (v : Nat) : (s.setR64 r v).gddrGen = s.gddrGen := (rfl)
@[simp] theorem State.setR64_sram (r : Reg64) (v : Nat) : (s.setR64 r v).sram = s.sram := (rfl)
@[simp] theorem State.setR64_zeroed (r : Reg64) (v : Nat) : (s.setR64 r v).zeroed = s.zeroed := (rfl)
@[simp] theorem State.setR64_pat (r : Reg64) (v : Nat) : (s.setR64 r v).pat = s.pat := (rfl)
@[simp] theorem State.setR64_cores (r : Reg64) (v : Nat) : (s.setR64 r v).cores = s.cores := (rfl)
@[simp] theorem State.setR64_jobs (r : Reg64) (v : Nat) : (s.setR64 r v).jobs = s.jobs := (rfl)
@[simp] theorem State.setR64_slots (r : Reg64) (v : Nat) : (s.setR64 r v).slots = s.slots := (rfl)
@[simp] theorem State.setR64_combines (r : Reg64) (v : Nat) : (s.setR64 r v).combines = s.combines := (rfl)
@[simp] theorem State.setR64_mem (r : Reg64) (v : Nat) : (s.setR64 r v).mem = s.mem := (rfl)
@[simp] theorem State.setR64_ports (r : Reg64) (v : Nat) : (s.setR64 r v).ports = s.ports := (rfl)
@[simp] theorem State.setR64_lanes (r : Reg64) (v : Nat) : (s.setR64 r v).lanes = s.lanes := (rfl)
@[simp] theorem State.setR64_switch (r : Reg64) (v : Nat) : (s.setR64 r v).switch = s.switch := (rfl)
@[simp] theorem State.setR64_col (r : Reg64) (v : Nat) : (s.setR64 r v).col = s.col := (rfl)
@[simp] theorem State.setR64_det (r : Reg64) (v : Nat) : (s.setR64 r v).det = s.det := (rfl)
@[simp] theorem State.setR64_boot (r : Reg64) (v : Nat) : (s.setR64 r v).boot = s.boot := (rfl)
@[simp] theorem State.setR64_clock (r : Reg64) (v : Nat) : (s.setR64 r v).clock = s.clock := (rfl)
@[simp] theorem State.setR64_fault (r : Reg64) (v : Nat) : (s.setR64 r v).fault = s.fault := (rfl)
@[simp] theorem State.setR64_obs (r : Reg64) (v : Nat) : (s.setR64 r v).obs = s.obs := (rfl)
@[simp] theorem State.setR64_host (r : Reg64) (v : Nat) : (s.setR64 r v).host = s.host := (rfl)
@[simp] theorem State.setR64_power (r : Reg64) (v : Nat) : (s.setR64 r v).power = s.power := (rfl)
@[simp] theorem State.setR64_out (r : Reg64) (v : Nat) : (s.setR64 r v).out = s.out := (rfl)
@[simp] theorem State.setR64_free (r : Reg64) (v : Nat) : (s.setR64 r v).free = s.free := (rfl)
@[simp] theorem State.setR64_pending (r : Reg64) (v : Nat) : (s.setR64 r v).pending = s.pending := (rfl)

/-! set64 changes regs alone. -/

@[simp] theorem State.set64_now (f : Fld64) (v : Nat) : (s.set64 f v).now = s.now := (rfl)
@[simp] theorem State.set64_ftime (f : Fld64) (v : Nat) : (s.set64 f v).ftime = s.ftime := (rfl)
@[simp] theorem State.set64_shadow (f : Fld64) (v : Nat) : (s.set64 f v).shadow = s.shadow := (rfl)
@[simp] theorem State.set64_heldWrites (f : Fld64) (v : Nat) : (s.set64 f v).heldWrites = s.heldWrites := (rfl)
@[simp] theorem State.set64_captured (f : Fld64) (v : Nat) : (s.set64 f v).captured = s.captured := (rfl)
@[simp] theorem State.set64_gddr (f : Fld64) (v : Nat) : (s.set64 f v).gddr = s.gddr := (rfl)
@[simp] theorem State.set64_gddrGen (f : Fld64) (v : Nat) : (s.set64 f v).gddrGen = s.gddrGen := (rfl)
@[simp] theorem State.set64_sram (f : Fld64) (v : Nat) : (s.set64 f v).sram = s.sram := (rfl)
@[simp] theorem State.set64_zeroed (f : Fld64) (v : Nat) : (s.set64 f v).zeroed = s.zeroed := (rfl)
@[simp] theorem State.set64_pat (f : Fld64) (v : Nat) : (s.set64 f v).pat = s.pat := (rfl)
@[simp] theorem State.set64_cores (f : Fld64) (v : Nat) : (s.set64 f v).cores = s.cores := (rfl)
@[simp] theorem State.set64_jobs (f : Fld64) (v : Nat) : (s.set64 f v).jobs = s.jobs := (rfl)
@[simp] theorem State.set64_slots (f : Fld64) (v : Nat) : (s.set64 f v).slots = s.slots := (rfl)
@[simp] theorem State.set64_combines (f : Fld64) (v : Nat) : (s.set64 f v).combines = s.combines := (rfl)
@[simp] theorem State.set64_mem (f : Fld64) (v : Nat) : (s.set64 f v).mem = s.mem := (rfl)
@[simp] theorem State.set64_ports (f : Fld64) (v : Nat) : (s.set64 f v).ports = s.ports := (rfl)
@[simp] theorem State.set64_lanes (f : Fld64) (v : Nat) : (s.set64 f v).lanes = s.lanes := (rfl)
@[simp] theorem State.set64_switch (f : Fld64) (v : Nat) : (s.set64 f v).switch = s.switch := (rfl)
@[simp] theorem State.set64_col (f : Fld64) (v : Nat) : (s.set64 f v).col = s.col := (rfl)
@[simp] theorem State.set64_det (f : Fld64) (v : Nat) : (s.set64 f v).det = s.det := (rfl)
@[simp] theorem State.set64_boot (f : Fld64) (v : Nat) : (s.set64 f v).boot = s.boot := (rfl)
@[simp] theorem State.set64_clock (f : Fld64) (v : Nat) : (s.set64 f v).clock = s.clock := (rfl)
@[simp] theorem State.set64_fault (f : Fld64) (v : Nat) : (s.set64 f v).fault = s.fault := (rfl)
@[simp] theorem State.set64_obs (f : Fld64) (v : Nat) : (s.set64 f v).obs = s.obs := (rfl)
@[simp] theorem State.set64_host (f : Fld64) (v : Nat) : (s.set64 f v).host = s.host := (rfl)
@[simp] theorem State.set64_power (f : Fld64) (v : Nat) : (s.set64 f v).power = s.power := (rfl)
@[simp] theorem State.set64_out (f : Fld64) (v : Nat) : (s.set64 f v).out = s.out := (rfl)
@[simp] theorem State.set64_free (f : Fld64) (v : Nat) : (s.set64 f v).free = s.free := (rfl)
@[simp] theorem State.set64_pending (f : Fld64) (v : Nat) : (s.set64 f v).pending = s.pending := (rfl)

/-! count changes regs alone. -/

@[simp] theorem State.count_now (f : Fld) (n : Nat) : (s.count f n).now = s.now := (rfl)
@[simp] theorem State.count_ftime (f : Fld) (n : Nat) : (s.count f n).ftime = s.ftime := (rfl)
@[simp] theorem State.count_shadow (f : Fld) (n : Nat) : (s.count f n).shadow = s.shadow := (rfl)
@[simp] theorem State.count_heldWrites (f : Fld) (n : Nat) : (s.count f n).heldWrites = s.heldWrites := (rfl)
@[simp] theorem State.count_captured (f : Fld) (n : Nat) : (s.count f n).captured = s.captured := (rfl)
@[simp] theorem State.count_gddr (f : Fld) (n : Nat) : (s.count f n).gddr = s.gddr := (rfl)
@[simp] theorem State.count_gddrGen (f : Fld) (n : Nat) : (s.count f n).gddrGen = s.gddrGen := (rfl)
@[simp] theorem State.count_sram (f : Fld) (n : Nat) : (s.count f n).sram = s.sram := (rfl)
@[simp] theorem State.count_zeroed (f : Fld) (n : Nat) : (s.count f n).zeroed = s.zeroed := (rfl)
@[simp] theorem State.count_pat (f : Fld) (n : Nat) : (s.count f n).pat = s.pat := (rfl)
@[simp] theorem State.count_cores (f : Fld) (n : Nat) : (s.count f n).cores = s.cores := (rfl)
@[simp] theorem State.count_jobs (f : Fld) (n : Nat) : (s.count f n).jobs = s.jobs := (rfl)
@[simp] theorem State.count_slots (f : Fld) (n : Nat) : (s.count f n).slots = s.slots := (rfl)
@[simp] theorem State.count_combines (f : Fld) (n : Nat) : (s.count f n).combines = s.combines := (rfl)
@[simp] theorem State.count_mem (f : Fld) (n : Nat) : (s.count f n).mem = s.mem := (rfl)
@[simp] theorem State.count_ports (f : Fld) (n : Nat) : (s.count f n).ports = s.ports := (rfl)
@[simp] theorem State.count_lanes (f : Fld) (n : Nat) : (s.count f n).lanes = s.lanes := (rfl)
@[simp] theorem State.count_switch (f : Fld) (n : Nat) : (s.count f n).switch = s.switch := (rfl)
@[simp] theorem State.count_col (f : Fld) (n : Nat) : (s.count f n).col = s.col := (rfl)
@[simp] theorem State.count_det (f : Fld) (n : Nat) : (s.count f n).det = s.det := (rfl)
@[simp] theorem State.count_boot (f : Fld) (n : Nat) : (s.count f n).boot = s.boot := (rfl)
@[simp] theorem State.count_clock (f : Fld) (n : Nat) : (s.count f n).clock = s.clock := (rfl)
@[simp] theorem State.count_fault (f : Fld) (n : Nat) : (s.count f n).fault = s.fault := (rfl)
@[simp] theorem State.count_obs (f : Fld) (n : Nat) : (s.count f n).obs = s.obs := (rfl)
@[simp] theorem State.count_host (f : Fld) (n : Nat) : (s.count f n).host = s.host := (rfl)
@[simp] theorem State.count_power (f : Fld) (n : Nat) : (s.count f n).power = s.power := (rfl)
@[simp] theorem State.count_out (f : Fld) (n : Nat) : (s.count f n).out = s.out := (rfl)
@[simp] theorem State.count_free (f : Fld) (n : Nat) : (s.count f n).free = s.free := (rfl)
@[simp] theorem State.count_pending (f : Fld) (n : Nat) : (s.count f n).pending = s.pending := (rfl)

/-! countWrap changes regs alone. -/

@[simp] theorem State.countWrap_now (f : Fld) (n : Nat) : (s.countWrap f n).now = s.now := (rfl)
@[simp] theorem State.countWrap_ftime (f : Fld) (n : Nat) : (s.countWrap f n).ftime = s.ftime := (rfl)
@[simp] theorem State.countWrap_shadow (f : Fld) (n : Nat) : (s.countWrap f n).shadow = s.shadow := (rfl)
@[simp] theorem State.countWrap_heldWrites (f : Fld) (n : Nat) : (s.countWrap f n).heldWrites = s.heldWrites := (rfl)
@[simp] theorem State.countWrap_captured (f : Fld) (n : Nat) : (s.countWrap f n).captured = s.captured := (rfl)
@[simp] theorem State.countWrap_gddr (f : Fld) (n : Nat) : (s.countWrap f n).gddr = s.gddr := (rfl)
@[simp] theorem State.countWrap_gddrGen (f : Fld) (n : Nat) : (s.countWrap f n).gddrGen = s.gddrGen := (rfl)
@[simp] theorem State.countWrap_sram (f : Fld) (n : Nat) : (s.countWrap f n).sram = s.sram := (rfl)
@[simp] theorem State.countWrap_zeroed (f : Fld) (n : Nat) : (s.countWrap f n).zeroed = s.zeroed := (rfl)
@[simp] theorem State.countWrap_pat (f : Fld) (n : Nat) : (s.countWrap f n).pat = s.pat := (rfl)
@[simp] theorem State.countWrap_cores (f : Fld) (n : Nat) : (s.countWrap f n).cores = s.cores := (rfl)
@[simp] theorem State.countWrap_jobs (f : Fld) (n : Nat) : (s.countWrap f n).jobs = s.jobs := (rfl)
@[simp] theorem State.countWrap_slots (f : Fld) (n : Nat) : (s.countWrap f n).slots = s.slots := (rfl)
@[simp] theorem State.countWrap_combines (f : Fld) (n : Nat) : (s.countWrap f n).combines = s.combines := (rfl)
@[simp] theorem State.countWrap_mem (f : Fld) (n : Nat) : (s.countWrap f n).mem = s.mem := (rfl)
@[simp] theorem State.countWrap_ports (f : Fld) (n : Nat) : (s.countWrap f n).ports = s.ports := (rfl)
@[simp] theorem State.countWrap_lanes (f : Fld) (n : Nat) : (s.countWrap f n).lanes = s.lanes := (rfl)
@[simp] theorem State.countWrap_switch (f : Fld) (n : Nat) : (s.countWrap f n).switch = s.switch := (rfl)
@[simp] theorem State.countWrap_col (f : Fld) (n : Nat) : (s.countWrap f n).col = s.col := (rfl)
@[simp] theorem State.countWrap_det (f : Fld) (n : Nat) : (s.countWrap f n).det = s.det := (rfl)
@[simp] theorem State.countWrap_boot (f : Fld) (n : Nat) : (s.countWrap f n).boot = s.boot := (rfl)
@[simp] theorem State.countWrap_clock (f : Fld) (n : Nat) : (s.countWrap f n).clock = s.clock := (rfl)
@[simp] theorem State.countWrap_fault (f : Fld) (n : Nat) : (s.countWrap f n).fault = s.fault := (rfl)
@[simp] theorem State.countWrap_obs (f : Fld) (n : Nat) : (s.countWrap f n).obs = s.obs := (rfl)
@[simp] theorem State.countWrap_host (f : Fld) (n : Nat) : (s.countWrap f n).host = s.host := (rfl)
@[simp] theorem State.countWrap_power (f : Fld) (n : Nat) : (s.countWrap f n).power = s.power := (rfl)
@[simp] theorem State.countWrap_out (f : Fld) (n : Nat) : (s.countWrap f n).out = s.out := (rfl)
@[simp] theorem State.countWrap_free (f : Fld) (n : Nat) : (s.countWrap f n).free = s.free := (rfl)
@[simp] theorem State.countWrap_pending (f : Fld) (n : Nat) : (s.countWrap f n).pending = s.pending := (rfl)

/-! setCore changes cores alone. -/

@[simp] theorem State.setCore_now (L : Nat) (c : Core) : (s.setCore L c).now = s.now := (rfl)
@[simp] theorem State.setCore_ftime (L : Nat) (c : Core) : (s.setCore L c).ftime = s.ftime := (rfl)
@[simp] theorem State.setCore_regs (L : Nat) (c : Core) : (s.setCore L c).regs = s.regs := (rfl)
@[simp] theorem State.setCore_shadow (L : Nat) (c : Core) : (s.setCore L c).shadow = s.shadow := (rfl)
@[simp] theorem State.setCore_heldWrites (L : Nat) (c : Core) : (s.setCore L c).heldWrites = s.heldWrites := (rfl)
@[simp] theorem State.setCore_captured (L : Nat) (c : Core) : (s.setCore L c).captured = s.captured := (rfl)
@[simp] theorem State.setCore_gddr (L : Nat) (c : Core) : (s.setCore L c).gddr = s.gddr := (rfl)
@[simp] theorem State.setCore_gddrGen (L : Nat) (c : Core) : (s.setCore L c).gddrGen = s.gddrGen := (rfl)
@[simp] theorem State.setCore_sram (L : Nat) (c : Core) : (s.setCore L c).sram = s.sram := (rfl)
@[simp] theorem State.setCore_zeroed (L : Nat) (c : Core) : (s.setCore L c).zeroed = s.zeroed := (rfl)
@[simp] theorem State.setCore_pat (L : Nat) (c : Core) : (s.setCore L c).pat = s.pat := (rfl)
@[simp] theorem State.setCore_jobs (L : Nat) (c : Core) : (s.setCore L c).jobs = s.jobs := (rfl)
@[simp] theorem State.setCore_slots (L : Nat) (c : Core) : (s.setCore L c).slots = s.slots := (rfl)
@[simp] theorem State.setCore_combines (L : Nat) (c : Core) : (s.setCore L c).combines = s.combines := (rfl)
@[simp] theorem State.setCore_mem (L : Nat) (c : Core) : (s.setCore L c).mem = s.mem := (rfl)
@[simp] theorem State.setCore_ports (L : Nat) (c : Core) : (s.setCore L c).ports = s.ports := (rfl)
@[simp] theorem State.setCore_lanes (L : Nat) (c : Core) : (s.setCore L c).lanes = s.lanes := (rfl)
@[simp] theorem State.setCore_switch (L : Nat) (c : Core) : (s.setCore L c).switch = s.switch := (rfl)
@[simp] theorem State.setCore_col (L : Nat) (c : Core) : (s.setCore L c).col = s.col := (rfl)
@[simp] theorem State.setCore_det (L : Nat) (c : Core) : (s.setCore L c).det = s.det := (rfl)
@[simp] theorem State.setCore_boot (L : Nat) (c : Core) : (s.setCore L c).boot = s.boot := (rfl)
@[simp] theorem State.setCore_clock (L : Nat) (c : Core) : (s.setCore L c).clock = s.clock := (rfl)
@[simp] theorem State.setCore_fault (L : Nat) (c : Core) : (s.setCore L c).fault = s.fault := (rfl)
@[simp] theorem State.setCore_obs (L : Nat) (c : Core) : (s.setCore L c).obs = s.obs := (rfl)
@[simp] theorem State.setCore_host (L : Nat) (c : Core) : (s.setCore L c).host = s.host := (rfl)
@[simp] theorem State.setCore_power (L : Nat) (c : Core) : (s.setCore L c).power = s.power := (rfl)
@[simp] theorem State.setCore_out (L : Nat) (c : Core) : (s.setCore L c).out = s.out := (rfl)
@[simp] theorem State.setCore_free (L : Nat) (c : Core) : (s.setCore L c).free = s.free := (rfl)
@[simp] theorem State.setCore_pending (L : Nat) (c : Core) : (s.setCore L c).pending = s.pending := (rfl)

/-! modCore changes cores alone. -/

@[simp] theorem State.modCore_now (L : Nat) (f : Core → Core) : (s.modCore L f).now = s.now := (rfl)
@[simp] theorem State.modCore_ftime (L : Nat) (f : Core → Core) : (s.modCore L f).ftime = s.ftime := (rfl)
@[simp] theorem State.modCore_regs (L : Nat) (f : Core → Core) : (s.modCore L f).regs = s.regs := (rfl)
@[simp] theorem State.modCore_shadow (L : Nat) (f : Core → Core) : (s.modCore L f).shadow = s.shadow := (rfl)
@[simp] theorem State.modCore_heldWrites (L : Nat) (f : Core → Core) : (s.modCore L f).heldWrites = s.heldWrites := (rfl)
@[simp] theorem State.modCore_captured (L : Nat) (f : Core → Core) : (s.modCore L f).captured = s.captured := (rfl)
@[simp] theorem State.modCore_gddr (L : Nat) (f : Core → Core) : (s.modCore L f).gddr = s.gddr := (rfl)
@[simp] theorem State.modCore_gddrGen (L : Nat) (f : Core → Core) : (s.modCore L f).gddrGen = s.gddrGen := (rfl)
@[simp] theorem State.modCore_sram (L : Nat) (f : Core → Core) : (s.modCore L f).sram = s.sram := (rfl)
@[simp] theorem State.modCore_zeroed (L : Nat) (f : Core → Core) : (s.modCore L f).zeroed = s.zeroed := (rfl)
@[simp] theorem State.modCore_pat (L : Nat) (f : Core → Core) : (s.modCore L f).pat = s.pat := (rfl)
@[simp] theorem State.modCore_jobs (L : Nat) (f : Core → Core) : (s.modCore L f).jobs = s.jobs := (rfl)
@[simp] theorem State.modCore_slots (L : Nat) (f : Core → Core) : (s.modCore L f).slots = s.slots := (rfl)
@[simp] theorem State.modCore_combines (L : Nat) (f : Core → Core) : (s.modCore L f).combines = s.combines := (rfl)
@[simp] theorem State.modCore_mem (L : Nat) (f : Core → Core) : (s.modCore L f).mem = s.mem := (rfl)
@[simp] theorem State.modCore_ports (L : Nat) (f : Core → Core) : (s.modCore L f).ports = s.ports := (rfl)
@[simp] theorem State.modCore_lanes (L : Nat) (f : Core → Core) : (s.modCore L f).lanes = s.lanes := (rfl)
@[simp] theorem State.modCore_switch (L : Nat) (f : Core → Core) : (s.modCore L f).switch = s.switch := (rfl)
@[simp] theorem State.modCore_col (L : Nat) (f : Core → Core) : (s.modCore L f).col = s.col := (rfl)
@[simp] theorem State.modCore_det (L : Nat) (f : Core → Core) : (s.modCore L f).det = s.det := (rfl)
@[simp] theorem State.modCore_boot (L : Nat) (f : Core → Core) : (s.modCore L f).boot = s.boot := (rfl)
@[simp] theorem State.modCore_clock (L : Nat) (f : Core → Core) : (s.modCore L f).clock = s.clock := (rfl)
@[simp] theorem State.modCore_fault (L : Nat) (f : Core → Core) : (s.modCore L f).fault = s.fault := (rfl)
@[simp] theorem State.modCore_obs (L : Nat) (f : Core → Core) : (s.modCore L f).obs = s.obs := (rfl)
@[simp] theorem State.modCore_host (L : Nat) (f : Core → Core) : (s.modCore L f).host = s.host := (rfl)
@[simp] theorem State.modCore_power (L : Nat) (f : Core → Core) : (s.modCore L f).power = s.power := (rfl)
@[simp] theorem State.modCore_out (L : Nat) (f : Core → Core) : (s.modCore L f).out = s.out := (rfl)
@[simp] theorem State.modCore_free (L : Nat) (f : Core → Core) : (s.modCore L f).free = s.free := (rfl)
@[simp] theorem State.modCore_pending (L : Nat) (f : Core → Core) : (s.modCore L f).pending = s.pending := (rfl)

/-! setPort changes ports alone. -/

@[simp] theorem State.setPort_now (p : Nat) (x : Port) : (s.setPort p x).now = s.now := (rfl)
@[simp] theorem State.setPort_ftime (p : Nat) (x : Port) : (s.setPort p x).ftime = s.ftime := (rfl)
@[simp] theorem State.setPort_regs (p : Nat) (x : Port) : (s.setPort p x).regs = s.regs := (rfl)
@[simp] theorem State.setPort_shadow (p : Nat) (x : Port) : (s.setPort p x).shadow = s.shadow := (rfl)
@[simp] theorem State.setPort_heldWrites (p : Nat) (x : Port) : (s.setPort p x).heldWrites = s.heldWrites := (rfl)
@[simp] theorem State.setPort_captured (p : Nat) (x : Port) : (s.setPort p x).captured = s.captured := (rfl)
@[simp] theorem State.setPort_gddr (p : Nat) (x : Port) : (s.setPort p x).gddr = s.gddr := (rfl)
@[simp] theorem State.setPort_gddrGen (p : Nat) (x : Port) : (s.setPort p x).gddrGen = s.gddrGen := (rfl)
@[simp] theorem State.setPort_sram (p : Nat) (x : Port) : (s.setPort p x).sram = s.sram := (rfl)
@[simp] theorem State.setPort_zeroed (p : Nat) (x : Port) : (s.setPort p x).zeroed = s.zeroed := (rfl)
@[simp] theorem State.setPort_pat (p : Nat) (x : Port) : (s.setPort p x).pat = s.pat := (rfl)
@[simp] theorem State.setPort_cores (p : Nat) (x : Port) : (s.setPort p x).cores = s.cores := (rfl)
@[simp] theorem State.setPort_jobs (p : Nat) (x : Port) : (s.setPort p x).jobs = s.jobs := (rfl)
@[simp] theorem State.setPort_slots (p : Nat) (x : Port) : (s.setPort p x).slots = s.slots := (rfl)
@[simp] theorem State.setPort_combines (p : Nat) (x : Port) : (s.setPort p x).combines = s.combines := (rfl)
@[simp] theorem State.setPort_mem (p : Nat) (x : Port) : (s.setPort p x).mem = s.mem := (rfl)
@[simp] theorem State.setPort_lanes (p : Nat) (x : Port) : (s.setPort p x).lanes = s.lanes := (rfl)
@[simp] theorem State.setPort_switch (p : Nat) (x : Port) : (s.setPort p x).switch = s.switch := (rfl)
@[simp] theorem State.setPort_col (p : Nat) (x : Port) : (s.setPort p x).col = s.col := (rfl)
@[simp] theorem State.setPort_det (p : Nat) (x : Port) : (s.setPort p x).det = s.det := (rfl)
@[simp] theorem State.setPort_boot (p : Nat) (x : Port) : (s.setPort p x).boot = s.boot := (rfl)
@[simp] theorem State.setPort_clock (p : Nat) (x : Port) : (s.setPort p x).clock = s.clock := (rfl)
@[simp] theorem State.setPort_fault (p : Nat) (x : Port) : (s.setPort p x).fault = s.fault := (rfl)
@[simp] theorem State.setPort_obs (p : Nat) (x : Port) : (s.setPort p x).obs = s.obs := (rfl)
@[simp] theorem State.setPort_host (p : Nat) (x : Port) : (s.setPort p x).host = s.host := (rfl)
@[simp] theorem State.setPort_power (p : Nat) (x : Port) : (s.setPort p x).power = s.power := (rfl)
@[simp] theorem State.setPort_out (p : Nat) (x : Port) : (s.setPort p x).out = s.out := (rfl)
@[simp] theorem State.setPort_free (p : Nat) (x : Port) : (s.setPort p x).free = s.free := (rfl)
@[simp] theorem State.setPort_pending (p : Nat) (x : Port) : (s.setPort p x).pending = s.pending := (rfl)

/-! modPort changes ports alone. -/

@[simp] theorem State.modPort_now (p : Nat) (f : Port → Port) : (s.modPort p f).now = s.now := (rfl)
@[simp] theorem State.modPort_ftime (p : Nat) (f : Port → Port) : (s.modPort p f).ftime = s.ftime := (rfl)
@[simp] theorem State.modPort_regs (p : Nat) (f : Port → Port) : (s.modPort p f).regs = s.regs := (rfl)
@[simp] theorem State.modPort_shadow (p : Nat) (f : Port → Port) : (s.modPort p f).shadow = s.shadow := (rfl)
@[simp] theorem State.modPort_heldWrites (p : Nat) (f : Port → Port) : (s.modPort p f).heldWrites = s.heldWrites := (rfl)
@[simp] theorem State.modPort_captured (p : Nat) (f : Port → Port) : (s.modPort p f).captured = s.captured := (rfl)
@[simp] theorem State.modPort_gddr (p : Nat) (f : Port → Port) : (s.modPort p f).gddr = s.gddr := (rfl)
@[simp] theorem State.modPort_gddrGen (p : Nat) (f : Port → Port) : (s.modPort p f).gddrGen = s.gddrGen := (rfl)
@[simp] theorem State.modPort_sram (p : Nat) (f : Port → Port) : (s.modPort p f).sram = s.sram := (rfl)
@[simp] theorem State.modPort_zeroed (p : Nat) (f : Port → Port) : (s.modPort p f).zeroed = s.zeroed := (rfl)
@[simp] theorem State.modPort_pat (p : Nat) (f : Port → Port) : (s.modPort p f).pat = s.pat := (rfl)
@[simp] theorem State.modPort_cores (p : Nat) (f : Port → Port) : (s.modPort p f).cores = s.cores := (rfl)
@[simp] theorem State.modPort_jobs (p : Nat) (f : Port → Port) : (s.modPort p f).jobs = s.jobs := (rfl)
@[simp] theorem State.modPort_slots (p : Nat) (f : Port → Port) : (s.modPort p f).slots = s.slots := (rfl)
@[simp] theorem State.modPort_combines (p : Nat) (f : Port → Port) : (s.modPort p f).combines = s.combines := (rfl)
@[simp] theorem State.modPort_mem (p : Nat) (f : Port → Port) : (s.modPort p f).mem = s.mem := (rfl)
@[simp] theorem State.modPort_lanes (p : Nat) (f : Port → Port) : (s.modPort p f).lanes = s.lanes := (rfl)
@[simp] theorem State.modPort_switch (p : Nat) (f : Port → Port) : (s.modPort p f).switch = s.switch := (rfl)
@[simp] theorem State.modPort_col (p : Nat) (f : Port → Port) : (s.modPort p f).col = s.col := (rfl)
@[simp] theorem State.modPort_det (p : Nat) (f : Port → Port) : (s.modPort p f).det = s.det := (rfl)
@[simp] theorem State.modPort_boot (p : Nat) (f : Port → Port) : (s.modPort p f).boot = s.boot := (rfl)
@[simp] theorem State.modPort_clock (p : Nat) (f : Port → Port) : (s.modPort p f).clock = s.clock := (rfl)
@[simp] theorem State.modPort_fault (p : Nat) (f : Port → Port) : (s.modPort p f).fault = s.fault := (rfl)
@[simp] theorem State.modPort_obs (p : Nat) (f : Port → Port) : (s.modPort p f).obs = s.obs := (rfl)
@[simp] theorem State.modPort_host (p : Nat) (f : Port → Port) : (s.modPort p f).host = s.host := (rfl)
@[simp] theorem State.modPort_power (p : Nat) (f : Port → Port) : (s.modPort p f).power = s.power := (rfl)
@[simp] theorem State.modPort_out (p : Nat) (f : Port → Port) : (s.modPort p f).out = s.out := (rfl)
@[simp] theorem State.modPort_free (p : Nat) (f : Port → Port) : (s.modPort p f).free = s.free := (rfl)
@[simp] theorem State.modPort_pending (p : Nat) (f : Port → Port) : (s.modPort p f).pending = s.pending := (rfl)

/-! modLane changes lanes alone. -/

@[simp] theorem State.modLane_now (l : Nat) (f : Lane → Lane) : (s.modLane l f).now = s.now := (rfl)
@[simp] theorem State.modLane_ftime (l : Nat) (f : Lane → Lane) : (s.modLane l f).ftime = s.ftime := (rfl)
@[simp] theorem State.modLane_regs (l : Nat) (f : Lane → Lane) : (s.modLane l f).regs = s.regs := (rfl)
@[simp] theorem State.modLane_shadow (l : Nat) (f : Lane → Lane) : (s.modLane l f).shadow = s.shadow := (rfl)
@[simp] theorem State.modLane_heldWrites (l : Nat) (f : Lane → Lane) : (s.modLane l f).heldWrites = s.heldWrites := (rfl)
@[simp] theorem State.modLane_captured (l : Nat) (f : Lane → Lane) : (s.modLane l f).captured = s.captured := (rfl)
@[simp] theorem State.modLane_gddr (l : Nat) (f : Lane → Lane) : (s.modLane l f).gddr = s.gddr := (rfl)
@[simp] theorem State.modLane_gddrGen (l : Nat) (f : Lane → Lane) : (s.modLane l f).gddrGen = s.gddrGen := (rfl)
@[simp] theorem State.modLane_sram (l : Nat) (f : Lane → Lane) : (s.modLane l f).sram = s.sram := (rfl)
@[simp] theorem State.modLane_zeroed (l : Nat) (f : Lane → Lane) : (s.modLane l f).zeroed = s.zeroed := (rfl)
@[simp] theorem State.modLane_pat (l : Nat) (f : Lane → Lane) : (s.modLane l f).pat = s.pat := (rfl)
@[simp] theorem State.modLane_cores (l : Nat) (f : Lane → Lane) : (s.modLane l f).cores = s.cores := (rfl)
@[simp] theorem State.modLane_jobs (l : Nat) (f : Lane → Lane) : (s.modLane l f).jobs = s.jobs := (rfl)
@[simp] theorem State.modLane_slots (l : Nat) (f : Lane → Lane) : (s.modLane l f).slots = s.slots := (rfl)
@[simp] theorem State.modLane_combines (l : Nat) (f : Lane → Lane) : (s.modLane l f).combines = s.combines := (rfl)
@[simp] theorem State.modLane_mem (l : Nat) (f : Lane → Lane) : (s.modLane l f).mem = s.mem := (rfl)
@[simp] theorem State.modLane_ports (l : Nat) (f : Lane → Lane) : (s.modLane l f).ports = s.ports := (rfl)
@[simp] theorem State.modLane_switch (l : Nat) (f : Lane → Lane) : (s.modLane l f).switch = s.switch := (rfl)
@[simp] theorem State.modLane_col (l : Nat) (f : Lane → Lane) : (s.modLane l f).col = s.col := (rfl)
@[simp] theorem State.modLane_det (l : Nat) (f : Lane → Lane) : (s.modLane l f).det = s.det := (rfl)
@[simp] theorem State.modLane_boot (l : Nat) (f : Lane → Lane) : (s.modLane l f).boot = s.boot := (rfl)
@[simp] theorem State.modLane_clock (l : Nat) (f : Lane → Lane) : (s.modLane l f).clock = s.clock := (rfl)
@[simp] theorem State.modLane_fault (l : Nat) (f : Lane → Lane) : (s.modLane l f).fault = s.fault := (rfl)
@[simp] theorem State.modLane_obs (l : Nat) (f : Lane → Lane) : (s.modLane l f).obs = s.obs := (rfl)
@[simp] theorem State.modLane_host (l : Nat) (f : Lane → Lane) : (s.modLane l f).host = s.host := (rfl)
@[simp] theorem State.modLane_power (l : Nat) (f : Lane → Lane) : (s.modLane l f).power = s.power := (rfl)
@[simp] theorem State.modLane_out (l : Nat) (f : Lane → Lane) : (s.modLane l f).out = s.out := (rfl)
@[simp] theorem State.modLane_free (l : Nat) (f : Lane → Lane) : (s.modLane l f).free = s.free := (rfl)
@[simp] theorem State.modLane_pending (l : Nat) (f : Lane → Lane) : (s.modLane l f).pending = s.pending := (rfl)

/-! modDet changes det alone. -/

@[simp] theorem State.modDet_now (L : Nat) (f : CoreDet → CoreDet) : (s.modDet L f).now = s.now := (rfl)
@[simp] theorem State.modDet_ftime (L : Nat) (f : CoreDet → CoreDet) : (s.modDet L f).ftime = s.ftime := (rfl)
@[simp] theorem State.modDet_regs (L : Nat) (f : CoreDet → CoreDet) : (s.modDet L f).regs = s.regs := (rfl)
@[simp] theorem State.modDet_shadow (L : Nat) (f : CoreDet → CoreDet) : (s.modDet L f).shadow = s.shadow := (rfl)
@[simp] theorem State.modDet_heldWrites (L : Nat) (f : CoreDet → CoreDet) : (s.modDet L f).heldWrites = s.heldWrites := (rfl)
@[simp] theorem State.modDet_captured (L : Nat) (f : CoreDet → CoreDet) : (s.modDet L f).captured = s.captured := (rfl)
@[simp] theorem State.modDet_gddr (L : Nat) (f : CoreDet → CoreDet) : (s.modDet L f).gddr = s.gddr := (rfl)
@[simp] theorem State.modDet_gddrGen (L : Nat) (f : CoreDet → CoreDet) : (s.modDet L f).gddrGen = s.gddrGen := (rfl)
@[simp] theorem State.modDet_sram (L : Nat) (f : CoreDet → CoreDet) : (s.modDet L f).sram = s.sram := (rfl)
@[simp] theorem State.modDet_zeroed (L : Nat) (f : CoreDet → CoreDet) : (s.modDet L f).zeroed = s.zeroed := (rfl)
@[simp] theorem State.modDet_pat (L : Nat) (f : CoreDet → CoreDet) : (s.modDet L f).pat = s.pat := (rfl)
@[simp] theorem State.modDet_cores (L : Nat) (f : CoreDet → CoreDet) : (s.modDet L f).cores = s.cores := (rfl)
@[simp] theorem State.modDet_jobs (L : Nat) (f : CoreDet → CoreDet) : (s.modDet L f).jobs = s.jobs := (rfl)
@[simp] theorem State.modDet_slots (L : Nat) (f : CoreDet → CoreDet) : (s.modDet L f).slots = s.slots := (rfl)
@[simp] theorem State.modDet_combines (L : Nat) (f : CoreDet → CoreDet) : (s.modDet L f).combines = s.combines := (rfl)
@[simp] theorem State.modDet_mem (L : Nat) (f : CoreDet → CoreDet) : (s.modDet L f).mem = s.mem := (rfl)
@[simp] theorem State.modDet_ports (L : Nat) (f : CoreDet → CoreDet) : (s.modDet L f).ports = s.ports := (rfl)
@[simp] theorem State.modDet_lanes (L : Nat) (f : CoreDet → CoreDet) : (s.modDet L f).lanes = s.lanes := (rfl)
@[simp] theorem State.modDet_switch (L : Nat) (f : CoreDet → CoreDet) : (s.modDet L f).switch = s.switch := (rfl)
@[simp] theorem State.modDet_col (L : Nat) (f : CoreDet → CoreDet) : (s.modDet L f).col = s.col := (rfl)
@[simp] theorem State.modDet_boot (L : Nat) (f : CoreDet → CoreDet) : (s.modDet L f).boot = s.boot := (rfl)
@[simp] theorem State.modDet_clock (L : Nat) (f : CoreDet → CoreDet) : (s.modDet L f).clock = s.clock := (rfl)
@[simp] theorem State.modDet_fault (L : Nat) (f : CoreDet → CoreDet) : (s.modDet L f).fault = s.fault := (rfl)
@[simp] theorem State.modDet_obs (L : Nat) (f : CoreDet → CoreDet) : (s.modDet L f).obs = s.obs := (rfl)
@[simp] theorem State.modDet_host (L : Nat) (f : CoreDet → CoreDet) : (s.modDet L f).host = s.host := (rfl)
@[simp] theorem State.modDet_power (L : Nat) (f : CoreDet → CoreDet) : (s.modDet L f).power = s.power := (rfl)
@[simp] theorem State.modDet_out (L : Nat) (f : CoreDet → CoreDet) : (s.modDet L f).out = s.out := (rfl)
@[simp] theorem State.modDet_free (L : Nat) (f : CoreDet → CoreDet) : (s.modDet L f).free = s.free := (rfl)
@[simp] theorem State.modDet_pending (L : Nat) (f : CoreDet → CoreDet) : (s.modDet L f).pending = s.pending := (rfl)

/-! modRing changes host alone. -/

@[simp] theorem State.modRing_now (r : Nat) (f : RingState → RingState) : (s.modRing r f).now = s.now := (rfl)
@[simp] theorem State.modRing_ftime (r : Nat) (f : RingState → RingState) : (s.modRing r f).ftime = s.ftime := (rfl)
@[simp] theorem State.modRing_regs (r : Nat) (f : RingState → RingState) : (s.modRing r f).regs = s.regs := (rfl)
@[simp] theorem State.modRing_shadow (r : Nat) (f : RingState → RingState) : (s.modRing r f).shadow = s.shadow := (rfl)
@[simp] theorem State.modRing_heldWrites (r : Nat) (f : RingState → RingState) : (s.modRing r f).heldWrites = s.heldWrites := (rfl)
@[simp] theorem State.modRing_captured (r : Nat) (f : RingState → RingState) : (s.modRing r f).captured = s.captured := (rfl)
@[simp] theorem State.modRing_gddr (r : Nat) (f : RingState → RingState) : (s.modRing r f).gddr = s.gddr := (rfl)
@[simp] theorem State.modRing_gddrGen (r : Nat) (f : RingState → RingState) : (s.modRing r f).gddrGen = s.gddrGen := (rfl)
@[simp] theorem State.modRing_sram (r : Nat) (f : RingState → RingState) : (s.modRing r f).sram = s.sram := (rfl)
@[simp] theorem State.modRing_zeroed (r : Nat) (f : RingState → RingState) : (s.modRing r f).zeroed = s.zeroed := (rfl)
@[simp] theorem State.modRing_pat (r : Nat) (f : RingState → RingState) : (s.modRing r f).pat = s.pat := (rfl)
@[simp] theorem State.modRing_cores (r : Nat) (f : RingState → RingState) : (s.modRing r f).cores = s.cores := (rfl)
@[simp] theorem State.modRing_jobs (r : Nat) (f : RingState → RingState) : (s.modRing r f).jobs = s.jobs := (rfl)
@[simp] theorem State.modRing_slots (r : Nat) (f : RingState → RingState) : (s.modRing r f).slots = s.slots := (rfl)
@[simp] theorem State.modRing_combines (r : Nat) (f : RingState → RingState) : (s.modRing r f).combines = s.combines := (rfl)
@[simp] theorem State.modRing_mem (r : Nat) (f : RingState → RingState) : (s.modRing r f).mem = s.mem := (rfl)
@[simp] theorem State.modRing_ports (r : Nat) (f : RingState → RingState) : (s.modRing r f).ports = s.ports := (rfl)
@[simp] theorem State.modRing_lanes (r : Nat) (f : RingState → RingState) : (s.modRing r f).lanes = s.lanes := (rfl)
@[simp] theorem State.modRing_switch (r : Nat) (f : RingState → RingState) : (s.modRing r f).switch = s.switch := (rfl)
@[simp] theorem State.modRing_col (r : Nat) (f : RingState → RingState) : (s.modRing r f).col = s.col := (rfl)
@[simp] theorem State.modRing_det (r : Nat) (f : RingState → RingState) : (s.modRing r f).det = s.det := (rfl)
@[simp] theorem State.modRing_boot (r : Nat) (f : RingState → RingState) : (s.modRing r f).boot = s.boot := (rfl)
@[simp] theorem State.modRing_clock (r : Nat) (f : RingState → RingState) : (s.modRing r f).clock = s.clock := (rfl)
@[simp] theorem State.modRing_fault (r : Nat) (f : RingState → RingState) : (s.modRing r f).fault = s.fault := (rfl)
@[simp] theorem State.modRing_obs (r : Nat) (f : RingState → RingState) : (s.modRing r f).obs = s.obs := (rfl)
@[simp] theorem State.modRing_power (r : Nat) (f : RingState → RingState) : (s.modRing r f).power = s.power := (rfl)
@[simp] theorem State.modRing_out (r : Nat) (f : RingState → RingState) : (s.modRing r f).out = s.out := (rfl)
@[simp] theorem State.modRing_free (r : Nat) (f : RingState → RingState) : (s.modRing r f).free = s.free := (rfl)
@[simp] theorem State.modRing_pending (r : Nat) (f : RingState → RingState) : (s.modRing r f).pending = s.pending := (rfl)

/-! modJob changes jobs alone. -/

@[simp] theorem State.modJob_now (k : Nat) (f : Job → Job) : (s.modJob k f).now = s.now := (rfl)
@[simp] theorem State.modJob_ftime (k : Nat) (f : Job → Job) : (s.modJob k f).ftime = s.ftime := (rfl)
@[simp] theorem State.modJob_regs (k : Nat) (f : Job → Job) : (s.modJob k f).regs = s.regs := (rfl)
@[simp] theorem State.modJob_shadow (k : Nat) (f : Job → Job) : (s.modJob k f).shadow = s.shadow := (rfl)
@[simp] theorem State.modJob_heldWrites (k : Nat) (f : Job → Job) : (s.modJob k f).heldWrites = s.heldWrites := (rfl)
@[simp] theorem State.modJob_captured (k : Nat) (f : Job → Job) : (s.modJob k f).captured = s.captured := (rfl)
@[simp] theorem State.modJob_gddr (k : Nat) (f : Job → Job) : (s.modJob k f).gddr = s.gddr := (rfl)
@[simp] theorem State.modJob_gddrGen (k : Nat) (f : Job → Job) : (s.modJob k f).gddrGen = s.gddrGen := (rfl)
@[simp] theorem State.modJob_sram (k : Nat) (f : Job → Job) : (s.modJob k f).sram = s.sram := (rfl)
@[simp] theorem State.modJob_zeroed (k : Nat) (f : Job → Job) : (s.modJob k f).zeroed = s.zeroed := (rfl)
@[simp] theorem State.modJob_pat (k : Nat) (f : Job → Job) : (s.modJob k f).pat = s.pat := (rfl)
@[simp] theorem State.modJob_cores (k : Nat) (f : Job → Job) : (s.modJob k f).cores = s.cores := (rfl)
@[simp] theorem State.modJob_slots (k : Nat) (f : Job → Job) : (s.modJob k f).slots = s.slots := (rfl)
@[simp] theorem State.modJob_combines (k : Nat) (f : Job → Job) : (s.modJob k f).combines = s.combines := (rfl)
@[simp] theorem State.modJob_mem (k : Nat) (f : Job → Job) : (s.modJob k f).mem = s.mem := (rfl)
@[simp] theorem State.modJob_ports (k : Nat) (f : Job → Job) : (s.modJob k f).ports = s.ports := (rfl)
@[simp] theorem State.modJob_lanes (k : Nat) (f : Job → Job) : (s.modJob k f).lanes = s.lanes := (rfl)
@[simp] theorem State.modJob_switch (k : Nat) (f : Job → Job) : (s.modJob k f).switch = s.switch := (rfl)
@[simp] theorem State.modJob_col (k : Nat) (f : Job → Job) : (s.modJob k f).col = s.col := (rfl)
@[simp] theorem State.modJob_det (k : Nat) (f : Job → Job) : (s.modJob k f).det = s.det := (rfl)
@[simp] theorem State.modJob_boot (k : Nat) (f : Job → Job) : (s.modJob k f).boot = s.boot := (rfl)
@[simp] theorem State.modJob_clock (k : Nat) (f : Job → Job) : (s.modJob k f).clock = s.clock := (rfl)
@[simp] theorem State.modJob_fault (k : Nat) (f : Job → Job) : (s.modJob k f).fault = s.fault := (rfl)
@[simp] theorem State.modJob_obs (k : Nat) (f : Job → Job) : (s.modJob k f).obs = s.obs := (rfl)
@[simp] theorem State.modJob_host (k : Nat) (f : Job → Job) : (s.modJob k f).host = s.host := (rfl)
@[simp] theorem State.modJob_power (k : Nat) (f : Job → Job) : (s.modJob k f).power = s.power := (rfl)
@[simp] theorem State.modJob_out (k : Nat) (f : Job → Job) : (s.modJob k f).out = s.out := (rfl)
@[simp] theorem State.modJob_free (k : Nat) (f : Job → Job) : (s.modJob k f).free = s.free := (rfl)
@[simp] theorem State.modJob_pending (k : Nat) (f : Job → Job) : (s.modJob k f).pending = s.pending := (rfl)

/-! emit changes out alone. -/

@[simp] theorem State.emit_now (o : Out) : (s.emit o).now = s.now := (rfl)
@[simp] theorem State.emit_ftime (o : Out) : (s.emit o).ftime = s.ftime := (rfl)
@[simp] theorem State.emit_regs (o : Out) : (s.emit o).regs = s.regs := (rfl)
@[simp] theorem State.emit_shadow (o : Out) : (s.emit o).shadow = s.shadow := (rfl)
@[simp] theorem State.emit_heldWrites (o : Out) : (s.emit o).heldWrites = s.heldWrites := (rfl)
@[simp] theorem State.emit_captured (o : Out) : (s.emit o).captured = s.captured := (rfl)
@[simp] theorem State.emit_gddr (o : Out) : (s.emit o).gddr = s.gddr := (rfl)
@[simp] theorem State.emit_gddrGen (o : Out) : (s.emit o).gddrGen = s.gddrGen := (rfl)
@[simp] theorem State.emit_sram (o : Out) : (s.emit o).sram = s.sram := (rfl)
@[simp] theorem State.emit_zeroed (o : Out) : (s.emit o).zeroed = s.zeroed := (rfl)
@[simp] theorem State.emit_pat (o : Out) : (s.emit o).pat = s.pat := (rfl)
@[simp] theorem State.emit_cores (o : Out) : (s.emit o).cores = s.cores := (rfl)
@[simp] theorem State.emit_jobs (o : Out) : (s.emit o).jobs = s.jobs := (rfl)
@[simp] theorem State.emit_slots (o : Out) : (s.emit o).slots = s.slots := (rfl)
@[simp] theorem State.emit_combines (o : Out) : (s.emit o).combines = s.combines := (rfl)
@[simp] theorem State.emit_mem (o : Out) : (s.emit o).mem = s.mem := (rfl)
@[simp] theorem State.emit_ports (o : Out) : (s.emit o).ports = s.ports := (rfl)
@[simp] theorem State.emit_lanes (o : Out) : (s.emit o).lanes = s.lanes := (rfl)
@[simp] theorem State.emit_switch (o : Out) : (s.emit o).switch = s.switch := (rfl)
@[simp] theorem State.emit_col (o : Out) : (s.emit o).col = s.col := (rfl)
@[simp] theorem State.emit_det (o : Out) : (s.emit o).det = s.det := (rfl)
@[simp] theorem State.emit_boot (o : Out) : (s.emit o).boot = s.boot := (rfl)
@[simp] theorem State.emit_clock (o : Out) : (s.emit o).clock = s.clock := (rfl)
@[simp] theorem State.emit_fault (o : Out) : (s.emit o).fault = s.fault := (rfl)
@[simp] theorem State.emit_obs (o : Out) : (s.emit o).obs = s.obs := (rfl)
@[simp] theorem State.emit_host (o : Out) : (s.emit o).host = s.host := (rfl)
@[simp] theorem State.emit_power (o : Out) : (s.emit o).power = s.power := (rfl)
@[simp] theorem State.emit_free (o : Out) : (s.emit o).free = s.free := (rfl)
@[simp] theorem State.emit_pending (o : Out) : (s.emit o).pending = s.pending := (rfl)

/-! report changes fault alone. -/

@[simp] theorem State.report_now (src inst detail : Nat) : (s.report src inst detail).now = s.now := (rfl)
@[simp] theorem State.report_ftime (src inst detail : Nat) : (s.report src inst detail).ftime = s.ftime := (rfl)
@[simp] theorem State.report_regs (src inst detail : Nat) : (s.report src inst detail).regs = s.regs := (rfl)
@[simp] theorem State.report_shadow (src inst detail : Nat) : (s.report src inst detail).shadow = s.shadow := (rfl)
@[simp] theorem State.report_heldWrites (src inst detail : Nat) : (s.report src inst detail).heldWrites = s.heldWrites := (rfl)
@[simp] theorem State.report_captured (src inst detail : Nat) : (s.report src inst detail).captured = s.captured := (rfl)
@[simp] theorem State.report_gddr (src inst detail : Nat) : (s.report src inst detail).gddr = s.gddr := (rfl)
@[simp] theorem State.report_gddrGen (src inst detail : Nat) : (s.report src inst detail).gddrGen = s.gddrGen := (rfl)
@[simp] theorem State.report_sram (src inst detail : Nat) : (s.report src inst detail).sram = s.sram := (rfl)
@[simp] theorem State.report_zeroed (src inst detail : Nat) : (s.report src inst detail).zeroed = s.zeroed := (rfl)
@[simp] theorem State.report_pat (src inst detail : Nat) : (s.report src inst detail).pat = s.pat := (rfl)
@[simp] theorem State.report_cores (src inst detail : Nat) : (s.report src inst detail).cores = s.cores := (rfl)
@[simp] theorem State.report_jobs (src inst detail : Nat) : (s.report src inst detail).jobs = s.jobs := (rfl)
@[simp] theorem State.report_slots (src inst detail : Nat) : (s.report src inst detail).slots = s.slots := (rfl)
@[simp] theorem State.report_combines (src inst detail : Nat) : (s.report src inst detail).combines = s.combines := (rfl)
@[simp] theorem State.report_mem (src inst detail : Nat) : (s.report src inst detail).mem = s.mem := (rfl)
@[simp] theorem State.report_ports (src inst detail : Nat) : (s.report src inst detail).ports = s.ports := (rfl)
@[simp] theorem State.report_lanes (src inst detail : Nat) : (s.report src inst detail).lanes = s.lanes := (rfl)
@[simp] theorem State.report_switch (src inst detail : Nat) : (s.report src inst detail).switch = s.switch := (rfl)
@[simp] theorem State.report_col (src inst detail : Nat) : (s.report src inst detail).col = s.col := (rfl)
@[simp] theorem State.report_det (src inst detail : Nat) : (s.report src inst detail).det = s.det := (rfl)
@[simp] theorem State.report_boot (src inst detail : Nat) : (s.report src inst detail).boot = s.boot := (rfl)
@[simp] theorem State.report_clock (src inst detail : Nat) : (s.report src inst detail).clock = s.clock := (rfl)
@[simp] theorem State.report_obs (src inst detail : Nat) : (s.report src inst detail).obs = s.obs := (rfl)
@[simp] theorem State.report_host (src inst detail : Nat) : (s.report src inst detail).host = s.host := (rfl)
@[simp] theorem State.report_power (src inst detail : Nat) : (s.report src inst detail).power = s.power := (rfl)
@[simp] theorem State.report_out (src inst detail : Nat) : (s.report src inst detail).out = s.out := (rfl)
@[simp] theorem State.report_free (src inst detail : Nat) : (s.report src inst detail).free = s.free := (rfl)
@[simp] theorem State.report_pending (src inst detail : Nat) : (s.report src inst detail).pending = s.pending := (rfl)

/-! modBoot changes boot alone. -/

@[simp] theorem State.modBoot_now (f : BootState → BootState) : (s.modBoot f).now = s.now := (rfl)
@[simp] theorem State.modBoot_ftime (f : BootState → BootState) : (s.modBoot f).ftime = s.ftime := (rfl)
@[simp] theorem State.modBoot_regs (f : BootState → BootState) : (s.modBoot f).regs = s.regs := (rfl)
@[simp] theorem State.modBoot_shadow (f : BootState → BootState) : (s.modBoot f).shadow = s.shadow := (rfl)
@[simp] theorem State.modBoot_heldWrites (f : BootState → BootState) : (s.modBoot f).heldWrites = s.heldWrites := (rfl)
@[simp] theorem State.modBoot_captured (f : BootState → BootState) : (s.modBoot f).captured = s.captured := (rfl)
@[simp] theorem State.modBoot_gddr (f : BootState → BootState) : (s.modBoot f).gddr = s.gddr := (rfl)
@[simp] theorem State.modBoot_gddrGen (f : BootState → BootState) : (s.modBoot f).gddrGen = s.gddrGen := (rfl)
@[simp] theorem State.modBoot_sram (f : BootState → BootState) : (s.modBoot f).sram = s.sram := (rfl)
@[simp] theorem State.modBoot_zeroed (f : BootState → BootState) : (s.modBoot f).zeroed = s.zeroed := (rfl)
@[simp] theorem State.modBoot_pat (f : BootState → BootState) : (s.modBoot f).pat = s.pat := (rfl)
@[simp] theorem State.modBoot_cores (f : BootState → BootState) : (s.modBoot f).cores = s.cores := (rfl)
@[simp] theorem State.modBoot_jobs (f : BootState → BootState) : (s.modBoot f).jobs = s.jobs := (rfl)
@[simp] theorem State.modBoot_slots (f : BootState → BootState) : (s.modBoot f).slots = s.slots := (rfl)
@[simp] theorem State.modBoot_combines (f : BootState → BootState) : (s.modBoot f).combines = s.combines := (rfl)
@[simp] theorem State.modBoot_mem (f : BootState → BootState) : (s.modBoot f).mem = s.mem := (rfl)
@[simp] theorem State.modBoot_ports (f : BootState → BootState) : (s.modBoot f).ports = s.ports := (rfl)
@[simp] theorem State.modBoot_lanes (f : BootState → BootState) : (s.modBoot f).lanes = s.lanes := (rfl)
@[simp] theorem State.modBoot_switch (f : BootState → BootState) : (s.modBoot f).switch = s.switch := (rfl)
@[simp] theorem State.modBoot_col (f : BootState → BootState) : (s.modBoot f).col = s.col := (rfl)
@[simp] theorem State.modBoot_det (f : BootState → BootState) : (s.modBoot f).det = s.det := (rfl)
@[simp] theorem State.modBoot_clock (f : BootState → BootState) : (s.modBoot f).clock = s.clock := (rfl)
@[simp] theorem State.modBoot_fault (f : BootState → BootState) : (s.modBoot f).fault = s.fault := (rfl)
@[simp] theorem State.modBoot_obs (f : BootState → BootState) : (s.modBoot f).obs = s.obs := (rfl)
@[simp] theorem State.modBoot_host (f : BootState → BootState) : (s.modBoot f).host = s.host := (rfl)
@[simp] theorem State.modBoot_power (f : BootState → BootState) : (s.modBoot f).power = s.power := (rfl)
@[simp] theorem State.modBoot_out (f : BootState → BootState) : (s.modBoot f).out = s.out := (rfl)
@[simp] theorem State.modBoot_free (f : BootState → BootState) : (s.modBoot f).free = s.free := (rfl)
@[simp] theorem State.modBoot_pending (f : BootState → BootState) : (s.modBoot f).pending = s.pending := (rfl)

/-! modPower changes power alone. -/

@[simp] theorem State.modPower_now (f : PowerState → PowerState) : (s.modPower f).now = s.now := (rfl)
@[simp] theorem State.modPower_ftime (f : PowerState → PowerState) : (s.modPower f).ftime = s.ftime := (rfl)
@[simp] theorem State.modPower_regs (f : PowerState → PowerState) : (s.modPower f).regs = s.regs := (rfl)
@[simp] theorem State.modPower_shadow (f : PowerState → PowerState) : (s.modPower f).shadow = s.shadow := (rfl)
@[simp] theorem State.modPower_heldWrites (f : PowerState → PowerState) : (s.modPower f).heldWrites = s.heldWrites := (rfl)
@[simp] theorem State.modPower_captured (f : PowerState → PowerState) : (s.modPower f).captured = s.captured := (rfl)
@[simp] theorem State.modPower_gddr (f : PowerState → PowerState) : (s.modPower f).gddr = s.gddr := (rfl)
@[simp] theorem State.modPower_gddrGen (f : PowerState → PowerState) : (s.modPower f).gddrGen = s.gddrGen := (rfl)
@[simp] theorem State.modPower_sram (f : PowerState → PowerState) : (s.modPower f).sram = s.sram := (rfl)
@[simp] theorem State.modPower_zeroed (f : PowerState → PowerState) : (s.modPower f).zeroed = s.zeroed := (rfl)
@[simp] theorem State.modPower_pat (f : PowerState → PowerState) : (s.modPower f).pat = s.pat := (rfl)
@[simp] theorem State.modPower_cores (f : PowerState → PowerState) : (s.modPower f).cores = s.cores := (rfl)
@[simp] theorem State.modPower_jobs (f : PowerState → PowerState) : (s.modPower f).jobs = s.jobs := (rfl)
@[simp] theorem State.modPower_slots (f : PowerState → PowerState) : (s.modPower f).slots = s.slots := (rfl)
@[simp] theorem State.modPower_combines (f : PowerState → PowerState) : (s.modPower f).combines = s.combines := (rfl)
@[simp] theorem State.modPower_mem (f : PowerState → PowerState) : (s.modPower f).mem = s.mem := (rfl)
@[simp] theorem State.modPower_ports (f : PowerState → PowerState) : (s.modPower f).ports = s.ports := (rfl)
@[simp] theorem State.modPower_lanes (f : PowerState → PowerState) : (s.modPower f).lanes = s.lanes := (rfl)
@[simp] theorem State.modPower_switch (f : PowerState → PowerState) : (s.modPower f).switch = s.switch := (rfl)
@[simp] theorem State.modPower_col (f : PowerState → PowerState) : (s.modPower f).col = s.col := (rfl)
@[simp] theorem State.modPower_det (f : PowerState → PowerState) : (s.modPower f).det = s.det := (rfl)
@[simp] theorem State.modPower_boot (f : PowerState → PowerState) : (s.modPower f).boot = s.boot := (rfl)
@[simp] theorem State.modPower_clock (f : PowerState → PowerState) : (s.modPower f).clock = s.clock := (rfl)
@[simp] theorem State.modPower_fault (f : PowerState → PowerState) : (s.modPower f).fault = s.fault := (rfl)
@[simp] theorem State.modPower_obs (f : PowerState → PowerState) : (s.modPower f).obs = s.obs := (rfl)
@[simp] theorem State.modPower_host (f : PowerState → PowerState) : (s.modPower f).host = s.host := (rfl)
@[simp] theorem State.modPower_out (f : PowerState → PowerState) : (s.modPower f).out = s.out := (rfl)
@[simp] theorem State.modPower_free (f : PowerState → PowerState) : (s.modPower f).free = s.free := (rfl)
@[simp] theorem State.modPower_pending (f : PowerState → PowerState) : (s.modPower f).pending = s.pending := (rfl)

/-! modClock changes clock alone. -/

@[simp] theorem State.modClock_now (f : ClockState → ClockState) : (s.modClock f).now = s.now := (rfl)
@[simp] theorem State.modClock_ftime (f : ClockState → ClockState) : (s.modClock f).ftime = s.ftime := (rfl)
@[simp] theorem State.modClock_regs (f : ClockState → ClockState) : (s.modClock f).regs = s.regs := (rfl)
@[simp] theorem State.modClock_shadow (f : ClockState → ClockState) : (s.modClock f).shadow = s.shadow := (rfl)
@[simp] theorem State.modClock_heldWrites (f : ClockState → ClockState) : (s.modClock f).heldWrites = s.heldWrites := (rfl)
@[simp] theorem State.modClock_captured (f : ClockState → ClockState) : (s.modClock f).captured = s.captured := (rfl)
@[simp] theorem State.modClock_gddr (f : ClockState → ClockState) : (s.modClock f).gddr = s.gddr := (rfl)
@[simp] theorem State.modClock_gddrGen (f : ClockState → ClockState) : (s.modClock f).gddrGen = s.gddrGen := (rfl)
@[simp] theorem State.modClock_sram (f : ClockState → ClockState) : (s.modClock f).sram = s.sram := (rfl)
@[simp] theorem State.modClock_zeroed (f : ClockState → ClockState) : (s.modClock f).zeroed = s.zeroed := (rfl)
@[simp] theorem State.modClock_pat (f : ClockState → ClockState) : (s.modClock f).pat = s.pat := (rfl)
@[simp] theorem State.modClock_cores (f : ClockState → ClockState) : (s.modClock f).cores = s.cores := (rfl)
@[simp] theorem State.modClock_jobs (f : ClockState → ClockState) : (s.modClock f).jobs = s.jobs := (rfl)
@[simp] theorem State.modClock_slots (f : ClockState → ClockState) : (s.modClock f).slots = s.slots := (rfl)
@[simp] theorem State.modClock_combines (f : ClockState → ClockState) : (s.modClock f).combines = s.combines := (rfl)
@[simp] theorem State.modClock_mem (f : ClockState → ClockState) : (s.modClock f).mem = s.mem := (rfl)
@[simp] theorem State.modClock_ports (f : ClockState → ClockState) : (s.modClock f).ports = s.ports := (rfl)
@[simp] theorem State.modClock_lanes (f : ClockState → ClockState) : (s.modClock f).lanes = s.lanes := (rfl)
@[simp] theorem State.modClock_switch (f : ClockState → ClockState) : (s.modClock f).switch = s.switch := (rfl)
@[simp] theorem State.modClock_col (f : ClockState → ClockState) : (s.modClock f).col = s.col := (rfl)
@[simp] theorem State.modClock_det (f : ClockState → ClockState) : (s.modClock f).det = s.det := (rfl)
@[simp] theorem State.modClock_boot (f : ClockState → ClockState) : (s.modClock f).boot = s.boot := (rfl)
@[simp] theorem State.modClock_fault (f : ClockState → ClockState) : (s.modClock f).fault = s.fault := (rfl)
@[simp] theorem State.modClock_obs (f : ClockState → ClockState) : (s.modClock f).obs = s.obs := (rfl)
@[simp] theorem State.modClock_host (f : ClockState → ClockState) : (s.modClock f).host = s.host := (rfl)
@[simp] theorem State.modClock_power (f : ClockState → ClockState) : (s.modClock f).power = s.power := (rfl)
@[simp] theorem State.modClock_out (f : ClockState → ClockState) : (s.modClock f).out = s.out := (rfl)
@[simp] theorem State.modClock_free (f : ClockState → ClockState) : (s.modClock f).free = s.free := (rfl)
@[simp] theorem State.modClock_pending (f : ClockState → ClockState) : (s.modClock f).pending = s.pending := (rfl)

/-! modCol changes col alone. -/

@[simp] theorem State.modCol_now (f : ColState → ColState) : (s.modCol f).now = s.now := (rfl)
@[simp] theorem State.modCol_ftime (f : ColState → ColState) : (s.modCol f).ftime = s.ftime := (rfl)
@[simp] theorem State.modCol_regs (f : ColState → ColState) : (s.modCol f).regs = s.regs := (rfl)
@[simp] theorem State.modCol_shadow (f : ColState → ColState) : (s.modCol f).shadow = s.shadow := (rfl)
@[simp] theorem State.modCol_heldWrites (f : ColState → ColState) : (s.modCol f).heldWrites = s.heldWrites := (rfl)
@[simp] theorem State.modCol_captured (f : ColState → ColState) : (s.modCol f).captured = s.captured := (rfl)
@[simp] theorem State.modCol_gddr (f : ColState → ColState) : (s.modCol f).gddr = s.gddr := (rfl)
@[simp] theorem State.modCol_gddrGen (f : ColState → ColState) : (s.modCol f).gddrGen = s.gddrGen := (rfl)
@[simp] theorem State.modCol_sram (f : ColState → ColState) : (s.modCol f).sram = s.sram := (rfl)
@[simp] theorem State.modCol_zeroed (f : ColState → ColState) : (s.modCol f).zeroed = s.zeroed := (rfl)
@[simp] theorem State.modCol_pat (f : ColState → ColState) : (s.modCol f).pat = s.pat := (rfl)
@[simp] theorem State.modCol_cores (f : ColState → ColState) : (s.modCol f).cores = s.cores := (rfl)
@[simp] theorem State.modCol_jobs (f : ColState → ColState) : (s.modCol f).jobs = s.jobs := (rfl)
@[simp] theorem State.modCol_slots (f : ColState → ColState) : (s.modCol f).slots = s.slots := (rfl)
@[simp] theorem State.modCol_combines (f : ColState → ColState) : (s.modCol f).combines = s.combines := (rfl)
@[simp] theorem State.modCol_mem (f : ColState → ColState) : (s.modCol f).mem = s.mem := (rfl)
@[simp] theorem State.modCol_ports (f : ColState → ColState) : (s.modCol f).ports = s.ports := (rfl)
@[simp] theorem State.modCol_lanes (f : ColState → ColState) : (s.modCol f).lanes = s.lanes := (rfl)
@[simp] theorem State.modCol_switch (f : ColState → ColState) : (s.modCol f).switch = s.switch := (rfl)
@[simp] theorem State.modCol_det (f : ColState → ColState) : (s.modCol f).det = s.det := (rfl)
@[simp] theorem State.modCol_boot (f : ColState → ColState) : (s.modCol f).boot = s.boot := (rfl)
@[simp] theorem State.modCol_clock (f : ColState → ColState) : (s.modCol f).clock = s.clock := (rfl)
@[simp] theorem State.modCol_fault (f : ColState → ColState) : (s.modCol f).fault = s.fault := (rfl)
@[simp] theorem State.modCol_obs (f : ColState → ColState) : (s.modCol f).obs = s.obs := (rfl)
@[simp] theorem State.modCol_host (f : ColState → ColState) : (s.modCol f).host = s.host := (rfl)
@[simp] theorem State.modCol_power (f : ColState → ColState) : (s.modCol f).power = s.power := (rfl)
@[simp] theorem State.modCol_out (f : ColState → ColState) : (s.modCol f).out = s.out := (rfl)
@[simp] theorem State.modCol_free (f : ColState → ColState) : (s.modCol f).free = s.free := (rfl)
@[simp] theorem State.modCol_pending (f : ColState → ColState) : (s.modCol f).pending = s.pending := (rfl)

/-! modMem changes mem alone. -/

@[simp] theorem State.modMem_now (f : MemState → MemState) : (s.modMem f).now = s.now := (rfl)
@[simp] theorem State.modMem_ftime (f : MemState → MemState) : (s.modMem f).ftime = s.ftime := (rfl)
@[simp] theorem State.modMem_regs (f : MemState → MemState) : (s.modMem f).regs = s.regs := (rfl)
@[simp] theorem State.modMem_shadow (f : MemState → MemState) : (s.modMem f).shadow = s.shadow := (rfl)
@[simp] theorem State.modMem_heldWrites (f : MemState → MemState) : (s.modMem f).heldWrites = s.heldWrites := (rfl)
@[simp] theorem State.modMem_captured (f : MemState → MemState) : (s.modMem f).captured = s.captured := (rfl)
@[simp] theorem State.modMem_gddr (f : MemState → MemState) : (s.modMem f).gddr = s.gddr := (rfl)
@[simp] theorem State.modMem_gddrGen (f : MemState → MemState) : (s.modMem f).gddrGen = s.gddrGen := (rfl)
@[simp] theorem State.modMem_sram (f : MemState → MemState) : (s.modMem f).sram = s.sram := (rfl)
@[simp] theorem State.modMem_zeroed (f : MemState → MemState) : (s.modMem f).zeroed = s.zeroed := (rfl)
@[simp] theorem State.modMem_pat (f : MemState → MemState) : (s.modMem f).pat = s.pat := (rfl)
@[simp] theorem State.modMem_cores (f : MemState → MemState) : (s.modMem f).cores = s.cores := (rfl)
@[simp] theorem State.modMem_jobs (f : MemState → MemState) : (s.modMem f).jobs = s.jobs := (rfl)
@[simp] theorem State.modMem_slots (f : MemState → MemState) : (s.modMem f).slots = s.slots := (rfl)
@[simp] theorem State.modMem_combines (f : MemState → MemState) : (s.modMem f).combines = s.combines := (rfl)
@[simp] theorem State.modMem_ports (f : MemState → MemState) : (s.modMem f).ports = s.ports := (rfl)
@[simp] theorem State.modMem_lanes (f : MemState → MemState) : (s.modMem f).lanes = s.lanes := (rfl)
@[simp] theorem State.modMem_switch (f : MemState → MemState) : (s.modMem f).switch = s.switch := (rfl)
@[simp] theorem State.modMem_col (f : MemState → MemState) : (s.modMem f).col = s.col := (rfl)
@[simp] theorem State.modMem_det (f : MemState → MemState) : (s.modMem f).det = s.det := (rfl)
@[simp] theorem State.modMem_boot (f : MemState → MemState) : (s.modMem f).boot = s.boot := (rfl)
@[simp] theorem State.modMem_clock (f : MemState → MemState) : (s.modMem f).clock = s.clock := (rfl)
@[simp] theorem State.modMem_fault (f : MemState → MemState) : (s.modMem f).fault = s.fault := (rfl)
@[simp] theorem State.modMem_obs (f : MemState → MemState) : (s.modMem f).obs = s.obs := (rfl)
@[simp] theorem State.modMem_host (f : MemState → MemState) : (s.modMem f).host = s.host := (rfl)
@[simp] theorem State.modMem_power (f : MemState → MemState) : (s.modMem f).power = s.power := (rfl)
@[simp] theorem State.modMem_out (f : MemState → MemState) : (s.modMem f).out = s.out := (rfl)
@[simp] theorem State.modMem_free (f : MemState → MemState) : (s.modMem f).free = s.free := (rfl)
@[simp] theorem State.modMem_pending (f : MemState → MemState) : (s.modMem f).pending = s.pending := (rfl)

/-! modHost changes host alone. -/

@[simp] theorem State.modHost_now (f : HostState → HostState) : (s.modHost f).now = s.now := (rfl)
@[simp] theorem State.modHost_ftime (f : HostState → HostState) : (s.modHost f).ftime = s.ftime := (rfl)
@[simp] theorem State.modHost_regs (f : HostState → HostState) : (s.modHost f).regs = s.regs := (rfl)
@[simp] theorem State.modHost_shadow (f : HostState → HostState) : (s.modHost f).shadow = s.shadow := (rfl)
@[simp] theorem State.modHost_heldWrites (f : HostState → HostState) : (s.modHost f).heldWrites = s.heldWrites := (rfl)
@[simp] theorem State.modHost_captured (f : HostState → HostState) : (s.modHost f).captured = s.captured := (rfl)
@[simp] theorem State.modHost_gddr (f : HostState → HostState) : (s.modHost f).gddr = s.gddr := (rfl)
@[simp] theorem State.modHost_gddrGen (f : HostState → HostState) : (s.modHost f).gddrGen = s.gddrGen := (rfl)
@[simp] theorem State.modHost_sram (f : HostState → HostState) : (s.modHost f).sram = s.sram := (rfl)
@[simp] theorem State.modHost_zeroed (f : HostState → HostState) : (s.modHost f).zeroed = s.zeroed := (rfl)
@[simp] theorem State.modHost_pat (f : HostState → HostState) : (s.modHost f).pat = s.pat := (rfl)
@[simp] theorem State.modHost_cores (f : HostState → HostState) : (s.modHost f).cores = s.cores := (rfl)
@[simp] theorem State.modHost_jobs (f : HostState → HostState) : (s.modHost f).jobs = s.jobs := (rfl)
@[simp] theorem State.modHost_slots (f : HostState → HostState) : (s.modHost f).slots = s.slots := (rfl)
@[simp] theorem State.modHost_combines (f : HostState → HostState) : (s.modHost f).combines = s.combines := (rfl)
@[simp] theorem State.modHost_mem (f : HostState → HostState) : (s.modHost f).mem = s.mem := (rfl)
@[simp] theorem State.modHost_ports (f : HostState → HostState) : (s.modHost f).ports = s.ports := (rfl)
@[simp] theorem State.modHost_lanes (f : HostState → HostState) : (s.modHost f).lanes = s.lanes := (rfl)
@[simp] theorem State.modHost_switch (f : HostState → HostState) : (s.modHost f).switch = s.switch := (rfl)
@[simp] theorem State.modHost_col (f : HostState → HostState) : (s.modHost f).col = s.col := (rfl)
@[simp] theorem State.modHost_det (f : HostState → HostState) : (s.modHost f).det = s.det := (rfl)
@[simp] theorem State.modHost_boot (f : HostState → HostState) : (s.modHost f).boot = s.boot := (rfl)
@[simp] theorem State.modHost_clock (f : HostState → HostState) : (s.modHost f).clock = s.clock := (rfl)
@[simp] theorem State.modHost_fault (f : HostState → HostState) : (s.modHost f).fault = s.fault := (rfl)
@[simp] theorem State.modHost_obs (f : HostState → HostState) : (s.modHost f).obs = s.obs := (rfl)
@[simp] theorem State.modHost_power (f : HostState → HostState) : (s.modHost f).power = s.power := (rfl)
@[simp] theorem State.modHost_out (f : HostState → HostState) : (s.modHost f).out = s.out := (rfl)
@[simp] theorem State.modHost_free (f : HostState → HostState) : (s.modHost f).free = s.free := (rfl)
@[simp] theorem State.modHost_pending (f : HostState → HostState) : (s.modHost f).pending = s.pending := (rfl)

/-! sw changes switch alone. -/

@[simp] theorem State.sw_now (f : SwitchState → SwitchState) : (s.sw f).now = s.now := (rfl)
@[simp] theorem State.sw_ftime (f : SwitchState → SwitchState) : (s.sw f).ftime = s.ftime := (rfl)
@[simp] theorem State.sw_regs (f : SwitchState → SwitchState) : (s.sw f).regs = s.regs := (rfl)
@[simp] theorem State.sw_shadow (f : SwitchState → SwitchState) : (s.sw f).shadow = s.shadow := (rfl)
@[simp] theorem State.sw_heldWrites (f : SwitchState → SwitchState) : (s.sw f).heldWrites = s.heldWrites := (rfl)
@[simp] theorem State.sw_captured (f : SwitchState → SwitchState) : (s.sw f).captured = s.captured := (rfl)
@[simp] theorem State.sw_gddr (f : SwitchState → SwitchState) : (s.sw f).gddr = s.gddr := (rfl)
@[simp] theorem State.sw_gddrGen (f : SwitchState → SwitchState) : (s.sw f).gddrGen = s.gddrGen := (rfl)
@[simp] theorem State.sw_sram (f : SwitchState → SwitchState) : (s.sw f).sram = s.sram := (rfl)
@[simp] theorem State.sw_zeroed (f : SwitchState → SwitchState) : (s.sw f).zeroed = s.zeroed := (rfl)
@[simp] theorem State.sw_pat (f : SwitchState → SwitchState) : (s.sw f).pat = s.pat := (rfl)
@[simp] theorem State.sw_cores (f : SwitchState → SwitchState) : (s.sw f).cores = s.cores := (rfl)
@[simp] theorem State.sw_jobs (f : SwitchState → SwitchState) : (s.sw f).jobs = s.jobs := (rfl)
@[simp] theorem State.sw_slots (f : SwitchState → SwitchState) : (s.sw f).slots = s.slots := (rfl)
@[simp] theorem State.sw_combines (f : SwitchState → SwitchState) : (s.sw f).combines = s.combines := (rfl)
@[simp] theorem State.sw_mem (f : SwitchState → SwitchState) : (s.sw f).mem = s.mem := (rfl)
@[simp] theorem State.sw_ports (f : SwitchState → SwitchState) : (s.sw f).ports = s.ports := (rfl)
@[simp] theorem State.sw_lanes (f : SwitchState → SwitchState) : (s.sw f).lanes = s.lanes := (rfl)
@[simp] theorem State.sw_col (f : SwitchState → SwitchState) : (s.sw f).col = s.col := (rfl)
@[simp] theorem State.sw_det (f : SwitchState → SwitchState) : (s.sw f).det = s.det := (rfl)
@[simp] theorem State.sw_boot (f : SwitchState → SwitchState) : (s.sw f).boot = s.boot := (rfl)
@[simp] theorem State.sw_clock (f : SwitchState → SwitchState) : (s.sw f).clock = s.clock := (rfl)
@[simp] theorem State.sw_fault (f : SwitchState → SwitchState) : (s.sw f).fault = s.fault := (rfl)
@[simp] theorem State.sw_obs (f : SwitchState → SwitchState) : (s.sw f).obs = s.obs := (rfl)
@[simp] theorem State.sw_host (f : SwitchState → SwitchState) : (s.sw f).host = s.host := (rfl)
@[simp] theorem State.sw_power (f : SwitchState → SwitchState) : (s.sw f).power = s.power := (rfl)
@[simp] theorem State.sw_out (f : SwitchState → SwitchState) : (s.sw f).out = s.out := (rfl)
@[simp] theorem State.sw_free (f : SwitchState → SwitchState) : (s.sw f).free = s.free := (rfl)
@[simp] theorem State.sw_pending (f : SwitchState → SwitchState) : (s.sw f).pending = s.pending := (rfl)

/-! busy changes obs alone. -/

@[simp] theorem State.busy_now (k n : Nat) : (s.busy k n).now = s.now := (rfl)
@[simp] theorem State.busy_ftime (k n : Nat) : (s.busy k n).ftime = s.ftime := (rfl)
@[simp] theorem State.busy_regs (k n : Nat) : (s.busy k n).regs = s.regs := (rfl)
@[simp] theorem State.busy_shadow (k n : Nat) : (s.busy k n).shadow = s.shadow := (rfl)
@[simp] theorem State.busy_heldWrites (k n : Nat) : (s.busy k n).heldWrites = s.heldWrites := (rfl)
@[simp] theorem State.busy_captured (k n : Nat) : (s.busy k n).captured = s.captured := (rfl)
@[simp] theorem State.busy_gddr (k n : Nat) : (s.busy k n).gddr = s.gddr := (rfl)
@[simp] theorem State.busy_gddrGen (k n : Nat) : (s.busy k n).gddrGen = s.gddrGen := (rfl)
@[simp] theorem State.busy_sram (k n : Nat) : (s.busy k n).sram = s.sram := (rfl)
@[simp] theorem State.busy_zeroed (k n : Nat) : (s.busy k n).zeroed = s.zeroed := (rfl)
@[simp] theorem State.busy_pat (k n : Nat) : (s.busy k n).pat = s.pat := (rfl)
@[simp] theorem State.busy_cores (k n : Nat) : (s.busy k n).cores = s.cores := (rfl)
@[simp] theorem State.busy_jobs (k n : Nat) : (s.busy k n).jobs = s.jobs := (rfl)
@[simp] theorem State.busy_slots (k n : Nat) : (s.busy k n).slots = s.slots := (rfl)
@[simp] theorem State.busy_combines (k n : Nat) : (s.busy k n).combines = s.combines := (rfl)
@[simp] theorem State.busy_mem (k n : Nat) : (s.busy k n).mem = s.mem := (rfl)
@[simp] theorem State.busy_ports (k n : Nat) : (s.busy k n).ports = s.ports := (rfl)
@[simp] theorem State.busy_lanes (k n : Nat) : (s.busy k n).lanes = s.lanes := (rfl)
@[simp] theorem State.busy_switch (k n : Nat) : (s.busy k n).switch = s.switch := (rfl)
@[simp] theorem State.busy_col (k n : Nat) : (s.busy k n).col = s.col := (rfl)
@[simp] theorem State.busy_det (k n : Nat) : (s.busy k n).det = s.det := (rfl)
@[simp] theorem State.busy_boot (k n : Nat) : (s.busy k n).boot = s.boot := (rfl)
@[simp] theorem State.busy_clock (k n : Nat) : (s.busy k n).clock = s.clock := (rfl)
@[simp] theorem State.busy_fault (k n : Nat) : (s.busy k n).fault = s.fault := (rfl)
@[simp] theorem State.busy_host (k n : Nat) : (s.busy k n).host = s.host := (rfl)
@[simp] theorem State.busy_power (k n : Nat) : (s.busy k n).power = s.power := (rfl)
@[simp] theorem State.busy_out (k n : Nat) : (s.busy k n).out = s.out := (rfl)
@[simp] theorem State.busy_free (k n : Nat) : (s.busy k n).free = s.free := (rfl)
@[simp] theorem State.busy_pending (k n : Nat) : (s.busy k n).pending = s.pending := (rfl)

/-! gddrWrite changes gddr alone. -/

@[simp] theorem State.gddrWrite_now (a : Nat) (bs : List Byte) : (s.gddrWrite a bs).now = s.now := (rfl)
@[simp] theorem State.gddrWrite_ftime (a : Nat) (bs : List Byte) : (s.gddrWrite a bs).ftime = s.ftime := (rfl)
@[simp] theorem State.gddrWrite_regs (a : Nat) (bs : List Byte) : (s.gddrWrite a bs).regs = s.regs := (rfl)
@[simp] theorem State.gddrWrite_shadow (a : Nat) (bs : List Byte) : (s.gddrWrite a bs).shadow = s.shadow := (rfl)
@[simp] theorem State.gddrWrite_heldWrites (a : Nat) (bs : List Byte) : (s.gddrWrite a bs).heldWrites = s.heldWrites := (rfl)
@[simp] theorem State.gddrWrite_captured (a : Nat) (bs : List Byte) : (s.gddrWrite a bs).captured = s.captured := (rfl)
@[simp] theorem State.gddrWrite_gddrGen (a : Nat) (bs : List Byte) : (s.gddrWrite a bs).gddrGen = s.gddrGen := (rfl)
@[simp] theorem State.gddrWrite_sram (a : Nat) (bs : List Byte) : (s.gddrWrite a bs).sram = s.sram := (rfl)
@[simp] theorem State.gddrWrite_zeroed (a : Nat) (bs : List Byte) : (s.gddrWrite a bs).zeroed = s.zeroed := (rfl)
@[simp] theorem State.gddrWrite_pat (a : Nat) (bs : List Byte) : (s.gddrWrite a bs).pat = s.pat := (rfl)
@[simp] theorem State.gddrWrite_cores (a : Nat) (bs : List Byte) : (s.gddrWrite a bs).cores = s.cores := (rfl)
@[simp] theorem State.gddrWrite_jobs (a : Nat) (bs : List Byte) : (s.gddrWrite a bs).jobs = s.jobs := (rfl)
@[simp] theorem State.gddrWrite_slots (a : Nat) (bs : List Byte) : (s.gddrWrite a bs).slots = s.slots := (rfl)
@[simp] theorem State.gddrWrite_combines (a : Nat) (bs : List Byte) : (s.gddrWrite a bs).combines = s.combines := (rfl)
@[simp] theorem State.gddrWrite_mem (a : Nat) (bs : List Byte) : (s.gddrWrite a bs).mem = s.mem := (rfl)
@[simp] theorem State.gddrWrite_ports (a : Nat) (bs : List Byte) : (s.gddrWrite a bs).ports = s.ports := (rfl)
@[simp] theorem State.gddrWrite_lanes (a : Nat) (bs : List Byte) : (s.gddrWrite a bs).lanes = s.lanes := (rfl)
@[simp] theorem State.gddrWrite_switch (a : Nat) (bs : List Byte) : (s.gddrWrite a bs).switch = s.switch := (rfl)
@[simp] theorem State.gddrWrite_col (a : Nat) (bs : List Byte) : (s.gddrWrite a bs).col = s.col := (rfl)
@[simp] theorem State.gddrWrite_det (a : Nat) (bs : List Byte) : (s.gddrWrite a bs).det = s.det := (rfl)
@[simp] theorem State.gddrWrite_boot (a : Nat) (bs : List Byte) : (s.gddrWrite a bs).boot = s.boot := (rfl)
@[simp] theorem State.gddrWrite_clock (a : Nat) (bs : List Byte) : (s.gddrWrite a bs).clock = s.clock := (rfl)
@[simp] theorem State.gddrWrite_fault (a : Nat) (bs : List Byte) : (s.gddrWrite a bs).fault = s.fault := (rfl)
@[simp] theorem State.gddrWrite_obs (a : Nat) (bs : List Byte) : (s.gddrWrite a bs).obs = s.obs := (rfl)
@[simp] theorem State.gddrWrite_host (a : Nat) (bs : List Byte) : (s.gddrWrite a bs).host = s.host := (rfl)
@[simp] theorem State.gddrWrite_power (a : Nat) (bs : List Byte) : (s.gddrWrite a bs).power = s.power := (rfl)
@[simp] theorem State.gddrWrite_out (a : Nat) (bs : List Byte) : (s.gddrWrite a bs).out = s.out := (rfl)
@[simp] theorem State.gddrWrite_free (a : Nat) (bs : List Byte) : (s.gddrWrite a bs).free = s.free := (rfl)
@[simp] theorem State.gddrWrite_pending (a : Nat) (bs : List Byte) : (s.gddrWrite a bs).pending = s.pending := (rfl)

end Sys2Proof.Machine
end

