-- ==== Sys2Proof/Laws/Tbl.lean ====
section
/-! SUPPORT. Sparse tables: what reads after an insertion, a removal or a write, in any list; and that each keeps the canonical form. -/

namespace Sys2Proof.Machine

set_option Elab.async false

variable {α : Type}

@[simp] theorem Tbl.find_nil (i : Nat) : Tbl.find ([] : Tbl α) i = none := rfl

theorem Tbl.find_cons (k : Nat) (v : α) (t : Tbl α) (i : Nat) :
    Tbl.find ((k, v) :: t) i = if i = k then some v else Tbl.find t i := rfl

@[simp] theorem Tbl.find_insert_same (t : Tbl α) (i : Nat) (x : α) : Tbl.find (Tbl.insert t i x) i = some x := by
  induction t with
  | nil => simp [Tbl.insert, Tbl.find]
  | cons p t ih =>
    obtain ⟨k, v⟩ := p
    simp only [Tbl.insert]
    split
    · simp [Tbl.find]
    · split
      · simp [Tbl.find]
      · simp [Tbl.find, *]

theorem Tbl.find_insert_ne (t : Tbl α) (i j : Nat) (x : α) (h : j ≠ i) : Tbl.find (Tbl.insert t i x) j = Tbl.find t j := by
  induction t with
  | nil => simp [Tbl.insert, Tbl.find, h]
  | cons p t ih =>
    obtain ⟨k, v⟩ := p
    simp only [Tbl.insert]
    split
    · rename_i e; subst e; simp [Tbl.find, h]
    · split
      · simp [Tbl.find, h]
      · simp only [Tbl.find]; split <;> simp [ih]

@[simp] theorem Tbl.find_drop_same (t : Tbl α) (i : Nat) : Tbl.find (Tbl.drop t i) i = none := by
  induction t with
  | nil => rfl
  | cons p t ih =>
    obtain ⟨k, v⟩ := p
    simp only [Tbl.drop]
    split
    · exact ih
    · simp [Tbl.find, *]

theorem Tbl.find_drop_ne (t : Tbl α) (i j : Nat) (h : j ≠ i) : Tbl.find (Tbl.drop t i) j = Tbl.find t j := by
  induction t with
  | nil => rfl
  | cons p t ih =>
    obtain ⟨k, v⟩ := p
    simp only [Tbl.drop]
    split
    · rename_i e; subst e; simp [Tbl.find, h, ih]
    · simp only [Tbl.find]; split <;> simp [ih]

@[simp] theorem Tbl.read_write_same [DecidableEq α] (t : Tbl α) (d : α) (i : Nat) (x : α) :
    Tbl.read (Tbl.write t d i x) d i = x := by
  unfold Tbl.read Tbl.write
  split
  · simp_all
  · simp

theorem Tbl.read_write_ne [DecidableEq α] (t : Tbl α) (d e : α) (i j : Nat) (x : α) (h : j ≠ i) :
    Tbl.read (Tbl.write t d i x) e j = Tbl.read t e j := by
  unfold Tbl.read Tbl.write
  split
  · rw [Tbl.find_drop_ne _ _ _ h]
  · rw [Tbl.find_insert_ne _ _ _ _ h]

/-! The canonical form -/

/-- The keys of a table lie above a bound and rise strictly. -/
theorem Tbl.risesFrom_insert (t : Tbl α) (b : Option Nat) (i : Nat) (x : α) (h : Tbl.risesFrom b t = true)
    (hb : ∀ k, b = some k → k < i) : Tbl.risesFrom b (Tbl.insert t i x) = true := by
  induction t generalizing b with
  | nil => cases b <;> simp_all [Tbl.insert, Tbl.risesFrom]
  | cons p t ih =>
    obtain ⟨k, v⟩ := p
    simp only [Tbl.insert]
    split
    · rename_i e; subst e
      cases b <;> simp_all [Tbl.risesFrom]
    · split
      · cases b <;> simp_all [Tbl.risesFrom]
      · have hk : k < i := by omega
        cases b with
        | none =>
          simp only [Tbl.risesFrom] at h ⊢
          exact ih _ h (by simpa using hk)
        | some c =>
          simp only [Tbl.risesFrom, Bool.and_eq_true] at h ⊢
          exact ⟨h.1, ih _ h.2 (by simpa using hk)⟩

theorem Tbl.risesFrom_weaken (t : Tbl α) (b c : Nat) (h : Tbl.risesFrom (some c) t = true) (hb : b ≤ c) :
    Tbl.risesFrom (some b) t = true := by
  cases t with
  | nil => rfl
  | cons p t =>
    obtain ⟨k, v⟩ := p
    simp only [Tbl.risesFrom, Bool.and_eq_true, decide_eq_true_eq] at h ⊢
    exact ⟨by omega, h.2⟩

theorem Tbl.risesFrom_none (t : Tbl α) (c : Nat) (h : Tbl.risesFrom (some c) t = true) : Tbl.risesFrom none t = true := by
  cases t with
  | nil => rfl
  | cons p t =>
    obtain ⟨k, v⟩ := p
    simp only [Tbl.risesFrom, Bool.and_eq_true] at h ⊢
    exact h.2

theorem Tbl.risesFrom_filter (t : Tbl α) (b : Option Nat) (f : Nat × α → Bool) (h : Tbl.risesFrom b t = true) :
    Tbl.risesFrom b (t.filter f) = true := by
  induction t generalizing b with
  | nil => exact h
  | cons p t ih =>
    obtain ⟨k, v⟩ := p
    have hs : Tbl.risesFrom (some k) t = true := by
      cases b <;> simp_all [Tbl.risesFrom]
    simp only [List.filter]
    split
    · cases b <;> simp_all [Tbl.risesFrom]
    · have := ih _ hs
      cases b with
      | none => exact Tbl.risesFrom_none _ _ this
      | some c =>
        have hc : c < k := by simp_all [Tbl.risesFrom]
        exact Tbl.risesFrom_weaken _ _ _ this (by omega)

theorem Tbl.drop_eq_filter (t : Tbl α) (i : Nat) : Tbl.drop t i = t.filter (fun p => decide (i ≠ p.1)) := by
  induction t with
  | nil => rfl
  | cons p t ih =>
    obtain ⟨k, v⟩ := p
    simp only [Tbl.drop, List.filter]
    split <;> simp_all

theorem Tbl.risesFrom_drop (t : Tbl α) (b : Option Nat) (i : Nat) (h : Tbl.risesFrom b t = true) :
    Tbl.risesFrom b (Tbl.drop t i) = true := by
  rw [Tbl.drop_eq_filter]; exact Tbl.risesFrom_filter _ _ _ h

theorem Tbl.mem_insert (t : Tbl α) (i : Nat) (x : α) (p : Nat × α) (h : p ∈ Tbl.insert t i x) : p = (i, x) ∨ p ∈ t := by
  induction t with
  | nil => simpa [Tbl.insert] using h
  | cons q t ih =>
    obtain ⟨k, v⟩ := q
    simp only [Tbl.insert] at h
    split at h
    · simp_all only [List.mem_cons]; rcases h with h | h <;> simp_all
    · split at h
      · simpa using h
      · simp only [List.mem_cons] at h ⊢
        rcases h with h | h
        · exact .inr (.inl h)
        · rcases ih h with h | h
          · exact .inl h
          · exact .inr (.inr h)

theorem Tbl.mem_drop (t : Tbl α) (i : Nat) (p : Nat × α) (h : p ∈ Tbl.drop t i) : p ∈ t ∧ p.1 ≠ i := by
  rw [Tbl.drop_eq_filter] at h
  simp at h
  exact ⟨h.1, fun e => h.2 e.symm⟩

/-- A write keeps the canonical form. -/
theorem Tbl.canonical_write [DecidableEq α] (t : Tbl α) (d : α) (i : Nat) (x : α) (h : Tbl.canonical t d = true) :
    Tbl.canonical (Tbl.write t d i x) d = true := by
  simp only [Tbl.canonical, Bool.and_eq_true, List.all_eq_true, decide_eq_true_eq] at h ⊢
  unfold Tbl.write
  split
  · exact ⟨Tbl.risesFrom_drop _ _ _ h.1, fun p hp => h.2 p (Tbl.mem_drop _ _ _ hp).1⟩
  · rename_i hx
    refine ⟨Tbl.risesFrom_insert _ _ _ _ h.1 (by simp), fun p hp => ?_⟩
    rcases Tbl.mem_insert _ _ _ _ hp with e | e
    · simpa [e] using hx
    · exact h.2 p e

end Sys2Proof.Machine
end

