-- ==== Sys2Proof/Laws/Regs.lean ====
section
/-! SUPPORT. Registers and their fields: what reads after a write of the same register or field, of another register, and of another field of the
same register. -/

namespace Sys2Proof.Machine

set_option Elab.async false

/-! Bits -/

theorem bits_lt (x lo width : Nat) : bits x lo width < 2 ^ width := Nat.mod_lt _ (Nat.two_pow_pos _)

theorem putBits_eq (x lo width v : Nat) :
    putBits x lo width v = x % 2 ^ lo + 2 ^ lo * (v % 2 ^ width + 2 ^ width * (x / 2 ^ (lo + width))) := by
  unfold putBits
  rw [Nat.mul_add, Nat.mul_comm (2 ^ lo), ← Nat.mul_assoc, ← Nat.pow_add, Nat.mul_comm (2 ^ (lo + width))]
  omega

/-- The field just put. -/
theorem bits_putBits_same (x lo width v : Nat) : bits (putBits x lo width v) lo width = v % 2 ^ width := by
  rw [putBits_eq]
  unfold bits
  rw [Nat.add_mul_div_left _ _ (Nat.two_pow_pos lo), Nat.div_eq_of_lt (Nat.mod_lt _ (Nat.two_pow_pos lo)), Nat.zero_add,
    Nat.add_mul_mod_self_left, Nat.mod_mod]

/-- A field below the one put. -/
theorem bits_putBits_below (x lo width v l w : Nat) (h : l + w ≤ lo) : bits (putBits x lo width v) l w = bits x l w := by
  rw [putBits_eq]
  unfold bits
  obtain ⟨k, rfl⟩ : ∃ k, lo = l + w + k := ⟨lo - (l + w), by omega⟩
  generalize v % 2 ^ width + 2 ^ width * (x / 2 ^ (l + w + k + width)) = y
  have e1 : (x % 2 ^ (l + w + k) + 2 ^ (l + w + k) * y) / 2 ^ l % 2 ^ w = (x % 2 ^ (l + w + k)) / 2 ^ l % 2 ^ w := by
    rw [show 2 ^ (l + w + k) * y = 2 ^ l * (2 ^ w * (2 ^ k * y)) by
      rw [← Nat.mul_assoc, ← Nat.mul_assoc, ← Nat.pow_add, ← Nat.pow_add]]
    rw [Nat.add_mul_div_left _ _ (Nat.two_pow_pos l), Nat.add_mul_mod_self_left]
  rw [e1]
  have e2 : x = 2 ^ l * (2 ^ w * (2 ^ k * (x / 2 ^ (l + w + k)))) + x % 2 ^ (l + w + k) := by
    rw [← Nat.mul_assoc, ← Nat.mul_assoc, ← Nat.pow_add, ← Nat.pow_add]
    exact (Nat.div_add_mod _ _).symm
  conv => rhs; rw [e2]
  rw [Nat.mul_add_div (Nat.two_pow_pos l), Nat.mul_add_mod]

/-- A field above the one put. -/
theorem bits_putBits_above (x lo width v l w : Nat) (h : lo + width ≤ l) : bits (putBits x lo width v) l w = bits x l w := by
  unfold bits
  congr 1
  obtain ⟨k, rfl⟩ : ∃ k, l = lo + width + k := ⟨l - (lo + width), by omega⟩
  rw [Nat.pow_add 2 (lo + width) k, ← Nat.div_div_eq_div_mul, ← Nat.div_div_eq_div_mul]
  congr 1
  unfold putBits
  have h1 : x % 2 ^ lo + v % 2 ^ width * 2 ^ lo < 2 ^ (lo + width) := by
    have a := Nat.mod_lt x (Nat.two_pow_pos lo)
    have b := Nat.mod_lt v (Nat.two_pow_pos width)
    have c : (v % 2 ^ width + 1) * 2 ^ lo ≤ 2 ^ width * 2 ^ lo := Nat.mul_le_mul_right _ b
    rw [Nat.pow_add, Nat.mul_comm (2 ^ lo)]
    rw [Nat.add_mul] at c
    omega
  rw [Nat.add_mul_div_right _ _ (Nat.two_pow_pos _), Nat.div_eq_of_lt h1, Nat.zero_add]

theorem putBits_lt (x lo width v n : Nat) (hx : x < 2 ^ n) (h : lo + width ≤ n) : putBits x lo width v < 2 ^ n := by
  obtain ⟨k, rfl⟩ : ∃ k, n = lo + width + k := ⟨n - (lo + width), by omega⟩
  rw [putBits_eq]
  have a := Nat.mod_lt x (Nat.two_pow_pos lo)
  have b := Nat.mod_lt v (Nat.two_pow_pos width)
  have c : x / 2 ^ (lo + width) < 2 ^ k := by
    rw [Nat.div_lt_iff_lt_mul (Nat.two_pow_pos _), ← Nat.pow_add, Nat.add_comm k]
    exact hx
  have d : v % 2 ^ width + 2 ^ width * (x / 2 ^ (lo + width)) < 2 ^ (width + k) := by
    have : 2 ^ width * (x / 2 ^ (lo + width) + 1) ≤ 2 ^ width * 2 ^ k := Nat.mul_le_mul_left _ c
    rw [Nat.mul_add] at this
    rw [Nat.pow_add 2 width k]
    rw [Nat.mul_one] at this
    generalize 2 ^ width * (x / 2 ^ (lo + width)) = z at *
    generalize 2 ^ width * 2 ^ k = u at *
    omega
  have e : 2 ^ lo * (v % 2 ^ width + 2 ^ width * (x / 2 ^ (lo + width)) + 1) ≤ 2 ^ lo * 2 ^ (width + k) := Nat.mul_le_mul_left _ d
  have g : 2 ^ (lo + width + k) = 2 ^ lo * 2 ^ (width + k) := by rw [← Nat.pow_add, Nat.add_assoc]
  rw [Nat.mul_add, Nat.mul_one] at e
  rw [g]
  generalize 2 ^ lo * (v % 2 ^ width + 2 ^ width * (x / 2 ^ (lo + width))) = z at *
  generalize 2 ^ lo * 2 ^ (width + k) = u at *
  omega

/-! Registers -/

theorem State.getR_lt (s : State) (r : Reg) : s.getR r < 2 ^ 32 := (Tbl.read s.regs (BitVec.ofNat 32 r.reset) r.off).isLt

@[simp] theorem State.getR_setR_same (s : State) (r : Reg) (v : Nat) : (s.setR r v).getR r = v % 2 ^ 32 := by
  simp [State.getR, State.setR]

theorem State.getR_setR_ne (s : State) (r q : Reg) (v : Nat) (h : q.off ≠ r.off) : (s.setR r v).getR q = s.getR q := by
  simp [State.getR, State.setR, Tbl.read_write_ne _ _ _ _ _ _ h]

/-- A field just written. -/
theorem State.get_set_same (s : State) (f : Fld) (v : Nat) (h : f.lo + f.width ≤ 32) : (s.set f v).get f = v % 2 ^ f.width := by
  unfold State.get State.set
  rw [State.getR_setR_same, Nat.mod_eq_of_lt (putBits_lt _ _ _ _ 32 (State.getR_lt _ _) h), bits_putBits_same]

/-- A field of another register. -/
theorem State.get_set_ne (s : State) (f g : Fld) (v : Nat) (h : g.reg.off ≠ f.reg.off) : (s.set f v).get g = s.get g := by
  unfold State.get State.set
  rw [State.getR_setR_ne _ _ _ _ h]

/-- Another field of the same register. -/
theorem State.get_set_apart (s : State) (f g : Fld) (v : Nat) (hr : g.reg = f.reg) (hf : f.lo + f.width ≤ 32)
    (h : g.lo + g.width ≤ f.lo ∨ f.lo + f.width ≤ g.lo) : (s.set f v).get g = s.get g := by
  unfold State.get State.set
  rw [hr, State.getR_setR_same, Nat.mod_eq_of_lt (putBits_lt _ _ _ _ 32 (State.getR_lt _ _) hf)]
  rcases h with h | h
  · exact bits_putBits_below _ _ _ _ _ _ h
  · exact bits_putBits_above _ _ _ _ _ _ h

theorem State.flag_set_same (s : State) (f : Fld) (v : Nat) (h : f.lo + f.width ≤ 32) : (s.set f v).flag f = (v % 2 ^ f.width != 0) := by
  unfold State.flag; rw [State.get_set_same _ _ _ h]

theorem State.flag_set_ne (s : State) (f g : Fld) (v : Nat) (h : g.reg.off ≠ f.reg.off) : (s.set f v).flag g = s.flag g := by
  unfold State.flag; rw [State.get_set_ne _ _ _ _ h]

theorem State.flag_setR_ne (s : State) (r : Reg) (g : Fld) (v : Nat) (h : g.reg.off ≠ r.off) : (s.setR r v).flag g = s.flag g := by
  unfold State.flag State.get; rw [State.getR_setR_ne _ _ _ _ h]

theorem State.get_setR_ne (s : State) (r : Reg) (g : Fld) (v : Nat) (h : g.reg.off ≠ r.off) : (s.setR r v).get g = s.get g := by
  unfold State.get; rw [State.getR_setR_ne _ _ _ _ h]

theorem State.getR_set_ne (s : State) (f : Fld) (q : Reg) (v : Nat) (h : q.off ≠ f.reg.off) : (s.set f v).getR q = s.getR q :=
  State.getR_setR_ne _ _ _ _ h

/-- Registers are read from the register list alone. -/
theorem State.getR_congr (s t : State) (r : Reg) (h : t.regs = s.regs) : t.getR r = s.getR r := by simp [State.getR, h]

theorem State.get_congr (s t : State) (f : Fld) (h : t.regs = s.regs) : t.get f = s.get f := by simp [State.get, State.getR_congr s t _ h]

theorem State.flag_congr (s t : State) (f : Fld) (h : t.regs = s.regs) : t.flag f = s.flag f := by simp [State.flag, State.get_congr s t _ h]

/-! Changes of registers alone -/

/-- A change of the registers that depends on the registers alone. -/
def RegFn (f : State → State) : Prop := ∃ g : Tbl Word → Tbl Word, ∀ u, f u = { u with regs := g u.regs }

theorem RegFn.id : RegFn fun s => s := ⟨fun r => r, fun _ => rfl⟩

theorem RegFn.comp {f h : State → State} (hf : RegFn f) (hh : RegFn h) : RegFn fun s => h (f s) := by
  obtain ⟨g, hg⟩ := hf
  obtain ⟨k, hk⟩ := hh
  exact ⟨fun r => k (g r), fun u => (hk (f u)).trans (by rw [hg u])⟩

theorem RegFn.setR (r : Reg) (v : Nat) : RegFn fun s => s.setR r v :=
  ⟨fun t => Tbl.write t (BitVec.ofNat 32 r.reset) r.off (BitVec.ofNat 32 v), fun _ => rfl⟩

/-- A change of one register that depends on that register alone. -/
theorem RegFn.modR (r : Reg) (f : Nat → Nat) : RegFn fun s => s.setR r (f (s.getR r)) :=
  ⟨fun t => Tbl.write t (BitVec.ofNat 32 r.reset) r.off (BitVec.ofNat 32 (f (Tbl.read t (BitVec.ofNat 32 r.reset) r.off).toNat)), fun _ => rfl⟩

theorem RegFn.set (f : Fld) (v : Nat) : RegFn fun s => s.set f v := RegFn.modR f.reg fun x => putBits x f.lo f.width v

theorem RegFn.count (f : Fld) (n : Nat) : RegFn fun s => s.count f n :=
  RegFn.modR f.reg fun x => putBits x f.lo f.width (satAdd f.width (bits x f.lo f.width) n)

theorem RegFn.stickFlags (L : Nat) (f : Flags) : RegFn fun s => s.stickFlags L f := RegFn.modR (CORE_EXC L) fun x => x ||| f.toBits

theorem RegFn.ite {f h : State → State} (c : Fld) (hf : RegFn f) (hh : RegFn h) : RegFn fun s => if s.flag c then f s else h s := by
  obtain ⟨g, hg⟩ := hf
  obtain ⟨k, hk⟩ := hh
  refine ⟨fun r => if (bits (Tbl.read r (BitVec.ofNat 32 c.reg.reset) c.reg.off).toNat c.lo c.width != 0) then g r else k r, fun u => ?_⟩
  have e : (bits (Tbl.read u.regs (BitVec.ofNat 32 c.reg.reset) c.reg.off).toNat c.lo c.width != 0) = u.flag c := rfl
  simp only [e]
  cases u.flag c <;> simp [hg, hk]

/-! Cores, ports, lanes -/

@[simp] theorem State.core_setCore_same (s : State) (L : Nat) (c : Core) : (s.setCore L c).core L = c := by simp [State.core, State.setCore]

theorem State.core_setCore_ne (s : State) (L M : Nat) (c : Core) (h : M ≠ L) : (s.setCore L c).core M = s.core M := by
  simp [State.core, State.setCore, Tbl.read_write_ne _ _ _ _ _ _ h]

@[simp] theorem State.core_modCore_same (s : State) (L : Nat) (f : Core → Core) : (s.modCore L f).core L = f (s.core L) := by
  simp [State.modCore]

theorem State.core_modCore_ne (s : State) (L M : Nat) (f : Core → Core) (h : M ≠ L) : (s.modCore L f).core M = s.core M :=
  State.core_setCore_ne _ _ _ _ h

theorem State.core_congr (s t : State) (L : Nat) (h : t.cores = s.cores) : t.core L = s.core L := by simp [State.core, h]

@[simp] theorem State.port_modPort_same (s : State) (p : Nat) (f : Port → Port) : (s.modPort p f).port p = f (s.port p) := by
  simp [State.port, State.modPort, State.setPort]

@[simp] theorem State.lane_modLane_same (s : State) (l : Nat) (f : Lane → Lane) : (s.modLane l f).lane l = f (s.lane l) := by
  simp [State.lane, State.modLane]

/-! General registers and predicates (R57) -/

@[simp] theorem Core.gval_zero (c : Core) : c.gval 0 = 0 := rfl

/-- A write of a general register: G0 discards it. -/
theorem Core.gval_setG (c : Core) (r v q : Nat) : (c.setG r v).gval q = if q = r ∧ r ≠ 0 then v % 2 ^ 64 else c.gval q := by
  unfold Core.gval Core.setG
  by_cases hr : r = 0
  · simp [hr]
  · by_cases hq : q = r
    · subst hq; simp [hr]
    · simp only [hr, if_false, hq, false_and]
      rw [Tbl.read_write_ne _ _ _ _ _ _ hq]

theorem bit_putBits_ne (x i j v : Nat) (h : j ≠ i) : bit (putBits x i 1 v) j = bit x j := by
  have : bits (putBits x i 1 v) j 1 = bits x j 1 := by
    rcases Nat.lt_or_gt_of_ne h with h | h
    · exact bits_putBits_below _ _ _ _ _ _ (by omega)
    · exact bits_putBits_above _ _ _ _ _ _ (by omega)
  simpa [bits, bit] using congrArg (· == 1) this

theorem bit_putBits_same (x i v : Nat) : bit (putBits x i 1 v) i = (v % 2 == 1) := by
  have := bits_putBits_same x i 1 v
  simpa [bits, bit] using congrArg (· == 1) this

/-- A write of a predicate register: P0 discards it. -/
theorem Core.pval_setP (c : Core) (i : Nat) (b : Bool) (j : Nat) :
    (c.setP i b).pval j = if j = i ∧ i ≠ 0 then b else c.pval j := by
  unfold Core.pval Core.setP
  by_cases hi : i = 0
  · simp [hi]
  · by_cases hj : j = i
    · subst hj; cases b <;> simp [hi, bit_putBits_same, b2n]
    · simp [hi, hj, bit_putBits_ne _ _ _ _ hj]

/-! Clearing a tile -/

theorem Core.clearTile_eq (c : Core) (i : Nat) : ∃ a, c.clearTile i = { c with acc := a } := by
  unfold Core.clearTile
  generalize zeros 4096 = z
  exact ⟨Tbl.write c.acc _ i z, rfl⟩

@[simp] theorem Core.clearTile_ops (c : Core) (i : Nat) : (c.clearTile i).ops = c.ops := by
  obtain ⟨a, h⟩ := c.clearTile_eq i
  rw [h]

@[simp] theorem Core.clearTile_wait (c : Core) (i : Nat) : (c.clearTile i).wait = c.wait := by
  obtain ⟨a, h⟩ := c.clearTile_eq i
  rw [h]

@[simp] theorem Core.tile_clearTile (c : Core) (i : Nat) : (c.clearTile i).tile i = zeros 4096 := by
  unfold Core.clearTile Core.tile Core.setTile
  rw [Tbl.read_write_same]

end Sys2Proof.Machine
end

