-- ==== Sys2Proof/Laws/Settle.lean ====
section
/-! SUPPORT. The end of a command: what settle leaves, and that it changes nothing in a quiet state. -/

namespace Sys2Proof.Machine

open Sys2Proof

set_option Elab.async false

theorem State.takeFaults_queue (n : Nat) (s : State) : (State.takeFaults n s).fault.queue = [] := by
  induction n generalizing s with
  | zero => rfl
  | succ n ih =>
    unfold State.takeFaults
    split
    · assumption
    · exact ih _

theorem State.takeFaults_quiet (n : Nat) (s : State) (h : s.fault.queue = []) : State.takeFaults n s = s := by
  cases n with
  | zero => unfold State.takeFaults; rw [← h]
  | succ n => unfold State.takeFaults; rw [h]

theorem State.settle_quiet (s : State) : Quiet s.settle :=
  ⟨State.takeFaults_queue 64 s, rfl⟩

/-- With no report waiting, settle only drops the notices of origin discards. -/
theorem State.settle_of_queue (s : State) (h : s.fault.queue = []) : s.settle = s.sw fun w => { w with failed := [] } := by
  unfold State.settle; rw [State.takeFaults_quiet _ _ h]

theorem State.settle_of_quiet (s : State) (h : Quiet s) : s.settle = s := by
  rw [State.settle_of_queue s h.1]
  unfold State.sw
  rw [← h.2]

/-- The state of one that is as quiet as a quiet one. -/
theorem State.settle_eq (s t : State) (h : Quiet s) (hf : t.fault = s.fault) (hs : t.switch = s.switch) : t.settle = t :=
  State.settle_of_quiet t ⟨by rw [hf]; exact h.1, by rw [hs]; exact h.2⟩

theorem done_eq (s : State) : done s = .next s.settle := rfl

/-- A change of registers alone changes registers alone. -/
theorem RegFn.only {f : State → State} (h : RegFn f) (s : State) : RegsOnly s (f s) := by
  obtain ⟨g, hg⟩ := h
  have e := hg s
  unfold RegsOnly
  have r : (f s).regs = g s.regs := congrArg State.regs e
  rw [r]; exact e

theorem RegsOnly.refl (s : State) : RegsOnly s s := rfl

theorem RegsOnly.setR {s u : State} (h : RegsOnly s u) (r : Reg) (v : Nat) : RegsOnly s (u.setR r v) := by
  have e := RegFn.only (RegFn.setR r v) u
  unfold RegsOnly at h e ⊢
  generalize u.setR r v = t at e ⊢
  rw [h] at e
  exact e

theorem RegsOnly.set {s u : State} (h : RegsOnly s u) (f : Fld) (v : Nat) : RegsOnly s (u.set f v) := RegsOnly.setR h _ _

theorem RegsOnly.count {s u : State} (h : RegsOnly s u) (f : Fld) (n : Nat) : RegsOnly s (u.count f n) := RegsOnly.setR h _ _

theorem RegsOnly.quiet {s t : State} (h : RegsOnly s t) (q : Quiet s) : Quiet t := by
  unfold RegsOnly at h
  unfold Quiet
  rw [h]
  exact q

/-- A change of registers alone does not meet the cores. -/
theorem RegFn.cores {f : State → State} (h : RegFn f) (s : State) (k : Tbl Core) : f { s with cores := k } = { f s with cores := k } := by
  obtain ⟨g, hg⟩ := h
  rw [hg s, hg { s with cores := k }]

theorem RegFn.quiet {f : State → State} (h : RegFn f) {s : State} (q : Quiet s) : Quiet (f s) := RegsOnly.quiet (RegFn.only h s) q

end Sys2Proof.Machine
end

