-- ==== Sys2Proof/Laws/Host.lean ====
section
/-! SUPPORT. A host write of one register: when it is taken, it is the write of that register (R8, R445), whatever its row. -/

namespace Sys2Proof.Machine

open Sys2Proof

set_option Elab.async false

/-- A 32-bit value is its own remainder. -/
theorem word_mod (v : Word) : v.toNat % 2 ^ 32 = v.toNat := Nat.mod_eq_of_lt v.isLt

/-- A host write that is taken of a register that is no half of a pair is the write of that register. -/
theorem State.hostWrite_taken (s : State) (r : Reg) (v : Word) (row : RegRow) (ix : List Nat) (h : Taken s r)
    (ha : regAt r.off = some (row, ix)) (hh : row.half = .single) (hb : r.off < 0x2000000) (h4 : r.off % 4 = 0) (hm : inMsix r.off = false) :
    s.hostWrite r v = s.writeReg { row := row, off := r.off, at_ := r.off, v := v.toNat, i := ix.headD 0 } := by
  unfold State.hostWrite State.busWrite
  rw [if_neg (Nat.not_le.mpr hb), if_pos ⟨rfl, h4⟩, word_mod]
  unfold State.write4
  rw [h.1, hm, ha]
  simp only [Bool.false_and, Bool.false_eq_true, if_false, hh, h.2]

/-- What the register tables say of an offset: a register of its own, of the array that begins at b, with these indices. -/
def soleReg (off b : Nat) (ix : List Nat) : Bool :=
  (regAt off).any (fun x => x.1.half == .single && x.1.base == b && x.2 == ix) && decide (off < 0x2000000) && off % 4 == 0 && !inMsix off

/-- The write of a register that the tables give as a register of its own. -/
theorem State.hostWrite_sole (s : State) (r : Reg) (v : Word) (b : Nat) (ix : List Nat) (h : Taken s r) (hs : soleReg r.off b ix = true) :
    ∃ row, regAt r.off = some (row, ix) ∧ row.base = b ∧
      s.hostWrite r v = s.writeReg { row := row, off := r.off, at_ := r.off, v := v.toNat, i := ix.headD 0 } := by
  unfold soleReg at hs
  simp only [Bool.and_eq_true, decide_eq_true_eq, beq_iff_eq, Bool.not_eq_true'] at hs
  obtain ⟨⟨⟨ha, hb⟩, h4⟩, hm⟩ := hs
  cases e : regAt r.off with
  | none => rw [e] at ha; cases ha
  | some x =>
    rw [e] at ha
    simp only [Option.any_some, Bool.and_eq_true, beq_iff_eq] at ha
    obtain ⟨⟨h1, h2⟩, h3⟩ := ha
    obtain ⟨row, jx⟩ := x
    dsimp only at h1 h2 h3
    subst h3
    exact ⟨row, rfl, h2, State.hostWrite_taken s r v row jx h e h1 hb h4 hm⟩

/-! The bit of a command in the value it writes -/

theorem setBit_toNat (v : Word) (i : Nat) (h : i < 32) : (setBit v i).toNat = putBits v.toNat i 1 1 := by
  unfold setBit; rw [BitVec.toNat_ofNat]; exact Nat.mod_eq_of_lt (putBits_lt _ _ _ _ _ v.isLt (by omega))

theorem clearBit_toNat (v : Word) (i : Nat) (h : i < 32) : (clearBit v i).toNat = putBits v.toNat i 1 0 := by
  unfold clearBit; rw [BitVec.toNat_ofNat]; exact Nat.mod_eq_of_lt (putBits_lt _ _ _ _ _ v.isLt (by omega))

theorem bit_setBit_same (v : Word) (i : Nat) (h : i < 32) : bit (setBit v i).toNat i = true := by
  rw [setBit_toNat v i h, bit_putBits_same]; rfl

theorem bit_setBit_ne (v : Word) (i j : Nat) (h : i < 32) (hj : j ≠ i) : bit (setBit v i).toNat j = bit v.toNat j := by
  rw [setBit_toNat v i h, bit_putBits_ne _ _ _ _ hj]

theorem bit_clearBit_same (v : Word) (i : Nat) (h : i < 32) : bit (clearBit v i).toNat i = false := by
  rw [clearBit_toNat v i h, bit_putBits_same]; rfl

theorem bit_clearBit_ne (v : Word) (i j : Nat) (h : i < 32) (hj : j ≠ i) : bit (clearBit v i).toNat j = bit v.toNat j := by
  rw [clearBit_toNat v i h, bit_putBits_ne _ _ _ _ hj]

/-! The control registers, each with the operation its write is -/

/-- The write of a register at its own offset. -/
def ownWrite (r : Reg) (row : RegRow) (ix : List Nat) (v : Word) : RegWrite :=
  { row := row, off := r.off, at_ := r.off, v := v.toNat, i := ix.headD 0 }

theorem State.hostWrite_PWR_RESET (s : State) (v : Word) (h : Taken s PWR_RESET) : s.hostWrite PWR_RESET v = s.pwrReset v.toNat := by
  obtain ⟨row, -, hb, e⟩ := State.hostWrite_sole s _ v PWR_RESET.off [] h (by decide +kernel)
  rw [e]
  simp only [State.writeReg, show PWR_RESET.off / 0x10000 = 0x00 from rfl]
  simp [State.pwrWrite, RegWrite.is, hb, PWR_RESET]

theorem State.hostWrite_PWR_CLK_CTRL (s : State) (v : Word) (h : Taken s PWR_CLK_CTRL) :
    s.hostWrite PWR_CLK_CTRL v = s.clkCtrl PWR_CLK_CTRL.off v.toNat := by
  obtain ⟨row, -, hb, e⟩ := State.hostWrite_sole s _ v PWR_CLK_CTRL.off [] h (by decide +kernel)
  rw [e]
  simp only [State.writeReg, show PWR_CLK_CTRL.off / 0x10000 = 0x00 from rfl]
  simp [State.pwrWrite, RegWrite.is, hb, PWR_CLK_CTRL, PWR_RESET]

theorem State.hostWrite_PWR_FTIME_CTRL (s : State) (v : Word) (h : Taken s PWR_FTIME_CTRL) :
    s.hostWrite PWR_FTIME_CTRL v = s.ftimeCtrl PWR_FTIME_CTRL.off v.toNat := by
  obtain ⟨row, -, hb, e⟩ := State.hostWrite_sole s _ v PWR_FTIME_CTRL.off [] h (by decide +kernel)
  rw [e]
  simp only [State.writeReg, show PWR_FTIME_CTRL.off / 0x10000 = 0x00 from rfl]
  simp [State.pwrWrite, RegWrite.is, hb, PWR_CLK_CTRL, PWR_FTIME_CTRL, PWR_RESET]

theorem State.hostWrite_HIF_NBR_RX_POP (s : State) (v : Word) (h : Taken s HIF_NBR_RX_POP) :
    s.hostWrite HIF_NBR_RX_POP v = if bit v.toNat 0 then s.nbrPop else s := by
  obtain ⟨row, -, hb, e⟩ := State.hostWrite_sole s _ v HIF_NBR_RX_POP.off [] h (by decide +kernel)
  rw [e]
  simp only [State.writeReg, show HIF_NBR_RX_POP.off / 0x10000 = 0x01 from rfl]
  simp [State.hifWrite, RegWrite.is, hb, HIF_NBR_RX_POP, HIF_NBR_TX_CTRL]

theorem State.hostWrite_HIF_MBOX_CMD (s : State) (v : Word) (h : Taken s HIF_MBOX_CMD) :
    s.hostWrite HIF_MBOX_CMD v = s.mboxCmd HIF_MBOX_CMD.off (v.toNat % 16) := by
  obtain ⟨row, -, hb, e⟩ := State.hostWrite_sole s _ v HIF_MBOX_CMD.off [] h (by decide +kernel)
  rw [e]
  simp only [State.writeReg, show HIF_MBOX_CMD.off / 0x10000 = 0x01 from rfl]
  simp [State.hifWrite, RegWrite.is, hb, HIF_MBOX_CMD, HIF_NBR_RX_POP, HIF_NBR_TX_CTRL]

theorem State.hostWrite_SEC_CTRL (s : State) (v : Word) (h : Taken s SEC_CTRL) :
    s.hostWrite SEC_CTRL v = if bit v.toNat 0 then s.set SEC_CTRL_LOCK 1 else s := by
  obtain ⟨row, -, hb, e⟩ := State.hostWrite_sole s _ v SEC_CTRL.off [] h (by decide +kernel)
  rw [e]
  simp only [State.writeReg, show SEC_CTRL.off / 0x10000 = 0x02 from rfl]
  simp [State.secWrite, RegWrite.is, hb, SEC_CTRL]

theorem State.hostWrite_PAT_CTRL (s : State) (v : Word) (h : Taken s PAT_CTRL) : s.hostWrite PAT_CTRL v = s.patCtrl PAT_CTRL.off v.toNat := by
  obtain ⟨row, -, hb, e⟩ := State.hostWrite_sole s _ v PAT_CTRL.off [] h (by decide +kernel)
  rw [e]
  simp only [State.writeReg, show PAT_CTRL.off / 0x10000 = 0x03 from rfl]
  simp [State.patWrite, RegWrite.is, hb, PAT_CTRL]

theorem State.hostWrite_PAT_SEAM_CTRL (s : State) (v : Word) (h : Taken s PAT_SEAM_CTRL) : s.hostWrite PAT_SEAM_CTRL v = s.seamCtrl PAT_SEAM_CTRL.off v.toNat := by
  obtain ⟨row, -, hb, e⟩ := State.hostWrite_sole s _ v PAT_SEAM_CTRL.off [] h (by decide +kernel)
  rw [e]
  simp only [State.writeReg, show PAT_SEAM_CTRL.off / 0x10000 = 0x03 from rfl]
  simp [State.patWrite, RegWrite.is, hb, PAT_CTRL, PAT_SEAM_CTRL]

theorem State.hostWrite_OBS_CTRL (s : State) (v : Word) (h : Taken s OBS_CTRL) : s.hostWrite OBS_CTRL v = s.obsCtrl v.toNat := by
  obtain ⟨row, -, hb, e⟩ := State.hostWrite_sole s _ v OBS_CTRL.off [] h (by decide +kernel)
  rw [e]
  simp only [State.writeReg, show OBS_CTRL.off / 0x10000 = 0x30 from rfl]
  simp [State.obsWrite, RegWrite.is, hb, OBS_CTRL]

theorem State.hostWrite_OBS_TRACE_CTRL (s : State) (v : Word) (h : Taken s OBS_TRACE_CTRL) :
    s.hostWrite OBS_TRACE_CTRL v = s.traceCtrl OBS_TRACE_CTRL.off v.toNat := by
  obtain ⟨row, -, hb, e⟩ := State.hostWrite_sole s _ v OBS_TRACE_CTRL.off [] h (by decide +kernel)
  rw [e]
  simp only [State.writeReg, show OBS_TRACE_CTRL.off / 0x10000 = 0x30 from rfl]
  simp [State.obsWrite, RegWrite.is, hb, OBS_CTRL, OBS_TRACE_CTRL]

theorem State.hostWrite_CORE_CTRL (s : State) (i : Fin 144) (v : Word) (h : Taken s (CORE_CTRL i.val)) :
    s.hostWrite (CORE_CTRL i.val) v = s.coreCtrl i.val (CORE_CTRL i.val).off v.toNat := by
  have k : ∀ i : Fin 144, soleReg (CORE_CTRL i.val).off (CORE_CTRL 0).off [i.val] = true ∧ (CORE_CTRL i.val).off / 0x10000 = 0x10 := by decide +kernel
  obtain ⟨row, -, hb, e⟩ := State.hostWrite_sole s _ v _ _ h (k i).1
  rw [e]
  simp only [State.writeReg, (k i).2]
  simp [State.coreWrite, RegWrite.is, hb, CORE_CTRL]

theorem State.hostWrite_MEM_SHD_STATE (s : State) (i : Fin 64) (v : Word) (h : Taken s (MEM_SHD_STATE i.val)) :
    s.hostWrite (MEM_SHD_STATE i.val) v = if bit v.toNat 6 then s.rollback i.val (MEM_SHD_STATE i.val).off else s := by
  have k : ∀ i : Fin 64, soleReg (MEM_SHD_STATE i.val).off (MEM_SHD_STATE 0).off [i.val] = true ∧
      (MEM_SHD_STATE i.val).off / 0x10000 = 0x18 := by decide +kernel
  obtain ⟨row, -, hb, e⟩ := State.hostWrite_sole s _ v _ _ h (k i).1
  rw [e]
  simp only [State.writeReg, (k i).2]
  simp [State.memWrite, RegWrite.is, hb, MEM_CTRL, MEM_SHD_CFG, MEM_SHD_STATE, MEM_SPLIT, MEM_TRAIN_CTRL]

theorem State.hostWrite_PWR_RECOVERY_LEN (s : State) (v : Word) (h : Taken s PWR_RECOVERY_LEN) :
    ∃ row, regAt PWR_RECOVERY_LEN.off = some (row, []) ∧
      s.hostWrite PWR_RECOVERY_LEN v = if bit v.toNat 31 then (s.stored (ownWrite PWR_RECOVERY_LEN row [] v)).recoveryGo
        else s.stored (ownWrite PWR_RECOVERY_LEN row [] v) := by
  obtain ⟨row, hr, hb, e⟩ := State.hostWrite_sole s _ v PWR_RECOVERY_LEN.off [] h (by decide +kernel)
  refine ⟨row, hr, ?_⟩
  rw [e]
  simp only [State.writeReg, show PWR_RECOVERY_LEN.off / 0x10000 = 0x00 from rfl]
  simp [State.pwrWrite, RegWrite.is, hb, ownWrite, PWR_CLK_CTRL, PWR_FTIME_CTRL, PWR_RECOVERY_LEN, PWR_RESET]

theorem State.hostWrite_HIF_NBR_TX_CTRL (s : State) (v : Word) (h : Taken s HIF_NBR_TX_CTRL) :
    ∃ row, regAt HIF_NBR_TX_CTRL.off = some (row, []) ∧
      s.hostWrite HIF_NBR_TX_CTRL v = if bit v.toNat 10 then (s.stored (ownWrite HIF_NBR_TX_CTRL row [] v)).nbrSend
        else s.stored (ownWrite HIF_NBR_TX_CTRL row [] v) := by
  obtain ⟨row, hr, hb, e⟩ := State.hostWrite_sole s _ v HIF_NBR_TX_CTRL.off [] h (by decide +kernel)
  refine ⟨row, hr, ?_⟩
  rw [e]
  simp only [State.writeReg, show HIF_NBR_TX_CTRL.off / 0x10000 = 0x01 from rfl]
  simp [State.hifWrite, RegWrite.is, hb, ownWrite, HIF_NBR_TX_CTRL]

theorem State.hostWrite_HIF_SQ_CFG (s : State) (i : Fin 16) (v : Word) (h : Taken s (HIF_SQ_CFG i.val)) :
    ∃ row, regAt (HIF_SQ_CFG i.val).off = some (row, [i.val]) ∧
      s.hostWrite (HIF_SQ_CFG i.val) v = (s.stored (ownWrite (HIF_SQ_CFG i.val) row [i.val] v)).ringCfg i.val := by
  have k : ∀ i : Fin 16, soleReg (HIF_SQ_CFG i.val).off (HIF_SQ_CFG 0).off [i.val] = true ∧
      (HIF_SQ_CFG i.val).off / 0x10000 = 0x01 := by decide +kernel
  obtain ⟨row, hr, hb, e⟩ := State.hostWrite_sole s _ v _ _ h (k i).1
  refine ⟨row, hr, ?_⟩
  rw [e]
  simp only [State.writeReg, (k i).2]
  simp [State.hifWrite, RegWrite.is, hb, ownWrite, HIF_MBOX_CMD, HIF_NBR_RX_POP, HIF_NBR_TX_CTRL, HIF_SQ_CFG]

theorem State.hostWrite_HIF_SQ_TAIL (s : State) (i : Fin 16) (v : Word) (h : Taken s (HIF_SQ_TAIL i.val)) :
    ∃ row, regAt (HIF_SQ_TAIL i.val).off = some (row, [i.val]) ∧
      s.hostWrite (HIF_SQ_TAIL i.val) v = s.sqTailWrite (ownWrite (HIF_SQ_TAIL i.val) row [i.val] v) := by
  have k : ∀ i : Fin 16, soleReg (HIF_SQ_TAIL i.val).off (HIF_SQ_TAIL 0).off [i.val] = true ∧
      (HIF_SQ_TAIL i.val).off / 0x10000 = 0x01 := by decide +kernel
  obtain ⟨row, hr, hb, e⟩ := State.hostWrite_sole s _ v _ _ h (k i).1
  refine ⟨row, hr, ?_⟩
  rw [e]
  simp only [State.writeReg, (k i).2]
  simp [State.hifWrite, RegWrite.is, hb, ownWrite, HIF_MBOX_CMD, HIF_NBR_RX_POP, HIF_NBR_TX_CTRL, HIF_SQ_CFG, HIF_SQ_TAIL]

theorem State.hostWrite_FLT_CTRL (s : State) (v : Word) (h : Taken s FLT_CTRL) :
    ∃ row, regAt FLT_CTRL.off = some (row, []) ∧
      s.hostWrite FLT_CTRL v = if bit v.toNat 0 then (s.stored (ownWrite FLT_CTRL row [] v)).report 0x35 0 0
        else s.stored (ownWrite FLT_CTRL row [] v) := by
  obtain ⟨row, hr, hb, e⟩ := State.hostWrite_sole s _ v FLT_CTRL.off [] h (by decide +kernel)
  refine ⟨row, hr, ?_⟩
  rw [e]
  simp only [State.writeReg, show FLT_CTRL.off / 0x10000 = 0x04 from rfl]
  simp [State.fltWrite, RegWrite.is, hb, ownWrite, FLT_CTRL]

theorem State.hostWrite_FLT_FENCE_CMD (s : State) (v : Word) (h : Taken s FLT_FENCE_CMD) :
    ∃ row, regAt FLT_FENCE_CMD.off = some (row, []) ∧
      s.hostWrite FLT_FENCE_CMD v = if bit v.toNat 31 then (s.stored (ownWrite FLT_FENCE_CMD row [] v)).fenceCmd FLT_FENCE_CMD.off v.toNat
        else s.stored (ownWrite FLT_FENCE_CMD row [] v) := by
  obtain ⟨row, hr, hb, e⟩ := State.hostWrite_sole s _ v FLT_FENCE_CMD.off [] h (by decide +kernel)
  refine ⟨row, hr, ?_⟩
  rw [e]
  simp only [State.writeReg, show FLT_FENCE_CMD.off / 0x10000 = 0x04 from rfl]
  simp [State.fltWrite, RegWrite.is, hb, ownWrite, FLT_CTRL, FLT_FENCE_CMD, FLT_STATUS]

theorem State.hostWrite_DET_START_CTRL (s : State) (v : Word) (h : Taken s DET_START_CTRL) :
    ∃ row, regAt DET_START_CTRL.off = some (row, []) ∧ s.hostWrite DET_START_CTRL v = s.startCtrl (ownWrite DET_START_CTRL row [] v) := by
  obtain ⟨row, hr, hb, e⟩ := State.hostWrite_sole s _ v DET_START_CTRL.off [] h (by decide +kernel)
  refine ⟨row, hr, ?_⟩
  rw [e]
  simp only [State.writeReg, show DET_START_CTRL.off / 0x10000 = 0x14 from rfl]
  simp [State.detWrite, RegWrite.is, hb, ownWrite, DET_START_CTRL]

theorem State.hostWrite_MEM_CTRL (s : State) (v : Word) (h : Taken s MEM_CTRL) :
    ∃ row, regAt MEM_CTRL.off = some (row, []) ∧
      s.hostWrite MEM_CTRL v = s.memCtrl (bit v.toNat 0) := by
  obtain ⟨row, hr, hb, e⟩ := State.hostWrite_sole s _ v MEM_CTRL.off [] h (by decide +kernel)
  refine ⟨row, hr, ?_⟩
  rw [e]
  simp only [State.writeReg, show MEM_CTRL.off / 0x10000 = 0x18 from rfl]
  simp [State.memWrite, RegWrite.is, hb, MEM_CTRL]

theorem State.hostWrite_MEM_TRAIN_CTRL (s : State) (v : Word) (h : Taken s MEM_TRAIN_CTRL) :
    ∃ row, regAt MEM_TRAIN_CTRL.off = some (row, []) ∧
      s.hostWrite MEM_TRAIN_CTRL v = if !bit v.toNat 31 then s.stored (ownWrite MEM_TRAIN_CTRL row [] v)
        else if s.flag MEM_CTRL_EN || s.flag MEM_CTRL_ENABLE_PENDING then
      s.discarded MEM_TRAIN_CTRL.off else (s.stored (ownWrite MEM_TRAIN_CTRL row [] v)).trainStart MEM_TRAIN_CTRL.off := by
  obtain ⟨row, hr, hb, e⟩ := State.hostWrite_sole s _ v MEM_TRAIN_CTRL.off [] h (by decide +kernel)
  refine ⟨row, hr, ?_⟩
  rw [e]
  simp only [State.writeReg, show MEM_TRAIN_CTRL.off / 0x10000 = 0x18 from rfl]
  simp [State.memWrite, RegWrite.is, hb, ownWrite, MEM_CTRL, MEM_SPLIT, MEM_TRAIN_CTRL]

theorem State.hostWrite_MEM_SHD_CFG (s : State) (i : Fin 64) (v : Word) (h : Taken s (MEM_SHD_CFG i.val)) :
    ∃ row, regAt (MEM_SHD_CFG i.val).off = some (row, [i.val]) ∧
      s.hostWrite (MEM_SHD_CFG i.val) v = s.shdCfg (ownWrite (MEM_SHD_CFG i.val) row [i.val] v) := by
  have k : ∀ i : Fin 64, soleReg (MEM_SHD_CFG i.val).off (MEM_SHD_CFG 0).off [i.val] = true ∧
      (MEM_SHD_CFG i.val).off / 0x10000 = 0x18 := by decide +kernel
  obtain ⟨row, hr, hb, e⟩ := State.hostWrite_sole s _ v _ _ h (k i).1
  refine ⟨row, hr, ?_⟩
  rw [e]
  simp only [State.writeReg, (k i).2]
  simp [State.memWrite, RegWrite.is, hb, ownWrite, MEM_CTRL, MEM_SHD_CFG, MEM_SPLIT, MEM_TRAIN_CTRL]

theorem State.hostWrite_SWC_CTRL (s : State) (v : Word) (h : Taken s SWC_CTRL) :
    ∃ row, regAt SWC_CTRL.off = some (row, []) ∧
      s.hostWrite SWC_CTRL v = if s.fatal then s.stored (ownWrite SWC_CTRL row [] v) else s.swcCtrl (ownWrite SWC_CTRL row [] v) := by
  obtain ⟨row, hr, hb, e⟩ := State.hostWrite_sole s _ v SWC_CTRL.off [] h (by decide +kernel)
  refine ⟨row, hr, ?_⟩
  rw [e]
  simp only [State.writeReg, show SWC_CTRL.off / 0x10000 = 0x20 from rfl]
  simp [RegWrite.is, hb, ownWrite, SWC_CTRL]

theorem State.hostWrite_BPM_CTRL (s : State) (v : Word) (h : Taken s BPM_CTRL) :
    ∃ row, regAt BPM_CTRL.off = some (row, []) ∧
      s.hostWrite BPM_CTRL v = if bit v.toNat 0 && !s.fatal then (s.stored (ownWrite BPM_CTRL row [] v)).askAudit
        else s.stored (ownWrite BPM_CTRL row [] v) := by
  obtain ⟨row, hr, hb, e⟩ := State.hostWrite_sole s _ v BPM_CTRL.off [] h (by decide +kernel)
  refine ⟨row, hr, ?_⟩
  rw [e]
  simp only [State.writeReg, show BPM_CTRL.off / 0x10000 = 0x21 from rfl]
  simp [State.bpmWrite, RegWrite.is, hb, ownWrite, BPM_CTRL]

theorem State.hostWrite_SCH_CTRL (s : State) (v : Word) (h : Taken s SCH_CTRL) :
    ∃ row, regAt SCH_CTRL.off = some (row, []) ∧
      s.hostWrite SCH_CTRL v = if bit v.toNat 1 then ((s.stored (ownWrite SCH_CTRL row [] v)).sw fun w => { w with clearDue := true }) else s.stored (ownWrite SCH_CTRL row [] v) := by
  obtain ⟨row, hr, hb, e⟩ := State.hostWrite_sole s _ v SCH_CTRL.off [] h (by decide +kernel)
  refine ⟨row, hr, ?_⟩
  rw [e]
  simp only [State.writeReg, show SCH_CTRL.off / 0x10000 = 0x22 from rfl]
  simp [State.schWrite, RegWrite.is, hb, ownWrite, SCH_CTRL]

theorem State.hostWrite_COL_CTRL (s : State) (v : Word) (h : Taken s COL_CTRL) :
    ∃ row, regAt COL_CTRL.off = some (row, []) ∧ s.hostWrite COL_CTRL v = if s.fatal then s.stored (ownWrite COL_CTRL row [] v)
      else if bit v.toNat 0 then (if s.flag COL_CTRL_EN then s else s.colOn)
      else if s.flag COL_CTRL_EN then s.colOff
      else s.set COL_CTRL_ENABLE_PENDING 0 := by
  obtain ⟨row, hr, hb, e⟩ := State.hostWrite_sole s _ v COL_CTRL.off [] h (by decide +kernel)
  refine ⟨row, hr, ?_⟩
  rw [e]
  simp only [State.writeReg, show COL_CTRL.off / 0x10000 = 0x24 from rfl]
  simp [State.colWrite, RegWrite.is, hb, ownWrite, COL_CTRL]

theorem State.hostWrite_COL_BACKUP_GO (s : State) (v : Word) (h : Taken s COL_BACKUP_GO) :
    s.hostWrite COL_BACKUP_GO v = if bit v.toNat 31 && !s.fatal then s.backupGo (v.toNat % 2 ^ 21) else s := by
  obtain ⟨row, -, hb, e⟩ := State.hostWrite_sole s _ v COL_BACKUP_GO.off [] h (by decide +kernel)
  rw [e]
  simp only [State.writeReg, show COL_BACKUP_GO.off / 0x10000 = 0x24 from rfl]
  simp [State.colWrite, RegWrite.is, hb, COL_BACKUP_GO, COL_CTRL]

theorem State.hostWrite_COL_DOM_CTRL (s : State) (i : Fin 64) (v : Word) (h : Taken s (COL_DOM_CTRL i.val)) :
    ∃ row, regAt (COL_DOM_CTRL i.val).off = some (row, [i.val]) ∧
      s.hostWrite (COL_DOM_CTRL i.val) v = s.domCtrl (ownWrite (COL_DOM_CTRL i.val) row [i.val] v) := by
  have k : ∀ i : Fin 64, soleReg (COL_DOM_CTRL i.val).off (COL_DOM_CTRL 0).off [i.val] = true ∧
      (COL_DOM_CTRL i.val).off / 0x10000 = 0x24 := by decide +kernel
  obtain ⟨row, hr, hb, e⟩ := State.hostWrite_sole s _ v _ _ h (k i).1
  refine ⟨row, hr, ?_⟩
  rw [e]
  simp only [State.writeReg, (k i).2]
  simp [State.colWrite, RegWrite.is, hb, ownWrite, COL_BACKUP_GO, COL_CTRL, COL_DOM_CTRL]

theorem State.hostWrite_LNK_CTRL (s : State) (i : Fin 24) (v : Word) (h : Taken s (LNK_CTRL i.val)) :
    ∃ row, regAt (LNK_CTRL i.val).off = some (row, [i.val]) ∧
      s.hostWrite (LNK_CTRL i.val) v = s.lnkCtrl (ownWrite (LNK_CTRL i.val) row [i.val] v) := by
  have k : ∀ i : Fin 24, soleReg (LNK_CTRL i.val).off (LNK_CTRL 0).off [i.val] = true ∧ (LNK_CTRL i.val).off / 0x10000 = 0x28 := by decide +kernel
  obtain ⟨row, hr, hb, e⟩ := State.hostWrite_sole s _ v _ _ h (k i).1
  refine ⟨row, hr, ?_⟩
  rw [e]
  simp only [State.writeReg, (k i).2]
  simp [State.lnkWrite, RegWrite.is, hb, ownWrite, LNK_CTRL]

theorem State.hostWrite_LNK_PING_CTRL (s : State) (i : Fin 24) (v : Word) (h : Taken s (LNK_PING_CTRL i.val)) :
    ∃ row, regAt (LNK_PING_CTRL i.val).off = some (row, [i.val]) ∧
      s.hostWrite (LNK_PING_CTRL i.val) v = if bit v.toNat 0 && !s.fatal then (s.stored (ownWrite (LNK_PING_CTRL i.val) row [i.val] v)).pingStart i.val
        else s.stored (ownWrite (LNK_PING_CTRL i.val) row [i.val] v) := by
  have k : ∀ i : Fin 24, soleReg (LNK_PING_CTRL i.val).off (LNK_PING_CTRL 0).off [i.val] = true ∧
      (LNK_PING_CTRL i.val).off / 0x10000 = 0x28 := by decide +kernel
  obtain ⟨row, hr, hb, e⟩ := State.hostWrite_sole s _ v _ _ h (k i).1
  refine ⟨row, hr, ?_⟩
  rw [e]
  simp only [State.writeReg, (k i).2]
  simp [State.lnkWrite, RegWrite.is, hb, ownWrite, LNK_CTRL, LNK_PING_CTRL]

/-! The stored effect of a write -/

theorem regOf_off (off : Nat) : (regOf off).off = off := by unfold regOf; split <;> rfl

/-- The value a write leaves in a register of a row, its RWP bits open (R9). -/
def keptValue (row : RegRow) (old v : Nat) : Nat := maskIn (maskIn (maskIn old v row.rw) 0 (v &&& row.w1c)) v row.rwp

/-- A write of a register without RWB bits, whose RWP bits are open, stores that value and changes nothing else. -/
theorem State.stored_eq (s : State) (w : RegWrite) (hp : w.row.rwp = 0 ∨ s.rwpOpen w.off = true) (hb : w.row.rwb = 0) :
    s.stored w = s.setR (regOf w.off) (keptValue w.row (s.getR (regOf w.off)) w.v) := by
  have hm : (decide (w.row.rwp = 0) || s.rwpOpen w.off) = true := by rcases hp with h | h <;> simp [h]
  unfold State.stored State.storeBits keptValue
  simp only [hm, hb, if_true, Bool.true_or]

/-- Whether the register at an offset is a plain one: without RWB and RWP bits, its reset value that of a register. -/
def plainReg (r : Reg) : Bool := (regAt r.off).any fun x => x.1.rwb == 0 && x.1.rwp == 0 && x.1.resetAt x.2 == r.reset

theorem regOf_plain (r : Reg) (h : plainReg r = true) : regOf r.off = r := by
  unfold plainReg at h; unfold regOf
  cases e : regAt r.off with
  | none => rw [e] at h; cases h
  | some x => rw [e] at h; simp only [Option.any_some, Bool.and_eq_true, beq_iff_eq] at h; simp only [h.2]

/-- A write of a plain register. -/
theorem State.stored_plain (s : State) (r : Reg) (row : RegRow) (ix : List Nat) (v : Word) (h : plainReg r = true)
    (hr : regAt r.off = some (row, ix)) : s.stored (ownWrite r row ix v) = s.setR r (keptValue row (s.getR r) v.toNat) := by
  have e := regOf_plain r h
  unfold plainReg at h
  rw [hr] at h
  simp only [Option.any_some, Bool.and_eq_true, beq_iff_eq] at h
  rw [State.stored_eq s _ (.inl h.1.2) h.1.1]
  show s.setR (regOf r.off) (keptValue row (s.getR (regOf r.off)) v.toNat) = _
  rw [e]

end Sys2Proof.Machine
end

