-- ==== Sys2Proof/Laws/Issue.lean ====
section
/-! SUPPORT. The issue of an instruction and its retirement: everything they can do, once. -/

namespace Sys2Proof.Machine

open Sys2Proof

set_option Elab.async false

/-- An instruction that issues comes to its effect. -/
theorem issue_runs {s : State} {L : Nat} {bad : Option Nat} {cls op : Nat} {legal : Nat → Bool} {uses : Nat → Uses}
    (h : Issues s L bad cls op legal uses) (hd : definedOp cls op = true) (eff : Nat → State → Eff) :
    issue L bad cls op legal uses eff s = finish L (s.fetched L (s.wordOf L)) (eff (s.wordOf L) (s.fetched L (s.wordOf L))) := by
  have hc : cls < 9 := by
    rcases Nat.lt_or_ge cls 9 with h | h
    · exact h
    · have : definedOp cls op = false := by unfold definedOp; split <;> first | omega | rfl
      simp_all
  have e : ∀ u, ((s.fetched L (s.wordOf L)).core L).conflict u = (s.core L).conflict u := by
    intro u; simp [State.fetched, Core.conflict]
  have e2 : ((s.fetched L (s.wordOf L)).core L).holds (s.wordOf L) = (s.core L).holds (s.wordOf L) := by
    simp [State.fetched, Core.holds, Core.pval]
  unfold issue
  rw [h.ready, h.fetch]
  simp only [h.cls, h.op, h.legal, hd, e, e2, h.pfree, h.holds, h.free]
  simp [Nat.not_le.mpr hc]

/-- An instruction whose predicate does not hold retires as a no-op. -/
theorem issue_skips {s : State} {L : Nat} {bad : Option Nat} {cls op : Nat} {legal : Nat → Bool} {uses : Nat → Uses}
    (hr : s.canIssue L = true) (hf : s.fetchFault L bad = none) (hc : wClass (s.wordOf L) = cls) (ho : wOp (s.wordOf L) = op)
    (hl : legal (s.wordOf L) = true) (hp : (s.core L).conflict { p := [wPred (s.wordOf L)] } = false)
    (hh : (s.core L).holds (s.wordOf L) = false) (hd : definedOp cls op = true) (h9 : cls < 9) (eff : Nat → State → Eff) :
    issue L bad cls op legal uses eff s = (s.fetched L (s.wordOf L)).goOn L 1 := by
  have e : ∀ u, ((s.fetched L (s.wordOf L)).core L).conflict u = (s.core L).conflict u := by
    intro u; simp [State.fetched, Core.conflict]
  have e2 : ((s.fetched L (s.wordOf L)).core L).holds (s.wordOf L) = (s.core L).holds (s.wordOf L) := by
    simp [State.fetched, Core.holds, Core.pval]
  unfold issue
  rw [hr, hf]
  simp only [hc, ho, hl, hd, e, e2, hp, hh]
  simp [Nat.not_le.mpr h9]

/-! Retirement -/

/-- A state that differs from s in its cores alone, and there in core L alone. -/
structure CoreVariant (L : Nat) (s u : State) : Prop where
  same : ∃ k, u = { s with cores := k }
  others : ∀ M, M ≠ L → u.core M = s.core M

theorem CoreVariant.refl (L : Nat) (s : State) : CoreVariant L s s := ⟨⟨s.cores, rfl⟩, fun _ _ => rfl⟩

theorem CoreVariant.modCore {L : Nat} {s u : State} (h : CoreVariant L s u) (f : Core → Core) : CoreVariant L s (u.modCore L f) := by
  refine ⟨?_, fun M hM => by rw [State.core_modCore_ne _ _ _ _ hM, h.others M hM]⟩
  obtain ⟨k, rfl⟩ := h.same
  exact ⟨_, rfl⟩

theorem CoreVariant.setCore {L : Nat} {s u : State} (h : CoreVariant L s u) (c : Core) : CoreVariant L s (u.setCore L c) := by
  have := h.modCore fun _ => c
  simpa [State.modCore] using this

theorem CoreVariant.fetched (L w : Nat) (s : State) : CoreVariant L s (s.fetched L w) := (CoreVariant.refl L s).modCore _

theorem CoreVariant.regs {L : Nat} {s u : State} (h : CoreVariant L s u) : u.regs = s.regs := by obtain ⟨k, rfl⟩ := h.same; rfl

/-- What retiring comes to before the core shows what it waits for. -/
def State.retireQuiet (u : State) (L : Nat) (loops : List Loop) (pc : Nat) : State :=
  ((((u.modCore L fun c => { c with loops := loops }).set (SEQ_PC_INDEX L) pc).set
    (CORE_STATUS_STALLED L) 0).modDet L fun d => { d with count := d.count + 1 }).busy (4 * L) 1

theorem State.core_retireQuiet (u : State) (L : Nat) (loops : List Loop) (pc : Nat) :
    (u.retireQuiet L loops pc).core L = { u.core L with loops := loops } := by
  refine Eq.trans (State.core_congr (u.modCore L fun c => { c with loops := loops }) _ L ?_) (State.core_modCore_same _ _ _)
  rfl

theorem State.retire_eq (u : State) (L : Nat) (loops : List Loop) (pc : Nat) :
    u.retire L loops pc = match (u.core L).waitStall with
      | some r => (u.retireQuiet L loops pc).stallCore L r
      | none => u.retireQuiet L loops pc := by
  unfold State.retire
  simp only []
  rw [show ((((u.modCore L fun c => { c with loops := loops }).set (SEQ_PC_INDEX L) pc).set
      (CORE_STATUS_STALLED L) 0).modDet L fun d => { d with count := d.count + 1 }).busy (4 * L) 1 = u.retireQuiet L loops pc from rfl,
    State.core_retireQuiet]
  rfl

theorem State.retireQuiet_retired {s u : State} {L : Nat} (h : CoreVariant L s u) (loops : List Loop) (pc : Nat) :
    Retired s L { u.core L with loops := loops } pc (u.retireQuiet L loops pc) := by
  have hL : (SEQ_PC L).off ≠ (CORE_STATUS L).off := by simp only [SEQ_PC, CORE_STATUS]; omega
  unfold State.retireQuiet
  have h1 : CoreVariant L s (u.modCore L fun c => { c with loops := loops }) := h.modCore _
  have hc : (u.modCore L fun c => { c with loops := loops }).core L = { u.core L with loops := loops } := State.core_modCore_same _ _ _
  generalize (u.modCore L fun c => { c with loops := loops }) = v at h1 hc
  have hr : v.regs = s.regs := h1.regs
  have hx := h1.same
  have hn : ((v.set (SEQ_PC_INDEX L) pc).set (CORE_STATUS_STALLED L) 0).get (SEQ_PC_INDEX L) = pc % 2 ^ 18 := by
    rw [State.get_set_ne _ _ _ _ hL, State.get_set_same _ _ _ (by simp [SEQ_PC_INDEX])]
    rfl
  have hs : ((v.set (SEQ_PC_INDEX L) pc).set (CORE_STATUS_STALLED L) 0).flag (CORE_STATUS_STALLED L) = false := by
    rw [State.flag_set_same _ _ _ (by simp [CORE_STATUS_STALLED])]
    rfl
  have hg : ∀ r : Reg, r.off ≠ (SEQ_PC L).off → r.off ≠ (CORE_STATUS L).off →
      ((v.set (SEQ_PC_INDEX L) pc).set (CORE_STATUS_STALLED L) 0).getR r = s.getR r := by
    intro r h1 h2
    rw [State.getR_set_ne _ _ _ _ h2, State.getR_set_ne _ _ _ _ h1, State.getR_congr _ _ _ hr]
  have hk : ((v.set (SEQ_PC_INDEX L) pc).set (CORE_STATUS_STALLED L) 0).get (CORE_STATUS_STATE L) = s.get (CORE_STATUS_STATE L) := by
    rw [State.get_set_apart _ (CORE_STATUS_STALLED L) (CORE_STATUS_STATE L) _ rfl (by simp [CORE_STATUS_STALLED]) (.inl (by simp [CORE_STATUS_STALLED, CORE_STATUS_STATE])),
      State.get_set_ne _ _ _ _ (Ne.symm hL), State.get_congr _ _ _ hr]
  have e_now : v.now = s.now := by obtain ⟨k, rfl⟩ := hx; rfl
  have e_ftime : v.ftime = s.ftime := by obtain ⟨k, rfl⟩ := hx; rfl
  have e_shadow : v.shadow = s.shadow := by obtain ⟨k, rfl⟩ := hx; rfl
  have e_heldWrites : v.heldWrites = s.heldWrites := by obtain ⟨k, rfl⟩ := hx; rfl
  have e_captured : v.captured = s.captured := by obtain ⟨k, rfl⟩ := hx; rfl
  have e_gddr : v.gddr = s.gddr := by obtain ⟨k, rfl⟩ := hx; rfl
  have e_gddrGen : v.gddrGen = s.gddrGen := by obtain ⟨k, rfl⟩ := hx; rfl
  have e_sram : v.sram = s.sram := by obtain ⟨k, rfl⟩ := hx; rfl
  have e_zeroed : v.zeroed = s.zeroed := by obtain ⟨k, rfl⟩ := hx; rfl
  have e_pat : v.pat = s.pat := by obtain ⟨k, rfl⟩ := hx; rfl
  have e_jobs : v.jobs = s.jobs := by obtain ⟨k, rfl⟩ := hx; rfl
  have e_slots : v.slots = s.slots := by obtain ⟨k, rfl⟩ := hx; rfl
  have e_combines : v.combines = s.combines := by obtain ⟨k, rfl⟩ := hx; rfl
  have e_mem : v.mem = s.mem := by obtain ⟨k, rfl⟩ := hx; rfl
  have e_ports : v.ports = s.ports := by obtain ⟨k, rfl⟩ := hx; rfl
  have e_lanes : v.lanes = s.lanes := by obtain ⟨k, rfl⟩ := hx; rfl
  have e_switch : v.switch = s.switch := by obtain ⟨k, rfl⟩ := hx; rfl
  have e_col : v.col = s.col := by obtain ⟨k, rfl⟩ := hx; rfl
  have e_boot : v.boot = s.boot := by obtain ⟨k, rfl⟩ := hx; rfl
  have e_clock : v.clock = s.clock := by obtain ⟨k, rfl⟩ := hx; rfl
  have e_fault : v.fault = s.fault := by obtain ⟨k, rfl⟩ := hx; rfl
  have e_host : v.host = s.host := by obtain ⟨k, rfl⟩ := hx; rfl
  have e_power : v.power = s.power := by obtain ⟨k, rfl⟩ := hx; rfl
  have e_out : v.out = s.out := by obtain ⟨k, rfl⟩ := hx; rfl
  have e_free : v.free = s.free := by obtain ⟨k, rfl⟩ := hx; rfl
  have e_pending : v.pending = s.pending := by obtain ⟨k, rfl⟩ := hx; rfl
  have e_det : v.det = s.det := by obtain ⟨k, rfl⟩ := hx; rfl
  have e_obs : v.obs = s.obs := by obtain ⟨k, rfl⟩ := hx; rfl
  clear hx
  refine ⟨?_, ?_, ?_, ⟨?_, ?_, ?_, ?_, ?_, ?_, ?_, ?_, ?_, ?_, ⟨?_, ?_⟩, ⟨?_, ?_⟩, ?_, ?_, ?_, ?_, ?_, ?_, ?_, ?_, ?_, ?_, ?_, ?_, ?_, ?_, ?_, ?_, ?_⟩⟩
  · rw [State.core_congr v _ L (by simp)]; exact hc
  · rw [State.get_congr _ _ _ (State.busy_regs _ _ _), State.get_congr _ _ _ (State.modDet_regs _ _ _)]; exact hn
  · rw [State.flag_congr _ _ _ (State.busy_regs _ _ _), State.flag_congr _ _ _ (State.modDet_regs _ _ _)]; exact hs
  · intro M hM; rw [State.core_congr v _ M (by simp)]; exact h1.others M hM
  · intro r a b; rw [State.getR_congr _ _ _ (State.busy_regs _ _ _), State.getR_congr _ _ _ (State.modDet_regs _ _ _)]; exact hg r a b
  · unfold State.cst; rw [State.get_congr _ _ _ (State.busy_regs _ _ _), State.get_congr _ _ _ (State.modDet_regs _ _ _)]; exact hk
  · simp only [State.busy_det, State.modDet, State.cdet, State.set_det, e_det]
  · simp only [State.busy, State.modDet_obs, State.set_obs, e_obs]
  · rw [State.busy_now, State.modDet_now, State.set_now, State.set_now, e_now]
  · rw [State.busy_ftime, State.modDet_ftime, State.set_ftime, State.set_ftime, e_ftime]
  · rw [State.busy_shadow, State.modDet_shadow, State.set_shadow, State.set_shadow, e_shadow]
  · rw [State.busy_heldWrites, State.modDet_heldWrites, State.set_heldWrites, State.set_heldWrites, e_heldWrites]
  · rw [State.busy_captured, State.modDet_captured, State.set_captured, State.set_captured, e_captured]
  · rw [State.busy_gddr, State.modDet_gddr, State.set_gddr, State.set_gddr, e_gddr]
  · rw [State.busy_gddrGen, State.modDet_gddrGen, State.set_gddrGen, State.set_gddrGen, e_gddrGen]
  · rw [State.busy_sram, State.modDet_sram, State.set_sram, State.set_sram, e_sram]
  · rw [State.busy_zeroed, State.modDet_zeroed, State.set_zeroed, State.set_zeroed, e_zeroed]
  · rw [State.busy_pat, State.modDet_pat, State.set_pat, State.set_pat, e_pat]
  · rw [State.busy_jobs, State.modDet_jobs, State.set_jobs, State.set_jobs, e_jobs]
  · rw [State.busy_slots, State.modDet_slots, State.set_slots, State.set_slots, e_slots]
  · rw [State.busy_combines, State.modDet_combines, State.set_combines, State.set_combines, e_combines]
  · rw [State.busy_mem, State.modDet_mem, State.set_mem, State.set_mem, e_mem]
  · rw [State.busy_ports, State.modDet_ports, State.set_ports, State.set_ports, e_ports]
  · rw [State.busy_lanes, State.modDet_lanes, State.set_lanes, State.set_lanes, e_lanes]
  · rw [State.busy_switch, State.modDet_switch, State.set_switch, State.set_switch, e_switch]
  · rw [State.busy_col, State.modDet_col, State.set_col, State.set_col, e_col]
  · rw [State.busy_boot, State.modDet_boot, State.set_boot, State.set_boot, e_boot]
  · rw [State.busy_clock, State.modDet_clock, State.set_clock, State.set_clock, e_clock]
  · rw [State.busy_fault, State.modDet_fault, State.set_fault, State.set_fault, e_fault]
  · rw [State.busy_host, State.modDet_host, State.set_host, State.set_host, e_host]
  · rw [State.busy_power, State.modDet_power, State.set_power, State.set_power, e_power]
  · rw [State.busy_out, State.modDet_out, State.set_out, State.set_out, e_out]
  · rw [State.busy_free, State.modDet_free, State.set_free, State.set_free, e_free]
  · rw [State.busy_pending, State.modDet_pending, State.set_pending, State.set_pending, e_pending]

/-- What retiring a core's instruction does, when the core does not wait. -/
theorem State.retire_retired {s u : State} {L : Nat} (h : CoreVariant L s u) (loops : List Loop) (pc : Nat)
    (hw : (u.core L).wait = none) : Retired s L { u.core L with loops := loops } pc (u.retire L loops pc) := by
  have hs : (u.core L).waitStall = none := by unfold Core.waitStall; rw [hw]
  rw [State.retire_eq, hs]
  exact State.retireQuiet_retired h loops pc

/-- Fields of the core's status besides its state do not matter to the frame. -/
theorem OnlyCore.stallCore {L : Nat} {s t : State} (h : OnlyCore L s t) (r : Nat) : OnlyCore L s (t.stallCore L r) := by
  have e : RegsOnly t (t.stallCore L r) := rfl
  have hc : (t.stallCore L r).cst L = t.cst L := by
    unfold State.stallCore State.cst
    rw [State.get_set_apart _ (CORE_STATUS_STALLED L) (CORE_STATUS_STATE L) _ rfl (by simp [CORE_STATUS_STALLED]) (.inl (by simp [CORE_STATUS_STALLED, CORE_STATUS_STATE])),
      State.get_set_apart _ (CORE_STATUS_STALL L) (CORE_STATUS_STATE L) _ rfl (by simp [CORE_STATUS_STALL]) (.inl (by simp [CORE_STATUS_STALL, CORE_STATUS_STATE]))]
  have hr : ∀ q : Reg, q.off ≠ (CORE_STATUS L).off → (t.stallCore L r).getR q = t.getR q := by
    intro q hq
    unfold State.stallCore
    rw [State.getR_set_ne _ _ _ _ hq, State.getR_set_ne _ _ _ _ hq]
  generalize t.stallCore L r = v at *
  unfold RegsOnly at e
  have ec : v.cores = t.cores := by rw [e]
  refine ⟨fun M hM => (State.core_congr t v M ec).trans (h.cores M hM), fun q a b => (hr q b).trans (h.regs q a b), hc.trans h.state,
    ?_, ?_, ?_, ?_, ?_, ?_, ?_, ?_, ?_, ?_, ?_, ?_, ?_, ?_, ?_, ?_, ?_, ?_, ?_, ?_, ?_, ?_, ?_, ?_, ?_, ?_⟩
  · rw [e]; exact h.det
  · rw [e]; exact h.obs
  · rw [e]; exact h.now
  · rw [e]; exact h.ftime
  · rw [e]; exact h.shadow
  · rw [e]; exact h.heldWrites
  · rw [e]; exact h.captured
  · rw [e]; exact h.gddr
  · rw [e]; exact h.sram
  · rw [e]; exact h.pat
  · rw [e]; exact h.jobs
  · rw [e]; exact h.slots
  · rw [e]; exact h.combines
  · rw [e]; exact h.mem
  · rw [e]; exact h.ports
  · rw [e]; exact h.lanes
  · rw [e]; exact h.switch
  · rw [e]; exact h.col
  · rw [e]; exact h.boot
  · rw [e]; exact h.clock
  · rw [e]; exact h.fault
  · rw [e]; exact h.host
  · rw [e]; exact h.power
  · rw [e]; exact h.out
  · rw [e]; exact h.free
  · rw [e]; exact h.pending

/-- What retiring a core's instruction does, when the core waits. -/
theorem State.retire_held {s u : State} {L r : Nat} (h : CoreVariant L s u) (loops : List Loop) (pc : Nat)
    (hw : (u.core L).waitStall = some r) : Held s L { u.core L with loops := loops } pc r (u.retire L loops pc) := by
  rw [State.retire_eq, hw]
  have q := State.retireQuiet_retired h loops pc
  generalize u.retireQuiet L loops pc = t at q ⊢
  refine ⟨?_, ?_, ?_, ?_, OnlyCore.stallCore q.rest r⟩
  · exact (State.core_congr t _ L rfl).trans q.core
  · unfold State.stallCore
    rw [State.get_set_ne _ _ _ _ (by simp only [SEQ_PC_INDEX, CORE_STATUS_STALLED, SEQ_PC, CORE_STATUS]; omega),
      State.get_set_ne _ _ _ _ (by simp only [SEQ_PC_INDEX, CORE_STATUS_STALL, SEQ_PC, CORE_STATUS]; omega)]
    exact q.pc
  · unfold State.stallCore
    rw [State.flag_set_same _ _ _ (by simp [CORE_STATUS_STALLED])]
    rfl
  · unfold State.stallCore
    rw [State.get_set_apart _ (CORE_STATUS_STALLED L) (CORE_STATUS_STALL L) _ rfl (by simp [CORE_STATUS_STALLED]) (by simp [CORE_STATUS_STALLED, CORE_STATUS_STALL]),
      State.get_set_same _ _ _ (by simp [CORE_STATUS_STALL])]
    rfl

/-- What it does to go on n words further. -/
theorem State.goOn_retired {s u : State} {L : Nat} (h : CoreVariant L s u) (n : Nat) (hw : (u.core L).wait = none) :
    RetiredOn s L (u.core L) n (u.goOn L n) := by
  unfold RetiredOn onward State.goOn
  rw [← State.get_congr s u (SEQ_PC_INDEX L) h.regs]
  exact State.retire_retired h _ _ hw

/-- What it does to go on n words further and wait. -/
theorem State.goOn_held {s u : State} {L r : Nat} (h : CoreVariant L s u) (n : Nat) (hw : (u.core L).waitStall = some r) :
    HeldOn s L (u.core L) n r (u.goOn L n) := by
  unfold HeldOn onward State.goOn
  rw [← State.get_congr s u (SEQ_PC_INDEX L) h.regs]
  exact State.retire_held h _ _ hw

/-- A retired state is quiet when the state before was. -/
theorem OnlyCore.settle {L : Nat} {s t : State} (h : OnlyCore L s t) (q : Quiet s) : t.settle = t :=
  State.settle_eq s t q h.fault h.switch

/-! Instructions that issue, whole -/

/-- A change that cores do not take part in keeps two states alike. -/
theorem CoreVariant.lift {L : Nat} {s u : State} {f : State → State} (hf : ∀ (s : State) k, f { s with cores := k } = { f s with cores := k })
    (h : CoreVariant L s u) : CoreVariant L (f s) (f u) := by
  obtain ⟨⟨k, rfl⟩, ho⟩ := h
  have e (s : State) : (f s).cores = s.cores := by rw [show f s = { f s with cores := s.cores } from hf s s.cores]
  refine ⟨⟨k, hf s k⟩, fun M hM => ?_⟩
  rw [State.core_congr _ _ M (e { s with cores := k }), State.core_congr _ _ M (e s)]
  exact ho M hM

/-- The core after a change that cores do not take part in. -/
theorem core_lift {f : State → State} (hf : ∀ (s : State) k, f { s with cores := k } = { f s with cores := k }) (s : State) (L : Nat) :
    (f s).core L = s.core L :=
  State.core_congr _ _ L (by rw [show f s = { f s with cores := s.cores } from hf s s.cores])

theorem firstInvalid_regFn (L e o : Nat) : RegFn fun s => s.firstInvalid L e o :=
  RegFn.ite (f := fun s => s) (h := fun s => ((s.set (CORE_EXC_FIRST_ENGINE L) e).set (CORE_EXC_ADDR_OFFSET L) o).set (CORE_EXC_ADDR_VALID L) 1)
    (CORE_EXC_INVALID L) RegFn.id
    (RegFn.comp (f := fun s => (s.set (CORE_EXC_FIRST_ENGINE L) e).set (CORE_EXC_ADDR_OFFSET L) o) (h := fun s => s.set (CORE_EXC_ADDR_VALID L) 1)
      (RegFn.comp (f := fun s => s.set (CORE_EXC_FIRST_ENGINE L) e) (h := fun s => s.set (CORE_EXC_ADDR_OFFSET L) o) (RegFn.set _ _) (RegFn.set _ _))
      (RegFn.set _ _))

theorem raise_regFn (L : Nat) (f : Flags) (e o n : Nat) : RegFn fun s => s.raise L f e o n := by
  by_cases hf : f.inv = true
  · have e1 : (fun s : State => s.raise L f e o n) = fun s => ((s.firstInvalid L e o).stickFlags L f).count (CORE_EXC_COUNT_COUNT L) n := by
      funext s; simp only [State.raise, hf, if_true]
    rw [e1]
    exact RegFn.comp (f := fun s => (s.firstInvalid L e o).stickFlags L f) (h := fun s => s.count (CORE_EXC_COUNT_COUNT L) n)
      (RegFn.comp (h := fun s => s.stickFlags L f) (firstInvalid_regFn L e o) (RegFn.stickFlags L f)) (RegFn.count _ _)
  · have e1 : (fun s : State => s.raise L f e o n) = fun s => (s.stickFlags L f).count (CORE_EXC_COUNT_COUNT L) n := by
      funext s; simp only [State.raise, hf, if_false, Bool.false_eq_true]
    rw [e1]
    exact RegFn.comp (h := fun s => s.count (CORE_EXC_COUNT_COUNT L) n) (RegFn.stickFlags L f) (RegFn.count _ _)

theorem raise_cores (L : Nat) (f : Flags) (e o n : Nat) (s : State) (k : Tbl Core) :
    State.raise { s with cores := k } L f e o n = { s.raise L f e o n with cores := k } := by
  obtain ⟨g, h⟩ := raise_regFn L f e o n
  have h1 := h s
  have h2 := h { s with cores := k }
  simp only [] at h1 h2
  rw [h1, h2]

theorem raise_fault (L : Nat) (f : Flags) (e o n : Nat) (s : State) : (s.raise L f e o n).fault = s.fault := by
  obtain ⟨g, h⟩ := raise_regFn L f e o n
  have h := congrArg State.fault (h s)
  exact h

theorem raise_switch (L : Nat) (f : Flags) (e o n : Nat) (s : State) : (s.raise L f e o n).switch = s.switch := by
  obtain ⟨g, h⟩ := raise_regFn L f e o n
  have h := congrArg State.switch (h s)
  exact h

/-- Raising flags reports nothing. -/
theorem raise_quiet {s : State} (q : Quiet s) (L : Nat) (f : Flags) (e o n : Nat) : Quiet (s.raise L f e o n) := by
  unfold Quiet; rw [raise_fault, raise_switch]; exact q

/-- The core that issues does not wait. -/
theorem Issues.wait {s : State} {L : Nat} {bad : Option Nat} {cls op : Nat} {legal : Nat → Bool} {uses : Nat → Uses}
    (h : Issues s L bad cls op legal uses) : (s.core L).wait = none := by
  have := h.ready
  simp [State.canIssue] at this
  exact this.2

/-- An instruction that issues and goes on. -/
theorem issue_goes {i : Instr} {s base u : State} {L : Nat} {bad : Option Nat} {cls op : Nat} {legal : Nat → Bool} {uses : Nat → Uses}
    {eff : Nat → State → Eff} {n : Nat} (he : exec i s = done (issue L bad cls op legal uses eff s)) (h : Issues s L bad cls op legal uses)
    (hd : definedOp cls op = true) (hb : Quiet base) (e : eff (s.wordOf L) (s.fetched L (s.wordOf L)) = .next u n)
    (hv : CoreVariant L base u) (hw : (u.core L).wait = none) : ∃ t, exec i s = .next t ∧ RetiredOn base L (u.core L) n t := by
  have hr := State.goOn_retired hv n hw
  refine ⟨u.goOn L n, ?_, hr⟩
  rw [he, issue_runs h hd, e, done_eq]
  exact congrArg _ (OnlyCore.settle hr.rest hb)

/-- An instruction that issues, goes on, and holds issue. -/
theorem issue_holds {i : Instr} {s base u : State} {L : Nat} {bad : Option Nat} {cls op : Nat} {legal : Nat → Bool} {uses : Nat → Uses}
    {eff : Nat → State → Eff} {n r : Nat} (he : exec i s = done (issue L bad cls op legal uses eff s)) (h : Issues s L bad cls op legal uses)
    (hd : definedOp cls op = true) (hb : Quiet base) (e : eff (s.wordOf L) (s.fetched L (s.wordOf L)) = .next u n)
    (hv : CoreVariant L base u) (hw : (u.core L).waitStall = some r) : ∃ t, exec i s = .next t ∧ HeldOn base L (u.core L) n r t := by
  have hr := State.goOn_held hv n hw
  refine ⟨u.goOn L n, ?_, hr⟩
  rw [he, issue_runs h hd, e, done_eq]
  exact congrArg _ (OnlyCore.settle hr.rest hb)

/-- An instruction that issues and goes on at an index. -/
theorem issue_jumps {i : Instr} {s base u : State} {L : Nat} {bad : Option Nat} {cls op : Nat} {legal : Nat → Bool} {uses : Nat → Uses}
    {eff : Nat → State → Eff} {pc : Nat} (he : exec i s = done (issue L bad cls op legal uses eff s)) (h : Issues s L bad cls op legal uses)
    (hd : definedOp cls op = true) (hb : Quiet base) (e : eff (s.wordOf L) (s.fetched L (s.wordOf L)) = .jump u pc)
    (hv : CoreVariant L base u) (hw : (u.core L).wait = none) : ∃ t, exec i s = .next t ∧ Retired base L (u.core L) pc t := by
  have hr := State.retire_retired hv (u.core L).loops (pc % 2 ^ 18) hw
  refine ⟨u.retire L (u.core L).loops (pc % 2 ^ 18), ?_, hr.core, ?_, hr.issues, hr.rest⟩
  · rw [he, issue_runs h hd, e, done_eq]
    exact congrArg _ (OnlyCore.settle hr.rest hb)
  · rw [hr.pc, Nat.mod_mod]

/-! What a fetch leaves to the instruction -/

theorem fetched_core (s : State) (L w : Nat) :
    (s.fetched L w).core L = { s.core L with loops := bufferWord (s.core L).loops (s.get (SEQ_PC_INDEX L)) w } := by
  unfold State.fetched; rw [State.core_modCore_same]

theorem fetched_grant (s : State) (L w : Nat) : (s.fetched L w).grant L = s.grant L := by
  unfold State.grant State.coreJob; rw [fetched_core]; rfl

theorem fetched_accessFault (s : State) (L w : Nat) (bad : Option Nat) (a n align : Nat) :
    (s.fetched L w).accessFault L bad a n align = s.accessFault L bad a n align := by
  unfold State.accessFault; rw [fetched_grant]

theorem fetched_engRead (s : State) (L w : Nat) (e : Engine) (a n : Nat) : (s.fetched L w).engRead L e a n = s.engRead L e a n := by
  unfold State.engRead; rw [fetched_core]; rfl

theorem fetched_seedStep (s : State) (L w : Nat) : (s.fetched L w).seedStep L = s.seedStep L := by
  unfold State.seedStep State.coreJob; rw [fetched_core]; rfl

theorem fetched_elemDraw (s : State) (L w key n i : Nat) : (s.fetched L w).elemDraw L key n i = s.elemDraw L key n i := by
  unfold State.elemDraw; rw [fetched_seedStep]

/-! Program faults -/

theorem seqFault_only (s : State) (L n : Nat) : RegsOnly s (s.seqFault L n) := by
  unfold State.seqFault State.setCst
  exact RegsOnly.set (RegsOnly.set (RegsOnly.set (RegsOnly.set (RegsOnly.set (RegsOnly.refl s) _ _) _ _) _ _) _ _) _ _

/-- The state of a core after its change. -/
theorem cst_setCst (s : State) (L st : Nat) : (s.setCst L st).cst L = st % 16 := by
  unfold State.cst State.setCst
  rw [State.get_set_apart _ (CORE_STATUS_STALLED L) (CORE_STATUS_STATE L) _ rfl (by simp [CORE_STATUS_STALLED]) (.inl (by simp [CORE_STATUS_STALLED, CORE_STATUS_STATE])),
    State.get_set_apart _ (CORE_STATUS_STALL L) (CORE_STATUS_STATE L) _ rfl (by simp [CORE_STATUS_STALL]) (.inl (by simp [CORE_STATUS_STALL, CORE_STATUS_STATE])),
    State.get_set_same _ _ _ (by simp [CORE_STATUS_STATE])]
  rfl

theorem get_setCst_ne (s : State) (L st : Nat) (f : Fld) (h : f.reg.off ≠ (CORE_STATUS L).off) : (s.setCst L st).get f = s.get f := by
  unfold State.setCst
  rw [State.get_set_ne _ _ _ _ h, State.get_set_ne _ _ _ _ h, State.get_set_ne _ _ _ _ h]

theorem getR_setCst_ne (s : State) (L st : Nat) (r : Reg) (h : r.off ≠ (CORE_STATUS L).off) : (s.setCst L st).getR r = s.getR r := by
  unfold State.setCst
  rw [State.getR_set_ne _ _ _ _ h, State.getR_set_ne _ _ _ _ h, State.getR_set_ne _ _ _ _ h]

/-- What a program fault does. -/
theorem programFault_faulted (s : State) (L n : Nat) (hn : n < 256) : Faulted s L n (s.programFault L n) := by
  have ne1 : (SEQ_FAULT L).off ≠ (CORE_STATUS L).off := by simp only [SEQ_FAULT, CORE_STATUS]; omega
  have ne2 : (SEQ_FAULT_PC L).off ≠ (CORE_STATUS L).off := by simp only [SEQ_FAULT_PC, CORE_STATUS]; omega
  have ne3 : (SEQ_FAULT L).off ≠ (SEQ_FAULT_PC L).off := by simp only [SEQ_FAULT_PC, SEQ_FAULT]; omega
  have hr : ∀ u : State, (u.endOn L n).regs = u.regs := by
    intro u; unfold State.endOn; split <;> rfl
  have k1 : (s.seqFault L n).cst L = stFaulted := by unfold State.seqFault; rw [cst_setCst]; rfl
  have k2 : (s.seqFault L n).get (SEQ_FAULT_CODE L) = n := by
    unfold State.seqFault
    rw [get_setCst_ne _ _ _ _ ne1, State.get_set_ne _ _ _ _ ne3, State.get_set_same _ _ _ (by simp [SEQ_FAULT_CODE])]
    exact Nat.mod_eq_of_lt hn
  have k3 : (s.seqFault L n).get (SEQ_FAULT_PC_INDEX L) = s.get (SEQ_PC_INDEX L) := by
    unfold State.seqFault
    rw [get_setCst_ne _ _ _ _ ne2, State.get_set_same _ _ _ (by simp [SEQ_FAULT_PC_INDEX])]
    exact Nat.mod_eq_of_lt (bits_lt _ _ _)
  have k4 : ∀ r : Reg, r.off ≠ (SEQ_FAULT L).off → r.off ≠ (SEQ_FAULT_PC L).off → r.off ≠ (CORE_STATUS L).off →
      (s.seqFault L n).getR r = s.getR r := by
    intro r a b c
    unfold State.seqFault
    rw [getR_setCst_ne _ _ _ _ c, State.getR_set_ne _ _ _ _ b, State.getR_set_ne _ _ _ _ a]
  have k5 := seqFault_only s L n
  unfold State.programFault
  generalize s.seqFault L n = u at *
  unfold RegsOnly at k5
  refine ⟨?_, ?_, ?_, ?_, ?_, ?_⟩
  · unfold State.cst; rw [State.get_congr _ _ _ (hr u)]; exact k1
  · rw [State.get_congr _ _ _ (hr u)]; exact k2
  · rw [State.get_congr _ _ _ (hr u)]; exact k3
  · have hj : u.jobs = s.jobs := by rw [k5]
    have hc : u.core L = s.core L := State.core_congr s u L (by rw [k5])
    unfold State.endOn
    rw [hc]
    cases (s.core L).job with
    | none => exact hj
    | some k => simp only [State.modJob, hj]
  · intro r a b c; rw [State.getR_congr _ _ _ (hr u)]; exact k4 r a b c
  · have e : u.endOn L n = { u with jobs := (u.endOn L n).jobs } := by unfold State.endOn; split <;> rfl
    have e2 := hr u
    generalize u.endOn L n = v at e e2 ⊢
    rw [e2, e, k5]

/-- A program fault reports nothing to the fault collector. -/
theorem Faulted_settle {s t : State} {L n : Nat} (h : Faulted s L n t) (q : Quiet s) : t.settle = t := by
  have e := h.rest
  refine State.settle_eq s t q ?_ ?_ <;> rw [e]

/-- An instruction that issues and faults. -/
theorem issue_faults {i : Instr} {s : State} {L : Nat} {bad : Option Nat} {cls op : Nat} {legal : Nat → Bool} {uses : Nat → Uses}
    {eff : Nat → State → Eff} {n : Nat} (he : exec i s = done (issue L bad cls op legal uses eff s)) (h : Issues s L bad cls op legal uses)
    (hd : definedOp cls op = true) (hb : Quiet s) (hn : n < 256) (e : eff (s.wordOf L) (s.fetched L (s.wordOf L)) = .fault n) :
    ∃ t, exec i s = .next t ∧ Faulted (s.fetched L (s.wordOf L)) L n t := by
  have f := programFault_faulted (s.fetched L (s.wordOf L)) L n hn
  refine ⟨_, ?_, f⟩
  rw [he, issue_runs h hd, e, done_eq]
  exact congrArg _ (Faulted_settle f hb)

end Sys2Proof.Machine
end

