-- ==== Sys2Proof/Laws/Memory.lean ====
section
/-! SUPPORT. Every operation over the memories keeps their canonical form (Memory.wf). -/

namespace Sys2Proof.Machine

open Sys2Proof

set_option Elab.async false

/-- An insert keeps the GDDR7 list canonical. -/
theorem gddrWf_insert (m : List Host.Cell) (a : Nat) (b : Byte) (h : gddrWf m = true) (ha : a < gddrSize) : gddrWf (Tbl.insert m a b) = true := by
  unfold gddrWf at h ⊢
  simp only [Bool.and_eq_true, List.all_eq_true, decide_eq_true_eq] at h ⊢
  refine ⟨Tbl.risesFrom_insert m none a b h.1 (fun _ h => by cases h), fun c hc => ?_⟩
  rcases Tbl.mem_insert m a b c hc with rfl | h2
  · exact ha
  · exact h.2 c h2

theorem gddrWf_puts (bs : List Byte) (m : List Host.Cell) (a : Nat) (h : gddrWf m = true) (ha : a + bs.length ≤ gddrSize) :
    gddrWf (gddrPuts m a bs) = true := by
  induction bs generalizing m a with
  | nil => exact h
  | cons b bs ih =>
    simp only [List.length_cons] at ha
    exact ih _ _ (gddrWf_insert m a b h (by omega)) (by omega)

/-- Storing a byte keeps the SRAM list canonical. -/
theorem sramWf_put (z : List Nat) (m : List Host.Cell) (k : Nat) (b : Byte) (h : sramWf z m = true) : sramWf z (sramPut z m k b) = true := by
  unfold sramWf at h ⊢
  simp only [Bool.and_eq_true, List.all_eq_true] at h ⊢
  unfold sramPut
  split
  · exact ⟨Tbl.risesFrom_drop m none k h.1, fun c hc => h.2 c (Tbl.mem_drop m k c hc).1⟩
  · rename_i hb
    refine ⟨Tbl.risesFrom_insert m none k b h.1 (fun _ h => by cases h), fun c hc => ?_⟩
    rcases Tbl.mem_insert m k b c hc with rfl | h2
    · simp only [Bool.not_eq_true', Bool.and_eq_false_iff, beq_eq_false_iff_ne]
      by_cases hz : b = 0
      · right; simpa [hz] using hb
      · left; exact hz
    · exact h.2 c h2

theorem sramWf_puts (z : List Nat) (bs : List Byte) (m : List Host.Cell) (k : Nat) (h : sramWf z m = true) : sramWf z (sramPuts z m k bs) = true := by
  induction bs generalizing m k with
  | nil => exact h
  | cons b bs ih => exact ih _ _ (sramWf_put z m k b h)

theorem Memory.wf_iff (s : State) : Memory.wf s = true ↔ gddrWf s.gddr = true ∧ sramWf s.zeroed s.sram = true := by
  unfold Memory.wf; rw [Bool.and_eq_true]

/-- A write of GDDR7 keeps the memories canonical. -/
theorem Memory.wf_gddrWrite (s : State) (a : Nat) (bs : List Byte) (h : Memory.wf s = true) : Memory.wf (s.gddrWrite a bs) = true := by
  rw [Memory.wf_iff] at h ⊢
  refine ⟨?_, h.2⟩
  unfold State.gddrWrite
  by_cases ha : a ≤ gddrSize
  · exact gddrWf_puts _ _ _ h.1 (by rw [List.length_take]; omega)
  · rw [show gddrSize - a = 0 by omega, List.take_zero]; exact h.1

/-- A write of a core's SRAM keeps the memories canonical. -/
theorem Memory.wf_sramWrite (s : State) (L a : Nat) (bs : List Byte) (h : Memory.wf s = true) : Memory.wf (s.sramWrite L a bs) = true := by
  unfold State.sramWrite
  split
  · rw [Memory.wf_iff] at h ⊢
    exact ⟨h.1, sramWf_puts _ _ _ _ h.2⟩
  · exact h

/-- Zeroing a core's SRAM keeps the memories canonical. -/
theorem Memory.wf_sramZero (s : State) (P : Nat) (h : Memory.wf s = true) : Memory.wf (s.sramZero P) = true := by
  rw [Memory.wf_iff] at h ⊢
  refine ⟨h.1, ?_⟩
  have h2 := h.2
  unfold sramWf at h2 ⊢
  simp only [Bool.and_eq_true, List.all_eq_true] at h2 ⊢
  unfold State.sramZero
  refine ⟨Tbl.risesFrom_filter _ _ _ h2.1, fun c hc => ?_⟩
  obtain ⟨hc1, hc2⟩ := List.mem_filter.mp hc
  have h3 := h2.2 c hc1
  simp only [bne_iff_ne, ne_eq] at hc2
  simp only [Bool.not_eq_true', Bool.and_eq_false_iff] at h3 ⊢
  refine h3.imp id fun h4 => ?_
  split
  · exact h4
  · rw [List.contains_eq_mem] at h4 ⊢
    simp only [decide_eq_false_iff_not, List.mem_append, List.mem_singleton, not_or] at h4 ⊢
    exact ⟨h4, hc2⟩

/-- Forgetting a range of GDDR7 keeps the memories canonical. -/
theorem Memory.wf_gddrForget (s : State) (f : Nat → Bool) (h : Memory.wf s = true) : Memory.wf (s.gddrForget f) = true := by
  rw [Memory.wf_iff] at h ⊢
  refine ⟨?_, h.2⟩
  have h1 := h.1
  unfold gddrWf at h1 ⊢
  simp only [Bool.and_eq_true, List.all_eq_true] at h1 ⊢
  exact ⟨Tbl.risesFrom_filter _ _ _ h1.1, fun c hc => h1.2 c (List.mem_filter.mp hc).1⟩

/-- A write at a local address keeps the memories canonical. -/
theorem Memory.wf_writeLocal (s : State) (a : Nat) (bs : List Byte) (h : Memory.wf s = true) : Memory.wf (s.writeLocal a bs) = true := by
  unfold State.writeLocal
  split
  · exact Memory.wf_gddrWrite s _ bs h
  · exact Memory.wf_sramWrite s _ _ bs h
  · exact h

end Sys2Proof.Machine
end

