-- ==== Sys2Proof/WellFormed.lean ====
section
/-! DEFINITION. The commands that a host, a partner or the module can form: sizes of frames, flits, ring entries and accesses. -/

namespace Sys2Proof

/-- Whether a received flit can be formed: 72 bytes, or at most 8 lanes. -/
def RxFlit.wf : RxFlit → Bool
  | .bytes bs => bs.length == 72
  | .line ls => decide (ls.length ≤ 8)

/-- Whether a command can be formed. The machine gives every command a meaning, well formed or not. -/
def Instr.wf : Instr → Bool
  | .registerWrite _ off size value => decide (off < 0x2000000) && decide (size ≤ 8) && decide (value < 2 ^ (8 * size))
  | .load _ => true
  | .baste _ => true
  | .drained _ => true
  | .discardBaste _ => true
  | .patternCheckDone _ => true
  | .arm _ => true
  | .seamCancel _ => true
  | .seamApply => true
  | .oldBankRelease => true
  | .coreEnable _ _ => true
  | .coreDisable _ _ => true
  | .zeroingDone _ => true
  | .coreShutdownDone _ => true
  | .coreStart _ _ => true
  | .coreHalted _ => true
  | .jobEnd _ => true
  | .nop _ _ => true
  | .halt _ _ => true
  | .jmp _ _ => true
  | .loop _ _ => true
  | .add _ _ => true
  | .sub _ _ => true
  | .and _ _ => true
  | .or _ _ => true
  | .xor _ _ => true
  | .shl _ _ => true
  | .shr _ _ => true
  | .sra _ _ => true
  | .mul _ _ => true
  | .min _ _ => true
  | .max _ _ => true
  | .li _ _ => true
  | .lih _ _ => true
  | .ldg _ _ => true
  | .stg _ _ => true
  | .vld _ _ => true
  | .vst _ _ => true
  | .ldw _ _ => true
  | .mma _ _ => true
  | .drain _ _ => true
  | .vadd _ _ => true
  | .vsub _ _ => true
  | .vmul _ _ => true
  | .vfma _ _ => true
  | .vmax _ _ => true
  | .vmin _ _ => true
  | .vcmp _ _ => true
  | .vsel _ _ => true
  | .vcvt _ _ => true
  | .vexp _ _ => true
  | .vrcp _ _ => true
  | .vrsq _ _ => true
  | .vred _ _ => true
  | .vbcast _ _ => true
  | .vmovg _ _ => true
  | .vmovv _ _ => true
  | .dmaq _ _ => true
  | .evwait _ _ => true
  | .evadd _ _ => true
  | .signal _ _ => true
  | .gbar _ _ => true
  | .sfence _ _ => true
  | .dmawait _ _ => true
  | .peq _ _ => true
  | .pne _ _ => true
  | .plt _ _ => true
  | .pge _ _ => true
  | .pltu _ _ => true
  | .pgeu _ _ => true
  | .ldws _ _ => true
  | .mmaz _ _ => true
  | .zmap _ _ => true
  | .skip _ _ => true
  | .topk _ _ => true
  | .slotset _ _ => true
  | .bclass _ _ => true
  | .emask _ _ => true
  | .engineOpDone _ _ => true
  | .evwaitSatisfied _ => true
  | .sfenceDone _ => true
  | .dmawaitDone _ => true
  | .gbarComplete _ => true
  | .copy _ _ _ => true
  | .fill _ _ _ => true
  | .fwrite _ _ _ => true
  | .fread _ _ _ => true
  | .racc _ _ _ => true
  | .mcast _ _ _ => true
  | .rsignal _ _ _ => true
  | .dispatch _ _ _ => true
  | .dispatchExpertSignal _ _ => true
  | .combineRecv _ _ _ => true
  | .combineTimeout _ _ => true
  | .combine _ _ _ => true
  | .ringpass _ _ _ => true
  | .allreduce _ _ _ => true
  | .reduce _ _ _ => true
  | .reduceScatter _ _ _ => true
  | .allgather _ _ _ => true
  | .broadcast _ _ _ => true
  | .barrier _ _ _ => true
  | .scalar _ _ _ => true
  | .permute _ _ _ => true
  | .backup _ _ _ => true
  | .descriptorComplete _ _ => true
  | .jobSubmit _ entry => entry.all fun e => e.length == 128
  | .jobAbort _ entry => entry.all fun e => e.length == 128
  | .sqNop _ entry => entry.all fun e => e.length == 128
  | .sqDoorbell _ _ => true
  | .cqDoorbell _ _ => true
  | .cqIntTimer _ => true
  | .ringEnable _ _ => true
  | .ringDisable _ _ => true
  | .memTrainStart _ => true
  | .trainingDone _ failCode failMap => decide (failCode ≤ 9) && decide (failMap < 16)
  | .memEnable _ => true
  | .memDisable _ => true
  | .memShutdownDone => true
  | .raccPacket _ => true
  | .gateTimeout _ => true
  | .tombstoneExpiry _ => true
  | .raccRetryResend _ _ => true
  | .lnkEnable _ _ => true
  | .lnkDisable _ _ => true
  | .portShutdownDone _ => true
  | .lnkRetrain _ _ => true
  | .lpRequest _ _ => true
  | .lpExitWrite _ _ => true
  | .lp1AutoIdle _ => true
  | .lp2ExitDone _ => true
  | .squelchWake _ => true
  | .identFrame _ bytes _ fom => bytes.length == 32 && decide (fom < 256)
  | .readyFrame _ bytes => bytes.length == 32
  | .eqFrame _ bytes fom => bytes.length == 32 && decide (fom < 256)
  | .loopReqFrame _ bytes => bytes.length == 32
  | .narrowFrame _ bytes => bytes.length == 32
  | .laneLock _ => true
  | .laneLockLoss _ _ => true
  | .fomMeasure _ fom => decide (fom < 256)
  | .eqAdaptEnd _ => true
  | .trainingStepTimeout _ => true
  | .failedRetryTimer _ => true
  | .markerBlock _ lanes skews => lanes.length == 8 && skews.length == 8
  | .markerIntervalEnd _ => true
  | .nullFlit _ rx => rx.wf
  | .dataFlit _ rx _ => rx.wf
  | .ctrlFlit _ rx _ => rx.wf
  | .creditFlit _ rx => rx.wf
  | .nak _ rx => rx.wf
  | .replayStart _ rx => rx.wf
  | .reqLp1 _ rx => rx.wf
  | .reqLp2 _ rx => rx.wf
  | .lpmAccept _ rx => rx.wf
  | .lpmRefuse _ rx => rx.wf
  | .wake _ rx => rx.wf
  | .lpmDisable _ rx => rx.wf
  | .pingStart _ _ => true
  | .pingRequest _ rx => rx.wf
  | .pingResponse _ rx => rx.wf
  | .fatalFlit _ rx => rx.wf
  | .ackTimeout _ => true
  | .nakTimeout _ => true
  | .creditWaitTimeout _ => true
  | .openPacketTimeout _ => true
  | .portUpHoldExpiry _ => true
  | .portPowerTurn _ => true
  | .ack => true
  | .retry => true
  | .refuse => true
  | .readReq _ => true
  | .readResp => true
  | .write => true
  | .rsignalPacket => true
  | .mcastPacket => true
  | .mcastResidueServe => true
  | .dispatchRow => true
  | .combineTerm _ => true
  | .ringBlock => true
  | .accChunk _ => true
  | .distChunk => true
  | .handoffChunk _ => true
  | .permuteData => true
  | .barrierArrive => true
  | .barrierRelease => true
  | .scalarAcc _ => true
  | .scalarDist => true
  | .chainCredit => true
  | .chainAbort => true
  | .backupAct => true
  | .standbyRelease => true
  | .repairReq => true
  | .probe => true
  | .probeResp => true
  | .nbrMsg => true
  | .outputSlot _ => true
  | .gateWindowChange _ => true
  | .cellGrant _ => true
  | .congestionHoldEnd _ => true
  | .ageScan => true
  | .rsqTimeout _ => true
  | .rsqIdleRelease _ => true
  | .sweepDone => true
  | .reclaimTimeout => true
  | .audit _ => true
  | .auditPeriodTimer => true
  | .auditDone => true
  | .swcEnable _ => true
  | .swcDisable _ => true
  | .schClear _ => true
  | .colEnable _ => true
  | .colDisable _ => true
  | .colShutdownDone => true
  | .domainEnable _ _ => true
  | .domainDisable _ _ => true
  | .domainShutdownDone _ => true
  | .ticketStart _ _ => true
  | .stagingReserved _ => true
  | .chunkSend _ _ => true
  | .orderTimeout _ => true
  | .chainTimeout _ => true
  | .backupGo _ => true
  | .heldActivationTimeout => true
  | .standbyTimeout _ => true
  | .replayResume _ => true
  | .replayCaughtUp _ => true
  | .detStartArm _ => true
  | .detStartCancel _ => true
  | .startBarrierRelease => true
  | .memShdCfgValid _ _ => true
  | .rollback _ _ => true
  | .permuteWaitEnd _ => true
  | .permuteBlockedTimeout _ => true
  | .permuteComplete _ => true
  | .permuteProgressTimeout _ => true
  | .xlateHoldExpiry _ => true
  | .powerOnReset => true
  | .linkReset => true
  | .fullReset _ => true
  | .deviceReset _ => true
  | .flr => true
  | .rootPllLock modData => modData.length ≥ 9
  | .flashSlotRead headers _ => headers.length ≤ 64
  | .bootReady _ => true
  | .recoveryGo _ => true
  | .recoveryImageRead _ => true
  | .sendProbe _ => true
  | .sendNbrMsg _ => true
  | .nbrRxPop _ => true
  | .syntonGo _ => true
  | .syntonMeasureDone _ => true
  | .syntonSlewDone => true
  | .syntonSourceLost => true
  | .holdoverRevertTimeout => true
  | .clkRevert _ => true
  | .ftimeStep _ => true
  | .ftimeSlew _ => true
  | .slewDone => true
  | .fltFenceCmd _ => true
  | .forceFatal _ => true
  | .safeStateReached => true
  | .pllUnlock => true
  | .thermalTrip sensor temp => decide (sensor < 40) && decide (-32768 ≤ temp ∧ temp < 32768)
  | .powerFault rail => decide (rail ≤ 8)
  | .fwWatchdog => true
  | .faultPulseEnd => true
  | .snap _ => true
  | .snapArm _ => true
  | .snapTimeReached => true
  | .resetAll _ => true
  | .traceEnable _ => true
  | .traceDisable _ => true
  | .traceTrigger _ => true
  | .traceMark _ => true
  | .tracePostDone => true
  | .traceDrainDone => true
  | .bar2Read _ len _ => decide (0 < len) && decide (len ≤ 4096)
  | .bar2Write _ bytes enables => decide (bytes.length ≤ 4096) && enables.length == bytes.length
  | .attest _ => true
  | .fwUpdate _ _ => true
  | .pufRefresh _ => true
  | .debugUnlock _ => true
  | .mailboxDone => true
  | .secLock _ => true
  | .msixUnmask _ => true
  | .smbusReadByte code _ => decide (code < 256)
  | .smbusReadWord code _ => decide (code < 256)
  | .smbusBlockRead code _ => decide (code < 256)
  | .smbusWrite bytes => !bytes.isEmpty
  | .bypass _ => true
  | .idcode => true
  | .samplePreload _ => true
  | .highz => true
  | .extest _ => true
  | .acInstruction _ => true
  | .debugInstruction _ => true
  | .testLogicReset => true
  | .hotSwapOn => true
  | .inputOff => true
  | .powerSample tenths mv current => decide (tenths < 65536) && decide (mv < 65536) && decide (current < 65536)
  | .limiterCheck temps => temps.length == 40 && temps.all fun t => decide (-32768 ≤ t ∧ t < 32768)
  | .noAckAgeLimit _ _ => true
  | .jobLaunch _ => true
  | .completionTimeout _ => true
  | .latencySample => true
  | .releasePointWait _ => true
  | .deviceResetDone => true

end Sys2Proof
end

