-- ==== Sys2Proof/Tests/Slice0.lean ====
section
/-! SUPPORT. Small tests of the model, and for every statement with hypotheses a state and operands that meet them. The expected values are worked
out by hand from the rules of spec/ that each test names. -/

namespace Sys2Proof.Tests

open Sys2Proof Machine

set_option Elab.async false
set_option autoImplicit false

/-! Helpers -/

/-- What a function shows of the next state; none where the command stops. -/
def got {α : Type} (o : Host.Outcome State Fault Refusal) (f : State → α) : Option α :=
  match o with
  | .next t => some (f t)
  | _ => none

/-- The block in service: the boot has reached READY. -/
def up : State := (State.reset.set PWR_BOOT_STATUS_STAGE 6)

/-- The job of the sequencer tests: core 0 alone, with all of its SRAM. -/
def job : Job := { key := 0, id := 7, group := 0, cores := [0], sram := 0x200000, launched := true }

/-- Core 0 runs a job, its SRAM is zero but for the word at index 0. -/
def running (w : Nat) (c : Core := {}) : State :=
  (({ up with cores := [(0, { c with job := some 0 })], jobs := [job], zeroed := [0] }).set (CORE_STATUS_STATE 0) 3).sramWrite 0 0 (leBytes 8 w)

/-- An instruction word by R60 and R61: class, operation, the d, a and b fields, bits [32:0]. -/
def word (cls op d a b low : Nat) : Nat := cls * 2 ^ 60 + op * 2 ^ 48 + d * 2 ^ 43 + a * 2 ^ 38 + b * 2 ^ 33 + low

/-- Whether core L issues an instruction. -/
def issuesB (s : State) (L : Nat) (bad : Option Nat) (cls op : Nat) (legal : Nat → Bool) (uses : Nat → Uses) : Bool :=
  s.canIssue L && s.fetchFault L bad == none && wClass (s.wordOf L) == cls && wOp (s.wordOf L) == op && legal (s.wordOf L) &&
    (s.core L).conflict { p := [wPred (s.wordOf L)] } == false && (s.core L).holds (s.wordOf L) &&
    (s.core L).conflict (uses (s.wordOf L)) == false

theorem issues_of {s : State} {L : Nat} {bad : Option Nat} {cls op : Nat} {legal : Nat → Bool} {uses : Nat → Uses}
    (h : issuesB s L bad cls op legal uses = true) : Issues s L bad cls op legal uses := by
  simp only [issuesB, Bool.and_eq_true, beq_iff_eq] at h
  obtain ⟨⟨⟨⟨⟨⟨⟨a, b⟩, c⟩, d⟩, e⟩, f⟩, g⟩, i⟩ := h
  exact ⟨a, b, c, d, e, f, g, i⟩

theorem quiet_of {s : State} (h : (s.fault.queue.isEmpty && s.switch.failed.isEmpty) = true) : Quiet s := by
  simpa [Quiet, List.isEmpty_iff] using h

/-- As running, over SRAM bytes given by offset. -/
def runningOver (sram : List (Nat × Byte)) (w : Nat) (c : Core := {}) : State :=
  ({ running 0 c with sram := sram }).sramWrite 0 0 (leBytes 8 w)

/-- A job that holds the device's sequence slot 3 as its slot 0. -/
def withSlot (x : Slot) (s : State) : State := { s with jobs := [{ job with slots := [3] }], slots := [(3, x)] }

/-! The sequencer (R57 to R63) -/

-- ADD G3, G1, G2 written out: class 1, d = 3 at bit 43, a = 1 at bit 38, b = 2 at bit 33; the sum wraps at 64 bits.
theorem test_add_wraps :
    got (exec (.add 0 none) (running 0x1000184400000000 { g := [(1, 2 ^ 64 - 1), (2, 3)] })) (fun t => ((t.core 0).gval 3, t.get (SEQ_PC_INDEX 0)))
      = some (2, 1) := by decide +kernel

-- ADD G3, G1, #-2: bit 32 selects the immediate, sign-extended.
theorem test_add_immediate :
    got (exec (.add 0 none) (running 0x10001841FFFFFFFE { g := [(1, 7)] })) (fun t => (t.core 0).gval 3) = some 5 := by decide +kernel

-- SUB G3, G3, G1: the source is the destination, the difference wraps.
theorem test_sub_wraps :
    got (exec (.sub 0 none) (running (word 1 1 3 3 1 0) { g := [(1, 4), (3, 1)] })) (fun t => (t.core 0).gval 3) = some (2 ^ 64 - 3) := by
  decide +kernel

theorem test_and : got (exec (.and 0 none) (running (word 1 2 3 1 2 0) { g := [(1, 0xFF0), (2, 0x0FF)] })) (fun t => (t.core 0).gval 3) = some 0xF0 := by
  decide +kernel

theorem test_or : got (exec (.or 0 none) (running (word 1 3 3 1 2 0) { g := [(1, 0xF00), (2, 0x00F)] })) (fun t => (t.core 0).gval 3) = some 0xF0F := by
  decide +kernel

theorem test_xor : got (exec (.xor 0 none) (running (word 1 4 3 1 2 0) { g := [(1, 0xFF0), (2, 0x0FF)] })) (fun t => (t.core 0).gval 3) = some 0xF0F := by
  decide +kernel

theorem test_shl : got (exec (.shl 0 none) (running (word 1 5 3 1 2 0) { g := [(1, 3), (2, 63)] })) (fun t => (t.core 0).gval 3) = some (2 ^ 63) := by
  decide +kernel

theorem test_shr : got (exec (.shr 0 none) (running (word 1 6 3 1 2 0) { g := [(1, 2 ^ 63), (2, 62)] })) (fun t => (t.core 0).gval 3) = some 2 := by
  decide +kernel

-- SRA keeps the sign: -8 shifted right by 1 is -4.
theorem test_sra :
    got (exec (.sra 0 none) (running (word 1 7 3 1 2 0) { g := [(1, 2 ^ 64 - 8), (2, 1)] })) (fun t => (t.core 0).gval 3) = some (2 ^ 64 - 4) := by
  decide +kernel

-- MUL keeps the low 64 bits: 2^63 times 3.
theorem test_mul_low :
    got (exec (.mul 0 none) (running (word 1 8 3 1 2 0) { g := [(1, 2 ^ 63), (2, 3)] })) (fun t => (t.core 0).gval 3) = some (2 ^ 63) := by decide +kernel

-- LI G2, #0x80000000 sign-extends; LIH replaces bits [63:32].
theorem test_li : got (exec (.li 0 none) (running (word 1 11 2 0 0 0x80000000))) (fun t => (t.core 0).gval 2) = some 0xFFFFFFFF80000000 := by
  decide +kernel

theorem test_lih :
    got (exec (.lih 0 none) (running (word 1 12 2 0 0 0x12345678) { g := [(2, 0xFFFFFFFF00000009)] })) (fun t => (t.core 0).gval 2)
      = some 0x1234567800000009 := by decide +kernel

-- A write of G0 is discarded (R57).
theorem test_add_g0 :
    got (exec (.add 0 none) (running (word 1 0 0 1 2 0) { g := [(1, 5), (2, 6)] })) (fun t => ((t.core 0).gval 0, t.get (SEQ_PC_INDEX 0))) = some (0, 1) := by
  decide +kernel

-- Signed and unsigned comparison of -1 and 1, into P1 and P2.
theorem test_plt :
    got (exec (.plt 0 none) (running (word 7 2 1 1 2 0) { g := [(1, 2 ^ 64 - 1), (2, 1)] })) (fun t => (t.core 0).pval 1) = some true := by decide +kernel

theorem test_pltu :
    got (exec (.pltu 0 none) (running (word 7 4 1 1 2 0) { g := [(1, 2 ^ 64 - 1), (2, 1)] })) (fun t => (t.core 0).pval 1) = some false := by decide +kernel

theorem test_pge : got (exec (.pge 0 none) (running (word 7 3 2 1 1 0) { g := [(1, 9)] })) (fun t => (t.core 0).pval 2) = some true := by decide +kernel

theorem test_pgeu : got (exec (.pgeu 0 none) (running (word 7 5 2 1 0 0) { g := [(1, 9)] })) (fun t => (t.core 0).pval 2) = some true := by decide +kernel

theorem test_peq_p0 : got (exec (.peq 0 none) (running (word 7 0 0 1 2 0) { g := [(1, 1)] })) (fun t => (t.core 0).pval 0) = some true := by decide +kernel

theorem test_pne : got (exec (.pne 0 none) (running (word 7 1 3 1 2 0) { g := [(1, 1)] })) (fun t => (t.core 0).pval 3) = some true := by decide +kernel

-- A false predicate retires the word as a no-op (R60): PRED = P1, which is false, at bit 56.
theorem test_skip_predicate :
    got (exec (.add 0 none) (running (word 1 0 3 1 2 0 + 2 ^ 56) { g := [(1, 5), (2, 6)] })) (fun t => ((t.core 0).gval 3, t.get (SEQ_PC_INDEX 0)))
      = some (0, 1) := by decide +kernel

-- A reserved class faults with 0x01 whatever the predicate (R60, R63).
theorem test_illegal_class :
    got (exec (.nop 0 none) (running (9 * 2 ^ 60 + 2 ^ 56))) (fun t => (t.cst 0, t.get (SEQ_FAULT_CODE 0), (t.jobs.head?.map (·.ends)).getD []))
      = some (5, 1, [(0, 1)]) := by decide +kernel

-- A nonzero unused field is an illegal operand (R61).
theorem test_nop_field : got (exec (.nop 0 none) (running 1)) (fun t => (t.cst 0, t.get (SEQ_FAULT_CODE 0))) = some (5, 3) := by decide +kernel

-- JMP by register, modulo the 18 bits of the index.
theorem test_jmp :
    got (exec (.jmp 0 none) (running (word 0 2 0 1 0 (2 ^ 32)) { g := [(1, 2 ^ 18 + 5)] })) (fun t => t.get (SEQ_PC_INDEX 0)) = some 5 := by decide +kernel

-- LOOP 128, body 4, of the worked example of R63; a count of 0 skips the body.
theorem test_loop :
    got (exec (.loop 0 none) (running (word 0 3 0 0 0 (4 * 2 ^ 16 + 128)))) (fun t => ((t.core 0).loops.map fun l => (l.start, l.stop, l.left), t.get (SEQ_PC_INDEX 0)))
      = some ([(1, 5, 128)], 1) := by decide +kernel

theorem test_loop_zero : got (exec (.loop 0 none) (running (word 0 3 0 0 0 (4 * 2 ^ 16)))) (fun t => t.get (SEQ_PC_INDEX 0)) = some 5 := by decide +kernel

-- HALT holds issue until the engines are empty (R72).
theorem test_halt : got (exec (.halt 0 none) (running (word 0 1 0 0 0 0))) (fun t => ((t.core 0).wait, t.cst 0)) = some (some .halt, 3) := by decide +kernel

theorem test_core_halted :
    got (exec (.coreHalted 0) (running 0 { wait := some .halt })) (fun t => t.cst 0) = some 4 := by decide +kernel

-- STG waits on the scalar unit; a load of the same unit sees it (R62).
theorem test_stg :
    got (exec (.stg 0 none) (running (word 2 1 3 1 0 8) { g := [(1, 0x100), (3, 0x1122334455667788)] }))
      (fun t => (((t.core 0).ops.map (·.stores)), t.engRead 0 .scalar 0x108 2, t.engRead 0 .mxe 0x108 2))
      = some ([[(0x108, leBytes 8 0x1122334455667788)]], [0x88, 0x77], [0, 0]) := by decide +kernel

theorem test_ldg :
    got (exec (.ldg 0 none) ((running (word 2 0 3 1 0 0xFFFFFFF8) { g := [(1, 0x108)] }).sramWrite 0 0x100 [0x88, 0x77])) (fun t => (t.core 0).gval 3)
      = some 0x7788 := by decide +kernel

-- A misaligned offset is an illegal operand, one beyond the grant a range fault (R61, R63).
theorem test_ldg_misaligned :
    got (exec (.ldg 0 none) (running (word 2 0 3 1 0 4) { g := [(1, 0x100)] })) (fun t => t.get (SEQ_FAULT_CODE 0)) = some 3 := by decide +kernel

theorem test_stg_range :
    got (exec (.stg 0 none) (running (word 2 1 3 1 0 0) { g := [(1, 0x200000)] })) (fun t => t.get (SEQ_FAULT_CODE 0)) = some 4 := by decide +kernel

theorem test_vld :
    got (exec (.vld 0 none) ((running (word 2 2 5 1 0 0) { g := [(1, 0x40)] }).sramWrite 0 0x40 (leBytes 4 7 ++ leBytes 4 9)))
      (fun t => ((t.core 0).vreg 5).take 3) = some [7, 9, 0] := by decide +kernel

theorem test_vst :
    got (exec (.vst 0 none) (running (word 2 3 5 1 0 0) { g := [(1, 0x40)], v := [(5, 0x01020304 :: zeros 63)] }))
      (fun t => (t.engRead 0 .vxu 0x40 5)) = some [4, 3, 2, 1, 0] := by decide +kernel

-- Vector arithmetic in FP32: 1 + 2 = 3, 1 - 2 = -1, 1.5 × 2 = 3, and 0 × infinity is NaN with INVALID.
theorem test_vadd :
    got (exec (.vadd 0 none) (running (word 4 0 3 1 2 0) { v := [(1, 0x3F800000 :: zeros 63), (2, 0x40000000 :: zeros 63)] }))
      (fun t => ((t.core 0).vreg 3).take 2) = some [0x40400000, 0] := by decide +kernel

theorem test_vsub :
    got (exec (.vsub 0 none) (running (word 4 1 3 1 2 0) { v := [(1, 0x3F800000 :: zeros 63), (2, 0x40000000 :: zeros 63)] }))
      (fun t => ((t.core 0).vreg 3).take 2) = some [0xBF800000, 0] := by decide +kernel

theorem test_vmul :
    got (exec (.vmul 0 none) (running (word 4 2 3 1 2 0) { v := [(1, 0x3FC00000 :: 0x7F800000 :: zeros 62), (2, 0x40000000 :: zeros 63)] }))
      (fun t => (((t.core 0).vreg 3).take 3, t.flag (CORE_EXC_INVALID 0))) = some ([0x40400000, 0x7FC00000, 0], true) := by decide +kernel

theorem test_vmax :
    got (exec (.vmax 0 none) (running (word 4 4 3 1 2 0) { v := [(1, 0xBF800000 :: zeros 63), (2, 0xC0000000 :: zeros 63)] }))
      (fun t => ((t.core 0).vreg 3).take 1) = some [0xBF800000] := by decide +kernel

theorem test_vmin :
    got (exec (.vmin 0 none) (running (word 4 5 3 1 2 0) { v := [(1, 0xBF800000 :: zeros 63), (2, 0xC0000000 :: zeros 63)] }))
      (fun t => ((t.core 0).vreg 3).take 1) = some [0xC0000000] := by decide +kernel

-- VFMA: 2 × 3 + 1 = 7, one rounding.
theorem test_vfma :
    got (exec (.vfma 0 none) (running (word 4 3 4 1 2 (3 * 2 ^ 28))
      { v := [(1, 0x40000000 :: zeros 63), (2, 0x40400000 :: zeros 63), (3, 0x3F800000 :: zeros 63)] }))
      (fun t => ((t.core 0).vreg 4).take 2) = some [0x40E00000, 0] := by decide +kernel

-- VMOVV copies; VCVT of 1.0 into BF16 (code 1 in FMT, source code 0 in c).
theorem test_vmovv :
    got (exec (.vmovv 0 none) (running (word 4 15 4 1 0 0) { v := [(1, 5 :: zeros 63)] })) (fun t => ((t.core 0).vreg 4).take 2) = some [5, 0] := by
  decide +kernel

-- EVADD wraps at 32 bits; EVWAIT takes a signed difference (R61).
theorem test_evadd : got (exec (.evadd 0 none) (running (word 6 1 4 0 0 3) { evt := [(4, 2 ^ 32 - 1)] })) (fun t => (t.core 0).evtVal 4) = some 2 := by
  decide +kernel

theorem test_evwait_passes :
    got (exec (.evwait 0 none) (running (word 6 0 4 1 0 0) { evt := [(4, 1)], g := [(1, 2 ^ 32 - 1)] })) (fun t => ((t.core 0).wait, t.get (SEQ_PC_INDEX 0)))
      = some (none, 1) := by decide +kernel

theorem test_evwait_holds :
    got (exec (.evwait 0 none) (running (word 6 0 4 1 0 0) { g := [(1, 1)] })) (fun t => ((t.core 0).wait, t.flag (CORE_STATUS_STALLED 0), t.get (CORE_STATUS_STALL 0)))
      = some (some (.evwait 4 1), true, 3) := by decide +kernel

theorem test_signal_self :
    got (exec (.signal 0 none) (running (word 6 2 4 1 0 5))) (fun t => (t.core 0).evtVal 4) = some 5 := by decide +kernel

-- An SRAM store is visible to every engine once its engine's operation ends (R62).
theorem test_engine_op_done :
    got (exec (.engineOpDone 0 0) (running 0 { ops := [{ eng := .scalar, stores := [(0x108, [7])] }] })) (fun t => (t.sramByte 0 0x108, (t.core 0).ops.length))
      = some (7, 0) := by decide +kernel

theorem test_sfence :
    got (exec (.sfence 0 none) (running (word 6 4 0 0 0 0) { ops := [{ eng := .scalar, stores := [(0x108, [7])] }] })) (fun t => (t.core 0).wait)
      = some (some .sfence) := by decide +kernel

-- SKIP 3 at index 0 goes on at index 4 (R90); a count of 0 is illegal.
theorem test_skip : got (exec (.skip 0 none) (running (word 8 3 0 0 0 3))) (fun t => t.get (SEQ_PC_INDEX 0)) = some 4 := by decide +kernel

theorem test_skip_zero : got (exec (.skip 0 none) (running (word 8 3 0 0 0 0))) (fun t => t.get (SEQ_FAULT_CODE 0)) = some 3 := by decide +kernel

-- DMAQ puts the 64 bytes at G a into queue 2 (bits [47:46]).
theorem test_dmaq :
    got (exec (.dmaq 0 none) ((running (word 5 0 0 1 0 (2 * 2 ^ 46)) { g := [(1, 0x40)] }).sramWrite 0 0x40 [1]))
      (fun t => ((t.core 0).queues.map (·.length), ((t.core 0).queues.getD 2 []).map (·.op))) = some ([0, 0, 1, 0], [1]) := by decide +kernel

/-! Matrix engine and conditional instructions (R51, R85 to R97, R116) -/

-- INT8 row (2, 3, 0, …) and a tile of ones: every column sums to 5, onto 7 with ACCUM.
theorem test_mma_element :
    let t : WTile := { fmt := 0xA, mode := 0, addr := 0, bytes := List.replicate 1024 1 }
    (elemStep .ints false 32 (actVals 0xA 32 ([2, 3] ++ List.replicate 30 0)) (tileColumn t 0 31) (fun _ => true) 7).acc = 12 := by decide +kernel

-- MMAZ takes the tile in the shadow buffer and holds tile 1 busy (R52, R87).
theorem test_mmaz :
    got (exec (.mmaz 0 none) (runningOver [(0x1000, 2)] (word 8 1 1 1 2 (3 * 2 ^ 28 + 0xA * 2 ^ 24))
      { g := [(1, 0x1000), (2, 32), (3, 0x2000)], wShadow := some { fmt := 0xA, mode := 0, addr := 0, bytes := List.replicate 1024 1 } }))
      (fun t => ((t.core 0).wShadow.isNone, (t.core 0).wActive.map (·.fmt), (t.core 0).ops.map (·.accs))) = some (true, some 0xA, [[1]]) := by
  decide +kernel

theorem test_ldw :
    got (exec (.ldw 0 none) (running (word 3 0 0 1 0 (0xA * 2 ^ 25)) { g := [(1, 0x1000)] }))
      (fun t => ((t.core 0).wShadow.map fun x => (x.fmt, x.mode, x.addr, x.bytes.length))) = some (some (0xA, 0, 0x1000, 1024)) := by decide +kernel

-- Indices that do not ascend are an illegal operand (R84).
theorem test_ldws_indices :
    got (exec (.ldws 0 none) (running (word 8 0 0 1 0 (0xA * 2 ^ 24 + 1 * 2 ^ 22)) { g := [(1, 0x1000)] })) (fun t => t.get (SEQ_FAULT_CODE 0))
      = some 3 := by decide +kernel

-- One INT32 row of 128 bytes at G a; the tile is busy until the engine ends.
theorem test_drain :
    got (exec (.drain 0 none) (running (word 3 2 0 1 0 (8 * 2 ^ 25)) { g := [(1, 0x1000)], acc := [(0, 0x105 :: zeros 4095)], accInt := 1 }))
      (fun t => (((t.core 0).ops.map (·.stores)).flatten.map fun x => (x.1, x.2.length, x.2.take 3), (t.core 0).ops.map (·.accs)))
      = some ([(0x1000, 128, [5, 1, 0])], [[0]]) := by decide +kernel

theorem test_zmap :
    got (exec (.zmap 0 none) (runningOver [(0x1020, 9)] (word 8 2 0 1 2 (3 * 2 ^ 28 + 0xA * 2 ^ 24 + 1 * 2 ^ 16))
      { g := [(1, 0x1000), (2, 32), (3, 0x2000)] })) (fun t => ((t.core 0).ops.map (·.stores)).flatten) = some [(0x2000, [2])] := by decide +kernel

-- Two logits, 1.0 and 2.0, RAW: expert 1 with weight 2.0, for the token at position 9.
theorem test_topk :
    got (exec (.topk 0 none) (runningOver [(0x1002, 0x80), (0x1003, 0x3F), (0x1007, 0x40)] (word 8 4 4 1 2 (3 * 2 ^ 28 + 1 * 2 ^ 20 + 2 * 2 ^ 15))
      { g := [(1, 0x1000), (2, 1), (3, 0x2000), (4, 9)] }))
      (fun t => ((t.core 0).ops.map (·.stores)).flatten.map fun x => [x.1, x.2.length, field x.2 0 4, field x.2 4 1, field x.2 8 1, field x.2 0x10 4])
      = some [[0x2000, 48, 9, 1, 1, 0x40000000]] := by decide +kernel

theorem test_slotset :
    got (exec (.slotset 0 none) (withSlot {} (running (word 8 5 0 1 2 (3 * 2 ^ 28))
      { g := [(1, 128 * 2 ^ 32 + 256), (2, 1 * 2 ^ 24 + 128), (3, 1)] })))
      (fun t => (t.get (CORE_SLOT_STATE_SEQ_LEN 3), t.get (CORE_SLOT_POS_Q_BASE 3), t.get (CORE_SLOT_POS_MASK 3))) = some (256, 128, 1) := by
  decide +kernel

-- CAUSAL: the diagonal pair is PARTIAL, a key block after the query block is SKIP (R93).
theorem test_bclass_diagonal :
    got (exec (.bclass 0 none) (withSlot { seqLen := 512, mask := 1 } (running (word 8 6 1 1 0 0) { g := [(1, 2 * 2 ^ 16 + 2)] })))
      (fun t => ((t.core 0).pval 1, (t.core 0).pval 2)) = some (true, true) := by decide +kernel

theorem test_bclass_skip :
    got (exec (.bclass 0 none) (withSlot { seqLen := 512, mask := 1 } (running (word 8 6 1 1 0 0) { g := [(1, 3 * 2 ^ 16 + 2)] })))
      (fun t => ((t.core 0).pval 1, (t.core 0).pval 2)) = some (false, false) := by decide +kernel

-- Row r of the diagonal pair of a CAUSAL slot has bits 0 to r set (R94).
theorem test_emask_row :
    let m := ({ seqLen := 512, mask := 1 } : Slot).elemMask 0 0
    (m.getD 0 false, m.getD 1 true, m.getD (128 * 9 + 9) false, m.getD (128 * 9 + 10) true) = (true, false, true, false) := by decide +kernel

/-! States that meet the hypotheses of the statements about the sequencer -/

theorem test_hyp_ScalarResults : ∀ op < 11, Quiet (running (word 1 op 3 1 2 0)) ∧ Issues (running (word 1 op 3 1 2 0)) 0 none 1 op scalarLegal scalarUses :=
  fun op h => ⟨quiet_of (by revert op; decide +kernel), issues_of (by revert op; decide +kernel)⟩

theorem test_hyp_Immediates : ∀ op < 2,
    Issues (running (word 1 (11 + op) 3 0 0 0x80000000)) 0 none 1 (11 + op) liLegal (fun w => { g := [wD w] }) :=
  fun op h => issues_of (by revert op; decide +kernel)

theorem test_hyp_Predicates : ∀ op < 6,
    Issues (running (word 7 op 7 1 2 0)) 0 none 7 op predLegal (fun w => { g := wA w :: opBReads w, p := [wPd w] }) :=
  fun op h => issues_of (by revert op; decide +kernel)

-- For every row of the sequencer, a word whose predicate P1 is false.
theorem test_hyp_FalsePredicateSkips : (sequencerRows.all fun row =>
    let w := row.2.1 * 2 ^ 60 + row.2.2.1 * 2 ^ 48 + 2 ^ 56
    let s := running w
    !row.2.2.2 w || (s.canIssue 0 && s.fetchFault 0 none == none && !(s.core 0).conflict { p := [wPred w] } && !(s.core 0).holds w)) = true := by
  decide +kernel

-- An index beyond the grant, a reserved class, an undefined code, a nonzero unused field, and a word of another row.
theorem test_hyp_IllegalWords :
    (running 0).canIssue 0 = true ∧ ((running 0).set (SEQ_PC_INDEX 0) (2 ^ 18 - 1)).fetchFault 0 none = none ∧
      ({ running 0 with jobs := [{ job with sram := 0 }] }).fetchFault 0 none = some 4 ∧ wClass ((running (9 * 2 ^ 60)).wordOf 0) = 9 ∧
      definedOp 0 4 = false ∧ wOp ((running (4 * 2 ^ 48)).wordOf 0) = 4 ∧ onlyFields ((running 1).wordOf 0) [] = false ∧
      definedOp (wClass ((running (word 1 0 0 0 0 0)).wordOf 0)) (wOp ((running (word 1 0 0 0 0 0)).wordOf 0)) = true := by decide +kernel

theorem test_hyp_ControlFlow :
    Issues (running 0) 0 none 0 0 (fun w => onlyFields w []) (fun _ => {}) ∧
    Issues (running (word 0 2 0 1 0 (2 ^ 32))) 0 none 0 2 jmpLegal (fun w => { g := if wSel w then [wA w] else [] }) ∧
    (∀ len < 2, ∀ n < 2, Issues (running (word 0 3 0 0 0 (len * 2 ^ 16 + n))) 0 none 0 3 jmpLegal (fun _ => {}) ∨
      Issues (running (word 0 3 0 0 0 (len * 2 ^ 16 + n))) 0 none 0 3 loopLegal (fun w => { g := if wSel w then [wA w] else [] })) ∧
    Issues (running (word 8 3 0 0 0 255)) 0 none 8 3 (fun w => onlyFields w [(0, 8)] && bits w 0 8 != 0) (fun _ => {}) ∧
    Issues (running (word 0 1 0 0 0 0)) 0 none 0 1 (fun w => onlyFields w []) (fun _ => {}) := by
  refine ⟨issues_of (by decide +kernel), issues_of (by decide +kernel), fun len h n k => Or.inr (issues_of ?_), issues_of (by decide +kernel),
    issues_of (by decide +kernel)⟩
  revert n len; decide +kernel

-- A fifth nested loop: four loops are open.
theorem test_hyp_LoopOverflow :
    let l : Loop := { start := 0, stop := 9, left := 2 }
    Issues (running (word 0 3 0 0 0 (2 ^ 16 + 1)) { loops := [l, l, l, l] }) 0 none 0 3 loopLegal (fun w => { g := if wSel w then [wA w] else [] }) :=
  issues_of (by decide +kernel)

-- The last aligned doubleword and vector of the grant.
theorem test_hyp_LoadsAndStores :
    (∀ op < 2, Issues (running (word 2 op 3 1 0 0) { g := [(1, 0x1FFFF8)] }) 0 none 2 op ldstLegal (fun w => { g := [wD w, wA w] }) ∧
      LdstOk (running (word 2 op 3 1 0 0) { g := [(1, 0x1FFFF8)] }) 0 none (word 2 op 3 1 0 0) 8 8) ∧
    ∀ op < 2, Issues (running (word 2 (2 + op) 3 1 0 0) { g := [(1, 0x1FFF00)] }) 0 none 2 (2 + op) ldstLegal (fun w => { g := [wA w], v := [wD w] }) ∧
      LdstOk (running (word 2 (2 + op) 3 1 0 0) { g := [(1, 0x1FFF00)] }) 0 none (word 2 (2 + op) 3 1 0 0) 256 64 := by
  refine ⟨fun op h => ⟨issues_of ?_, ?_, ?_, fun _ h => by cases h⟩, fun op h => ⟨issues_of ?_, ?_, ?_, fun _ h => by cases h⟩⟩ <;>
    revert op <;> decide +kernel

theorem test_hyp_Vectors :
    (∀ op ∈ [0, 1, 2, 4, 5], Issues (running (word 4 op 3 1 2 0)) 0 none 4 op (v2Legal (op < 3)) (fun w => { v := [wD w, wA w, wB w] })) ∧
    (∀ op ∈ [9, 10, 11], Issues (running (word 4 op 3 1 0 0)) 0 none 4 op v1Legal (fun w => { v := [wD w, wA w] })) ∧
    (∀ op ∈ [3, 7], Issues (running (word 4 op 3 1 2 (4 * 2 ^ 28))) 0 none 4 op (v3Legal (op == 3)) (fun w => { v := [wD w, wA w, wB w, wC w] })) ∧
    Issues (running (word 4 6 3 1 2 0)) 0 none 4 6 (v3Legal false) (fun w => { v := [wD w, wA w, wB w] }) ∧
    Issues (running (word 4 12 3 1 0 0)) 0 none 4 12 vredLegal (fun w => { v := [wD w, wA w] }) ∧
    Issues (running (word 4 15 3 1 0 0)) 0 none 4 15 (fun w => onlyFields w [(43, 5), (38, 5)]) (fun w => { v := [wD w, wA w] }) ∧
    Issues (running (word 4 8 3 1 0 (2 ^ 24))) 0 none 4 8 vcvtLegal (fun w => { v := [wD w, wA w], g := if vRound w = 2 then [wB w] else [] }) := by
  refine ⟨fun op h => issues_of ?_, fun op h => issues_of ?_, fun op h => issues_of ?_, issues_of ?_, issues_of ?_, issues_of ?_, issues_of ?_⟩ <;>
    (try revert op) <;> decide +kernel

-- VBCAST and VMOVG issue whichever register file their free shape reads.
theorem test_hyp_Moves :
    Issues (running (word 4 13 3 1 0 0)) 0 none 4 13 vmoveLegal
      (fun w => { v := if Config.bcastFromG (wB w) then [wD w] else [wD w, wA w], g := if Config.bcastFromG (wB w) then [wA w] else [] }) ∧
    Issues (running (word 4 14 3 1 0 0)) 0 none 4 14 vmoveLegal
      (fun w => if Config.movgToG (wC w) then { g := [wD w], v := [wA w] } else { g := [wA w], v := [wD w] }) := by
  constructor
  · refine ⟨?_, ?_, ?_, ?_, ?_, ?_, ?_, ?_⟩
    all_goals decide +kernel
  · refine ⟨?_, ?_, ?_, ?_, ?_, ?_, ?_, ?_⟩
    all_goals decide +kernel

theorem test_hyp_Machine :
    State.reset.pending = [] ∧ State.reset.boot.powered = true ∧ Quiet State.reset ∧ (∃ t, step State.reset = .next t) ∧
      ({ State.reset with boot := {} } : State).boot.powered = false ∧
      ({ State.reset with pending := [.slewDone, .idcode] } : State).pending = [.slewDone, .idcode] ∧
      bit (State.reset.get SEC_STATUS_PERMS) 0 = false :=
  ⟨rfl, rfl, ⟨rfl, rfl⟩, ⟨_, rfl⟩, rfl, rfl, by decide +kernel⟩

theorem test_hyp_Weights :
    let w1 := word 3 0 0 1 0 (0xA * 2 ^ 25)
    let s1 := running w1 { g := [(1, 0x200000 - 1024)] }
    let w2 := word 8 0 0 1 0 (0xA * 2 ^ 24 + 1 * 2 ^ 22)
    let s2 := runningOver ((List.range 256).map fun i => (0x1400 + i, 0x44)) w2 { g := [(1, 0x1000)] }
    Issues s1 0 none 3 0 ldwLegal (fun w => { g := [wA w] }) ∧ (s1.core 0).wShadow = none ∧
      s1.accessFault 0 none ((s1.core 0).gval (wA w1)) (tileBytes (weightFmt (bits w1 25 4)) ((mxeRowW (bits w1 25 4)).getD 0) 0) 1 = none ∧
    Issues s2 0 none 8 0 ldwsLegal (fun w => { g := [wA w] }) ∧ (s2.core 0).wShadow = none ∧
      s2.accessFault 0 none ((s2.core 0).gval (wA w2)) (tileBytes 0xA 0 1) 64 = none ∧
      indicesAscend 0xA 0 1 (s2.engRead 0 .mxe ((s2.core 0).gval (wA w2)) (tileBytes 0xA 0 1)) = true := by
  refine ⟨issues_of ?_, ?_, ?_, issues_of ?_, ?_, ?_, ?_⟩
  all_goals decide +kernel

/-- A weight tile of INT8. -/
def tile8 : WTile := { fmt := 0xA, mode := 0, addr := 0, bytes := List.replicate 1024 1 }

-- MMA and MMAZ of 128 rows whose last ends at the end of the grant; the tile is in the shadow buffer, or in the active one.
theorem test_hyp_Mma :
    let w := word 3 1 1 1 2 (0xA * 2 ^ 29 + 0xA * 2 ^ 25 + 127 * 2 ^ 13)
    let s := running w { g := [(1, 0x200000 - 4096), (2, 32)], wShadow := some tile8 }
    let v := word 8 1 1 1 2 (3 * 2 ^ 28 + 0xA * 2 ^ 24 + 127 * 2 ^ 16)
    let u := running v { g := [(1, 0x1000), (2, 32), (3, 0x3000)], wActive := some tile8 }
    (Issues s 0 none 3 1 mmaLegal (fun w => { g := [wA w, wB w], acc := [wTile w] }) ∧ ((fetchedCore s 0).takeTile).1 = some tile8 ∧
      MmaReady s 0 none ((s.core 0).mmaArgs w) tile8) ∧
    Issues u 0 none 8 1 mmazLegal (fun w => { g := [wA w, wB w, wC w], acc := [wTile w] }) ∧ ((fetchedCore u 0).takeTile).1 = some tile8 ∧
      MmaReady u 0 none ((u.core 0).mmazArgs v) tile8 := by
  refine ⟨⟨issues_of ?_, ?_, ?_, fun a h => ?_, ?_, ?_⟩, issues_of ?_, ?_, ?_, fun a h => ?_, ?_, ?_⟩
  case refine_4 => cases (show none = some a from h)
  case refine_10 => obtain rfl : 0x3000 = a := Option.some.inj h; decide +kernel
  all_goals decide +kernel

theorem test_hyp_Drain :
    let w := word 3 2 3 1 0 (127 * 2 ^ 13)
    let s := running w { g := [(1, 0x200000 - 128 * 128)] }
    Issues s 0 none 3 2 drainLegal (fun w => { g := [wA w, wB w], acc := [wTile w] }) ∧
      (s.core 0).gval (wA w) + (bits w 13 7 + 1) * drainRow (bits w 25 4) ≤ s.grant 0 := by
  refine ⟨issues_of ?_, ?_⟩ <;> decide +kernel

theorem test_hyp_Waits :
    Issues (running (word 6 0 4 1 0 0)) 0 none 6 0 (fun w => onlyFields w [(43, 5), (38, 5)]) (fun w => { g := [wA w] }) ∧
    (0 ≤ toSigned 32 ((running (word 6 0 4 1 0 0) |>.core 0).evtVal 4 + 2 ^ 32 - 0) ∧ toSigned 32 (0 + 2 ^ 32 - 1) < 0) ∧
    Issues (running (word 6 1 4 0 0 (2 ^ 32 - 1))) 0 none 6 1 (fun w => onlyFields w [(43, 5), (0, 32)]) (fun _ => {}) ∧
    Issues (running (word 6 4 0 0 0 0)) 0 none 6 4 (fun w => onlyFields w []) (fun _ => {}) ∧
    Issues (running (word 6 4 0 0 0 0) { ops := [{ eng := .vxu, stores := [(0, [1])] }] }) 0 none 6 4 (fun w => onlyFields w []) (fun _ => {}) ∧
    Issues (running (word 6 5 0 0 0 3)) 0 none 6 5 (fun w => onlyFields w [(0, 2)]) (fun _ => {}) ∧
    (running 0).queueOf 0 3 = [] ∧ (running 0 { queues := [[], [], [], [{ bytes := [], pc := 0 }]] }).queueOf 0 3 ≠ [] := by
  refine ⟨issues_of ?_, ?_, issues_of ?_, issues_of ?_, issues_of ?_, issues_of ?_, ?_, ?_⟩ <;> decide +kernel

/-- A replay log with one item whose number is the next instruction's. -/
def logged (st : LogSt) (s : State) : State := s.modDet 0 fun d => { d with log := [{ queue := 5, number := d.key, op := 0, st := st }] }

-- SIGNAL to the last core, to a core that does not exist, and one already in the log; GBAR without and with a log entry.
theorem test_hyp_SignalAndBarrier :
    let w := word 6 2 4 1 0 1
    (∀ m ∈ [143, 144], Issues (running w { g := [(1, m)] }) 0 none 6 2 (fun w => onlyFields w [(43, 5), (38, 5), (0, 32)]) (fun w => { g := [wA w] })) ∧
    (running w).logFind 0 ((running w).cdet 0).key = none ∧ (running w { g := [(1, 143)] } |>.core 0).gval (wA w) < 144 ∧
    144 ≤ (running w { g := [(1, 144)] } |>.core 0).gval (wA w) ∧
    (logged .sent (running w)).logFind 0 ((logged .sent (running w)).cdet 0).key ≠ none ∧
    Issues (running (word 6 3 0 0 0 1)) 0 none 6 3 (fun w => onlyFields w [(0, 1)]) (fun _ => {}) ∧
    (∀ st ∈ [LogSt.issued, .completed],
      Issues (logged st (running (word 6 3 0 0 0 0))) 0 none 6 3 (fun w => onlyFields w [(0, 1)]) (fun _ => {}) ∧
      ((logged st (running (word 6 3 0 0 0 0))).logFind 0 ((logged st (running (word 6 3 0 0 0 0))).cdet 0).key).map (·.st) = some st) := by
  refine ⟨fun m h => issues_of ?_, ?_, ?_, ?_, ?_, issues_of ?_, fun st h => ⟨issues_of ?_, ?_⟩⟩
  all_goals first | (revert m; decide +kernel) | (revert st; decide +kernel) | decide +kernel

/-- A descriptor of an operation. -/
def descOf (op : Nat) : Desc := { bytes := op :: List.replicate 63 0, pc := 0 }

-- The waits of R61 and R62 with their conditions met and not, and the end of HALT with and without a descriptor in a queue.
theorem test_hyp_WaitsEnd :
    (running 0).fatal = false ∧ (running 0).cst 0 = stRun ∧
    (∀ k < 2, evtReached ((running 0 { evt := [(31, k)], wait := some (.evwait 31 1) } |>.core 0).evtVal 31) 1 = (k == 1)) ∧
    ((running 0 { wait := some (.dmawait 0), queues := [[descOf 1], [], [], []] }).queueOf 0 0 ≠ []) ∧
    ((running 0 { wait := some (.dmawait 0) }).queueOf 0 0 = []) ∧ ((running 0 { wait := some .sfence }).core 0).wait = some .sfence ∧
    ((running 0 { wait := some .halt }).core 0).queues.all (·.isEmpty) = true ∧
    ((running 0 { wait := some .halt, queues := [[], [descOf 1], [], []] }).core 0).queues.all (·.isEmpty) = false ∧
    ((running 0 { ops := [{ eng := .vxu }] }).core 0).ops.find? (·.eng == engOf 2) = some { eng := .vxu } ∧
    ((running 0 { ops := [{ eng := .vxu }] }).core 0).ops.find? (·.eng == engOf 0) = none := by
  decide +kernel

/-- Cores 0 and 1 of one job wait at a barrier, each with its STEP field; the job came by a ring or not. -/
def atBar (ring : Option (Nat × Nat)) (a b : Bool) (q : List Desc) : State :=
  (({ up with jobs := [{ job with cores := [0, 1], ring := ring }]
              cores := [(0, { job := some 0, wait := some (.gbar a) }), (1, { job := some 0, wait := some (.gbar b), queues := [q, [], [], []] })] }).set
    (CORE_STATUS_STATE 0) 3).set (CORE_STATUS_STATE 1) 3

theorem test_hyp_BarrierCompletes :
    let steps (s : State) := [0, 1].map fun L => ((s.core L).gbarStep).getD false
    (∀ s ∈ [atBar none true true [], atBar (some (0, 0)) false false [], atBar (some (0, 0)) true false [], atBar (some (0, 0)) true true []],
      (s.coreJob 0).map (·.cores) = some [0, 1] ∧ s.allAtBar { job with cores := [0, 1] } = true ∧ s.oldCollective { job with cores := [0, 1] } = false ∧
        s.barFrom 0 ≤ s.now) ∧
    steps (atBar (some (0, 0)) false false []) = [false, false] ∧ steps (atBar (some (0, 0)) true false []) = [true, false] ∧
    steps (atBar (some (0, 0)) true true []) = [true, true] ∧
    ((atBar none true true []).setCst 1 stHalted).allAtBar { job with cores := [0, 1] } = false ∧
    (atBar none true true [{ descOf 0x25 with step := 1 }]).oldCollective { job with cores := [0, 1] } = true := by
  decide +kernel

-- Operands that keep the rules of the conditional instructions, at the ends of their ranges.
theorem test_hyp_Conditional :
    (let w := word 8 2 0 1 2 (3 * 2 ^ 28 + 0xA * 2 ^ 24 + 127 * 2 ^ 16)
     let s := running w { g := [(1, 0x200000 - 4096), (2, 32), (3, 0x1000)] }
     Issues s 0 none 8 2 zmapLegal (fun w => { g := [wA w, wB w, wC w] }) ∧ s.accessFault 0 none (0x200000 - 4096 + 127 * 32) (actBytes 0xA 32) 1 = none ∧
       s.accessFault 0 none 0x1000 16 8 = none) ∧
    (let w := word 8 4 4 1 2 (3 * 2 ^ 28 + 255 * 2 ^ 20 + 7 * 2 ^ 17)
     let s := running w { g := [(1, 0), (2, 1), (3, 0x200000 - 48), (4, 0)] }
     Issues s 0 none 8 4 topkLegal (fun w => { g := [wA w, wB w, wC w, wD w] }) ∧ bits ((s.core 0).gval (wB w)) 0 13 = 1 ∧
       s.accessFault 0 none 0 (4 * topkE w) 1 = none ∧ s.accessFault 0 none (0x200000 - 48) 48 1 = none) ∧
    (let w := word 8 5 0 1 2 (3 * 2 ^ 28)
     let s := withSlot {} (running w { g := [(1, 4194304), (2, 4194304), (3, 1)] })
     Issues s 0 none 8 5 (fun w => onlyFields w [(38, 5), (33, 5), (28, 5), (20, 5)]) (fun w => { g := [wA w, wB w, wC w] }) ∧
       s.jobSlot 0 (bits w 20 5) = some 3 ∧ (slotFrom 4194304 4194304 1).isSome = true) ∧
    (let w := word 8 6 6 1 0 0
     let s := withSlot { seqLen := 512, qLen := 512, mask := 4, bitmap := 0x1000 } (running w { g := [(1, 0)] })
     Issues s 0 none 8 6 bclassLegal (fun w => { g := [wA w], p := [wPd w, wPd w + 1] }) ∧ s.jobSlot 0 (bits w 20 5) = some 3 ∧
       (s.slotOf 3).mapWord 0 0 = some 0x1000 ∧ s.accessFault 0 none 0x1000 8 1 = none) ∧
    (let w := word 8 7 0 1 0 (3 * 2 ^ 28)
     let s := withSlot {} (running w { g := [(3, 0x200000 - 2048)] })
     Issues s 0 none 8 7 (fun w => onlyFields w [(38, 5), (28, 5), (20, 5)]) (fun w => { g := [wA w, wC w] }) ∧ s.jobSlot 0 (bits w 20 5) ≠ none ∧
       s.accessFault 0 none (0x200000 - 2048) 2048 1 = none) := by
  refine ⟨⟨issues_of ?_, ?_, ?_⟩, ⟨issues_of ?_, ?_, ?_, ?_⟩, ⟨issues_of ?_, ?_, ?_⟩, ⟨issues_of ?_, ?_, ?_, ?_⟩, issues_of ?_, ?_, ?_⟩ <;> decide +kernel

/-! The host's registers, cores, jobs and rings (R8 to R11, R72, R445 to R460) -/

-- A plain RW register takes the value; a reserved bit of the write is ignored.
theorem test_register_write :
    got (exec (.registerWrite 0 HIF_MBOX_LEN.off 4 0xFF800005) up) (fun t => t.getR HIF_MBOX_LEN) = some 5 := by decide +kernel

-- The lower half of a pair waits for the upper (R8).
theorem test_register_pair :
    got (exec (.registerWrite 0 HIF_MBOX_ADDR.off 4 0x1000) up) (fun t => (t.getR64 HIF_MBOX_ADDR, t.heldWrites.length)) = some (0, 1) ∧
    got (exec (.registerWrite 0 HIF_MBOX_ADDR.off 8 0x1234567890ABC000) up) (fun t => t.getR64 HIF_MBOX_ADDR) = some 0x1234567890ABC000 := by
  decide +kernel

-- An access of a bad size is recorded with kind 9, INFO = space 0, write, kind 9 (R445, R460).
theorem test_register_bad_size :
    got (exec (.registerWrite 0 HIF_MBOX_LEN.off 2 5) up) (fun t => (t.getR (HIF_AERR_INFO 0), t.getR HIF_AERR_PROD, t.getR HIF_MBOX_LEN))
      = some (4 + 16 * 9, 1, 0) := by decide +kernel

-- Before READY only the PWR and HIF blocks are served (R384).
theorem test_register_not_ready :
    got (exec (.registerWrite 0 SWC_CTRL.off 4 1) State.reset) (fun t => (t.getR SWC_CTRL, t.getR (HIF_AERR_INFO 0))) = some (0, 4 + 16 * 8) := by
  decide +kernel

-- Enabled with a live pattern the core is zeroed, without one it stays in OFF (R13, R72).
theorem test_core_enable :
    got (exec (.coreEnable 143 0) (up.set PAT_STATUS_LIVE_VALID 1)) (fun t => (t.cst 143, (t.core 143).zeroEnd)) = some (1, 512) ∧
    got (exec (.coreEnable 143 0) up) (fun t => (t.cst 143, t.flag (CORE_CTRL_EN 143))) = some (0, true) := by decide +kernel

theorem test_core_disable : got (exec (.coreDisable 0 1) (running 0)) (fun t => (t.cst 0, t.flag (CORE_CTRL_EN 0))) = some (6, false) := by decide +kernel

theorem test_zeroing_done :
    got (exec (.zeroingDone 0) ((({ up with cores := [(0, { zeroEnd := 512 })] } : State).set (CORE_STATUS_STATE 0) 1).set (CORE_CTRL_EN 0) 1))
      (fun t => (t.cst 0, t.now, t.zeroed)) = some (2, 512, [0]) := by decide +kernel

theorem test_core_shutdown_done :
    got (exec (.coreShutdownDone 3) (up.set (CORE_STATUS_STATE 3) 6)) (fun t => t.cst 3) = some 0 := by decide +kernel

theorem test_core_start :
    got (exec (.coreStart 0 1) (up.set (CORE_STATUS_STATE 0) 2)) (fun t => (t.cst 0, t.jobs.map (·.cores))) = some (3, [[0]]) := by decide +kernel

/-- An enabled ring 0 of 16 entries with one command waiting. -/
def ringUp : State :=
  ((({ up with host := { up.host with rings := [(0, { on := true })] } }).setR (HIF_SQ_CFG 0) 0x104).set (HIF_SQ_TAIL_INDEX 0) 1).set64 (HIF_SQ_BASE_ADDR 0) 0x100

-- A NOP of the ring is fetched from the base and completes; the record is 32 bytes at the completion ring's base.
theorem test_sq_nop :
    got (exec (.sqNop 0 (some (List.replicate 128 0))) ringUp)
      (fun t => (t.sqHead 0, t.cqTail 0, t.out.map fun o => match o with | .hostRead a n => [0, a, n] | .hostWrite a bs => [1, a, bs.length] | _ => [2]))
      = some (1, 1, [[0, 0x100000, 128], [1, 0, 32]]) := by decide +kernel

-- An abort of a job that is not there completes with status 0x61.
theorem test_job_abort :
    got (exec (.jobAbort 0 (some (2 :: List.replicate 127 0))) ringUp) (fun t => (t.out.map fun o => match o with | .hostWrite _ bs => field bs 5 1 | _ => 0, t.jobs))
      = some ([0, 0x61], []) := by decide +kernel

theorem test_completion_timeout : got (exec (.completionTimeout 0) ringUp) (fun t => t.get (HIF_RING_STATUS_ERROR 0)) = some 0x14 := by decide +kernel

theorem test_sq_doorbell :
    got (exec (.sqDoorbell 0 15) ringUp) (fun t => t.sqTail 0) = some 15 ∧
    got (exec (.sqDoorbell 0 16) ringUp) (fun t => (t.sqTail 0, t.getR (HIF_AERR_INFO 0))) = some (1, 4 + 16 * 2) := by decide +kernel

theorem test_ring_enable :
    got (exec (.ringEnable 15 4) up) (fun t => ((t.ring 15).on, t.ringSize 15)) = some (true, 16) ∧
    got (exec (.ringDisable 0 4) ringUp) (fun t => (t.ring 0).on) = some false := by decide +kernel

theorem test_cq_doorbell : got (exec (.cqDoorbell 0 3) ringUp) (fun t => t.cqHead 0) = some 3 := by decide +kernel

-- The unmask of a pending vector sends its message once.
theorem test_msix_unmask :
    got (exec (.msixUnmask 3) { up with host := { up.host with msixPending := 8, msix := [(12, 0x1000), (14, 7)] } })
      (fun t => (t.out.map fun o => match o with | .msix v a d => [v, a, d] | _ => [], t.host.msixPending)) = some ([[3, 0x1000, 7]], 0) := by
  decide +kernel

/-! States that meet the hypotheses of the statements about the host, cores, jobs and rings -/

-- A plain register whose RWP bits are open or that has none; its offset is aligned, below BAR0's end, outside the MSI-X table.
theorem test_hyp_RegisterWriteStores :
    up.inReset = false ∧ up.turnedAway HIF_MBOX_LEN.off true = none ∧ HIF_MBOX_LEN.off < 0x2000000 ∧ HIF_MBOX_LEN.off % 4 = 0 ∧
      inMsix HIF_MBOX_LEN.off = false ∧
      ((regAt HIF_MBOX_LEN.off).all fun x => x.1.half == .single && x.1.rwb == 0 && x.1.rwp == 0 && controlRegs.all fun r => x.1.base != r.off) = true ∧
    up.turnedAway MEM_GATE_TIMEOUT.off true = none ∧ up.rwpOpen MEM_GATE_TIMEOUT.off = true ∧ Quiet up := by
  refine ⟨?_, ?_, ?_, ?_, ?_, ?_, ?_, ?_, quiet_of (by decide +kernel)⟩ <;> decide +kernel

/-- The safe state. -/
def safe : State := ((up.set FLT_STATUS_FATAL 1).set FLT_STATUS_SAFE 1)

theorem test_hyp_AccessesTurnedAway :
    ({ up with boot := { up.boot with resetting := true } } : State).inReset = true ∧ up.boot.jtagWait = false ∧
      up.inReset = false ∧ State.reset.inReset = false ∧ State.reset.ready = false ∧ inPwrHif SWC_CTRL.off = false ∧
      (regAt SWC_CTRL.off).isSome = true ∧ ((regAt SWC_CTRL.off).map (·.1.half)) = some .single ∧ up.ready = true ∧ safe.ready = true ∧ safe.safe = true ∧
      safeAllows SWC_CTRL.off = false ∧ pairLow PWR_RECOVERY_ADDR.off = true ∧ pairLow (PWR_RECOVERY_ADDR.off + 4) = false := by decide +kernel

theorem test_hyp_SafeStateHostWrites :
    safe.inReset = false ∧ Quiet safe ∧ safe.host.mbox = none ∧ (regAt HIF_MBOX_STATUS.off).isSome = true ∧
      (∀ r < 16, HIF_MBOX_STATUS.off ≠ (HIF_CQ_HEAD r).off) := ⟨by decide +kernel, quiet_of (by decide +kernel), by decide +kernel⟩

theorem test_hyp_ErrorLogAndUnmask :
    bit ({ up with host := { up.host with msixPending := 8 } } : State).host.msixPending 3 = true ∧ bit up.host.msixPending 3 = false := by
  decide +kernel

/-- Core 0 in a state. -/
def coreIn (st : Nat) (c : Core := {}) : State := ({ up with cores := [(0, c)] }).set (CORE_STATUS_STATE 0) st

theorem test_hyp_CoreStates :
    (∀ st < 8, (coreIn st).cst 0 = st ∧ (coreIn st).turnedAway (CORE_CTRL 0).off true = none ∧ (coreIn st).inReset = false ∧
      (coreIn st).fatal = false ∧ (coreIn st).coreJob 0 = none ∧ ((coreIn st).core 0).left = [] ∧ ((coreIn st).core 0).job = none) ∧
    (∀ e < 2, ((coreIn stZeroing).set (CORE_CTRL_EN 0) e).flag (CORE_CTRL_EN 0) = (e == 1)) ∧ bit (2 : Nat) 1 = true ∧ bit (1 : Nat) 1 = false := by
  decide +kernel

/-- A job that waits for its launch on an idle core, held by the start barrier or not. -/
def jobWaits (held : Bool) : State :=
  ({ coreIn stIdle { job := some 0 } with jobs := [{ job with launched := false, held := held, ring := some (0, 9), progLen := 8, gBase := 0 }] }).set MEM_CTRL_EN 1

theorem test_hyp_JobLaunch :
    ∀ held, (jobWaits held).fatal = false ∧
      ((jobWaits held).coreJob 0).map (fun j => [j.launched, j.aborting, (jobWaits held).imageOpen j, j.held]) = some [false, false, true, held] ∧
      (jobWaits held).cst 0 = stIdle := by decide +kernel

theorem test_hyp_JobEnd :
    let s : State := { coreIn stHalted { job := some 0 } with jobs := [{ job with ring := some (0, 9) }] }
    let u := s.setR (HIF_SQ_CFG 0) 0x104
    u.fatal = false ∧ (u.coreJob 0).map (·.ring) = some (some (0, 9)) ∧ ((u.coreJob 0).map u.jobEnded) = some true ∧ u.cqFull 0 = false ∧
      ((u.setCst 0 stRun).coreJob 0).map (u.setCst 0 stRun).jobEnded = some false := by decide +kernel

theorem test_hyp_Rings :
    ringUp.ringWinner = some 0 ∧ ringUp.fatal = false ∧ up.ringWinner = none ∧ (up.ring 0).on = false ∧
      up.turnedAway (HIF_SQ_CFG 15).off true = none ∧ up.turnedAway (HIF_SQ_TAIL 15).off true = none ∧ up.turnedAway (HIF_CQ_HEAD 15).off true = none ∧
      15 < ringUp.ringSize 0 ∧ ringUp.ringSize 0 ≤ 16 ∧ badEntry (List.replicate 128 0) = none ∧ badEntry (2 :: List.replicate 127 0) = none ∧
      (badEntry (3 :: List.replicate 127 0)).isSome = true ∧ sqOp (2 :: List.replicate 127 0) = 2 := by decide +kernel

/-- A JOB_SUBMIT entry with an empty core group 0. -/
def submit : List Byte := 1 :: List.replicate 127 0

theorem test_hyp_JobSubmit : badEntry submit = none ∧ sqOp submit = 1 ∧ ringUp.admission (submit.drop 64) ≠ 0 := by decide +kernel

theorem test_hyp_JobAbort :
    ({ ringUp with jobs := [{ job with ring := some (0, 9), id := 0 }] } : State).jobs.filter (fun j => j.ring.isSome && j.id == 0) ≠ [] := by decide +kernel

theorem test_hyp_CqTimer :
    let s : State := ({ up with host := { up.host with rings := [(0, { unsignalled := 1 })] } }).set (HIF_CQ_INT_TIMER 0) 1
    s.get (HIF_CQ_INT_TIMER 0) ≠ 0 ∧ (s.ring 0).unsignalled ≠ 0 := by decide +kernel

/-! Memory, gate, packets and the core DMA (R64 to R69, R100 to R108, R141 to R158, R201 to R233) -/

/-- A descriptor by R65: operation, flags, event, LEN, SRC, DST, DEST, CMD_TAG, then zero. -/
def dma (op len src dst : Nat) (rest : List Byte := []) : List Byte :=
  [BitVec.ofNat 8 op, 0, 0xFF, 0] ++ leBytes 4 len ++ leBytes 8 src ++ leBytes 8 dst ++ leBytes 4 0 ++ leBytes 4 9 ++ rest ++
    List.replicate (32 - rest.length) 0

/-- Core 0 runs with descriptors in queue 0; GDDR7 is trained and enabled. -/
def queued (ds : List Desc) (st : Nat := 3) : State :=
  ((List.range 24).foldl (fun (s : State) c => s.set (MEM_CH_STATUS_STATE c) 2)
    (({ up with cores := [(0, { job := some 0, queues := [ds, [], [], []] })], jobs := [{ job with gLen := 2 ^ 30, ring := some (0, 1) }], zeroed := [0] }).set
      (CORE_STATUS_STATE 0) st)).set MEM_CTRL_EN 1

/-- A control packet by R205: endpoint, opcode, source endpoint, tag, payload. -/
def ctl (ep op srcEp tag : Nat) (pay : List Byte := []) : Pkt :=
  { data := false, hdr := leBytes 16 (ep * 2 ^ 21 + srcEp * 2 ^ 53 + op * 2 ^ 88 + tag * 2 ^ 104), pay := pay ++ List.replicate (48 - pay.length) 0 }

/-- A data packet by R206: endpoint, opcode, source endpoint, tag, address, operation fields from 0x20, payload. -/
def dat (ep op srcEp tag addr : Nat) (fs pay : List Byte) : Pkt :=
  { data := true
    hdr := leBytes 16 (ep * 2 ^ 21 + srcEp * 2 ^ 53 + op * 2 ^ 88 + tag * 2 ^ 104) ++ leBytes 8 pay.length ++ leBytes 8 addr ++ fs ++
      List.replicate (32 - fs.length) 0
    pay := pay }

/-- Packets that wait for their endpoints. -/
def inbox (ps : List Pkt) (s : State) : State := s.sw fun w => { w with inbox := ps.map fun p => { output := 24, input := 24, pkt := p } }

theorem test_fill :
    got (exec (.fill 0 0 none) (queued [{ bytes := dma 0x02 8 0 0x1000 (List.replicate 16 0 ++ [1, 2, 3, 4]) , pc := 0 }])) (fun t => t.gddrRead 0x1000 8)
      = some [1, 2, 3, 4, 1, 2, 3, 4] := by decide +kernel

theorem test_copy :
    got (exec (.copy 0 0 none) ((queued [{ bytes := dma 0x01 2 0x1000 0x2001, pc := 0 }]).gddrWrite 0x1000 [7, 8])) (fun t => t.gddrRead 0x2001 2)
      = some [7, 8] := by decide +kernel

-- A copy of a length 0 completes with status LENGTH and writes nothing; the record follows at DESCRIPTOR_COMPLETE.
theorem test_descriptor_complete :
    got (exec (.descriptorComplete 0 0) (queued [{ bytes := dma 0x01 2 0x1000 0x2001, pc := 0, started := true }])) (fun t => t.queueOf 0 0) = some [] := by
  decide +kernel

theorem test_write_packet :
    got (exec .write (inbox [dat 0 0x40 1 5 (sramBase + 0x40) [] [9, 8]] (queued []))) (fun t => (t.sramRead 0 0x3F 4, t.switch.inbox.length))
      = some ([0, 9, 8, 0], 0) := by decide +kernel

-- A write beyond its endpoint's range is refused and stores nothing.
theorem test_write_refused :
    got (exec .write (inbox [dat 0 0x40 1 5 (sramBase + sramSize) [] [9, 8]] (queued []))) (fun t => t.sram) = some [] := by decide +kernel

theorem test_rsignal_packet :
    got (exec .rsignalPacket (inbox [ctl 0 0x05 1 5 (leBytes 4 3 ++ [4])] (queued []))) (fun t => (t.core 0).evtVal 4) = some 3 := by decide +kernel

-- An answer to no packet is counted as stale (R346).
theorem test_ack_stale :
    got (exec .ack (inbox [ctl 0 0x01 1 5] (queued []))) (fun t => t.get (DET_CORE_STALE_COUNT 0)) = some 1 := by decide +kernel

theorem test_mem_train :
    got (exec (.memTrainStart 0x80000005) up) (fun t => [t.get (MEM_CH_STATUS_STATE 0), t.get (MEM_CH_STATUS_STATE 1), t.get (MEM_CH_STATUS_STATE 2)])
      = some [1, 0, 1] := by decide +kernel

theorem test_training_done :
    got (exec (.trainingDone 0 0 0) (up.set (MEM_CH_STATUS_STATE 0) 1)) (fun t => t.get (MEM_CH_STATUS_STATE 0)) = some 2 ∧
    got (exec (.trainingDone 0 3 0) (up.set (MEM_CH_STATUS_STATE 0) 1)) (fun t => (t.get (MEM_CH_STATUS_STATE 0), t.get (MEM_CH_STATUS_CODE 0)))
      = some (3, 3) := by decide +kernel

theorem test_mem_enable :
    got (exec (.memEnable 1) up) (fun t => (t.flag MEM_CTRL_EN, t.get MEM_STATUS_REFUSE)) = some (false, 1) ∧
    got (exec (.memEnable 1) ((queued []).set MEM_CTRL_EN 0)) (fun t => t.flag MEM_CTRL_EN) = some true ∧
    got (exec (.memDisable 0) (queued [])) (fun t => (t.flag MEM_CTRL_EN, t.mem.shutting)) = some (false, true) := by decide +kernel

/-- An open gate entry, or a closed one. -/
def gate (closed : Option Nat) : Gate := { chunk := 5, tag := 0, first := 0, count := 2, length := 64, dst := 0, next := 0, closed := closed }

theorem test_gate_timeout :
    got (exec (.gateTimeout 0) ({ queued [] with mem := { gates := [gate none] } })) (fun t => (t.now, t.mem.gates.map fun g => g.closed.isSome))
      = some (16500000, [true]) := by decide +kernel

theorem test_tombstone : got (exec (.tombstoneExpiry 0) ({ queued [] with mem := { gates := [gate (some 99)] } })) (fun t => (t.now, t.mem.gates)) = some (99, []) := by
  decide +kernel

/-! States that meet the hypotheses of the statements about memory, packets and the core DMA -/

theorem test_hyp_Memory :
    (queued []).phys 0 = some 0 ∧ (queued []).memOpen = true ∧ up.flag MEM_CTRL_EN = false ∧ up.mem.shutting = false ∧ ctlState up 0 = 0 ∧
      (∀ c < 24, ctlState (queued []) c = 2) ∧ (queued []).hashedUnits ≠ 0 ∧ up.turnedAway MEM_CTRL.off true = none ∧
      ((queued []).set MEM_SPLIT_HASHED_UNITS 0).hashedUnits = 0 ∧ ctlState ((queued []).set (MEM_CH_STATUS_STATE 23) 5) 23 = 5 ∧
      up.turnedAway MEM_TRAIN_CTRL.off true = none ∧ ({ up with mem := { shutting := true } } : State).mem.shutting = true ∧ up.fatal = false := by
  decide +kernel

/-- A RACC packet of rank 0 of 2 for the chunk of `gate`, with 64 bytes at address 0. -/
def racc : Pkt :=
  dat 0xC0 0x42 1 5 0 (leBytes 2 0 ++ leBytes 2 0 ++ leBytes 4 5 ++ leBytes 2 0 ++ leBytes 2 1 ++ leBytes 2 0 ++ leBytes 2 0 ++ leBytes 4 64) (List.replicate 64 0)

theorem test_hyp_Gate :
    (∀ m ∈ [none, some (gate none), some (gate (some 9))],
      let s := inbox [racc] { queued [] with mem := { gates := m.toList } }
      let x := s.takeInb fun x => x.pkt.data && x.pkt.opcode == 0x42
      s.memOpen = true ∧ x.isSome = true ∧ (x.map fun y => [(y.2.gateOf y.1.pkt.rChunk y.1.pkt.rStep).isSome, y.2.raccRange y.1.pkt, (y.2.shardHit y.1.pkt.addr 64).isSome])
        = some [m.isSome, true, false]) ∧
    (let s := inbox [racc] { queued [] with jobs := [] }
     (s.takeInb fun x => x.pkt.data && x.pkt.opcode == 0x42).map (fun y => y.2.raccRange y.1.pkt) = some false) := by decide +kernel

theorem test_hyp_GateKeep :
    let s := inbox [racc] (queued [])
    (match s.takeInb fun x => x.pkt.data && x.pkt.opcode == 0x42 with
      | some y => (match y.2.xlate y.1.pkt with | .keep => true | _ => false)
      | none => false) = true := by decide +kernel

-- The first address inside an endpoint's range and the first beyond it, for each of the three operations.
theorem test_hyp_WritePackets :
    (∀ op ∈ [0x40, 0x43, 0x44, 0x46],
      ((inbox [dat 0xC0 op 1 5 (gddrSize - 1) [] [1]] (queued [])).takeInb fun x => x.pkt.data && x.pkt.opcode == op).isSome = true) ∧
    epRange 0xC0 (gddrSize - 1) 1 = true ∧ epRange 0xC0 gddrSize 1 = false ∧ epRange 143 (sramBase + 144 * sramSize - 1) 1 = true ∧
      epRange 143 (sramBase + 144 * sramSize) 1 = false ∧ (queued []).shardHit 0 64 = none ∧ ((queued []).writeRange (sramBase + 8) [1]).1 = none := by
  decide +kernel

/-- A registry entry whose three slots are protected in GDDR7. -/
def sharded : State := ((((queued []).set (MEM_SHD_CFG_VALID 0) 1).set (MEM_SHD_CFG_SLOT_UNITS 0) 1).set (MEM_SHD_CFG_KIND 0) 1)

-- A good READ_REQ of 1 and of 2,048 bytes, and a bad one of 0; a signal; a response to a read that a descriptor waits for, and to none.
theorem test_hyp_Reads :
    readOk (ctl 0xC0 0x04 1 5 (leBytes 8 0 ++ leBytes 8 0 ++ leBytes 2 1)) = true ∧
    readOk (ctl 0xC0 0x04 1 5 (leBytes 8 0 ++ leBytes 8 0 ++ leBytes 2 2048)) = true ∧
    readOk (ctl 0xC0 0x04 1 5 (leBytes 8 0 ++ leBytes 8 0 ++ leBytes 2 0)) = false ∧
    ((inbox [ctl 0xC0 0x04 1 5] (queued [])).takeInb fun x => !x.pkt.data && x.pkt.opcode == 0x04 && !(queued []).epWaits x.pkt.destEp).isSome = true ∧
    ((inbox [ctl 0 0x05 1 5] (queued [])).takePkt false 0x05).isSome = true ∧ ((queued []).readRange 0 64 none).1.fail = none ∧
    ((up.readRange 0 64 none).1.fail).isSome = true := by decide +kernel

/-- A descriptor with a read of 2 bytes outstanding. -/
def reading : Desc :=
  { bytes := dma 0x11 2 0 0x1000, pc := 0, started := true
    outst := [{ xfer := { op := 0x04, dev := 0, sel := 0xC0, addr := 0, src := 0x1000, len := 2, off := 0, fields := [], grp := 0 }
                pkt := ctl 0xC0 0x04 0 5, ctag := 5, firstSent := 0 }] }

theorem test_hyp_ReadResp :
    let p := dat 0 0x41 0xC0 5 0x1000 [] [1, 2]
    (((queued [reading]).outstOf 0 (answersRead p)).map (·.1)) = some 0 ∧ (queued []).outstOf 0 (answersRead p) = none ∧
      ((queued []).core 0).left.find? (answersRead p) = none ∧ ((queued []).shardStatus 0x1000 2).1 = none ∧
      ((inbox [p] (queued [])).takeInb fun x => x.pkt.data && x.pkt.opcode == 0x41 && !(queued []).memWaits x.pkt.addr x.pkt.byteCount).isSome = true := by
  decide +kernel

/-- A descriptor with a write of 2 bytes outstanding, perhaps waiting to be sent again. -/
def writing (retry : Option Nat) : Desc :=
  { bytes := dma 0x10 2 0x1000 0, pc := 0, started := true
    outst := [{ xfer := { op := 0x40, dev := 0, sel := 0xC0, addr := 0, src := 0x1000, len := 2, off := 0, fields := [], grp := 0 }
                pkt := dat 0xC0 0x40 0 5 0 [] [1, 2], ctag := 5, firstSent := 0, retryAt := retry }] }

-- An acknowledgement, a retry and a refusal that a packet awaits, and ones that nothing awaits.
theorem test_hyp_Answers :
    ∀ op ∈ [1, 2, 3], ((inbox [ctl 0 op 0xC0 5] (queued [writing none])).takePkt false op).isSome = true ∧
      ((queued [writing none]).outstOf 0 (answersOutst (ctl 0 op 0xC0 5))).isSome = true ∧
      (queued []).outstOf 0 (answersOutst (ctl 0 op 0xC0 5)) = none ∧ (queued []).loggedSignal 0 5 = none ∧
      ((queued []).core 0).left.find? (answersOutst (ctl 0 op 0xC0 5)) = none := by decide +kernel

theorem test_hyp_Residues :
    let r : Residue := { head := 0, gen := 0, flits := 1, vc := 8, dests := 1 }
    let ready (s : State) (r : Residue) : Bool := match s.bufPkt r.head with
      | some b => (onesBelow 25 r.dests).any fun d => s.mcastReady b.pkt b.input d
      | none => true
    ({ up with switch := { up.switch with residues := [r] } } : State).switch.residues.findIdx? (ready up) = some 0 ∧ up.fatal = false ∧
      safe.fatal = true := by decide +kernel

-- A queue of 15 descriptors takes one more, a queue of 16 does not.
theorem test_hyp_DescriptorQueued :
    let w := word 5 0 0 1 0 (2 ^ 46)
    let s (n : Nat) := running w { g := [(1, 0x200000 - 64)], queues := [[], List.replicate n (descOf 1), [], []] }
    (∀ n ∈ [15, 16], Issues (s n) 0 none 5 0 dmaqLegal (fun w => { g := [wA w] })) ∧ ((s 15).queueOf 0 1).length < 16 ∧ 16 ≤ ((s 16).queueOf 0 1).length ∧
      (s 15).accessFault 0 none (0x200000 - 64) 64 1 = none ∧ (s 15).logFind 0 ((s 15).cdet 0).key = none ∧ ((s 15).core 0).queues.length = 4 := by
  refine ⟨fun n h => issues_of ?_, ?_, ?_, ?_, ?_, ?_⟩
  · revert n; decide +kernel
  all_goals decide +kernel

-- Every operation starts when it is next; with its memory closed it waits, and in HALTED the DMA does nothing.
theorem test_hyp_DescriptorsStart :
    (∀ op ∈ descriptorRows.map (·.2.1), nextDesc ((queued [{ bytes := dma op 64 0x1000 0x2000, pc := 0 }]).queueOf 0 0) = some { bytes := dma op 64 0x1000 0x2000, pc := 0 }) ∧
      (queued []).dmaLive 0 = true ∧ (queued [] stHalted).dmaLive 0 = false ∧ nextDesc ((queued []).queueOf 0 0) = none ∧
      (queued []).memWaits 0x1000 64 = false ∧ up.memWaits 0x1000 64 = true := by decide +kernel

theorem test_hyp_DescriptorWork :
    let ok : Desc := { bytes := dma 0x01 64 0x1000 0x2000, pc := 0 }
    let bad : Desc := { bytes := dma 0x01 0 0x1000 0x2000, pc := 0 }
    let s := queued [ok]
    firstStatus [lengthStatus ok.len 1, s.rangeStatus 0 ok.src ok.len, s.rangeStatus 0 ok.dst ok.len] = none ∧
      (firstStatus [lengthStatus bad.len 1, s.rangeStatus 0 bad.src bad.len, s.rangeStatus 0 bad.dst bad.len]).isSome = true ∧
      firstStatus [lengthStatus ok.len 4, s.rangeStatus 0 ok.dst ok.len] = none ∧ (s.shardStatus ok.dst ok.len).1 = none ∧ ok.mgroup < 256 ∧
      (s.set (SWC_MG_CFG_VALID 0) 1).flag (SWC_MG_CFG_VALID ok.mgroup) = true ∧ s.flag (SWC_MG_CFG_VALID ok.mgroup) = false := by decide +kernel

theorem test_hyp_DescriptorEnds :
    ((queued [{ reading with outst := [] }]).queueOf 0 0).find? (·.ready) = some { reading with outst := [] } ∧
    (let d : Desc := { bytes := dma 0x7F 0 0 0, pc := 0 }
     ((queued [d]).queueOf 0 0).find? (·.ready) = none ∧ nextDesc [d] = some d ∧ knownOp d.op = false) ∧
    ((queued [writing none]).findOutst 0 0 (fun o => o.retryAt.isNone)).isSome = true ∧
    ((queued [writing (some 1650)]).findOutst 0 0 (fun o => o.retryAt.isSome)).isSome = true ∧ (queued []).ageLimit = 2000 * 1650 ∧
    (let c : Combine := { core := 0, queue := 0, number := 0, bytes := dma 0x32 0 0 0, seed := 0, step := 0, expect := some 1 }
     ({ queued [] with combines := [c] } : State).combines.find? (fun c => c.core == 0 && c.queue == 0 && c.expect.isSome) = some c) ∧
    (let d : Desc := { bytes := dma 0x30 0 0 0, pc := 0, started := true, groups := [3] }
     [d].findSome? (fun d => if d.op == 0x30 && d.started && d.status == 0 then (d.groups.find? fun e => !d.open_ (3 * e)).map fun e => (d, e) else none)
       = some (d, 3)) := by decide +kernel

/-! The collective engine and sharded training (R294 to R331, R356 to R377) -/

/-- A collective descriptor by R303: operation, LEN 64, SRC, DST, rank 0, ticket, one local rank, FP32. -/
def colBytes (op ticket : Nat) (len : Nat := 64) : List Byte :=
  dma op len 0x1000 0x2000 (leBytes 2 0 ++ leBytes 14 0 ++ [0, 0] ++ leBytes 4 ticket ++ [1, 0] ++ leBytes 4 64)

/-- Two devices of one rank each in a ring: own address 0, the other is 1; domain 0 of window 4 is enabled. -/
def colUp : State :=
  let s := (((queued []).set COL_CTRL_EN 1).set (COL_DOM_CTRL_EN 0) 1).set PAT_STATUS_LIVE_VALID 1
  { s with pat := { s.pat with live := [
      { type := 1, inst := 0, recs := [leBytes 4 0 ++ leBytes 2 0 ++ leBytes 2 1 ++ List.replicate 24 0] },
      { type := 8, inst := 0, recs := [
        [1, 0, 1, 1] ++ leBytes 2 0 ++ leBytes 2 1 ++ leBytes 2 2 ++ List.replicate 22 0,
        [2, 0, 1, 0xFF] ++ leBytes 3 0 ++ leBytes 3 1 ++ leBytes 3 1 ++ leBytes 3 0x1FFFFF ++ leBytes 3 1 ++ leBytes 3 0x1FFFFF ++ leBytes 2 0 ++
          leBytes 2 2 ++ leBytes 2 0 ++ List.replicate 4 0] },
      { type := 9, inst := 0, recs := [[0, 0] ++ leBytes 2 4 ++ leBytes 4 1 ++ leBytes 4 0 ++ leBytes 4 0] }] } }

/-- A role of an operation on ticket 0. -/
def role (op : Nat) : Role := { core := 0, queue := 0, number := 0, bytes := colBytes op 0, gen := 0, op := op, addr := 0 }

/-- The engine runs a role. -/
def roleUp (r : Role) : State := { colUp with col := { roles := [(0, r)] } }

theorem test_chain_timeout :
    got (exec (.chainTimeout 0) (roleUp (role 0x20))) (fun t => (t.now, (t.role 0).isNone)) = some (20000 * 1650, true) := by decide +kernel

theorem test_col_disable : got (exec (.colDisable 0) colUp) (fun t => (t.flag COL_CTRL_EN, t.col.shutting)) = some (false, true) := by decide +kernel

theorem test_domain_enable :
    got (exec (.domainEnable 1 1) colUp) (fun t => t.flag (COL_DOM_CTRL_EN 1)) = some false ∧
    got (exec (.domainEnable 0 1) (colUp.set (COL_DOM_CTRL_EN 0) 0)) (fun t => t.flag (COL_DOM_CTRL_EN 0)) = some true := by decide +kernel

-- A credit for a ticket that has not started is kept; one for a domain that is off is dropped.
theorem test_chain_credit :
    got (exec .chainCredit (inbox [ctl 0xC8 0x1C 0xC8 0 [0, 0, 0, 0, 3, 0, 0, 0]] colUp)) (fun t => t.col.early.length) = some 1 ∧
    got (exec .chainCredit (inbox [ctl 0xC8 0x1C 0xC8 0 [1, 0, 0, 0, 3, 0, 0, 0]] colUp)) (fun t => t.col.early.length) = some 0 := by decide +kernel

-- A roll-back goes to the slot before current, and the version down by one (R375).
theorem test_rollback :
    got (exec (.rollback 5 0) ((up.set (MEM_SHD_STATE_CUR 5) 0).set (MEM_SHD_VERSION_VERSION 5) 0))
      (fun t => (t.get (MEM_SHD_STATE_CUR 5), t.get (MEM_SHD_VERSION_VERSION 5), t.flag (MEM_SHD_STATE_ROLLED 5))) = some (2, 2 ^ 32 - 1, true) := by
  decide +kernel

-- The translation leaves at the end of its HOLD, 2 ms (R375).
theorem test_xlate_expiry :
    got (exec (.xlateHoldExpiry 63) (((up.set (MEM_XLATE_CTRL_ACTIVE 63) 1).set (MEM_XLATE_CTRL_VALID 63) 1).set MEM_XLATE_HOLD_HOLD 2))
      (fun t => (t.now, t.flag (MEM_XLATE_CTRL_ACTIVE 63), t.flag (MEM_XLATE_CTRL_VALID 63))) = some (3300000, false, false) := by decide +kernel

/-! States that meet the hypotheses of the statements about collectives and sharded training -/

-- A good descriptor, one for another shape, one whose ticket is the last of the window and the first outside it, one outside its memory.
theorem test_hyp_CollectiveTickets :
    colUp.colBad (colBytes 0x20 0) = 0 ∧ colUp.colBad (colBytes 0x20 3) = 0 ∧ colUp.colBad (colBytes 0x20 4) = 3 ∧ up.colBad (colBytes 0x20 0) = 1 ∧
      colUp.colRefuse 0 (colBytes 0x20 0) = (none, none) ∧ colUp.colRefuse 0 (spliceAt (colBytes 0x20 0) 8 (leBytes 8 (gddrSize - 1))) = (some 4, none) ∧
      colUp.freeChain = some 0 ∧ colUp.fatal = false := by decide +kernel

/-- A descriptor that domain 0 holds, since time 0. -/
def held (ticket : Nat) : State :=
  { colUp with col := { held := [{ core := 0, queue := 0, number := 0, bytes := colBytes 0x20 ticket, gen := 0, domain := 0, ticket := ticket, since := 0 }]
                        orderAt := [(0, 0)] } }

theorem test_hyp_TicketStart :
    ((held 0).col.held.find? fun h => h.domain == 0 && (h.ticket == (held 0).nextTicket 0 || field h.bytes 0 1 == opBackup)).isSome = true ∧
      ((held 1).col.held.find? fun h => h.domain == 0 && (h.ticket == (held 1).nextTicket 0 || field h.bytes 0 1 == opBackup)) = none ∧
      Tbl.find (held 1).col.orderAt 0 = some 0 ∧ Tbl.find (held 1).col.orderAt 63 = none := by decide +kernel

/-- A chunk of a course for ticket 0, level 1, with FOLD_HI. -/
def chunk (course fold : Nat) : Pkt :=
  dat 0xC8 (courseOp course) 0xC8 0 0 ([0, 1] ++ leBytes 4 0 ++ leBytes 2 0 ++ leBytes 2 fold ++ leBytes 2 0) (List.replicate 64 0)

theorem test_hyp_ChunkPackets :
    (∀ course < 3,
      let s := inbox [chunk course 0xFFFF] (roleUp (role 0x20))
      let x := s.takeInb fun x => x.pkt.data && x.pkt.opcode == courseOp course && s.chunkOpen course x.pkt
      (x.map fun y => (y.2.answer y.1.pkt 0x01 0 0).chunkRole course 1 0 y.1.pkt) = some (some 0) ∧
        ((s.role 0).bind fun r => s.ring? r 1 0).isSome = true) ∧
    (∀ course < 2,
      let s := inbox [chunk course 0] colUp
      (s.takeInb fun x => x.pkt.data && x.pkt.opcode == courseOp course && s.chunkOpen course x.pkt).map
        (fun y => (y.2.answer y.1.pkt 0x01 0 0).chunkRole course 1 0 y.1.pkt) = some none) ∧
    (colUp.takeInb fun x => x.pkt.data && x.pkt.opcode == courseOp 2) = none := by decide +kernel

-- A chunk of another generation, of another step, of another fold position.
theorem test_hyp_ChunkChecks :
    let r := role 0x20
    (chunk 0 7).pgen = 0 ∧ { r with gen := 1 }.gen % 256 = 1 ∧ (chunk 0 7).op 0x2A 2 = 0 ∧ { r with step := 65537 }.step % 65536 = 1 ∧
      ((((roleUp r).ring? r 1 0).map fun rec => (roleUp r).foldHiOk r rec 0 (chunk 0 7)) = some false) ∧ r.gen % 256 = 0 := by decide +kernel

/-- A chunk ready to leave for device 1, with its credit. -/
def sending : Role :=
  { role 0x20 with granted := true, credits := [{ dest := 1, course := 0, level := 1, stripe := 0, count := 1 }]
                   ready := [{ dest := 1, course := 0, key := { level := 1, stripe := 0, chunk := 0 }, part := { vals := [] }, foldHi := 0 }] }

theorem test_hyp_Roles :
    RunsRole (roleUp (role 0x20)) 0 (role 0x20) ∧ (role 0x20).granted = false ∧ (role 0x20).standby = false ∧ (role 0x20).isScalar = false ∧
      (sending.ready.find? (sending.hasCredit (roleUp sending).ownAddr)).isSome = true ∧ sending.granted = true ∧ RunsRole (roleUp sending) 0 sending ∧
      RunsRole (roleUp { role 0x20 with standby := true }) 0 { role 0x20 with standby := true } ∧ (role 0x20).op ≠ opPermute := by
  refine ⟨⟨?_, ?_⟩, ?_, ?_, ?_, ?_, ?_, ⟨?_, ?_⟩, ⟨?_, ?_⟩, ?_⟩ <;> decide +kernel

-- Each control packet of the engine waits, with the roles, aborts, notices and repairs of the clauses.
theorem test_hyp_EngineControlPackets :
    (∀ op ∈ [0x10, 0x11, 0x1C, 0x1D], ((inbox [ctl 0xC8 op 0xC8 0] colUp).takeCtl fun p => p.opcode == op).isSome = true) ∧
    (∀ op ∈ [0x12, 0x16, 0x17, 0x1B],
      let s := inbox [ctl 0xC8 op 0xC8 0] colUp
      (s.takeCtl fun p => decide (op ≤ p.opcode) && decide (p.opcode ≤ op + 4) && s.scalarOpen p).map (fun x => x.2.scalarRole x.1) = some none) ∧
    (let s := inbox [ctl 0xC8 0x12 0xC8 0] (roleUp { role 0x26 with granted := true })
     (s.takeCtl fun p => decide (0x12 ≤ p.opcode) && decide (p.opcode ≤ 0x16) && s.scalarOpen p).map (fun x => x.2.scalarRole x.1) = some (some 0)) ∧
    colUp.keyRoles 0 0 = [] ∧ colUp.col.done.length = 0 ∧ colUp.domainOn 0 = true ∧ colUp.domainOn 1 = false ∧ 0 ≤ ticketDiff 0 (colUp.nextTicket 0) ∧
    (∀ kind ∈ [1, 2, 3],
      ((inbox [ctl 0xC8 0x1E 0xC8 0 (List.replicate 11 0 ++ [BitVec.ofNat 8 kind])] colUp).takeNotice kind).isSome = true) ∧
    (let n := ctl 0xC8 0x1E 0xC8 0 (List.replicate 11 0 ++ [1])
     (roleUp { role 0x20 with standby := true }).standbyOf n = some 0 ∧ colUp.standbyOf n = none ∧ colUp.activeFor n = false) := by decide +kernel

/-- A term for a registered combine, with its routing entry at SRC: slot 0 is dropped or not. -/
def combining (k : Byte) : State :=
  let c : Combine := { core := 0, queue := 0, number := 0, seed := 0, step := 0
                       bytes := dma 0x32 64 0x1000 0x2000 (leBytes 2 0 ++ leBytes 2 0 ++ leBytes 4 0 ++ leBytes 8 0 ++ leBytes 4 1) }
  inbox [dat 0xC0 0x45 0xC0 0 0 (List.replicate 32 0) (List.replicate 4 0)] (({ queued [] with combines := [c] }).gddrWrite 0x1000 (leBytes 4 0 ++ [k] ++ List.replicate 43 0))

theorem test_hyp_CombineTerm :
    ((combining 1).takeInb fun x => x.pkt.data && x.pkt.opcode == 0x45).map (fun x => (x.2.combineOf (x.1.pkt.op 0x20 4) (x.1.pkt.op 0x24 2)).isSome) = some true ∧
    ((inbox [dat 0xC0 0x45 0xC0 0 0 [9] []] (queued [])).takeInb fun x => x.pkt.data && x.pkt.opcode == 0x45).map
      (fun x => (x.2.combineOf (x.1.pkt.op 0x20 4) (x.1.pkt.op 0x24 2)).isSome) = some false ∧
    ((combining 1).readRange 0x1000 48 none).1.fail = none ∧ (reSlots ((combining 1).readRange 0x1000 48 none).1.bytes).contains 0 = true ∧
    (reSlots ((combining 0).readRange 0x1000 48 none).1.bytes).contains 0 = false ∧ (combining 1).memOpen = true := by decide +kernel

theorem test_hyp_EngineControl :
    up.col.acts.length = 0 ∧ ({ colUp with col := { acts := [{ pay := [], at_ := 0 }] } } : State).col.acts ≠ [] ∧ up.flag COL_CTRL_EN = false ∧ up.col.shutting = false ∧
      colUp.flag COL_CTRL_EN = true ∧ up.turnedAway COL_CTRL.off true = none ∧ up.turnedAway (COL_DOM_CTRL 63).off true = none ∧
      up.turnedAway COL_BACKUP_GO.off true = none ∧ (colUp.seqdom 0).isSome = true ∧ colUp.seqdom 63 = none ∧ colUp.flag (COL_DOM_CTRL_EN 0) = true ∧
      (let s : State := { colUp with col := { closing := [0], shutting := true } }
       s.col.closing.contains 0 = true ∧ s.domainIdle 0 = true ∧ s.flag (COL_DOM_CTRL_ENABLE_PENDING 0) = false) ∧
      (let s : State := { colUp with col := { shutting := true } }
       s.col.closing.length = 0 ∧ s.combines.length = 0 ∧ s.flag COL_CTRL_ENABLE_PENDING = false ∧ (s.set COL_CTRL_ENABLE_PENDING 1).flag COL_CTRL_ENABLE_PENDING = true) := by
  decide +kernel

/-- A permute whose wait has not ended, or has. -/
def permute (late : Bool) : Role :=
  { role 0x27 with bytes := spliceAt (colBytes 0x27 0 0) 0x22 (leBytes 2 1) |> fun b => spliceAt b 0x38 (leBytes 4 0), waitOver := late, entry := 0 }

theorem test_hyp_Permutes :
    (∀ late ∈ [true, false], RunsRole (roleUp (permute late)) 0 (permute late)) ∧ (permute true).op = opPermute ∧ (roleUp (permute false)).oldOpen (permute false) = false ∧
      (roleUp (permute true)).memOpen = true ∧ (permute true).moves = [] ∧ (permute true).movesOut = [] ∧
      (roleUp (permute true)).getR (MEM_SHD_RECV 0) = cRecv (permute true).bytes / 64 ∧
      epochOlder ((roleUp (permute true)).get MEM_LAYOUT_EPOCH) (cEpoch (permute true).bytes) = true ∧
      (((((roleUp (permute true)).swapEntry 0 0).set (MEM_SHD_EPOCH_EPOCH 0) 1).set (MEM_SHD_STATE_PERMUTING 0) 0).setR (MEM_SHD_RECV 0) 0).get MEM_LAYOUT_EPOCH
        = (roleUp (permute true)).get MEM_LAYOUT_EPOCH ∧
      cRecv (permute true).bytes / 64 < ((roleUp (permute true)).setR (MEM_SHD_RECV 0) 1).getR (MEM_SHD_RECV 0) := by
  refine ⟨fun o h => ⟨?_, ?_⟩, ?_, ?_, ?_, ?_, ?_, ?_, ?_, ?_, ?_⟩
  all_goals first | (revert o; decide +kernel) | decide +kernel

theorem test_hyp_PermuteFewer :
    let b := spliceAt (permute true).bytes 0x38 (leBytes 4 128)
    (roleUp (permute true)).getR (MEM_SHD_RECV 0) < cRecv b / 64 := by decide +kernel

-- Shard data for an entry that takes it and for none; a roll-back allowed and not; a registry entry that keeps its rules and one that does not.
theorem test_hyp_Shards :
    (let s := inbox [dat 0xC0 0x54 0xC0 0 0 (List.replicate 32 0) (List.replicate 64 0)] (queued [])
     (s.takeInb fun x => x.pkt.data && x.pkt.opcode == 0x54).map (fun x => x.2.permEntry x.1.pkt) = some none) ∧
    up.groupHeld (up.get (MEM_SHD_CFG_GROUP 63)) = false ∧ up.flag (MEM_SHD_STATE_ROLLED 63) = false ∧
    (up.set (MEM_SHD_STATE_ROLLED 63) 1).flag (MEM_SHD_STATE_ROLLED 63) = true ∧ up.turnedAway (MEM_SHD_STATE 63).off true = none ∧
    up.turnedAway (MEM_SHD_CFG 63).off true = none ∧ (up.set (MEM_SHD_CFG_SLOT_UNITS 63) 0).shdBad 63 = true ∧ (up.set (MEM_SHD_CFG_SLOT_UNITS 63) 1).shdBad 63 = false ∧ up.flag (MEM_XLATE_CTRL_ACTIVE 63) = false := by decide +kernel

/-! Links and the switch core (R159 to R293) -/

-- The check values of CRC-32C (R181) and of the CRC-16 of a training frame (R174) for the nine digits 1 to 9.
theorem test_crc : crc32c (leBytes 9 0x393837363534333231) = 0xE3069283 ∧ frameCrc (leBytes 9 0x393837363534333231) = 0x29B1 := by decide +kernel

/-- A flit by R179: payload, type, with its CRC (or the stomped one). -/
def flit (type : Nat) (pay : List Byte) (stomp : Bool := false) : List Byte :=
  let b := pay ++ List.replicate (64 - pay.length) 0 ++ leBytes 4 (0xFFF + type * 2 ^ 20)
  b ++ leBytes 4 (if stomp then crc32c b ^^^ 0xFFFFFFFF else crc32c b)

/-- A port in a state, with its link state in the port record. -/
def port (p st : Nat) (q : Port := {}) : State := (({ up with ports := [(p, q)] }).set SWC_CTRL_EN 1).set (LNK_STATUS_STATE p) st

/-- Port 23 in ACTIVE, enabled. -/
def active (q : Port := {}) : State := (port 23 lkActive q).set (LNK_CTRL_EN 23) 1

theorem test_null_flit :
    got (exec (.nullFlit 23 (.bytes (flit 0 []))) (active { expected := 5 })) (fun t => ((t.port 23).expected, (t.port 23).rxWait)) = some (5, false) := by decide +kernel

-- A flit with a wrong CRC asks for a replay (R183).
theorem test_bad_flit :
    got (exec (.nullFlit 23 (.bytes (List.replicate 72 7))) (active {})) (fun t => ((t.port 23).rxWait, t.get (LNK_CRC_ERR_COUNT 23))) = some (true, 1) := by decide +kernel

-- REPLAY_START at sequence 4,095 while 1 is expected: 2 duplicates are skipped.
theorem test_replay_start :
    got (exec (.replayStart 23 (.bytes (flit 9 (leBytes 2 4095 ++ [3])))) (active { expected := 1, rxWait := true })) (fun t => ((t.port 23).skip, (t.port 23).rxGen, (t.port 23).rxWait))
      = some (2, 3, false) := by decide +kernel

theorem test_fatal_flit :
    got (exec (.fatalFlit 23 (.bytes (flit 0xF (leBytes 4 9 ++ [0x31] ++ leBytes 3 0 ++ leBytes 8 77)))) (active {}))
      (fun t => (t.lst 23, t.get (LNK_PEER_FATAL_CODE 23), t.getR64 (LNK_PEER_FATAL_TIME 23), t.flag (LNK_STATUS_PEER_FATAL 23))) = some (lkFailed, 0x31, 77, true) := by
  decide +kernel

-- A port of OFF starts only behind an enabled switch core (R385).
theorem test_lnk_enable :
    got (exec (.lnkEnable 0 1) ((port 0 lkOff).set SWC_CTRL_EN 0)) (fun t => (t.flag (LNK_CTRL_EN 0), t.getR (HIF_AERR_INFO 0))) = some (false, 4 + 16 * 2) ∧
    got (exec (.lnkEnable 0 1) (port 0 lkOff)) (fun t => t.flag (LNK_CTRL_EN 0)) = some true := by decide +kernel

theorem test_lnk_disable :
    got (exec (.lnkDisable 23 0) (active {})) (fun t => t.lst 23) = some lkShutdown := by decide +kernel

-- The limit of DESKEW is TIMEOUT; in EQ a figure of merit that is too low has its own code (R165, R177).
theorem test_training_timeout :
    got (exec (.trainingStepTimeout 5) (port 5 lkDeskew)) (fun t => (t.now, t.lst 5, t.get (LNK_STATUS_FAIL_CODE 5))) = some (33000, lkFailed, 1) ∧
    got (exec (.trainingStepTimeout 5) (port 5 lkEq)) (fun t => t.get (LNK_STATUS_FAIL_CODE 5)) = some 5 := by decide +kernel

/-- Line bits of a flit on the eight lanes of port 23, from the partner's coders. -/
def lineOf (bs : List Byte) : List (List Bool) := (List.range 8).map fun i => (Coder.send (lineBits (stripe 8 i bs)) {}).1

-- A run of 32 equal line bits is a stuff error of its lane, and the flit that holds it is bad (R169).
theorem test_line_flit :
    ((active {}).rxIn 23 (.line (lineOf (flit 8 [5])))).1 = flit 8 [5] ∧ ((active {}).rxIn 23 (.line (lineOf (flit 8 [5])))).2.1 = .good ∧
    got (exec (.nullFlit 23 (.line (List.replicate 8 (List.replicate 72 true)))) (active {}))
      (fun t => (t.get (LANE_ERR_LINE_STUFF 184), t.get (LNK_CRC_ERR_COUNT 23), (t.port 23).rxWait)) = some (2, 1, true) := by decide +kernel

-- A PING request is stamped when it leaves: the write only puts it in the queue of unsequenced flits (R193).
theorem test_ping_start :
    got (exec (.pingStart 23 1) (active {})) (fun t => ((t.port 23).ctl.map fun u => (u.type, u.pay.take 2), t.out.length)) = some ([(0xB, [1, 0])], 0) := by
  decide +kernel

-- LP = 2 is discarded on the port of the live SYNTON record (R196).
theorem test_lp_request_synton :
    let s := active {}
    got (exec (.lpRequest 23 9) { s with pat := { s.pat with live := [{ type := 0xC, inst := 0, recs := [BitVec.ofNat 8 23 :: List.replicate 15 0] }] } })
      (fun t => (t.get (LNK_CTRL_LP 23), t.getR (HIF_AERR_INFO 0))) = some (0, 4 + 16 * 2) ∧
    got (exec (.lpRequest 23 9) s) (fun t => t.get (LNK_CTRL_LP 23)) = some 2 := by decide +kernel

theorem test_eq_adapt_low_fom :
    got (exec (.eqAdaptEnd 5) ((port 5 lkEq).set (LNK_FOM_MIN_FOM 5) 9)) (fun t => (t.lst 5, t.get (LNK_STATUS_FAIL_CODE 5))) = some (lkFailed, 5) := by decide +kernel

theorem test_ack_timeout :
    got (exec (.ackTimeout 23) (active { stored := [{ seq := 7, type := 2, pay := [], vc := 0, cells := 0 }] })) (fun t => (t.now, (t.port 23).replays)) = some (19800, 1) := by
  decide +kernel

theorem test_nak_timeout_limit :
    got (exec (.nakTimeout 23) (active { rxWait := true, resend := 255 })) (fun t => (t.lst 23, t.get (LNK_STATUS_FAIL_CODE 23))) = some (lkFailed, 7) := by decide +kernel

theorem test_swc_disable :
    got (exec (.swcDisable 0) (active {})) (fun t => (t.flag SWC_CTRL_EN, t.getR (HIF_AERR_INFO 0))) = some (true, 4 + 16 * 2) := by decide +kernel

theorem test_rsq_idle :
    got (exec (.rsqIdleRelease 0) (up.sw fun w => { w with flows := [{ srcAddr := 1, srcEp := 0, sq := 0, destEp := 0, expected := 3 }] }))
      (fun t => (t.now, t.switch.flows)) = some (4000 * 1650, []) := by decide +kernel

/-! States that meet the hypotheses of the statements about links and the switch core -/

theorem test_hyp_LinkControl :
    up.turnedAway (LNK_CTRL 23).off true = none ∧ (port 0 lkOff).portFenced 0 = false ∧ (port 0 lkOff).flag SWC_CTRL_EN = true ∧ up.flag SWC_CTRL_EN = false ∧
      (port 0 lkOff).flag (LNK_CTRL_EN 0) = false ∧ (port 0 lkShutdown).lst 0 = lkShutdown ∧ (active {}).flag (LNK_CTRL_EN 23) = true ∧ (active {}).lst 23 = lkActive ∧
      ((active {}).set (LNK_STATUS_STATE 23) lkShutdown).lst 23 = lkShutdown ∧ ((active {}).set (LNK_STATUS_STATE 23) lkFailed).lst 23 = lkFailed ∧ (active {}).fatal = false ∧
      up.turnedAway (LNK_PING_CTRL 23).off true = none ∧ ((active {}).port 23).stored.length = 0 ∧
      ((active {}).set (LNK_CTRL_LP1_AUTO 23) 1).flag (LNK_CTRL_LP1_AUTO 23) = true ∧ (∀ w ∈ [none, some 5], (port 3 lkLp2 { waking := w }).lst 3 = lkLp2 ∧ ((port 3 lkLp2 { waking := w }).port 3).waking = w) ∧
      ((port 3 lkLp2).port 3).relocked = false ∧
      (let q : Port := { relocked := true, goodMarkers := 1, credSent := true, credSeen := true }
       ((port 3 lkLp2 q).port 3).waking = none ∧ ((port 3 lkLp2 q).port 3).relocked = true ∧ ((port 3 lkLp2 q).port 3).goodMarkers ≥ 1 ∧
         ((port 3 lkLp2 q).port 3).credSent = true ∧ ((port 3 lkLp2 q).port 3).credSeen = true) ∧
      (active {}).noLp2 23 = false ∧ bits (9 : Nat) 2 2 = 2 ∧ bit (9 : Nat) 0 = true ∧ bit (9 : Nat) 8 = false ∧ lkOff ∉ [lkActive, lkFailed, lkLp1, lkLp2] ∧
      ((port 3 lkOff { waitPower := true }).port 3).waitPower = true ∧ (∀ i < 3, ((port 3 lkOff { waitPower := true }).port i).waitPower = false) ∧
      (port 3 lkOff { waitPower := true }).recentPower < 4 ∧ ((port 3 lkOff { upAt := some 0 }).port 3).upAt = some 0 ∧
      (up.set RTE_CFG_UP_AUTO 1).flag RTE_CFG_UP_AUTO = true ∧ (up.set RTE_CFG_UP_AUTO 0).flag RTE_CFG_UP_AUTO = false ∧
      ((port 3 lkShutdown).set (LNK_CTRL_ENABLE_PENDING 3) 1).flag (LNK_CTRL_ENABLE_PENDING 3) = true ∧
      (let s := active {}
       ({ s with pat := { s.pat with live := [{ type := 0xC, inst := 0, recs := [BitVec.ofNat 8 23 :: List.replicate 15 0] }] } } : State).noLp2 23 = true) := by
  decide +kernel

-- The exit from LP2 goes on, or has become a shutdown.
theorem test_hyp_Lp2Exit :
    ∀ st ∈ [lkLp2, lkShutdown],
      let d := (port 3 st { waking := some 0 }).passTo 0
      (((d.widthLanes 3).foldl (fun (s : State) l => s.set (LANE_STATUS_LOCK l) 1) d).modPort 3 fun q => { q with waking := none }).lst 3 = st := by decide +kernel

/-- A training frame of a type, all else zero. -/
def frame (type : Nat) : List Byte :=
  let b := BitVec.ofNat 8 type :: List.replicate 29 0
  b ++ leBytes 2 (frameCrc b)

theorem test_hyp_Frames :
    (∀ k < 6, 1 ≤ k → frameGood (frame k) k = true) ∧ frameGood (List.replicate 32 0) 1 = false ∧
    (∀ st ∈ [lkDetect, lkConfig, lkEq, lkActive, lkOff], (port 0 st).lst 0 = st) ∧
    (let s := port 0 lkConfig
     (((s.takeFrame 0 (frame 2)).detectDone 0).lst 0 = lkConfig) ∧
       let taken := ((s.takeFrame 0 (frame 1)).takeIdent 0 (frame 1)).detectDone 0
       (taken.agree 0 (taken.lane 0).goodFrames).laneMask 0 = s.laneMask 0) ∧
    ((port 0 lkDetect).takeFrame 0 (frame 2) |>.detectDone 0).lst 0 ≠ lkConfig ∧ ((port 0 lkEq { loopAsked := true }).port 0).loopAsked = true ∧
    (∀ e < 2, ((port 0 lkEq).set (LNK_CTRL_FAR_ALLOW 0) e).flag (LNK_CTRL_FAR_ALLOW 0) = (e == 1)) := by
  decide +kernel

theorem test_hyp_Lanes :
    (∀ st ∈ [lkActive, lkRetrain, lkFailed], (port 0 st).lst 0 = st) ∧ (lkRetrain ∉ [lkOff, lkLp2, lkFailed, lkFenced, lkDetect, lkSpeed]) ∧
      ((port 0 lkActive).set (LANE_STATUS_ACTIVE 0) 1).flag (LANE_STATUS_ACTIVE 0) = true ∧ (port 0 lkActive).flag (LANE_STATUS_ACTIVE 0) = false ∧
      bit ((port 0 lkActive).pmap 0 6 2) 0 = false ∧ (port 0 lkActive).get (LNK_FOM_MIN_FOM 0) ≤ min 255 300 ∧
      min 255 0 < ((port 0 lkActive).set (LNK_FOM_MIN_FOM 0) 1).get (LNK_FOM_MIN_FOM 0) ∧ ((port 0 lkActive).lane 0).lowFom + 1 < 3 ∧
      (let s : State := { port 0 lkActive with lanes := [(0, { lowFom := 2 })] }
       3 ≤ (s.lane 0).lowFom + 1 ∧ s.flag (LANE_STATUS_FAULT 0) = false) ∧ ((port 0 lkLp2).port 0).waking = none ∧
      (let s := (port 0 lkLp1 { onLane0 := true }).set (LANE_STATUS_LOGICAL 1) 1
       s.lst 0 = lkLp1 ∧ 1 ∉ s.rxLanes 0) ∧
      (let s := port 0 lkActive
       bit (({ s with pat := { s.pat with live := [{ type := 2, inst := 0, recs := [[0, 0, 0, 0, 8, 0, 1, 0] ++ List.replicate 24 0] }] } } : State).pmap 0 6 2) 0 = true) := by
  decide +kernel

theorem test_hyp_TrainingEnds :
    (∃ l ∈ (port 0 lkEq).widthLanes 0, ((port 0 lkEq).set (LNK_FOM_MIN_FOM 0) 1).get (LANE_STATUS_FOM l) < ((port 0 lkEq).set (LNK_FOM_MIN_FOM 0) 1).get (LNK_FOM_MIN_FOM 0)) ∧
    (∀ l ∈ (port 0 lkEq).widthLanes 0, ((port 0 lkEq).set (LNK_FOM_MIN_FOM 0) 0).get (LNK_FOM_MIN_FOM 0) ≤ ((port 0 lkEq).set (LNK_FOM_MIN_FOM 0) 0).get (LANE_STATUS_FOM l)) ∧
    (port 0 lkEq).get (LNK_CTRL_LOOP 0) ≠ 3 ∧ ((port 0 lkEq).set (LNK_CTRL_LOOP 0) 3).get (LNK_CTRL_LOOP 0) = 3 ∧ ((port 0 lkEq).port 0).loopAsked = false ∧
    ¬(∀ l ∈ (port 0 lkEq).widthLanes 0, 8 ≤ ((port 0 lkEq).lane l).flat) ∧
 (port 0 lkDeskew).widthLanes 0 ≠ [] ∧ (stepLimit lkEq).isSome = true ∧ stepLimit lkActive = none ∧
    (port 0 lkFailed).get (LNK_STATUS_FAIL_CODE 0) ≠ 4 ∧ ((port 0 lkFailed).set (LNK_STATUS_FAIL_CODE 0) 4).get (LNK_STATUS_FAIL_CODE 0) = 4 ∧
    ((port 0 lkFailed).set (LNK_CTRL_EN 0) 1).flag (LNK_CTRL_EN 0) = true := by decide +kernel

/-- Port 0 aligns its lanes, which run straight. -/
def deskew (n : Nat) (st : Nat := lkDeskew) : State :=
  (List.range 8).foldl (fun (s : State) l => s.set (LANE_STATUS_LOGICAL l) l) (port 0 st { goodMarkers := n })

/-- The eight markers of a block with MSEQ 3. -/
def block : List (List Byte) := (List.range 8).map fun l => leBytes 9 (markerWord l 3 0)

-- The marker of logical lane 0 with MSEQ 0 by R170: forty ones between zeros, LANE 0, a one, MSEQ 0, XSLACK 0, a one, CHK 0, a one.
theorem test_marker : markerWord 0 0 0 = (2 ^ 40 - 1) * 2 + 2 ^ 45 + 2 ^ 62 + markerChk (2 ^ 45) * 2 ^ 63 + 2 ^ 71 := by decide +kernel

-- The second aligned block in a row ends RETRAIN; a skew beyond 4 ns fails the port (R172, R173, R178).
theorem test_marker_block :
    got (exec (.markerBlock 0 block []) (deskew 0)) (fun t => (t.lst 0, (t.port 0).goodMarkers)) = some (lkDeskew, 1) ∧
    got (exec (.markerBlock 0 block []) (deskew 1 lkRetrain)) (fun t => t.lst 0) = some lkActive ∧
    got (exec (.markerBlock 0 block [0, 65]) (deskew 0)) (fun t => (t.lst 0, t.get (LNK_STATUS_FAIL_CODE 0))) = some (lkFailed, 6) := by decide +kernel

theorem test_hyp_MarkerBlock :
    (∀ n < 2, (deskew n).lst 0 = lkDeskew ∧ ((deskew n).port 0).farLoop = false ∧ ((deskew n).port 0).onLane0 = false ∧ ((deskew n).port 0).goodMarkers = n ∧
      (deskew n).widthLanes 0 ≠ []) ∧
    (∀ l ∈ (deskew 0).widthLanes 0, markerHolds (block.getD (l % 8) []) = true ∧
      markerSeq (block.getD (l % 8) []) ((deskew 0).get (LANE_STATUS_LOGICAL l)) = some 3) ∧ (deskew 0).get (LNK_STATUS_SPEED 0) = 0 := by decide +kernel

-- A good, a bad and a stomped flit of each type that the clauses name, in order.
theorem test_hyp_Flits :
    (∀ ty ∈ [0, 1, 2, 3, 8, 9, 0xA, 0xB, 0xF], verdict (flit ty [1]) = .good ∧ flitType (flit ty [1]) = ty ∧ verdict (flit ty [1] true) = .stomped) ∧
    verdict (List.replicate 72 7) = .bad ∧ (active {}).rxOn 23 = true ∧ up.rxOn 23 = false ∧ (active {}).lst 23 ≠ lkLoopback ∧
    ((active {}).set (LNK_STATUS_STATE 23) lkLoopback).rxOn 23 = true ∧ typeKnown (flitType (flit 5 [])) = false ∧ verdict (flit 5 []) = .good ∧
    (∀ rx ∈ [RxFlit.bytes (flit 2 [1]), .line (lineOf (flit 2 [1]))], ((active {}).rxIn 23 rx).1 = flit 2 [1] ∧ ((active {}).rxIn 23 rx).2.1 = .good) ∧
    (let bs := spliceAt (flit 2 [1]) 71 [0x55]
     verdict bs = .bad ∧ flitType bs = 2 ∧ ((active {}).port 23).inOrder bs = true) ∧
    (∀ ty ∈ [1, 2, 3], (((active {}).rxGood 23 (flit ty [])).rxSeq 23 (flit ty [])).2 = true) ∧
    (∀ k ∈ [1, 2, 3, 4, 5, 6], field (flit 0xA [BitVec.ofNat 8 k]) 0 1 = k) ∧
    (∀ k ∈ [1, 2], ((active { lpAsked := k }).rxGood 23 (flit 0xA [3])).lst 23 = lkActive ∧
      (((active { lpAsked := k }).rxGood 23 (flit 0xA [3])).port 23).lpAsked = k) ∧
    (((active {}).set (LNK_STATUS_STATE 23) lkLp1).rxGood 23 (flit 0xA [5])).lst 23 = lkLp1 ∧ (field (flit 9 (leBytes 2 3071)) 0 2 % 4096 = 3071) ∧
    (0 + 4096 - 3071) % 4096 = 1025 ∧ (0 + 4096 - 3072) % 4096 = 1024 := by decide +kernel

theorem test_hyp_LinkTimers :
    (let q : Port := { stored := [{ seq := 7, type := 2, pay := [], vc := 0, cells := 0 }], rxWait := true, owedAt := some 0 }
     ((active q).port 23).stored ≠ [] ∧ ((active q).port 23).replayFrom = none ∧ ((active q).port 23).rxWait = true ∧ ((active q).port 23).owedAt = some 0) ∧
    (∀ n < 2, (((active { rxWait := true, resend := n }).passTo 0).port 23).resend = n) ∧
    (let s := (active {}).sw fun w => { w with opens := [(23, { cells := [], vc := 8, flits := [], need := 2, lastAt := 0 })] }
     (Tbl.find s.switch.opens 23).isSome = true ∧ Tbl.find s.switch.opens 0 = none) ∧
    (active {}).markerDue 23 = false ∧ (active { slots := 2 ^ 20 }).markerDue 23 = true := by decide +kernel

/-- An offered packet to an endpoint of this device, at the packet's internal input. -/
def offered (p : Pkt) (heldAt : Option Nat) : State :=
  (colUp.set SWC_CTRL_EN 1).sw fun w => { w with offers := [{ input := 24, pkt := p, orig := .endpoint, heldAt := heldAt }] }

-- A packet that has its turn, one whose origin has no output, and one of another input.
theorem test_hyp_SwitchEvents :
    (24 : Nat) ≤ (34 : OutIx).val ∧ (active {}).switch.cuts.length = 0 ∧ ((active {}).pass ((((active {}).outSt 23).slotDue - (active {}).tu) / 160)).lst 23 ≠ lkLp1 ∧
      (let s := (active { owed := [(0, 3)], owedAt := some 0 }).set (LNK_STATUS_STATE 23) lkLp1
       let u := { s with now := 200 }
       u.lst 23 = lkLp1 ∧ u.seqWaiting 23 = true) ∧
      (active {}).window 23 = none ∧ (active {}).grantTurn = none ∧
      ((offered (ctl 0xC8 0x10 0 0) none).grantTurn.map fun x => (x.1.input, x.2)) = some (24, false) ∧
      ((offered (ctl 0xFF 0x10 0 0) none).grantTurn.map fun x => ((offered (ctl 0xFF 0x10 0 0) none).originRoute (x.1.pkt.setH 72 16 0)).out) = some none ∧
      ((offered (dat 0xC0 0x40 0 0 0 [] [1]) (some 0)).switch.offers.find? fun o => o.input == 24 && o.heldAt.isSome).isSome = true ∧
      (((offered (dat 0xC0 0x40 0 0 0 [] [1]) (some 0)).originRoute (dat 0xC0 0x40 0 0 0 [] [1])).queueKey (dat 0xC0 0x40 0 0 0 [] [1])).isSome = true ∧
      colUp.marked 768 = false ∧ (colUp.setR (SWC_CONG 24) 1).marked 768 = true ∧ up.scanNext = none := by decide +kernel

-- A cut-through that is ready is chosen in the output's slot (R251).
theorem test_hyp_CutSlot :
    let s := (active {}).sw fun w => { w with cuts := [{ output := 23, input := 0, head := 0, stomped := some [] }] }
    let u := { s with out := [] }
    ((u.cutTurn 23).outSt 23).slotDue ≠ (u.outSt 23).slotDue := by decide +kernel

-- One queue holds a packet that has aged, or not, or whose copy has begun to leave, or whose cell has been reclaimed: the limit is 2,000 microseconds.
theorem test_hyp_AgeScan :
    let p := ctl 0xC8 0x10 0 0
    let d : PD := { head := 5, gen := 0, flits := 1, vc := 0 }
    let s (now : Nat) (left : Bool) : State := { (up.sw fun w => { w with
      queues := [(32 * 24, [d])]
      cells := [(5, { state := 2, head := true, ref := 1 })]
      pkts := [(5, { pkt := p, sent := p, input := 24, origin := true, cells := [5], left := left })] }) with ftime := BitVec.ofNat 64 now }
    (s 0 false).scanNext = some (32 * 24) ∧ (s 0 false).queue (32 * 24) = [d] ∧ (s 0 false).pdLive d = true ∧ (s 0 false).pdLive { d with gen := 1 } = false ∧
      (∀ l ∈ [true, false], ((s 0 l).bufPkt d.head).map (·.left) = some l) ∧ (s (2001 * 1650) false).aged p = true ∧ (s (2000 * 1650) false).aged p = false := by
  decide +kernel

theorem test_hyp_Flows :
    let f (gap : Option Nat) (sl : List (Nat × PD)) : State :=
      up.sw fun w => { w with flows := [{ srcAddr := 1, srcEp := 0, sq := 0, destEp := 0, expected := 3, slots := sl, gapAt := gap }] }
    let d : PD := { head := 9, gen := 0, flits := 1, vc := 0 }
    (f none []).switch.flows[1]? = none ∧ ((f (some 0) [(4, d)]).switch.flows[0]?.map fun x => (x.gapAt, x.slots)) = some (some 0, [(4, d)]) ∧
      ((f none []).switch.flows[0]?.map fun x => (x.gapAt, x.slots)) = some (none, []) := by decide +kernel

-- A clear that is due, with nothing else for the FCLK's end.
theorem test_hyp_SchClear :
    let s := up.sw fun w => { w with clearDue := true }
    s.fatal = false ∧ ((s.cutAll.elapse 1).switchPass 1).switch.clearDue = true := by decide +kernel

-- The sampler's fields are cleared when the FCLK of the write ends (R292).
theorem test_sch_clear :
    got (exec (.schClear 0) (up.setR (SCH_Q_SAMPLES 0) 9)) (fun t => (t.getR (SCH_Q_SAMPLES 0), (t.pass 1).getR (SCH_Q_SAMPLES 0))) = some (9, 0) := by decide +kernel

/-- A sweep of a cut tag under way. -/
def sweeping : State := up.sw fun w => { w with sweeps := [{ tags := [0] }] }

theorem test_hyp_Sweeps :
    sweeping.switch.sweeps ≠ [] ∧ up.switch.sweeps.length = 0 ∧ up.switch.swept.length = 0 ∧
      (up.sw fun w => { w with swept := [{ tags := [0], marked := [3] }] }).switch.swept ≠ [] ∧ up.get BPM_CTRL_AUDIT_PERIOD = 0 ∧
      (up.set BPM_CTRL_AUDIT_PERIOD 1).get BPM_CTRL_AUDIT_PERIOD ≠ 0 ∧ up.switch.audit = none ∧
      ((up.sw fun w => { w with audit := some {} }).switch.audit) = some {} ∧ up.turnedAway BPM_CTRL.off true = none ∧ up.turnedAway SWC_CTRL.off true = none ∧
      up.turnedAway SCH_CTRL.off true = none ∧ up.anyEnabled = false ∧ (active {}).anyEnabled = true ∧ (up.set SWC_CTRL_EN 1).flag SWC_CTRL_EN = true := by
  decide +kernel

/-! Patterns, the seam, replay and the start barrier (R12 to R42, R340 to R353) -/

/-- A baste image of one empty piece, without its signature block: header of R16, one entry of R17, the body of R18. -/
def patHead : List Byte :=
  leBytes 64 0x10100000001000005380100000154505A4B ++
  leBytes 64 0x1380000010038E475A5585B6F9BAC95F88DC4D4401966B9923FFBBC417B6BF18167DC268E3D ++
  List.replicate 128 0 ++
  leBytes 56 0x1000800000000FA6FD3F4BEC85AB4E255A67CE96824ED31B219994899DD99143C904D7C163F160000000000000008000001300000000A

/-- A firmware image with no code, without its signature block (R463). -/
def fwHead : List Byte :=
  leBytes 64 0x1000005000100000157465A4B ++
  leBytes 64 0x10038E475A5585B6F9BAC95F88DC4D4401966B9923FFBBC417B6BF18167DC268E3D ++
  List.replicate 128 0

/-- The modulus and exponent of a test key. -/
def testKey : List Byte :=
  leBytes 64 0xB964BD9B501B94682449E34683519093034F85E97D230765BAA55D2CE2A8FE74B4A8BBC1A3B84FCD8639B03B1311271DE102942C6D6B938CBF76808E9444F8AC ++
  leBytes 64 0x6634E40AA4C3B3EBAF58F9AB7B6DE1BB2C3F1AF94895994D7067EABE4BD33C50560C995165F984747881080516CA901A41D8947441D869FE1742CEF764BC36B ++
  leBytes 64 0x13B5DB9130B66C0B5CF29C4D7976F2EA00DDEFB2D93AFBFD0950E3C414D6C96A5FDB1261682111525730C6B7C3D28B350E421CF983AAC6F9FCE12D279BC7C7D6 ++
  leBytes 64 0x9B04F5797C5527E9F6A927C910AA9647A4236F95A2289193D6CCFD7C51E22C93491E899A9A2B21154A42466938D4BD7207B49B36285EA98A69E081DC05BFA925 ++
  leBytes 64 0x808FF67D0FC352B595A5903097437EAE98C7AFA6EAF0BA5CC7383D55A13E67E2B5B26C4B103D9E3B565A6F0EF4A28F62FF2A20C726ACADCC55C841BF500E7A68 ++
  leBytes 64 0xAF556C947179357D0864AA3768C4507A9C7756F4A73D0BE5D1DE4ACEB1446577CAFD25151BA9D488957CF5BA599E1D18294FC6B6468AD35DD95A93EC3E94D9B9 ++
  leBytes 4 0x10001

/-- The signature of patHead by that key, made outside Lean with salt 0 to 31. -/
def patSig : List Byte :=
  leBytes 64 0xC6A486C0FD635BB8B4E0F45BD2CDF3184C7485137F26B4A9621DC4E2CFF518FF81468B42790D2DBB25B98A361284C4B2E383245F0868D704F3EB06B1B2057432 ++
  leBytes 64 0x9803890F3BBC67F5DBAD5AFCA12CABF3D4E640F96B3F1C4D12B2DF34229B7FEEB698B64AE96CD46E4873A6F7D241C376FD2A3C632DF813711E9D068C0D026327 ++
  leBytes 64 0x3EA6E04AABCA478A8FA853046F31C6DEDCA88609DACB23B35E3875DDA0FDBADCE419B86E162BB92139B19461B0333C7EB58BB8D00C82FCB626C54B359C11715D ++
  leBytes 64 0xEDC33C9CF9A44A838AD42BDC30DDF813DAAE65D688248C00BB9CB2D4F4E42E5BF419D67FBC1649A20B53D8C9C8FFFAB531526CC4EACA5FACFB7B7D78D178AAE8 ++
  leBytes 64 0x4A568CC16F78EA236355A5CCA9EAE9B591A1C2A10634E9E38AEF944CBE713A6C0D07D657087CBDA7E50A26D9B87B22D15CF4A40819E8D0CC73992D5EBD83B8E1 ++
  leBytes 64 0x834A2F19725EB2FDFF9C6D7AB38CE191058DEC978F4C4F557BDECF0D8C3ACB09D987457BBD015F5BF89985EEEE081E9A231B2D2C49985546DC248FC826800042

/-- The signature of fwHead by that key. -/
def fwSig : List Byte :=
  leBytes 64 0x3AA12139A7AE91A9E42F6321CB357DEF76B62D8CCAC784D686F8FC336CD3BFD9CC4390003DBC48DEDBF36F8D58841EEFB333521A71D5425FEF1D227B94113F3A ++
  leBytes 64 0xC2FB946785AE8A81F02DF38D4F4D11585A6B422ECF578FC92DEC7CF878382732424E9087693B2E753765E2BAAA57A58134462CEA50E711A7A7708686B1F0DD0 ++
  leBytes 64 0x7B48DEFBE1B2F4A82979D794BB062F25471C2F7D5D42D978923C5D7372C2D9D19AAB65C4A26041976057C56D48759CA85AC0CB00E26A5ABDBCBA4E6CF9F74115 ++
  leBytes 64 0xB10EF52B53DC8360FB7CF6750CAAA65B59023546386BD0427B4F9424F361D5B49A358836FE0073F461F41C399E040853864A12332B70DEB517E097E695C232DB ++
  leBytes 64 0x72E1705CBC03315349DB30351B2B2BA4385094954A582C8B8D2C9CAC979D6CDF7A35E55DC4EFA83E7B8AD9E0232A9110E4E5ABA4C35467282E91974725E09554 ++
  leBytes 64 0x4C33B1B2D5D396FAC5CCE2F091005142A2BD58AF3DB7468A8170B83670B70A08ED28778FD01CCEE72E813AA17F4F6CB20CAF776A9E9A82D60D890B9FD5FEB322

/-- The signed pattern image. -/
def patImage : List Byte := patHead ++ patSig ++ testKey ++ List.replicate 252 0

/-- The signed firmware image. -/
def fwImage : List Byte := fwHead ++ fwSig ++ testKey ++ List.replicate 252 0

/-- The hash of the test key. -/
def keyDigest : List Byte := leBytes 32 0x38E475A5585B6F9BAC95F88DC4D4401966B9923FFBBC417B6BF18167DC268E3D

/-- The test key enrolled in signer slot 0 of a locked table, a pattern live. -/
def signed : State :=
  ((((List.range 8).foldl (fun (s : State) i => s.setR (SEC_SIGNER 0 i) (field keyDigest (4 * i) 4)) up).set SEC_SIGNER_VALID_VALID 1).set SEC_CTRL_LOCK 1).set
    PAT_STATUS_LIVE_VALID 1

/-- A pattern is live and the image's length is set. -/
def loadable : State := ((up.set PAT_STATUS_LIVE_VALID 1).set PAT_LOAD_LEN_LEN 1336)

theorem test_load : got (exec (.load 1) up) (fun t => t.get PAT_STATUS_LAST_CODE) = some 3 ∧
    got (exec (.load 1) (up.set PAT_LOAD_LEN_LEN 1280)) (fun t => (t.flag PAT_STATUS_BUSY, t.out.length)) = some (true, 1) := by decide +kernel

theorem test_baste : got (exec (.baste 2) loadable) (fun t => (t.flag PAT_STATUS_BUSY, t.pat.check.map (·.op))) = some (true, some 1) := by decide +kernel

theorem test_drained : got (exec (.drained 4) (up.set PAT_LOAD_LEN_LEN 1336)) (fun t => (t.get PAT_STATUS_LAST_CODE, t.get PAT_STATUS_LAST_OP)) = some (0xF, 2) := by
  decide +kernel

theorem test_discard_baste :
    got (exec (.discardBaste 8) ((up.set PAT_STATUS_STAGED 1))) (fun t => t.flag PAT_STATUS_STAGED) = some false := by decide +kernel

-- A read that fails refuses the image with 0x14; a header of zeros with 1.
theorem test_pattern_check :
    (let s := { loadable with pat := { loadable.pat with check := some { op := 1, addr := 0, len := 1336 } } }
     got (exec (.patternCheckDone none) s) (fun t => (t.get PAT_STATUS_LAST_CODE, t.pat.check)) = some (0x14, none) ∧
     got (exec (.patternCheckDone (some (List.replicate 1336 0))) s) (fun t => t.get PAT_STATUS_LAST_CODE) = some 1) := by decide +kernel

-- SHA-256 of the three letters abc.
theorem test_sha : sha256 [0x61, 0x62, 0x63] = [0xBA, 0x78, 0x16, 0xBF, 0x8F, 0x01, 0xCF, 0xEA, 0x41, 0x41, 0x40, 0xDE, 0x5D, 0xAE, 0x22, 0x23,
    0xB0, 0x03, 0x61, 0xA3, 0x96, 0x17, 0x7A, 0x9C, 0xB4, 0x10, 0xFF, 0x61, 0xF2, 0x00, 0x15, 0xAD] := by decide +kernel

/-- A signed image that every check passes. -/
theorem test_signed_image : signed.imageCheck 1 patImage = none := by decide +kernel

/-- Pattern live, the seam's time set. -/
def armable (t : Nat) : State := (((up.set PWR_CLK_STATUS_ROOT_LOCK 1).set PAT_STATUS_LIVE_VALID 1).set64 PAT_SEAM_TIME_T t)

-- The lead after reset is 33,000 ticks.
theorem test_arm :
    got (exec (.arm 1) (armable 33000)) (fun t => (t.flag PAT_STATUS_ARMED, t.get PAT_STATUS_LAST_CODE)) = some (true, 0) ∧
    got (exec (.arm 1) (armable 32999)) (fun t => (t.flag PAT_STATUS_ARMED, t.get PAT_STATUS_LAST_CODE, t.get PAT_SEAM_MISS_COUNT_COUNT)) = some (false, 0x21, 1) := by
  decide +kernel

-- In the FCLK of the armed time a cancel is discarded and recorded (R41).
theorem test_seam_cancel :
    got (exec (.seamCancel 0) ((armable 33000).set PAT_STATUS_ARMED 1)) (fun t => t.flag PAT_STATUS_ARMED) = some false ∧
    got (exec (.seamCancel 0) ((armable 0).set PAT_STATUS_ARMED 1)) (fun t => (t.flag PAT_STATUS_ARMED, t.getR (HIF_AERR_INFO 0))) = some (true, 4 + 16 * 2) := by
  decide +kernel

theorem test_seam_apply :
    got (exec .seamApply { (armable 10).set PAT_STATUS_ARMED 1 with shadow := [((SWC_MG_OUT 0).off, 5)] }) (fun t => (t.flag PAT_STATUS_SEAM_DONE, t.get64 PAT_SEAM_APPLIED_T_APPLIED, t.getR (SWC_MG_OUT 0), t.shadow))
      = some (true, 10, 5, []) := by decide +kernel

theorem test_old_bank_release :
    got (exec .oldBankRelease (up.set PAT_EPOCH_STATUS_OLD_DRAINING 1)) (fun t => t.flag PAT_EPOCH_STATUS_OLD_DRAINING) = some false := by decide +kernel

/-- A core that waits for its replay: the checkpoint at PC 5, six instructions before the fault. -/
def replaying (faultCount : Nat) : State :=
  ((({ running 0 with jobs := [{ job with ring := some (0, 1) }], det := { cores := [(0, { ckpt := some { pc := 5, p := 3 }, resumeAt := some 600, faultCount := faultCount })] } } : State).set
    (CORE_STATUS_STATE 0) 5).set (CORE_MAP_VALID 0) 1).set MEM_CTRL_EN 1

-- The core takes up its checkpoint at PC 5; with no instruction to repeat it has caught up at once.
theorem test_replay_resume :
    got (exec (.replayResume 0) (replaying 6)) (fun t => (t.now, t.cst 0, t.get (SEQ_PC_INDEX 0), t.flag (DET_CORE_REPLAY_REPLAYING 0))) = some (600, 3, 5, true) ∧
    got (exec (.replayResume 0) (replaying 0)) (fun t => (t.flag (DET_CORE_REPLAY_REPLAYING 0), t.get DET_REPLAYS_COUNT)) = some (false, 1) := by decide +kernel

theorem test_replay_caught_up :
    got (exec (.replayCaughtUp 3) (up.set (DET_CORE_REPLAY_REPLAYING 3) 1)) (fun t => (t.flag (DET_CORE_REPLAY_REPLAYING 3), t.get DET_REPLAYS_COUNT)) = some (false, 1) := by
  decide +kernel

-- Fabric time 0 has passed at fabric time 0; fabric time 1 is to come.
theorem test_start_barrier :
    got (exec (.detStartArm 1) up) (fun t => (t.flag DET_START_CTRL_ARM, t.flag DET_START_CTRL_LATE)) = some (false, true) ∧
    got (exec (.detStartArm 1) (up.set64 DET_START_TIME_T 1)) (fun t => t.flag DET_START_CTRL_ARM) = some true := by decide +kernel

/-- The barrier armed for a fabric time, a job held. -/
def heldStart : State := (({ up.set PWR_CLK_STATUS_ROOT_LOCK 1 with jobs := [{ job with held := true }] }.set64 DET_START_TIME_T 10).set DET_START_CTRL_ARM 1)

theorem test_start_release :
    got (exec .startBarrierRelease heldStart) (fun t => (t.now, t.flag DET_START_CTRL_RELEASED, t.jobs.map (·.held))) = some (11, true, [false]) := by decide +kernel

theorem test_start_cancel :
    got (exec (.detStartCancel 0) heldStart) (fun t => (t.flag DET_START_CTRL_ARM, t.jobs.map (·.held))) = some (false, [false]) := by decide +kernel

/-- The step barrier of group 0 held to FCLK 3,300. -/
def heldBarrier : State :=
  { running 0 { wait := some (.gbar true) } with jobs := [{ job with ring := some (0, 1) }], det := { heldBar := [(0, 3300)] } }

theorem test_release_point_wait :
    got (exec (.releasePointWait 0) heldBarrier) (fun t => (t.now, t.get64 (DET_STEP_STEP 0))) = some (3300, 1) := by decide +kernel

/-! States that meet the hypotheses of the statements about patterns, the seam, replay and the start barrier -/

theorem test_hyp_PatternImages :
    up.turnedAway PAT_CTRL.off true = none ∧ (bits 3 0 4 &&& (15 ^^^ 2 ^ 0) ≠ 0) ∧ (∀ o < 3, bits (2 ^ o) 0 4 &&& (15 ^^^ 2 ^ o) = 0) ∧
      up.startCheck 0 = some 3 ∧ up.startCheck 1 = some 0xF ∧ up.startCheck 2 = some 0xF ∧ (up.set PAT_LOAD_LEN_LEN 1280).startCheck 0 = none ∧
      loadable.startCheck 1 = none ∧ loadable.startCheck 2 = none ∧ bits 8 0 3 = 0 ∧ (up.set PAT_STATUS_ARMED 1).flag PAT_STATUS_ARMED = true ∧
      up.flag PAT_STATUS_ARMED = false ∧ up.pat.check = none ∧ up.fatal = false ∧ signed.fatal = false ∧ Quiet up := by
  refine ⟨?_, ?_, ?_, ?_, ?_, ?_, ?_, ?_, ?_, ?_, ?_, ?_, ?_, ?_, ?_, quiet_of (by decide +kernel)⟩ <;> decide +kernel

-- The signed image with one byte of its padding changed is refused.
theorem test_hyp_PatternImages_checks :
    signed.imageCheck 1 [] = some { code := 1 } ∧
    (let u := { signed with pat := { signed.pat with check := none } }.set PAT_STATUS_BUSY 0
     u.pat.check = none ∧ u.getR PAT_GEN_LIVE = signed.getR PAT_GEN_LIVE) := by decide +kernel

theorem test_hyp_SeamCommands :
    up.turnedAway PAT_SEAM_CTRL.off true = none ∧ (armable 33000).armRefusal 0 = none ∧ (armable 32999).armRefusal 0 = some 0x21 ∧
      up.armRefusal 0 = some 0x0F ∧ up.flag PAT_STATUS_ARMED = false ∧ ((armable 33000).set PAT_STATUS_ARMED 1).armRefusal 0 = some 0x11 ∧
      ((armable 33000).set PAT_STATUS_ARMED 1).flag PAT_STATUS_ARMED = true ∧ (armable 33000).fatal = false ∧
      (armable 33000).ft < (armable 33000).get64 PAT_SEAM_TIME_T ∧ (armable 0).get64 PAT_SEAM_TIME_T ≤ (armable 0).ft ∧
      (up.set PAT_EPOCH_STATUS_OLD_DRAINING 1).flag PAT_EPOCH_STATUS_OLD_DRAINING = true ∧ (∀ p < 35, up.drainCount p = 0) ∧
      (colUp.sw fun w => { w with offers := [{ input := 24, pkt := { data := true, hdr := List.replicate 64 0xFF, pay := [] }, orig := .endpoint }] }).drainCount 24 ≠ 0 := by
  decide +kernel

theorem test_hyp_ReplayAndStart :
    (∀ n ∈ [0, 6],
      ((replaying n).cdet 0).resumeAt = some 600 ∧ ((replaying n).cdet 0).ckpt = some { pc := 5, p := 3 } ∧ (replaying n).fatal = false ∧
      (replaying n).coreJob 0 = some { job with ring := some (0, 1) } ∧ (replaying n).cst 0 = stFaulted ∧
      (replaying n).imageOpen { job with ring := some (0, 1) } = true ∧
      ((((((((replaying n).passTo 600).zeroGrant 0 0x200000).copyProgram { job with ring := some (0, 1) } 0).restoreCkpt 0 { pc := 5, p := 3 }).setR (SEQ_FAULT 0) 0).cdet 0).faultCount
        = n)) ∧
      (up.cdet 0).resumeAt = none ∧ (running 0).cst 0 ≠ stFaulted ∧
      (up.set (DET_CORE_REPLAY_REPLAYING 3) 1).flag (DET_CORE_REPLAY_REPLAYING 3) = true ∧ (up.cdet 3).faultCount ≤ (up.cdet 3).count ∧
      up.flag (DET_CORE_REPLAY_REPLAYING 3) = false ∧ up.turnedAway DET_START_CTRL.off true = none ∧ bits 1 1 2 = 0 ∧ up.flag DET_START_CTRL_ARM = false ∧
      up.get64 DET_START_TIME_T ≤ up.ft ∧ (up.set64 DET_START_TIME_T 1).ft < (up.set64 DET_START_TIME_T 1).get64 DET_START_TIME_T ∧
      heldStart.flag DET_START_CTRL_ARM = true ∧ heldStart.fatal = false ∧ heldStart.ft < heldStart.get64 DET_START_TIME_T ∧
      (heldStart.set64 DET_START_TIME_T 0).get64 DET_START_TIME_T ≤ (heldStart.set64 DET_START_TIME_T 0).ft ∧ Tbl.find up.det.heldBar 0 = none ∧ Tbl.find heldBarrier.det.heldBar 0 = some 3300 ∧
      heldBarrier.jobs.find? (fun j => j.ring.isSome && j.group == 0) = some { job with ring := some (0, 1) } := by decide +kernel

/-! Resets, boot, clock, faults and power (R378 to R415, R464, R471 to R484) -/

theorem test_device_reset :
    got (exec (.deviceReset 1) (running 0)) (fun t => (t.boot.resetting, t.flag PWR_RESET_CAUSE_DEVICE, t.get PWR_BOOT_STATUS_STAGE, t.jobs, t.zeroed))
      = some (true, true, 6, [], []) := by decide +kernel

theorem test_device_reset_done :
    got (exec .deviceResetDone { up with boot := { up.boot with resetting := true }, ftime := 9 }) (fun t => (t.boot.resetting, t.ftime)) = some (false, 0) := by
  decide +kernel

theorem test_full_reset :
    got (exec (.fullReset 2) (up.set PWR_FW_VERSION_VERSION 7)) (fun t => (t.flag PWR_RESET_CAUSE_FULL, t.get PWR_BOOT_STATUS_STAGE, t.get PWR_FW_VERSION_VERSION))
      = some (true, 0, 7) := by decide +kernel

theorem test_link_reset :
    got (exec .linkReset { up with host := { up.host with bar2Log2 := 8 } }) (fun t => (t.flag PWR_RESET_CAUSE_LINK, t.host.bar2Log2)) = some (true, 4) := by
  decide +kernel

theorem test_flr : got (exec .flr (running 0)) (fun t => (t.jobs, t.flag PWR_RESET_CAUSE_DEVICE)) = some ([], true) := by decide +kernel

theorem test_power_on :
    got (exec .powerOnReset (up.set PWR_RESET_CAUSE_DEVICE 1)) (fun t => (t.flag PWR_RESET_CAUSE_POWER_ON, t.flag PWR_RESET_CAUSE_DEVICE, t.get PWR_BOOT_STATUS_STAGE))
      = some (true, false, 0) := by decide +kernel

theorem test_hot_swap :
    got (exec .hotSwapOn { up with power := {} }) (fun t => t.power.inputOn) = some true ∧
    got (exec .inputOff up) (fun t => (t.boot.powered, t.power.inputOn)) = some (false, false) := by decide +kernel

/-- The module data: serial number 0x1122334455667788, air cooling. -/
def modData : List Byte := leBytes 8 0x1122334455667788 ++ [1]

theorem test_root_pll_lock :
    got (exec (.rootPllLock modData) State.reset) (fun t => (t.get PWR_BOOT_STATUS_STAGE, t.flag PWR_CLK_STATUS_ROOT_LOCK, t.boot.mod.serial))
      = some (2, true, 0x1122334455667788) := by decide +kernel

/-- The boot is at a stage. -/
def booting (st : Nat) : State := State.reset.set PWR_BOOT_STATUS_STAGE st

theorem test_flash :
    got (exec (.flashSlotRead [0] none) (booting 2)) (fun t => (t.stage_, t.get PWR_BOOT_STATUS_CODE)) = some (7, 1) ∧
    got (exec (.flashSlotRead [] (some [])) (booting 2)) (fun t => (t.stage_, t.get PWR_BOOT_STATUS_CODE)) = some (8, 2) := by decide +kernel

set_option maxRecDepth 20000 in
theorem test_boot_ready :
    got (exec (.bootReady ⟨false, true⟩) (booting 4)) (fun t => (t.stage_, t.get PWR_BOOT_STATUS_CODE, t.flag PWR_BOOT_STATUS_ID_VALID)) = some (6, 6, false) := by
  decide +kernel

theorem test_boot_firmware :
    got (exec (.bootReady ⟨false, false⟩) (booting 4)) (fun t => (t.stage_, t.get PWR_BOOT_STATUS_CODE)) = some (7, 7) := by decide +kernel

theorem test_recovery :
    got (exec (.recoveryGo 0x80000500) (booting 8)) (fun t => (t.boot.recovering, t.get PWR_RECOVERY_LEN_LEN, t.out)) = some (true, 0x500, [.hostRead 0 0x500]) ∧
    got (exec (.recoveryImageRead none) ((booting 8).modBoot fun b => { b with recovering := true })) (fun t => (t.get PWR_BOOT_STATUS_CODE, t.boot.recovering))
      = some (8, false) := by decide +kernel

-- A firmware image with a good form and signature; its signer is the vendor where the boot ROM's root hash is that of its key.
theorem test_firmware_image :
    fwFormOk fwImage = true ∧ keyHash (sigOf fwImage) = keyDigest ∧ slice fwImage 0x40 32 = keyDigest ∧
      signatureOk (sigOf fwImage) (fwImage.take (fwImage.length - 1024)) = true := by decide +kernel

theorem test_firmware_verifies (h : rootHash = keyDigest) : fwStatus fwImage = 0 := by
  obtain ⟨a, b, c, d⟩ := test_firmware_image
  simp [fwStatus, fwSignerOk, a, b, c, d, h]

/-- A live SYNTON piece: port 3, revert after a loss, at most 5 ppm. -/
def synton : State :=
  let s := port 3 lkActive
  { s with pat := { s.pat with live := [{ type := 0xC, inst := 0, recs := [[3, 1, 5, 0, 0, 0, 0, 0]] }] } }

theorem test_synton_go :
    got (exec (.syntonGo 1) synton) (fun t => t.clock.measureAt) = some (some 0) ∧
    got (exec (.syntonGo 1) up) (fun t => (t.clock.measureAt, t.getR (HIF_AERR_INFO 0))) = some (none, 4 + 16 * 2) := by decide +kernel

-- 100 µs of measurement; 5.0 ppm is within MAX_OFFSET, 5.1 ppm is not.
theorem test_synton_measure :
    (let s := synton.modClock fun c => { c with measureAt := some 0 }
     got (exec (.syntonMeasureDone (-50)) s) (fun t => (t.now, t.clk, t.get PWR_CLK_STATUS_OFFSET, t.get PWR_CLK_STATUS_PORT)) = some (165000, 1, 65486, 3) ∧
     got (exec (.syntonMeasureDone 51) s) (fun t => (t.clk, t.flag PWR_CLK_STATUS_OFFSET_FAIL)) = some (0, true)) := by decide +kernel

theorem test_synton_slew : got (exec .syntonSlewDone (synton.set PWR_CLK_STATUS_STATE 1)) (fun t => t.clk) = some 2 := by decide +kernel

theorem test_synton_lost :
    got (exec .syntonSourceLost (up.set PWR_CLK_STATUS_STATE 2)) (fun t => (t.clk, t.get PWR_CLK_LOSS_COUNT)) = some (3, 1) := by decide +kernel

theorem test_holdover :
    got (exec .holdoverRevertTimeout ((synton.set PWR_CLK_STATUS_STATE 3).modClock fun c => { c with lostAt := some 5 })) (fun t => (t.now, t.clk))
      = some (16500005, 4) := by decide +kernel

theorem test_clk_revert : got (exec (.clkRevert 2) (synton.set PWR_CLK_STATUS_STATE 2)) (fun t => t.clk) = some 4 := by decide +kernel

/-- Fabric time runs; the adjustment is −5 ticks. -/
def adjust : State := (up.set PWR_CLK_STATUS_ROOT_LOCK 1).set64 PWR_FTIME_ADJ_ADJ (2 ^ 64 - 5)

set_option maxRecDepth 20000 in
theorem test_ftime_step :
    got (exec (.ftimeStep 1) { adjust with ftime := 3 }) (fun t => t.ftime) = some 0xFFFFFFFFFFFFFFFE ∧
    got (exec (.ftimeStep 1) (adjust.set PAT_STATUS_ARMED 1)) (fun t => (t.ftime, t.flag PWR_FTIME_CTRL_REFUSED)) = some (0, true) := by decide +kernel

-- One tick in sixteen cycles: 80 cycles for 5 ticks, so that fabric time moves by 75.
theorem test_ftime_slew :
    got (exec (.ftimeSlew 2) adjust) (fun t => (t.flag PWR_FTIME_CTRL_SLEWING, t.get PWR_FTIME_SLEW_LEFT_TICKS)) = some (true, 5) ∧
    got (exec .slewDone (((adjust.set PWR_FTIME_CTRL_SLEWING 1).set PWR_FTIME_SLEW_LEFT_TICKS 5).modClock fun c => { c with slewNeg := true }))
      (fun t => (t.now, t.ftime, t.flag PWR_FTIME_CTRL_SLEWING)) = some (80, 75, false) := by decide +kernel

theorem test_force_fatal :
    got (exec (.forceFatal 1) up) (fun t => (t.fatal, t.get FLT_FATAL_CAUSE_SOURCE, t.safe)) = some (true, 0x35, false) := by decide +kernel

theorem test_fence_cmd :
    got (exec (.fltFenceCmd 0x0502) (up.set (LNK_CTRL_EN 5) 1)) (fun t => (t.flag FLT_STATUS_FENCED, t.fatal)) = some (true, false) ∧
    got (exec (.fltFenceCmd 0x1802) up) (fun t => (t.flag FLT_STATUS_FENCED, t.getR (HIF_AERR_INFO 0))) = some (false, 4 + 16 * 2) := by decide +kernel

theorem test_safe_state :
    got (exec .safeStateReached (up.set FLT_STATUS_FATAL 1)) (fun t => (t.safe, t.get (MEM_CH_STATUS_STATE 0))) = some (true, 4) := by decide +kernel

theorem test_pll_unlock :
    got (exec .pllUnlock (up.set PWR_CLK_STATUS_ROOT_LOCK 1)) (fun t => (t.fatal, t.get FLT_FATAL_CAUSE_SOURCE, t.flag PWR_CLK_STATUS_ROOT_LOCK)) = some (true, 0x31, false) := by
  decide +kernel

/-- The limits of an air-cooled module: 95 and 110 °C on die, 95 and 105 °C in memory. -/
def limited : State := up.modBoot fun b => { b with mod := { b.mod with limits := 0x695F6E5F } }

theorem test_thermal_trip :
    got (exec (.thermalTrip 7 1100) limited) (fun t => (t.fatal, t.get FLT_FATAL_CAUSE_SOURCE)) = some (true, 0x32) ∧
    got (exec (.thermalTrip 8 1049) limited) (fun t => (t.fatal, t.get (PWR_TEMP_TEMP 8))) = some (false, 1049) := by decide +kernel

theorem test_power_fault : got (exec (.powerFault 8) up) (fun t => (t.fatal, t.get FLT_FATAL_CAUSE_SOURCE)) = some (true, 0x33) := by decide +kernel

theorem test_fw_watchdog : got (exec .fwWatchdog up) (fun t => (t.fatal, t.get FLT_FATAL_CAUSE_SOURCE)) = some (true, 0x34) := by decide +kernel

theorem test_fault_pulse_end :
    got (exec .faultPulseEnd { up.set FLT_FAULTN_PULSING 1 with fault := { up.fault with pulseEnd := some 1650 } })
      (fun t => (t.now, t.flag FLT_FAULTN_PULSING, t.fault.pulseEnd)) = some (1650, false, none) := by decide +kernel

theorem test_power_sample :
    got (exec (.powerSample 10501 48000 2200) up) (fun t => (t.now, t.get PWR_THROTTLE_K, t.flag PWR_THROTTLE_FAST, t.get PWR_THROTTLE_EVENTS_COUNT)) = some (16500, 4, true, 1) ∧
    got (exec (.powerSample 10500 48000 2200) up) (fun t => t.get PWR_THROTTLE_K) = some 0 := by decide +kernel

-- A die sensor at 95.0 °C throttles, at 94.9 °C it does not.
theorem test_limiter_check :
    got (exec (.limiterCheck [950]) limited) (fun t => (t.now, t.get PWR_THROTTLE_K, t.flag PWR_THROTTLE_DIE)) = some (165000, 1, true) ∧
    got (exec (.limiterCheck [949]) limited) (fun t => (t.get PWR_THROTTLE_K, t.flag PWR_THROTTLE_DIE)) = some (0, false) := by decide +kernel

/-! States that meet the hypotheses of the statements about resets, boot, the clock, faults and power -/

theorem test_hyp_Resets :
    up.turnedAway PWR_RESET.off true = none ∧ up.boot.powered = true ∧ up.boot.jtagHold = false ∧ up.power.inputOn = true ∧ ({ up with power := {} } : State).power.inputOn = false ∧
      up.boot.resetting = false ∧ up.clock.refGone = false ∧ (up.modClock fun c => { c with refGone := true }).clock.refGone = true ∧
      (up.modBoot fun b => { b with resetting := true }).boot.resetting = true ∧ Quiet (up.modBoot fun b => { b with resetting := true }) := by
  refine ⟨?_, ?_, ?_, ?_, ?_, ?_, ?_, ?_, ?_, quiet_of (by decide +kernel)⟩ <;> decide +kernel

-- With the vendor's root hash free, an image verifies where test_firmware_verifies says; one of a wrong form never does.
theorem test_hyp_Boot :
    State.reset.stage_ < 2 ∧ State.reset.clock.refGone = false ∧ State.reset.boot.powered = true ∧ State.reset.boot.resetting = false ∧ State.reset.boot.jtagHold = false ∧ 2 ≤ up.stage_ ∧
      (booting 2).stage_ = 2 ∧ (booting 2).boot.prefB = none ∧ fwStatus [] ≠ 0 ∧ (booting 2).boot.tried = false ∧
      ((booting 2).modBoot fun b => { b with tried := true }).boot.tried = true ∧ (booting 4).stage_ = 4 ∧
      State.reset.turnedAway PWR_RECOVERY_LEN.off true = none ∧ (booting 8).stage_ = 8 ∧ (booting 8).boot.recovering = false ∧
      ((booting 8).modBoot fun b => { b with recovering := true }).boot.recovering = true ∧ fwStatus (slice [] 0 5) ≠ 0 ∧ Quiet (booting 8) := by
  refine ⟨?_, ?_, ?_, ?_, ?_, ?_, ?_, ?_, ?_, ?_, ?_, ?_, ?_, ?_, ?_, ?_, ?_, quiet_of (by decide +kernel)⟩ <;> decide +kernel

theorem test_hyp_ClockCommands :
    up.turnedAway PWR_CLK_CTRL.off true = none ∧ bit 1 1 = false ∧ synton.synPort = 3 ∧ synton.lst 3 = lkActive ∧ (∀ k < 5, (synton.set PWR_CLK_STATUS_STATE k).clk = k) ∧
      up.synPort = 0xFF ∧ bit 2 0 = false ∧ (synton.modClock fun c => { c with measureAt := some 0 }).clock.measureAt = some 0 ∧
      synton.synton = some [3, 1, 5, 0, 0, 0, 0, 0] ∧ 10 * field [3, 1, 5, 0, 0, 0, 0, 0] 2 1 = 50 ∧ (50 : Int).natAbs ≤ 50 ∧ 50 < (-51 : Int).natAbs ∧
      synton.sourceGone 3 = false ∧ up.sourceGone 3 = true ∧ bit (field [3, 1, 5, 0, 0, 0, 0, 0] 1 1) 0 = true ∧
      bit (field [3, 0, 5, 0, 0, 0, 0, 0] 1 1) 0 = false ∧ up.clock.lostAt = none ∧ up.clock.measureAt = none ∧ synton.fatal = false ∧
      (∀ k < 4, ((synton.set PWR_CLK_STATUS_STATE k).modClock fun c => { c with refGone := true }).clock.refGone = true ∧
        ((synton.set PWR_CLK_STATUS_STATE k).modClock fun c => { c with refGone := true }).clk = k) ∧
      ((((synton.set PWR_CLK_STATUS_STATE 3).modClock fun c => { c with refGone := true, lostAt := some 5 }).passTo (5 + 16500000)).clk = 3) := by decide +kernel

theorem test_hyp_FabricTime :
    up.turnedAway PWR_FTIME_CTRL.off true = none ∧ (up.set PWR_FTIME_CTRL_SLEWING 1).flag PWR_FTIME_CTRL_SLEWING = true ∧ up.flag PWR_FTIME_CTRL_SLEWING = false ∧
      bit 1 1 = false ∧ bit 1 3 = false ∧ bit 2 0 = false ∧ bit 2 3 = false ∧ (running 0).cst 0 = stRun ∧ (∀ L < 144, up.cst L ≠ stRun) ∧
      (up.set PAT_STATUS_ARMED 1).flag PAT_STATUS_ARMED = true ∧ up.flag PAT_STATUS_ARMED = false ∧ up.flag DET_START_CTRL_ARM = false ∧
      (toSigned 64 (up.get64 PWR_FTIME_ADJ_ADJ)).natAbs = 0 ∧ (toSigned 64 (adjust.get64 PWR_FTIME_ADJ_ADJ)).natAbs = 5 ∧
      (toSigned 64 ((up.set64 PWR_FTIME_ADJ_ADJ (2 ^ 64 - 2 ^ 24)).get64 PWR_FTIME_ADJ_ADJ)).natAbs = 2 ^ 24 ∧
      adjust.flag PWR_CLK_STATUS_ROOT_LOCK = true := by decide +kernel

/-- A report of a source. -/
def ev (src : Nat) : FaultEv := { src := src, inst := 0, detail := 0, fence := none }

theorem test_hyp_FatalAfterDecision :
    (up.set FLT_STATUS_FATAL 1).fatal = true ∧ up.fatal = false ∧ up.get FLT_FATAL_CAUSE_MORE = 0 ∧
      (∀ e ∈ [ev 0x35, ev 0x31], e.fence = none ∧ e.src < 256 ∧ (source e.src).any (·.cls == 2) = true) ∧
      (up.batch [ev 0x35, ev 0x31]).get FLT_FATAL_CAUSE_SOURCE = 0x31 ∧ (up.batch [ev 0x35, ev 0x31]).get FLT_FATAL_CAUSE_MORE = 1 ∧
      ((up.set FLT_STATUS_FATAL 1).batch [ev 0x35, ev 0x31]).get FLT_FATAL_CAUSE_MORE = 2 := by decide +kernel

theorem test_hyp_FaultEvents :
    up.turnedAway FLT_CTRL.off true = none ∧ up.turnedAway FLT_FENCE_CMD.off true = none ∧ unitCount 0 = 0 ∧ unitCount 1 ≠ 0 ∧ unitCount 1 ≤ 192 ∧
      5 < unitCount 1 ∧ up.unitFenced 1 5 = false ∧ up.fatal = false ∧ (up.set PWR_CLK_STATUS_ROOT_LOCK 1).flag PWR_CLK_STATUS_ROOT_LOCK = true ∧
      up.flag PWR_CLK_STATUS_ROOT_LOCK = false ∧ up.ready = true ∧ State.reset.ready = false ∧ up.boot.powered = true ∧ limited.boot.mod.limits ≠ 0 ∧
      (limited.tripAt 7 = 1100 ∧ limited.tripAt 8 = 1050 ∧ limited.tripAt 31 = 1050 ∧ limited.tripAt 32 = 1250) ∧
      (up.set FLT_STATUS_FATAL 1).fatal = true ∧ (up.set FLT_STATUS_FATAL 1).safe = false ∧ (up.set FLT_STATUS_SAFE 1).safe = true ∧
      (∀ c < 24, up.ctlFenced c = false) ∧ (up.fenceUnit 5 0).ctlFenced 0 = true ∧ up.fault.pulseEnd = none ∧ gddrWf up.gddr = true := by decide +kernel

theorem test_hyp_PowerLimiter :
    up.get PWR_THROTTLE_K = 0 ∧ (up.set PWR_THROTTLE_K 3).get PWR_THROTTLE_K ≠ 0 ∧ up.boot.powered = true ∧ State.reset.boot.powered = true ∧
      (up.modBoot fun b => { b with powered := false }).boot.powered = false ∧ (up.passTo (up.power.sampledAt + 16500)).power.fast = false ∧
      (({ up with power := { up.power with fast := true } } : State).passTo 16500).power.fast = true ∧
      (limited.power.lastChange + 1650000 ≤ ({ limited with now := 1650000 } : State).now) ∧ limited.wattLimit = 850 ∧
      ([8499, 8501].sum ≤ 8500 * [8499, 8501].length ∧ 8500 * [8501].length < [8501].sum) ∧
      (∀ i < 32, limited.temp i + 30 ≤ limited.throttleAt i) ∧ (limited.throttleAt 0 ≤ (limited.set (PWR_TEMP_TEMP 0) 950).temp 0) ∧
      (limited.throttleAt 8 ≤ (limited.set (PWR_TEMP_TEMP 8) 950).temp 8) ∧ up.boot.mod.limits = 0 := by decide +kernel

/-! Counters, trace, BAR2, the mailbox, the management port, SMBus and JTAG (R387, R388, R416 to R435, R446, R447, R461 to R472) -/

theorem test_snap :
    got (exec (.snap 1) { up with now := 7, obs := { up.obs with live := [(0, { busy := 9 })] } }) (fun t => (t.obs.snap, t.get OBS_SNAP_COUNT_COUNT))
      = some ([(0, { busy := 9 })], 1) := by decide +kernel

theorem test_reset_all :
    got (exec (.resetAll 16) up) (fun t => (Tbl.find t.obs.resetDue 0, Tbl.find t.obs.resetDue 144)) = some (some (2, 0xFFFFFFFF), some (2, 0xFFFFFFFF)) := by
  decide +kernel

-- Snapshot time 0 has passed at fabric time 0; time 9 is to come, and is reached 9 cycles on.
theorem test_snap_arm :
    got (exec (.snapArm 2) up) (fun t => (t.flag OBS_CTRL_SNAP_ARM, t.flag OBS_CTRL_LATE)) = some (false, true) ∧
    got (exec (.snapArm 2) (up.set64 OBS_SNAP_TIME_TIME 9)) (fun t => t.flag OBS_CTRL_SNAP_ARM) = some true := by decide +kernel

theorem test_snap_time :
    got (exec .snapTimeReached (((up.set PWR_CLK_STATUS_ROOT_LOCK 1).set64 OBS_SNAP_TIME_TIME 9).set OBS_CTRL_SNAP_ARM 1))
      (fun t => (t.now, t.getR64 OBS_SNAP_TAKEN, t.flag OBS_CTRL_SNAP_ARM)) = some (9, 9, false) := by decide +kernel

theorem test_latency_sample : got (exec .latencySample (up.set SCH_CTRL_OBS_EN 1)) (fun t => t.now) = some 1 := by decide +kernel

/-- A live TRACE piece that records every type, without spill. -/
def traced : State := { up with pat := { up.pat with live := [{ type := 0xB, inst := 0, recs := [List.replicate 64 0] }] } }

theorem test_trace_enable :
    got (exec (.traceEnable 1) traced) (fun t => t.trSt) = some 1 ∧
    got (exec (.traceEnable 1) up) (fun t => (t.trSt, t.getR (HIF_AERR_INFO 0))) = some (0, 4 + 16 * 2) := by decide +kernel

/-- The trace unit in a state. -/
def tracing (st : Nat) : State := (traced.set OBS_TRACE_STATUS_STATE st).set OBS_TRACE_CTRL_EN 1

theorem test_trace_disable :
    got (exec (.traceDisable 0) (tracing 1)) (fun t => t.trSt) = some 5 ∧ got (exec (.traceDisable 0) (tracing 4)) (fun t => t.trSt) = some 0 := by decide +kernel

theorem test_trace_trigger :
    got (exec (.traceTrigger 5) (tracing 1)) (fun t => (t.trSt, t.get OBS_TRACE_TRIG_INDEX, t.flag OBS_TRACE_STATUS_TRIGGERED)) = some (2, 0, true) := by decide +kernel

-- The record joins source queue 0xFF's staging only if its type is enabled.
theorem test_trace_mark : got (exec (.traceMark 9) (tracing 1)) (fun t => (t.trSt, t.obs.staged.length)) = some (1, 0) := by decide +kernel

theorem test_trace_post : got (exec .tracePostDone (tracing 2)) (fun t => t.trSt) = some 3 := by decide +kernel

theorem test_trace_drain : got (exec .traceDrainDone (tracing 3)) (fun t => t.trSt) = some 4 := by decide +kernel

/-- GDDR7 is enabled with every controller trained, the window's base at 0. -/
def gddrUp : State := ((List.range 24).foldl (fun (s : State) c => s.set (MEM_CH_STATUS_STATE c) 2) up).set MEM_CTRL_EN 1

-- A write with its second byte masked, and its read; the last byte of the window is past the last core's SRAM.
theorem test_bar2 :
    got (exec (.bar2Write 64 [1, 2, 3] [true, false, true]) (gddrUp.gddrWrite 64 [9, 9, 9])) (fun t => t.gddrRead 64 3) = some [1, 9, 3] ∧
    got (exec (.bar2Read 64 2 false) (gddrUp.gddrWrite 64 [7, 8])) (fun t => t.out) = some [.readData [7, 8]] := by decide +kernel

theorem test_bar2_error :
    got (exec (.bar2Read (2 ^ 34 - 1) 1 false) gddrUp) (fun t => (t.out, t.getR (HIF_AERR_INFO 0))) = some ([.readData [0xFF]], 1 + 16 * 3) := by decide +kernel

theorem test_mailbox_length :
    got (exec (.attest none) up) (fun t => (t.host.mbox, t.flag HIF_MBOX_STATUS_BUSY)) = some (some (1, some 3), true) ∧
    got (exec .mailboxDone { up with host := { up.host with mbox := some (1, some 3) } }) (fun t => (t.get HIF_MBOX_STATUS_CODE, t.flag HIF_MBOX_STATUS_BUSY)) = some (3, false) := by
  decide +kernel

/-- A mailbox command under way. -/
def mailing (c : Nat) : State := { up with host := { up.host with mbox := some (c, none) } }

theorem test_mailbox_commands :
    got (exec (.fwUpdate none true) (mailing 2)) (fun t => t.host.mbox) = some (some (2, some 4)) ∧
    got (exec (.pufRefresh false) (mailing 3)) (fun t => t.host.mbox) = some (some (3, some 0x0A)) ∧
    got (exec (.debugUnlock (some [])) (mailing 4)) (fun t => t.host.mbox) = some (some (4, some 5)) := by decide +kernel

theorem test_sec_lock :
    got (exec (.secLock 1) up) (fun t => t.flag SEC_CTRL_LOCK) = some true ∧
    got (exec (.registerWrite 0 (SEC_SIGNER 7 7).off 4 5) (up.set SEC_CTRL_LOCK 1)) (fun t => (t.getR (SEC_SIGNER 7 7), t.getR (HIF_AERR_INFO 0))) = some (0, 4 + 16 * 2) := by
  decide +kernel

/-- The signature of a debug token by the test key. -/
def tokenSig : List Byte :=
  leBytes 64 0x80AEA789EE47D1555D82CEF2025C8070AF4005C56948B6CC0C9E5F523ABBE8F11D05A5A598D088CAC2EAA2C2F4363652B76FB5DC53DCBD55649AF420CF2FEE8E ++
  leBytes 64 0xE26C33501166B0090DD75A02B0260267A20B3585230B0E1D830AB98A9E31B967463372B05FC981DE5260E0554F2BBC239F6453A97AB4CFB039458A0B587AC731 ++
  leBytes 64 0xF395A061C5F2919870405691BE966EFE34832ECA526CFB9ED904C4AE18AAB358B097768929394BF196CEC20582637BC1422E327C6448E83EABE58D48795A0095 ++
  leBytes 64 0xD376CB409179A6A3E49070779AF389B5FD66FDF9DF449991F63A273FA5B4CD5F49B0AEA8011C4866AAC84C3388EB383239E8BE3BEBDD4F7D6CBBC4493AE832F1 ++
  leBytes 64 0x53AAB46907D2E2A381383414FFDF31A9E62955725663AAC3970BA2691A0A2B2277F6DE0B5A3C05E25F688E442F4FBAEABE7380B2EF6DE22BF5B3ACA5C116F967 ++
  leBytes 64 0xCDB7DBCC17BD42B471F4F2942027AEB543FA1E566F8D819AEDF5596ECE5B8837324CF588FD336F3513673D0C5B088352834583AA91AD50739512200A0931067

/-- A debug token for an identity hash of zeros, with permissions 3. -/
def debugToken : List Byte :=
  leBytes 6 0x154445A4B ++ List.replicate 34 0 ++ leBytes 4 3 ++ List.replicate 468 0 ++ tokenSig ++ testKey ++ List.replicate 252 0

theorem test_debug_token (h : rootHash = keyDigest) : up.tokenStatus (slice debugToken 0 1536) = 0 := by
  have a : (field debugToken 0 4 == 0x54445A4B && field debugToken 4 2 == 1 && zeroAt debugToken 6 2 && zeroAt debugToken 0x2C 468 && zeroAt debugToken 1284 252) = true ∧
      slice debugToken 0 1536 = debugToken ∧ keyHash (sigBlock debugToken) = keyDigest ∧ signatureOk (sigBlock debugToken) (debugToken.take 512) = true ∧
      (slice debugToken 8 32 = up.idHash) := by decide +kernel
  obtain ⟨a, b, c, d, e⟩ := a
  simp [State.tokenStatus, a, b, c, d, e, h]

/-- The largest b-bit number whose k-th power added to r does not exceed n (an integer root, found from its top bit). -/
def rootOf (k n : Nat) : Nat → Nat → Nat
  | 0, r => r
  | b + 1, r => rootOf k n b (if (r + 2 ^ b) ^ k ≤ n then r + 2 ^ b else r)

/-- The first 64 primes. -/
def primes : List Nat := (List.range 312).filter fun n => decide (2 ≤ n) && (List.range n).all fun d => decide (d < 2) || n % d != 0

-- The constants of SHA-256 are fractional parts of cube and square roots of the primes.
theorem test_sha_constants :
    shaK = primes.map (fun p => rootOf 3 (p * 2 ^ 96) 36 0 % 2 ^ 32) ∧
      shaInit = (primes.take 8).map (fun p => rootOf 2 (p * 2 ^ 64) 36 0 % 2 ^ 32) := by decide +kernel

-- A probe of port 24 finds no port; one of port 3 in ACTIVE leaves.
theorem test_send_probe :
    got (exec (.sendProbe 0x8000001F) (active {})) (fun t => t.flag HIF_NBR_TX_CTRL_NOT_UP) = some true := by decide +kernel

theorem test_nbr_pop :
    got (exec (.nbrRxPop 1) { up with host := { up.host with nbrRx := [(3, 0x22, 5, []), (4, 0x22, 6, [])] } }) (fun t => t.host.nbrRx) = some [(4, 0x22, 6, [])] := by
  decide +kernel

/-- A neighbour packet of an opcode, tag 9, received by port 3. -/
def nbrPkt (op : Nat) : Pkt :=
  { data := false, hdr := leBytes 16 (0x1FFFFF + 0xD8 * 2 ^ 21 + 0x1FFFFF * 2 ^ 32 + 0xD8 * 2 ^ 53 + op * 2 ^ 88 + (3 + 32 * 9) * 2 ^ 104), pay := List.replicate 48 0 }

/-- The packet waits, beside n records in the receive FIFO. -/
def nbrUp (op n : Nat) : State :=
  let s := up.sw fun w => { w with inbox := [{ output := 34, input := 3, pkt := nbrPkt op }] }
  { s with host := { s.host with nbrRx := List.replicate n (0, 0, 0, []) } }

theorem test_nbr_msg :
    got (exec .nbrMsg (nbrUp 0x22 15)) (fun t => (t.host.nbrRx.length, (t.host.nbrRx.getD 15 (0, 0, 0, [])).1, t.get HIF_NBR_RX_DROP_COUNT)) = some (16, 3, 0) ∧
    got (exec .nbrMsg (nbrUp 0x22 16)) (fun t => (t.host.nbrRx.length, t.get HIF_NBR_RX_DROP_COUNT)) = some (16, 1) := by decide +kernel

theorem test_probe_resp : got (exec .probeResp (nbrUp 0x21 0)) (fun t => t.host.nbrRx.map fun x => (x.1, x.2.1)) = some [(3, 0x21)] := by decide +kernel

-- Before 1 ms no answer; the boot code after it.
theorem test_smbus :
    got (exec (.smbusReadByte 1 false) { up.set PWR_BOOT_STATUS_CODE 6 with now := 1650000 }) (fun t => t.out) = some [.smbus [6]] ∧
    got (exec (.smbusReadByte 1 false) up) (fun t => t.out) = some [] := by decide +kernel

theorem test_smbus_peak :
    got (exec (.smbusReadWord 0x0B false) { up with now := 1650000, power := { up.power with peak := 0x1234 } }) (fun t => (t.out, t.power.peak))
      = some ([.smbus [0x34, 0x12]], 0) := by decide +kernel

theorem test_smbus_block :
    got (exec (.smbusBlockRead 0x2A false) { up.set PWR_FW_VERSION_VERSION 0x0102 with now := 1650000 }) (fun t => t.out) = some [.smbus [4, 2, 1, 0, 0]] := by
  decide +kernel

theorem test_smbus_write : got (exec (.smbusWrite [0]) { up with now := 1650000 }) (fun t => t.out) = some [.smbusNack] := by decide +kernel

theorem test_jtag :
    got (exec (.bypass true) up) (fun t => t.out) = some [.jtag 2 2] ∧ got (exec (.samplePreload [true, false, true]) up) (fun t => t.out) = some [.jtag 3 5] ∧
    got (exec (.debugInstruction 5) up) (fun t => t.out) = some [.jtag 1 0] := by decide +kernel

theorem test_extest :
    got (exec (.extest [true]) (running 0)) (fun t => (t.boot.jtagHold, t.jobs, t.out)) = some (true, [], [.jtagPins true [true]]) ∧
    got (exec .testLogicReset (up.modBoot fun b => { b with jtagHold := true })) (fun t => (t.boot.jtagHold, t.boot.jtagWait)) = some (false, true) := by decide +kernel

theorem test_highz : got (exec .highz up) (fun t => t.out) = some [.jtagPins false []] ∧ got (exec (.acInstruction true) up) (fun t => t.out) = some [.jtagPins true [true]] := by
  decide +kernel

/-! States that meet the hypotheses of the statements about counters, trace, BAR2, the mailbox, the management port, SMBus and JTAG -/

theorem test_hyp_CountersAndTrace :
    up.obs.lastSnap ≠ some up.now ∧ ({ up with obs := { up.obs with lastSnap := some 0 } } : State).obs.lastSnap = some up.now ∧
      (∀ L < 144, Tbl.find up.obs.resetDue L = none) ∧ Tbl.find ({ up with obs := { up.obs with resetDue := [(0, 2, 1)] } } : State).obs.resetDue 0 = some (2, 1) ∧
      up.turnedAway OBS_CTRL.off true = none ∧ bit 1 1 = false ∧ bits 1 4 2 = 0 ∧ bits 16 0 2 = 0 ∧ bit 16 5 = false ∧ bit 2 0 = false ∧
      up.flag OBS_CTRL_SNAP_ARM = false ∧ (up.set OBS_CTRL_SNAP_ARM 1).flag OBS_CTRL_SNAP_ARM = true ∧ up.get64 OBS_SNAP_TIME_TIME ≤ up.ft ∧
      (up.set64 OBS_SNAP_TIME_TIME 9).ft < (up.set64 OBS_SNAP_TIME_TIME 9).get64 OBS_SNAP_TIME_TIME ∧ up.flag SCH_CTRL_OBS_EN = false ∧
      (up.set SCH_CTRL_OBS_EN 1).flag SCH_CTRL_OBS_EN = true ∧
      up.turnedAway OBS_CTRL.off true = none ∧ ({ up with obs := { up.obs with lastSnap := some 0 } } : State).turnedAway OBS_CTRL.off true = none := by decide +kernel

theorem test_hyp_TraceControl :
    up.turnedAway OBS_TRACE_CTRL.off true = none ∧ bits 1 2 2 = 0 ∧ (∀ k < 6, (tracing k).trSt = k) ∧ traced.tracePiece = some (List.replicate 64 0) ∧
      up.tracePiece = none ∧ bit 5 0 = true ∧ bit 5 3 = false ∧ bit 9 2 = false ∧ (tracing 1).flag OBS_TRACE_STATUS_TRIGGERED = false ∧
      (tracing 1).obs.gap = 0 ∧ (tracing 1).obs.spill = none ∧ (tracing 2).obs.postLeft = 0 ∧
      ({ tracing 2 with obs := { up.obs with postLeft := 3 } } : State).obs.postLeft ≠ 0 ∧ (tracing 3).fatal = false ∧
      (let k := (({ tracing 3 with obs := { (tracing 3).obs with written := 2, spill := some (0, 1) } } : State).pass 0).pass 8
       k.obs.spill.isSome = true ∧ k.get64 OBS_TRACE_SPILLED_COUNT < k.obs.written) ∧ (((tracing 3).pass 0).pass 0).obs.spill = none ∧
      ((tracing 5).pass 0).trSt = 5 ∧ ((tracing 3).pass 0).trSt = 3 ∧ (tracing 5).flag OBS_TRACE_CTRL_ENABLE_PENDING = false ∧
      Tbl.find ({ tracing 4 with obs := { up.obs with ring := [(8191, { time := 0, type := 1, unit := 2, sub := 0, addr := 0, d0 := 0, d1 := 0 })] } } : State).obs.ring (65535 / 8) =
        some { time := 0, type := 1, unit := 2, sub := 0, addr := 0, d0 := 0, d1 := 0 } := by decide +kernel

theorem test_hyp_HostMemoryWindow :
    (up.modBoot fun b => { b with powered := false }).inReset = true ∧ up.bar2Size < 2 ^ 34 + 1 ∧ up.inReset = false ∧ 64 + 2 ≤ up.bar2Size ∧
      State.reset.inReset = false ∧ State.reset.ready = false ∧ up.ready = true ∧ up.bar2Kind false [64] = some 6 ∧ gddrUp.bar2Kind false [64] = none ∧
      gddrUp.bar2Kind true [64] = none ∧ gddrUp.bar2Kind false [2 ^ 34 - 1] = some 3 ∧ gddrUp.bar2Kind true [2 ^ 34 - 1] = some 3 ∧
      gddrUp.bar2At 64 = some 64 ∧ (up.set FLT_STATUS_SAFE 1).safe = true ∧ gddrUp.bar2At 65 ≠ some 64 ∧
      gddrUp.bar2Fail 64 2 false = none ∧ gddrUp.bar2Fail 64 2 true = some 64 ∧
      ({ gddrUp with mem := { gddrUp.mem with upsets := [65 + 2 ^ 48] } } : State).bar2Fail 64 2 false = some (65 + 2 ^ 48) ∧ gddrUp.mem.upsets = [] ∧
      sharded.bar2Kind true [0] = some 5 ∧ (([0].filterMap sharded.bar2At).findSome? fun a => sharded.shardHit a 1) = some (0, 0) := by
  decide +kernel

theorem test_hyp_MailboxCommands :
    (∀ c < 5, (mailing c).host.mbox = some (c, none)) ∧ (mailing 1).inReset = false ∧ up.host.mbox = none ∧ up.turnedAway HIF_MBOX_CMD.off true = none ∧
      up.mboxStatus 1 = 3 ∧ up.mboxStatus 3 = 9 ∧ (up.set PWR_BOOT_STATUS_ID_VALID 1).mboxStatus 3 = 0 ∧
      ((up.set PWR_BOOT_STATUS_ID_VALID 1).set HIF_MBOX_LEN_LEN 1536).mboxStatus 1 = 0 ∧ ((up.set PWR_BOOT_STATUS_ID_VALID 1).set HIF_MBOX_LEN_LEN 1536).mboxStatus 4 = 0 ∧
      (up.set HIF_MBOX_LEN_LEN 1280).mboxStatus 2 = 0 ∧ (up.set HIF_MBOX_LEN_LEN 1279).mboxStatus 2 = 3 ∧ up.tokenStatus (slice [] 0 1536) = 5 ∧
      up.turnedAway SEC_CTRL.off true = none ∧ up.turnedAway (SEC_SIGNER 7 7).off true = none ∧ (up.set SEC_CTRL_LOCK 1).flag SEC_CTRL_LOCK = true := by decide +kernel

theorem test_hyp_NeighbourPackets :
    up.turnedAway HIF_NBR_TX_CTRL.off true = none ∧ up.nbrBusy = false ∧ bits 0x1F 0 5 = 31 ∧ up.lst 3 ≠ lkActive ∧ (active {}).lst 23 = lkActive ∧
      (up.sw fun w => { w with offers := [{ input := 34, pkt := nbrPkt 0x22, orig := .endpoint }] }).nbrBusy = true ∧
      up.turnedAway HIF_NBR_RX_POP.off true = none ∧ (up.takeNbr 0x20).isNone = true ∧ (up.takeNbr 0x21).isNone = true ∧ (up.takeNbr 0x22).isNone = true ∧
      (∀ op ∈ [0x20, 0x21, 0x22], ((nbrUp op 0).takeNbr op).isSome = true) ∧
      ((nbrUp 0x20 0).takeNbr 0x20).map (fun x => x.2.nbrWaiting [0x21]) = some 0 ∧
      (up.sw fun w => { w with offers := List.replicate 8 { input := 34, pkt := nbrPkt 0x21, orig := .endpoint } }).nbrWaiting [0x21] = 8 := by
  decide +kernel

theorem test_hyp_SmbusAndJtag :
    up.smbusOn = false ∧ ({ up with now := 1650000 } : State).smbusOn = true ∧ ({ up with now := 1649999 } : State).smbusOn = false ∧ up.boot.powered = true ∧
      bit (up.get SEC_STATUS_PERMS) 0 = false ∧ bit ((up.set SEC_STATUS_PERMS 1).get SEC_STATUS_PERMS) 0 = true ∧ up.boot.jtagHold = false ∧
      (up.modBoot fun b => { b with jtagHold := true }).boot.jtagHold = true := by decide +kernel

-- Stamped 65,535 µs and fabric time 1 µs: an age of 2 µs past the wrap.
theorem test_hyp_PacketAge :
    ((dat 0xC0 0x40 0 0 0 [] [1]).setH 72 16 65535).age = 65535 * 1650 / 1650 % 65536 ∧ (65537 * 1650) / 1650 = 65535 * 1650 / 1650 + 2 ∧
      ({ up.set SWC_AGE_LIMIT_LIMIT 1 with ftime := 65537 * 1650 } : State).aged ((dat 0xC0 0x40 0 0 0 [] [1]).setH 72 16 65535) = true ∧
      ({ up.set SWC_AGE_LIMIT_LIMIT 2 with ftime := 65537 * 1650 } : State).aged ((dat 0xC0 0x40 0 0 0 [] [1]).setH 72 16 65535) = false := by decide +kernel

/-! The smoke test of well-formedness: for each check a command it accepts and one it refuses -/

theorem test_wf_0 :
    Instr.wf (.registerWrite 0 8 4 5) = true ∧
    Instr.wf (.registerWrite 0 0x2000000 4 5) = false ∧
    Instr.wf (.registerWrite 0 8 9 5) = false ∧
    Instr.wf (.registerWrite 0 8 1 256) = false ∧
    Instr.wf (.jobSubmit 0 (some (List.replicate 128 0))) = true ∧
    Instr.wf (.jobSubmit 0 (some (List.replicate 127 0))) = false ∧
    Instr.wf (.jobAbort 0 (some (List.replicate 128 0))) = true ∧
    Instr.wf (.jobAbort 0 (some (List.replicate 127 0))) = false ∧
    Instr.wf (.sqNop 0 (some (List.replicate 128 0))) = true ∧
    Instr.wf (.sqNop 0 (some (List.replicate 127 0))) = false ∧
    Instr.wf (.trainingDone 0 9 15) = true ∧
    Instr.wf (.trainingDone 0 10 0) = false ∧
    Instr.wf (.trainingDone 0 0 16) = false ∧
    Instr.wf (.identFrame 0 (List.replicate 32 0) false 255) = true ∧
    Instr.wf (.identFrame 0 (List.replicate 31 0) false 255) = false ∧
    Instr.wf (.identFrame 0 (List.replicate 32 0) false 256) = false ∧
    Instr.wf (.readyFrame 0 (List.replicate 32 0)) = true ∧
    Instr.wf (.readyFrame 0 (List.replicate 33 0)) = false ∧
    Instr.wf (.eqFrame 0 (List.replicate 32 0) 255) = true ∧
    Instr.wf (.eqFrame 0 (List.replicate 31 0) 255) = false ∧
    Instr.wf (.eqFrame 0 (List.replicate 32 0) 256) = false ∧
    Instr.wf (.loopReqFrame 0 (List.replicate 32 0)) = true ∧
    Instr.wf (.loopReqFrame 0 (List.replicate 31 0)) = false ∧
    Instr.wf (.narrowFrame 0 (List.replicate 32 0)) = true ∧
    Instr.wf (.narrowFrame 0 (List.replicate 31 0)) = false ∧
    Instr.wf (.fomMeasure 0 255) = true ∧
    Instr.wf (.fomMeasure 0 256) = false ∧
    Instr.wf (.nullFlit 0 (.bytes (List.replicate 72 0))) = true ∧
    Instr.wf (.nullFlit 0 (.bytes (List.replicate 71 0))) = false ∧
    Instr.wf (.nullFlit 0 (.line (List.replicate 8 []))) = true ∧
    Instr.wf (.nullFlit 0 (.line (List.replicate 9 []))) = false := by decide +kernel

theorem test_wf_1 :
    Instr.wf (.dataFlit 0 (.bytes (List.replicate 72 0)) false) = true ∧
    Instr.wf (.dataFlit 0 (.bytes (List.replicate 71 0)) false) = false ∧
    Instr.wf (.ctrlFlit 0 (.bytes (List.replicate 72 0)) false) = true ∧
    Instr.wf (.ctrlFlit 0 (.bytes (List.replicate 71 0)) false) = false ∧
    Instr.wf (.creditFlit 0 (.bytes (List.replicate 72 0))) = true ∧
    Instr.wf (.creditFlit 0 (.bytes (List.replicate 71 0))) = false ∧
    Instr.wf (.nak 0 (.bytes (List.replicate 72 0))) = true ∧
    Instr.wf (.nak 0 (.bytes (List.replicate 71 0))) = false ∧
    Instr.wf (.replayStart 0 (.bytes (List.replicate 72 0))) = true ∧
    Instr.wf (.replayStart 0 (.bytes (List.replicate 71 0))) = false ∧
    Instr.wf (.reqLp1 0 (.bytes (List.replicate 72 0))) = true ∧
    Instr.wf (.reqLp1 0 (.bytes (List.replicate 71 0))) = false ∧
    Instr.wf (.reqLp2 0 (.bytes (List.replicate 72 0))) = true ∧
    Instr.wf (.reqLp2 0 (.bytes (List.replicate 71 0))) = false ∧
    Instr.wf (.lpmAccept 0 (.bytes (List.replicate 72 0))) = true ∧
    Instr.wf (.lpmAccept 0 (.bytes (List.replicate 71 0))) = false ∧
    Instr.wf (.lpmRefuse 0 (.bytes (List.replicate 72 0))) = true ∧
    Instr.wf (.lpmRefuse 0 (.bytes (List.replicate 71 0))) = false ∧
    Instr.wf (.wake 0 (.bytes (List.replicate 72 0))) = true ∧
    Instr.wf (.wake 0 (.bytes (List.replicate 71 0))) = false ∧
    Instr.wf (.lpmDisable 0 (.bytes (List.replicate 72 0))) = true ∧
    Instr.wf (.lpmDisable 0 (.bytes (List.replicate 71 0))) = false ∧
    Instr.wf (.pingRequest 0 (.bytes (List.replicate 72 0))) = true ∧
    Instr.wf (.pingRequest 0 (.bytes (List.replicate 71 0))) = false := by decide +kernel

theorem test_wf_2 :
    Instr.wf (.pingResponse 0 (.bytes (List.replicate 72 0))) = true ∧
    Instr.wf (.pingResponse 0 (.bytes (List.replicate 71 0))) = false ∧
    Instr.wf (.fatalFlit 0 (.bytes (List.replicate 72 0))) = true ∧
    Instr.wf (.fatalFlit 0 (.bytes (List.replicate 71 0))) = false ∧
    Instr.wf (.rootPllLock (List.replicate 9 0)) = true ∧
    Instr.wf (.rootPllLock (List.replicate 8 0)) = false ∧
    Instr.wf (.flashSlotRead (List.replicate 64 0) none) = true ∧
    Instr.wf (.flashSlotRead (List.replicate 65 0) none) = false ∧
    Instr.wf (.thermalTrip 39 (-32768)) = true ∧
    Instr.wf (.thermalTrip 40 0) = false ∧
    Instr.wf (.thermalTrip 0 32768) = false ∧
    Instr.wf (.powerFault 8) = true ∧
    Instr.wf (.powerFault 9) = false ∧
    Instr.wf (.bar2Read 0 4096 false) = true ∧
    Instr.wf (.bar2Read 0 0 false) = false ∧
    Instr.wf (.bar2Read 0 4097 false) = false ∧
    Instr.wf (.bar2Write 0 [1] [true]) = true ∧
    Instr.wf (.bar2Write 0 [1] []) = false ∧
    Instr.wf (.bar2Write 0 (List.replicate 4097 0) (List.replicate 4097 true)) = false ∧
    Instr.wf (.smbusReadByte 255 true) = true ∧
    Instr.wf (.smbusReadByte 256 true) = false ∧
    Instr.wf (.smbusReadWord 255 true) = true ∧
    Instr.wf (.smbusReadWord 256 true) = false ∧
    Instr.wf (.smbusBlockRead 255 true) = true ∧
    Instr.wf (.smbusBlockRead 256 true) = false ∧
    Instr.wf (.smbusWrite [0]) = true ∧
    Instr.wf (.smbusWrite []) = false := by decide +kernel

theorem test_wf_3 :
    Instr.wf (.powerSample 65535 65535 65535) = true ∧
    Instr.wf (.powerSample 65536 0 0) = false ∧
    Instr.wf (.powerSample 0 65536 0) = false ∧
    Instr.wf (.powerSample 0 0 65536) = false ∧
    Instr.wf (.limiterCheck (List.replicate 40 0)) = true ∧
    Instr.wf (.limiterCheck (List.replicate 39 0)) = false ∧
    Instr.wf (.limiterCheck (List.replicate 40 32768)) = false ∧
    Instr.wf (.markerBlock 0 (List.replicate 8 []) (List.replicate 8 0)) = true ∧
    Instr.wf (.markerBlock 0 (List.replicate 7 []) (List.replicate 8 0)) = false ∧
    Instr.wf (.markerBlock 0 (List.replicate 8 []) (List.replicate 7 0)) = false := by decide +kernel

end Sys2Proof.Tests
end

section
/-! The age of a packet (R263): the model's natural-number difference is the difference modulo 65,536, and it recovers the microseconds since the
stamp as long as they are fewer than 65,536. -/

namespace Sys2Proof.Machine

/-- AGE_STAMP is a field of 16 bits (R231). -/
theorem Pkt.age_lt (p : Pkt) : p.age < 65536 := bits_lt _ 72 16

/-- SWC_AGE_LIMIT.LIMIT is a field of 15 bits (R273), which is what bounds it by 32,767. -/
theorem State.get_ageLimit_le (s : State) : s.get SWC_AGE_LIMIT_LIMIT ≤ 32767 :=
  Nat.le_of_lt_succ (bits_lt (s.getR SWC_AGE_LIMIT) 0 15)

theorem State.aged_iff (s : State) (p : Pkt) :
    s.aged p = true ↔ max 1 (s.get SWC_AGE_LIMIT_LIMIT) < (s.ft / 1650 % 65536 + 65536 - p.age) % 65536 :=
  decide_eq_true_iff

/-- The 65,536 added before the subtraction keeps it from being cut off at 0 and does not count modulo 65,536. -/
theorem cast_age_eq_int_emod {stamp : Nat} (now : Nat) (h : stamp < 65536) :
    (((now + 65536 - stamp) % 65536 : Nat) : Int) = ((now : Int) - (stamp : Int)) % 65536 := by omega

/-- Both counters may have wrapped: the age is the time since the stamp all the same. -/
theorem age_of_stamped_ago (t : Nat) {d : Nat} (hd : d < 65536) :
    ((t + d) % 65536 + 65536 - t % 65536) % 65536 = d := by omega

/-- Settles O60: the age test is read as integers modulo 65,536, the limit is bounded by its field (0 acts as 1, R273), and a packet
stamped `d` µs ago has age `d`. -/
theorem packetAge : Obligations.PacketAge := by
  refine ⟨fun s p => ?_, State.get_ageLimit_le, fun s p t d hstamp hnow hd => ?_⟩
  · rw [State.aged_iff, ← cast_age_eq_int_emod _ p.age_lt, Int.ofNat_lt]
  · rw [State.aged_iff, hstamp, hnow, age_of_stamped_ago _ hd]

end Sys2Proof.Machine
end

section
/-! The fatal decision and what comes after it (R410, R413). Of the registers below FLT_FATAL_TIME, which are those of the fault collector up to
FLT_FATAL_CAUSE, the log, the trace unit and the notices to the neighbours write none but FLT_STATUS: so the cause is what the decision itself puts there. -/

namespace Sys2Proof.Machine

open Sys2Proof

/-! Frames of the registers below FLT_FATAL_TIME -/

/-- Every register below FLT_FATAL_TIME reads as before: FLT_STATUS and FLT_FATAL_CAUSE are among them. -/
def LowKept (s t : State) : Prop := ∀ r : Reg, r.off < FLT_FATAL_TIME.off → t.getR r = s.getR r

theorem LowKept.of_regs {s t : State} (h : t.regs = s.regs) : LowKept s t := fun r _ => State.getR_congr s t r h

theorem LowKept.refl (s : State) : LowKept s s := LowKept.of_regs rfl

theorem LowKept.trans {s t u : State} (h : LowKept s t) (k : LowKept t u) : LowKept s u := fun r hr => (k r hr).trans (h r hr)

theorem LowKept.obs {s t : State} (h : LowKept s t) (o : ObsState) : LowKept s { t with obs := o } := h

theorem LowKept.fault {s t : State} (h : LowKept s t) (f : FaultState) : LowKept s { t with fault := f } := h

theorem LowKept.get {s t : State} (h : LowKept s t) (f : Fld) (hf : f.reg.off < FLT_FATAL_TIME.off) : t.get f = s.get f := by
  unfold State.get; rw [h f.reg hf]

theorem LowKept.flag {s t : State} (h : LowKept s t) (f : Fld) (hf : f.reg.off < FLT_FATAL_TIME.off) : t.flag f = s.flag f := by
  unfold State.flag; rw [h.get f hf]

theorem LowKept.setR {s t : State} (h : LowKept s t) (q : Reg) (v : Nat) (hq : FLT_FATAL_TIME.off ≤ q.off) : LowKept s (t.setR q v) :=
  fun r hr => (State.getR_setR_ne t q r v (Nat.ne_of_lt (Nat.lt_of_lt_of_le hr hq))).trans (h r hr)

theorem LowKept.setR64 {s t : State} (h : LowKept s t) (q : Reg64) (v : Nat) (hq : FLT_FATAL_TIME.off ≤ q.off) : LowKept s (t.setR64 q v) :=
  (h.setR q.low _ hq).setR q.high _ (Nat.le_add_right_of_le hq)

theorem LowKept.set {s t : State} (h : LowKept s t) (f : Fld) (v : Nat) (hf : FLT_FATAL_TIME.off ≤ f.reg.off) : LowKept s (t.set f v) :=
  h.setR f.reg _ hf

theorem LowKept.count {s t : State} (h : LowKept s t) (f : Fld) (n : Nat) (hf : FLT_FATAL_TIME.off ≤ f.reg.off) : LowKept s (t.count f n) :=
  h.set f _ hf

theorem LowKept.foldl {α : Type} {f : State → α → State} (h : ∀ u a, LowKept u (f u a)) (l : List α) (s : State) : LowKept s (l.foldl f s) := by
  induction l generalizing s with
  | nil => exact LowKept.refl s
  | cons a l ih => exact (h s a).trans (ih _)

/-! The trace unit -/

theorem State.raiseVec_regs (s : State) (v : Nat) : (s.raiseVec v).regs = s.regs := by
  unfold State.raiseVec
  dsimp only
  split
  · rfl
  · split <;> rfl

theorem State.tracePut_lowKept (s : State) (r : TRec) : LowKept s (s.tracePut r) := by
  unfold State.tracePut
  dsimp only
  split
  · exact LowKept.obs ((LowKept.refl s).count OBS_TRACE_LOST_COUNT 1 (by decide)) _
  · split
    · exact (((LowKept.refl s).obs _).set OBS_TRACE_WPTR_INDEX _ (by decide)).set OBS_TRACE_STATUS_WRAPPED 1 (by decide)
    · exact ((LowKept.refl s).obs _).set OBS_TRACE_WPTR_INDEX _ (by decide)

theorem State.traceGap_lowKept (s : State) : LowKept s s.traceGap := by
  unfold State.traceGap
  split
  · exact LowKept.refl s
  · exact LowKept.trans ((LowKept.refl s).obs _) (State.tracePut_lowKept _ _)

theorem State.traceFire_lowKept (s : State) (cause : Nat) (m : Option TRec) : LowKept s (s.traceFire cause m) := by
  unfold State.traceFire
  dsimp only
  split
  · exact LowKept.refl s
  · refine LowKept.obs ?_ _
    refine LowKept.set (LowKept.set ?_ OBS_TRACE_STATUS_TRIGGERED 1 (by decide)) OBS_TRACE_STATUS_STATE 2 (by decide)
    exact (s.traceGap_lowKept.set OBS_TRACE_TRIG_INDEX _ (by decide)).trans (State.tracePut_lowKept _ _)

theorem State.traceCheck_lowKept (s : State) (r : TRec) : LowKept s (s.traceCheck r) := by
  unfold State.traceCheck
  split
  · dsimp only
    split
    · split
      · exact LowKept.trans ((LowKept.refl s).obs _) (State.traceFire_lowKept _ _ _)
      · exact (LowKept.refl s).obs _
    · exact LowKept.refl s
  · exact LowKept.refl s

theorem State.trace_lowKept (s : State) (type unit sub addr d0 d1 : Nat) : LowKept s (s.trace type unit sub addr d0 d1) := by
  unfold State.trace
  split
  · dsimp only
    split
    · exact LowKept.refl s
    · split
      · exact (LowKept.refl s).obs _
      · have lost := (LowKept.refl s).count OBS_TRACE_LOST_COUNT 1 (by decide)
        exact LowKept.trans (lost.obs _) (State.traceCheck_lowKept _ _)
  · exact LowKept.refl s

theorem State.traceDrain_lowKept (n : Nat) (s : State) : LowKept s (State.traceDrain n s) := by
  induction n generalizing s with
  | zero => exact LowKept.refl s
  | succ n ih =>
    unfold State.traceDrain
    split
    · exact LowKept.refl s
    · next x _ =>
      have taken := (LowKept.refl s).obs { s.obs with staged := s.obs.staged.erase x }
      have put (u : State) : LowKept u (if u.traceOpen then u.tracePut x.2 else u) := by
        split
        · exact u.tracePut_lowKept x.2
        · exact LowKept.refl u
      dsimp only
      split
      · exact (((taken.trans (State.traceGap_lowKept _)).trans (put _)).trans (State.traceCheck_lowKept _ x.2)).trans (ih _)
      · exact taken.trans (ih _)

theorem State.traceFatal_lowKept (s : State) : LowKept s s.traceFatal := by
  have fire (stop : Bool) : LowKept s (if stop then s.traceFire 3 none else s) := by
    cases stop
    · exact LowKept.refl s
    · exact s.traceFire_lowKept 3 none
  unfold State.traceFatal
  dsimp only
  split
  · exact LowKept.refl s
  · exact (((fire _).trans (State.traceDrain_lowKept _ _)).set OBS_TRACE_STATUS_STATE 4 (by decide)).trans
      (LowKept.of_regs (State.raiseVec_regs _ 5))

/-! The notices to the neighbours, the pending enables, the pulse -/

theorem foldl_regs {α : Type} {f : State → α → State} (h : ∀ u a, (f u a).regs = u.regs) (l : List α) (s : State) :
    (l.foldl f s).regs = s.regs := by
  induction l generalizing s with
  | nil => rfl
  | cons a l ih => exact (ih _).trans (h s a)

theorem State.putFlit_regs (s : State) (p : Nat) (pay : List Byte) (vc cells type : Nat) : (s.putFlit p pay vc cells type).regs = s.regs := by
  simp only [State.putFlit, State.lineFlit, State.modPort_regs, State.emit_regs]
  refine foldl_regs (fun u x => ?_) _ s
  exact State.modLane_regs u _ _

theorem State.fatalFlits_regs (s : State) (code p : Nat) : (s.fatalFlits code p).regs = s.regs := by
  unfold State.fatalFlits
  split
  · rw [State.emit_regs]
    exact foldl_regs (fun u _ => u.putFlit_regs _ _ _ _ _) _ s
  · rfl

theorem State.clearPending_lowKept (s : State) : LowKept s s.clearPending := by
  have cores (u : State) (L : Nat) : LowKept u (u.set (CORE_CTRL_ENABLE_PENDING L) 0) :=
    (LowKept.refl u).set _ 0 (Nat.le_add_right_of_le (by decide))
  have ports (u : State) (p : Nat) : LowKept u (u.set (LNK_CTRL_ENABLE_PENDING p) 0) :=
    (LowKept.refl u).set _ 0 (Nat.le_add_right_of_le (by decide))
  have doms (u : State) (d : Nat) : LowKept u (u.set (COL_DOM_CTRL_ENABLE_PENDING d) 0) :=
    (LowKept.refl u).set _ 0 (Nat.le_add_right_of_le (by decide))
  have units := ((LowKept.foldl cores (List.range 144) s).trans (LowKept.foldl ports (List.range 24) _)).trans
    (LowKept.foldl doms (List.range 64) _)
  exact ((units.set COL_CTRL_ENABLE_PENDING 0 (by decide)).set MEM_CTRL_ENABLE_PENDING 0 (by decide)).set
    OBS_TRACE_CTRL_ENABLE_PENDING 0 (by decide)

theorem State.pulse_lowKept (s : State) : LowKept s s.pulse := ((LowKept.refl s).set FLT_FAULTN_PULSING 1 (by decide)).fault _

/-! The decision -/

/-- The writes of the fatal decision that name its cause. -/
def State.setCause (s : State) (e : FaultEv) : State :=
  (((s.set FLT_STATUS_FATAL 1).set FLT_FATAL_CAUSE_SOURCE e.src).set FLT_FATAL_CAUSE_INSTANCE e.inst).set FLT_FATAL_CAUSE_VALID 1

/-- The fatal decision is the naming of its cause and a part that keeps it. -/
theorem State.fatalDecision_lowKept (s : State) (e : FaultEv) : LowKept (s.setCause e) (s.fatalDecision e) := by
  have hold (u : State) : LowKept u (if u.flag FLT_FAULTN_HOLD_ON_FATAL then u.set FLT_FAULTN_DRIVE 1 else u) := by
    split
    · exact (LowKept.refl u).set FLT_FAULTN_DRIVE 1 (by decide)
    · exact LowKept.refl u
  exact ((LowKept.refl (s.setCause e)).setR64 FLT_FATAL_TIME _ (by decide)).trans <|
    (LowKept.foldl (fun u p => LowKept.of_regs (u.fatalFlits_regs e.src p)) _ _).trans <|
    (State.clearPending_lowKept _).trans <| (State.pulse_lowKept _).trans <| (hold _).trans (State.traceFatal_lowKept _)

theorem State.fatal_fatalDecision (s : State) (e : FaultEv) : (s.fatalDecision e).fatal = true := by
  unfold State.fatal
  rw [(s.fatalDecision_lowKept e).flag _ (by decide), State.setCause, State.flag_set_ne _ _ _ _ (by decide),
    State.flag_set_ne _ _ _ _ (by decide), State.flag_set_ne _ _ _ _ (by decide), State.flag_set_same _ _ _ (by decide)]
  rfl

theorem State.valid_fatalDecision (s : State) (e : FaultEv) : (s.fatalDecision e).flag FLT_FATAL_CAUSE_VALID = true := by
  rw [(s.fatalDecision_lowKept e).flag _ (by decide), State.setCause, State.flag_set_same _ _ _ (by decide)]
  rfl

theorem State.source_fatalDecision (s : State) (e : FaultEv) : (s.fatalDecision e).get FLT_FATAL_CAUSE_SOURCE = e.src % 256 := by
  rw [(s.fatalDecision_lowKept e).get _ (by decide), State.setCause,
    State.get_set_apart _ FLT_FATAL_CAUSE_VALID FLT_FATAL_CAUSE_SOURCE _ rfl (by decide) (by decide),
    State.get_set_apart _ FLT_FATAL_CAUSE_INSTANCE FLT_FATAL_CAUSE_SOURCE _ rfl (by decide) (by decide),
    State.get_set_same _ _ _ (by decide)]
  rfl

theorem State.more_fatalDecision (s : State) (e : FaultEv) : (s.fatalDecision e).get FLT_FATAL_CAUSE_MORE = s.get FLT_FATAL_CAUSE_MORE := by
  rw [(s.fatalDecision_lowKept e).get _ (by decide), State.setCause,
    State.get_set_apart _ FLT_FATAL_CAUSE_VALID FLT_FATAL_CAUSE_MORE _ rfl (by decide) (by decide),
    State.get_set_apart _ FLT_FATAL_CAUSE_INSTANCE FLT_FATAL_CAUSE_MORE _ rfl (by decide) (by decide),
    State.get_set_apart _ FLT_FATAL_CAUSE_SOURCE FLT_FATAL_CAUSE_MORE _ rfl (by decide) (by decide),
    State.get_set_ne _ _ _ _ (by decide)]

/-! MORE -/

/-- Further fatal events counted in MORE. -/
def State.countMore (s : State) (n : Nat) : State := if n = 0 then s else s.count FLT_FATAL_CAUSE_MORE n

theorem State.get_more_countMore (s : State) (n : Nat) :
    (s.countMore n).get FLT_FATAL_CAUSE_MORE = min 0xFF (s.get FLT_FATAL_CAUSE_MORE + n) := by
  unfold State.countMore
  split
  · have : s.get FLT_FATAL_CAUSE_MORE < 256 := bits_lt (s.getR FLT_FATAL_CAUSE) 16 8
    omega
  · rw [State.count, State.get_set_same _ _ _ (by decide), satAdd]
    change min (s.get FLT_FATAL_CAUSE_MORE + n) 255 % 256 = _
    omega

theorem State.get_countMore_apart (s : State) (n : Nat) (f : Fld) (hr : f.reg = FLT_FATAL_CAUSE) (h : f.lo + f.width ≤ 16) :
    (s.countMore n).get f = s.get f := by
  unfold State.countMore
  split
  · rfl
  · exact State.get_set_apart _ _ _ _ hr (by decide) (.inl h)

theorem State.countMore_only (s : State) (n : Nat) : RegsOnly s (s.countMore n) := by
  unfold State.countMore
  split
  · exact RegsOnly.refl s
  · exact RegsOnly.count (RegsOnly.refl s) _ n

theorem State.countMore_kept (s : State) (n : Nat) : RegsKept [FLT_FATAL_CAUSE.off] s (s.countMore n) := by
  intro r hr
  unfold State.countMore
  split
  · rfl
  · exact State.getR_set_ne _ _ _ _ fun h => hr (List.mem_singleton.mpr h)

theorem State.countMore_fault (s : State) (n : Nat) : (s.countMore n).fault = s.fault := by
  unfold State.countMore
  split
  · rfl
  · exact State.count_fault s _ n

/-! The order of a batch (R403) -/

/-- Induction along a fold from the left: the last element of the list is the last one folded in. -/
theorem concat_induction {α : Type} {motive : List α → Prop} (nil : motive [])
    (append_singleton : ∀ l a, motive l → motive (l ++ [a])) (l : List α) : motive l := by
  have reversed : ∀ l : List α, motive l.reverse := fun l => by
    induction l with
    | nil => exact nil
    | cons a l ih =>
      rw [List.reverse_cons]
      exact append_singleton _ a ih
  exact l.reverse_reverse ▸ reversed l.reverse

/-- The events of a batch in ascending source codes. -/
def bySource (es : List FaultEv) : List FaultEv := es.foldl (fun l e => insertEv e l) []

theorem insertEv_perm (e : FaultEv) (l : List FaultEv) : (insertEv e l).Perm (e :: l) := by
  induction l with
  | nil => exact List.Perm.refl _
  | cons x xs ih =>
    unfold insertEv
    split
    · exact List.Perm.refl _
    · exact (ih.cons x).trans (List.Perm.swap e x xs)

/-- A list in ascending source codes. -/
def SourceSorted (l : List FaultEv) : Prop := l.Pairwise fun a b => a.src ≤ b.src

theorem insertEv_sorted (e : FaultEv) {l : List FaultEv} (h : SourceSorted l) : SourceSorted (insertEv e l) := by
  induction l with
  | nil => exact List.pairwise_singleton _ e
  | cons x xs ih =>
    obtain ⟨hx, hxs⟩ := List.pairwise_cons.mp h
    unfold insertEv
    split
    · next lt => exact List.pairwise_cons.mpr ⟨List.forall_mem_cons.mpr ⟨Nat.le_of_lt lt, fun b hb => Nat.le_trans (Nat.le_of_lt lt) (hx b hb)⟩, h⟩
    · next ge =>
      refine List.pairwise_cons.mpr ⟨fun b hb => ?_, ih hxs⟩
      rcases List.mem_cons.mp ((insertEv_perm e xs).mem_iff.mp hb) with rfl | hb
      · exact Nat.le_of_not_lt ge
      · exact hx b hb

theorem bySource_concat (es : List FaultEv) (e : FaultEv) : bySource (es ++ [e]) = insertEv e (bySource es) := List.foldl_append

theorem bySource_perm (es : List FaultEv) : (bySource es).Perm es := by
  induction es using concat_induction with
  | nil => exact List.Perm.refl _
  | append_singleton es e ih =>
    rw [bySource_concat]
    exact ((insertEv_perm e _).trans (ih.cons e)).trans (List.perm_append_singleton e es).symm

theorem bySource_sorted (es : List FaultEv) : SourceSorted (bySource es) := by
  induction es using concat_induction with
  | nil => exact List.Pairwise.nil
  | append_singleton es e ih =>
    rw [bySource_concat]
    exact insertEv_sorted e ih

/-! Events of fatal-class sources -/

/-- An event of a fatal-class source, which is no command of the host. -/
def FaultEv.FatalClass (e : FaultEv) : Prop := e.fence = none ∧ (source e.src).any (·.cls == 2) = true

/-- A judged event of a fatal-class source: it completes no threshold, so that it is no lasting report. -/
def Judged.FatalClass (j : Judged) : Prop := j.ev.fence = none ∧ j.cls = 2 ∧ j.lasting = false

/-- The rows of R397 of class fatal are one and the same but for their codes. -/
theorem source_of_fatalClass {code : Nat} (h : (source code).any (·.cls == 2) = true) : source code = some ⟨2, 0, 1, 1, 2, []⟩ := by
  unfold source at h ⊢
  split at h <;> simp only [Option.any_some, Option.any_none, Nat.reduceBEq, Bool.false_eq_true] at h ⊢

theorem State.countEvent_lowKept (s : State) (e : FaultEv) (n w : Nat) : LowKept s (s.countEvent e n w).2 := by
  have counted : LowKept s (s.count (FLT_SRC_COUNT_COUNT e.src)) := (LowKept.refl s).count _ 1 (Nat.le_add_right_of_le (by decide))
  unfold State.countEvent
  exact counted.fault _

/-- Judging an event of a fatal-class source only counts it. -/
theorem State.judge_concat (s : State) (es : List FaultEv) {e : FaultEv} (he : e.FatalClass) :
    ∃ j n w, j.ev = e ∧ j.FatalClass ∧ s.judge (es ++ [e]) = ((s.judge es).1 ++ [j], ((s.judge es).2.countEvent e n w).2) := by
  obtain ⟨hfence, hcls⟩ := he
  obtain ⟨n, w, act, hrule⟩ : ∃ n w act, ruleOf ((s.judge es).2.recs 0x0A) e.src ⟨2, 0, 1, 1, 2, []⟩ = (n, w, act) := ⟨_, _, _, rfl⟩
  refine ⟨⟨e, 2, 0, false, act⟩, n, w, rfl, ⟨hfence, rfl, rfl⟩, ?_⟩
  unfold State.judge at hrule ⊢
  rw [List.foldl_append]
  generalize List.foldl _ _ es = a at hrule ⊢
  simp only [List.foldl_cons, List.foldl_nil, hfence, source_of_fatalClass hcls, State.unitFenced, Nat.zero_ne_one, Nat.succ_ne_self,
    reduceCtorEq, ↓reduceIte, Bool.false_eq_true, hrule, bne_self_eq_false, Bool.and_false, Bool.false_and]

theorem State.judge_fatalClass (s : State) (es : List FaultEv) (h : ∀ e ∈ es, e.FatalClass) :
    (s.judge es).1.map (·.ev) = es ∧ (∀ j ∈ (s.judge es).1, j.FatalClass) ∧ LowKept s (s.judge es).2 := by
  induction es using concat_induction with
  | nil => exact ⟨rfl, fun _ hj => absurd hj List.not_mem_nil, LowKept.refl s⟩
  | append_singleton es e ih =>
    obtain ⟨hes, he⟩ := List.forall_mem_append.mp h
    obtain ⟨evs, cls, kept⟩ := ih hes
    obtain ⟨j, n, w, hev, hj, eq⟩ := s.judge_concat es (he e (List.mem_singleton_self e))
    rw [eq]
    refine ⟨?_, ?_, kept.trans (State.countEvent_lowKept _ e n w)⟩
    · rw [List.map_append, evs, List.map_singleton, hev]
    · exact List.forall_mem_append.mpr ⟨cls, List.forall_mem_singleton.mpr hj⟩

theorem Judged.FatalClass.fatal {j : Judged} (h : j.FatalClass) : j.fatal = true := by
  obtain ⟨_, hcls, _⟩ := h
  simp only [Judged.fatal, hcls, BEq.rfl, Bool.true_or]

/-- The log leaves FLT_FATAL_CAUSE. -/
theorem State.getR_cause_logFault (s : State) (e : FaultEv) (cls : Nat) (lasting fenced : Bool) :
    (s.logFault e cls lasting fenced).getR FLT_FATAL_CAUSE = s.getR FLT_FATAL_CAUSE := by
  have overrun (u : State) (c : Prop) [Decidable c] :
      (if c then u.set FLT_STATUS_LOG_OVERRUN 1 else u).getR FLT_FATAL_CAUSE = u.getR FLT_FATAL_CAUSE := by
    split
    · exact State.getR_set_ne _ _ _ _ (by decide)
    · rfl
  have entry (i time info detail : Nat) : LowKept s
      ((((s.setR64 (FLT_LOG_TIME i) time).setR (FLT_LOG_INFO i) info).setR (FLT_LOG_DETAIL i) detail).countWrap FLT_LOG_PROD_PROD) :=
    ((((LowKept.refl s).setR64 (FLT_LOG_TIME i) time (Nat.le_add_right_of_le (by decide))).setR (FLT_LOG_INFO i) info
      (Nat.le_add_right_of_le (by decide))).setR (FLT_LOG_DETAIL i) detail (Nat.le_add_right_of_le (by decide))).set FLT_LOG_PROD_PROD _ (by decide)
  unfold State.logFault
  dsimp only
  rw [State.trace_lowKept _ _ _ _ _ _ _ FLT_FATAL_CAUSE (by decide), overrun, entry _ _ _ _ FLT_FATAL_CAUSE (by decide)]

/-- Acting on an event of a fatal-class source is its log entry: it fences nothing, and its interrupt waits for the safe state. -/
theorem State.act_fatalClass (s : State) (decided : Bool) {j : Judged} (h : j.FatalClass) :
    s.act decided j = s.logFault j.ev j.cls j.lasting false := by
  obtain ⟨hfence, hcls, hlasting⟩ := h
  simp only [State.act, State.faultInt, Judged.fences, hfence, hcls, hlasting, Option.isSome_none, Option.isNone_none, Nat.reduceBEq,
    Bool.false_and, Bool.or_self, Bool.not_false, Bool.and_true, Bool.false_eq_true, ↓reduceIte]

theorem State.getR_cause_acts (s : State) (decided : Bool) {js : List Judged} (h : ∀ j ∈ js, j.FatalClass) :
    (js.foldl (fun s j => s.act decided j) s).getR FLT_FATAL_CAUSE = s.getR FLT_FATAL_CAUSE := by
  induction js generalizing s with
  | nil => rfl
  | cons j js ih =>
    obtain ⟨hj, hjs⟩ := List.forall_mem_cons.mp h
    rw [List.foldl_cons, ih _ hjs, s.act_fatalClass decided hj, State.getR_cause_logFault]

/-! The batch -/

/-- After the decision a batch only counts its fatal reports in MORE (R413). -/
theorem State.batch_of_fatal (s : State) (es : List FaultEv) (h : s.fatal = true) : s.batch es = s.countMore (fatalReports es) := by
  unfold State.batch
  rw [if_pos h]
  rfl

/-- A batch whose first fatal event is x makes the decision with x as its cause, and counts the other fatal ones in MORE. -/
theorem State.batch_decides (s : State) (es : List FaultEv) {x : Judged} {xs : List Judged} (h : s.fatal = false)
    (hx : (s.judge (bySource es)).1.filter (·.fatal) = x :: xs) :
    s.batch es =
      (((s.judge (bySource es)).1.foldl (fun s j => s.act true j) (s.judge (bySource es)).2).countMore xs.length).fatalDecision x.ev := by
  unfold bySource at hx
  unfold State.batch
  simp only [h, Bool.false_eq_true, if_false, hx]
  rfl

/-- A batch of events of fatal-class sources makes the decision: the first of the sorted events is the cause, and MORE counts the others. -/
theorem State.batch_fatalClass (s : State) (es : List FaultEv) {e : FaultEv} {l : List FaultEv} (h : s.fatal = false)
    (hes : ∀ e ∈ es, e.FatalClass) (hl : bySource es = e :: l) :
    ∃ u : State, u.getR FLT_FATAL_CAUSE = s.getR FLT_FATAL_CAUSE ∧ s.batch es = (u.countMore l.length).fatalDecision e := by
  obtain ⟨evs, cls, kept⟩ := s.judge_fatalClass (bySource es) fun e he => hes e ((bySource_perm es).mem_iff.mp he)
  have fatal : (s.judge (bySource es)).1.filter (·.fatal) = (s.judge (bySource es)).1 :=
    List.filter_eq_self.mpr fun j hj => (cls j hj).fatal
  obtain ⟨x, xs, hjs, rfl, rfl⟩ := List.map_eq_cons_iff.mp (evs.trans hl)
  rw [List.length_map]
  exact ⟨_, (State.getR_cause_acts _ true cls).trans (kept _ (by decide)), s.batch_decides es h (fatal.trans hjs)⟩

/-- Settles O51: after the decision a batch is `countMore`, which writes MORE alone; in the decision the cause is the first of the events in
ascending source codes, and the others are counted in MORE before the cause is written beside it. -/
theorem fatalAfterDecision : Obligations.FatalAfterDecision := by
  refine ⟨fun s es h => ?_, fun s es h hne hmore hes => ?_⟩
  · rw [s.batch_of_fatal es h]
    exact ⟨s.get_more_countMore _, s.countMore_only _, s.countMore_kept _, s.get_countMore_apart _ _ rfl (by decide),
      s.get_countMore_apart _ _ rfl (by decide), by rw [s.countMore_fault]⟩
  · have perm := bySource_perm es
    have sorted := bySource_sorted es
    cases hl : bySource es with
    | nil => exact absurd (List.nil_perm.mp (hl ▸ perm)) hne
    | cons e l =>
      rw [hl] at perm sorted
      have he : e ∈ es := perm.mem_iff.mp List.mem_cons_self
      have least : ∀ b ∈ es, e.src ≤ b.src := fun b hb =>
        (List.mem_cons.mp (perm.mem_iff.mpr hb)).elim (fun eq => eq ▸ Nat.le_refl _) ((List.pairwise_cons.mp sorted).1 b)
      have fatal : ∀ b ∈ es, b.FatalClass := fun b hb =>
        have ⟨hfence, _, hcls⟩ := hes b hb
        ⟨hfence, hcls⟩
      obtain ⟨_, hsrc, _⟩ := hes e he
      obtain ⟨u, hu, eq⟩ := s.batch_fatalClass es h fatal hl
      have zero : u.get FLT_FATAL_CAUSE_MORE = 0 := (congrArg (bits · 16 8) hu).trans hmore
      have src : (s.batch es).get FLT_FATAL_CAUSE_SOURCE = e.src := by
        rw [eq, State.source_fatalDecision, Nat.mod_eq_of_lt hsrc]
      have more : (s.batch es).get FLT_FATAL_CAUSE_MORE = min 0xFF (es.length - 1) := by
        rw [eq, State.more_fatalDecision, State.get_more_countMore, zero, Nat.zero_add, ← perm.length_eq, List.length_cons,
          Nat.add_sub_cancel]
      exact ⟨eq ▸ State.fatal_fatalDecision _ e, eq ▸ State.valid_fatalDecision _ e, ⟨e, he, src⟩, fun b hb => src ▸ least b hb, more⟩

end Sys2Proof.Machine
end

section
/-! The host's writes of HIF registers in the safe state (R411, R461). With the boot at READY the safe state alone decides whether a write is taken;
what is taken then does what it does in every state. -/

namespace Sys2Proof.Machine

open Sys2Proof

/-! Which writes are taken -/

theorem State.turnedAway_safe {s : State} (hr : s.ready = true) (hs : s.safe = true) (off : Nat) :
    s.turnedAway off true = if safeAllows off then none else some 2 := by
  unfold State.turnedAway
  cases safeAllows off <;> simp [hr, hs]

/-- A register that the safe state lets the host write takes the write (R411). -/
theorem Taken.of_safe {s : State} (hw : s.inReset = false) (hr : s.ready = true) (hs : s.safe = true) {r : Reg} (h : safeAllows r.off = true) :
    Taken s r :=
  ⟨hw, by rw [State.turnedAway_safe hr hs, h]; rfl⟩

theorem safeAllows_cqHead {r : Nat} (hr : r < 16) : safeAllows (HIF_CQ_HEAD r).off = true := by
  have heads : ((List.range 16).any fun k => (HIF_CQ_HEAD r).off == (HIF_CQ_HEAD k).off) = true :=
    List.any_eq_true.mpr ⟨r, List.mem_range.mpr hr, beq_self_eq_true _⟩
  simp only [safeAllows, heads, Bool.or_true]

/-- In the HIF block the safe state lets the host write a register of its own only if it is one of R461. -/
theorem safeAllows_hif_single {off : Nat} {row : RegRow} {ix : List Nat} (lo : 0x10000 ≤ off) (hi : off < 0x20000) (hm : inMsix off = false)
    (hp : inPba off = false) (ha : regAt off = some (row, ix)) (hh : row.half = .single)
    (hn : off ∉ [HIF_NBR_RX_POP.off, HIF_MBOX_LEN.off, HIF_MBOX_CMD.off]) (hq : ∀ r < 16, off ≠ (HIF_CQ_HEAD r).off) : safeAllows off = false := by
  have half (a : Nat) (k : ((regAt a).any fun x => x.1.half != .single) = true) : off ≠ a := by
    rintro rfl
    rw [ha, Option.any_some, hh] at k
    exact absurd k (by decide)
  have reset : off ≠ PWR_RESET.off := Nat.ne_of_gt (Nat.lt_of_lt_of_le (by decide) lo)
  have flt (a : Nat) (k : 0x20000 ≤ a) : off ≠ a := Nat.ne_of_lt (Nat.lt_of_lt_of_le hi k)
  have heads : ((List.range 16).any fun r => off == (HIF_CQ_HEAD r).off) = false :=
    List.any_eq_false.mpr fun r hr => by simpa using hq r (List.mem_range.mp hr)
  simp only [List.mem_cons, List.not_mem_nil, or_false, not_or] at hn
  obtain ⟨pop, len, cmd⟩ := hn
  simp only [safeAllows, hm, hp, heads, beq_false_of_ne reset, beq_false_of_ne (flt FLT_FAULTN.off (by decide)),
    beq_false_of_ne (flt FLT_STATUS.off (by decide)), beq_false_of_ne (flt FLT_FATAL_CAUSE.off (by decide)), beq_false_of_ne pop,
    beq_false_of_ne (half HIF_MBOX_ADDR.off (by decide +kernel)), beq_false_of_ne (half (HIF_MBOX_ADDR.off + 4) (by decide +kernel)),
    beq_false_of_ne len, beq_false_of_ne cmd, Bool.or_false]

/-! Writes of four bytes -/

/-- A REGISTER_WRITE is the BAR0 write it names, and then the end of the command. -/
theorem exec_registerWrite (req off size v : Nat) (s : State) :
    exec (.registerWrite req off size v) s = .next (s.busWrite req off size v).settle := rfl

theorem State.busWrite_word (s : State) (req : Nat) {off v : Nat} (hb : off < 0x2000000) (h4 : off % 4 = 0) (hv : v < 2 ^ 32) :
    s.busWrite req off 4 v = s.write4 req off v := by
  unfold State.busWrite
  rw [if_neg (Nat.not_le.mpr hb), if_pos ⟨rfl, h4⟩, Nat.mod_eq_of_lt hv]

/-- Outside a pair the requester of a write does not matter: it is the host's. -/
theorem State.busWrite_sole (s : State) (req : Nat) {r : Reg} {v b : Nat} {ix : List Nat} (h : Taken s r) (hs : soleReg r.off b ix = true)
    (hv : v < 2 ^ 32) : s.busWrite req r.off 4 v = s.hostWrite r (BitVec.ofNat 32 v) := by
  unfold soleReg at hs
  simp only [Bool.and_eq_true, decide_eq_true_eq, beq_iff_eq, Bool.not_eq_true', Option.any_eq_true] at hs
  obtain ⟨⟨⟨⟨⟨row, jx⟩, ha, ⟨hh, -⟩, -⟩, hb⟩, h4⟩, hm⟩ := hs
  rw [State.hostWrite_taken s r _ row jx h ha hh hb h4 hm, s.busWrite_word req hb h4 hv]
  unfold State.write4
  dsimp only at hh
  rw [h.1, hm, ha, h.2, BitVec.toNat_ofNat, Nat.mod_eq_of_lt hv]
  simp only [Bool.false_and, Bool.false_eq_true, if_false, hh]

/-- A write that is turned away is recorded in the access-error log and does nothing else (R460). -/
theorem State.write4_turnedAway (s : State) (req : Nat) {off v k : Nat} {row : RegRow} {ix : List Nat} (hw : s.inReset = false)
    (hm : inMsix off = false) (ha : regAt off = some (row, ix)) (hh : row.half = .single) (ht : s.turnedAway off true = some k) :
    s.write4 req off v = s.aerr 0 off true k := by
  unfold State.write4
  rw [hw, hm, ha, ht]
  simp only [Bool.false_and, Bool.false_eq_true, if_false, hh]

/-- A write of an offset that holds no register does nothing where it is not turned away. -/
theorem State.write4_none (s : State) (req : Nat) {off v : Nat} (hw : s.inReset = false) (hm : inMsix off = false) (ha : regAt off = none)
    (ht : s.turnedAway off true = none) : s.write4 req off v = s := by
  unfold State.write4
  rw [hw, hm, ha, ht]
  rfl

/-- A write of four bytes that is turned away ends with its record. -/
theorem State.registerWrite_turnedAway {s : State} (req : Nat) {off v k : Nat} {row : RegRow} {ix : List Nat} (hw : s.inReset = false)
    (hb : off < 0x2000000) (h4 : off % 4 = 0) (hm : inMsix off = false) (ha : regAt off = some (row, ix)) (hh : row.half = .single)
    (ht : s.turnedAway off true = some k) (hv : v < 2 ^ 32) : exec (.registerWrite req off 4 v) s = .next (s.aerr 0 off true k).settle := by
  rw [exec_registerWrite, s.busWrite_word req hb h4 hv, s.write4_turnedAway req hw hm ha hh ht]

/-! Changes of the host bridge's state alone -/

/-- Nothing but the host bridge's state and what has left the block differs. -/
def HostOnly (s t : State) : Prop := ∃ h o, t = { s with host := h, out := o }

theorem HostOnly.refl (s : State) : HostOnly s s := ⟨_, _, rfl⟩

theorem HostOnly.modHost {s t : State} (h : HostOnly s t) (f : HostState → HostState) : HostOnly s (t.modHost f) := by
  obtain ⟨_, _, rfl⟩ := h
  exact ⟨_, _, rfl⟩

theorem HostOnly.emit {s t : State} (h : HostOnly s t) (o : Out) : HostOnly s (t.emit o) := by
  obtain ⟨_, _, rfl⟩ := h
  exact ⟨_, _, rfl⟩

theorem HostOnly.sendMsix {s t : State} (h : HostOnly s t) (v : Nat) : HostOnly s (t.sendMsix v) := h.emit _

theorem HostOnly.raiseVec {s t : State} (h : HostOnly s t) (v : Nat) : HostOnly s (t.raiseVec v) := by
  unfold State.raiseVec
  dsimp only
  split
  · exact h.modHost fun x => { x with msixPending := putBits x.msixPending v 1 1 }
  · split
    · exact h
    · exact (h.sendMsix v).modHost fun x => { x with raisedAt := Tbl.write x.raisedAt 0 v (t.now / 4 + 1) }

theorem HostOnly.regs {s t : State} (h : HostOnly s t) : t.regs = s.regs := by
  obtain ⟨_, _, rfl⟩ := h
  rfl

theorem HostOnly.quiet {s t : State} (h : HostOnly s t) (q : Quiet s) : Quiet t := by
  obtain ⟨_, _, rfl⟩ := h
  exact q

/-! The MSI-X table -/

theorem State.write4_msix (s : State) (req : Nat) {off v : Nat} (hw : s.inReset = false) (hm : inMsix off = true) :
    s.write4 req off v = s.msixWrite ((off - 0x12000) / 4) v := by
  unfold State.write4
  rw [hw, hm]
  simp only [Bool.false_and, Bool.false_eq_true, if_false, if_true]

theorem HostOnly.msixWrite {s t : State} (h : HostOnly s t) (word v : Nat) : HostOnly s (t.msixWrite word v) := by
  unfold State.msixWrite
  dsimp only
  generalize (if word % 4 = 3 then v % 2 else if word % 4 = 0 then v / 4 * 4 else v) = x
  generalize (if word % 4 = 3 then 1 else 0) = d
  split
  · exact ((h.modHost _).modHost _).sendMsix _
  · exact h.modHost _

/-- A write of the table stores the word, its reserved bits as zero (R459). -/
theorem State.msixWord_msixWrite (s : State) (word v : Nat) :
    (s.msixWrite word v).msixWord (word / 4) (word % 4) = if word % 4 = 3 then v % 2 else if word % 4 = 0 then v / 4 * 4 else v := by
  have stored (h : HostState) (d x : Nat) : Tbl.read (Tbl.write h.msix d word x) d (4 * (word / 4) + word % 4) = x := by
    rw [Nat.div_add_mod, Tbl.read_write_same]
  unfold State.msixWrite State.msixWord
  dsimp only
  generalize (if word % 4 = 3 then v % 2 else if word % 4 = 0 then v / 4 * 4 else v) = x
  generalize (if word % 4 = 3 then 1 else 0) = d
  split
  · exact stored _ _ _
  · exact stored _ _ _

theorem State.registerWrite_msix {s : State} (q : Quiet s) (hw : s.inReset = false) (req : Nat) {vec i v : Nat} (hvec : vec < 64) (hi : i < 4)
    (hv : v < 2 ^ 32) : ∃ t, exec (.registerWrite req (0x12000 + 16 * vec + 4 * i) 4 v) s = .next t ∧ t.regs = s.regs ∧
      t.msixWord vec i = if i = 3 then v % 2 else if i = 0 then v / 4 * 4 else v := by
  have inTable : inMsix (0x12000 + 16 * vec + 4 * i) = true := by
    simp only [inMsix, Bool.and_eq_true, decide_eq_true_eq]
    omega
  have word : (0x12000 + 16 * vec + 4 * i - 0x12000) / 4 = 4 * vec + i := by omega
  have only := (HostOnly.refl s).msixWrite (4 * vec + i) v
  have stored := s.msixWord_msixWrite (4 * vec + i) v
  rw [show (4 * vec + i) / 4 = vec by omega, show (4 * vec + i) % 4 = i by omega] at stored
  refine ⟨_, ?_, only.regs, stored⟩
  rw [exec_registerWrite, s.busWrite_word req (by omega) (by omega) hv, s.write4_msix req hw inTable, word, State.settle_of_quiet _ (only.quiet q)]

/-! The pending bits and the receive FIFO -/

/-- The pending bits hold no register that a write could change. -/
theorem State.registerWrite_pba {s : State} (q : Quiet s) (hw : s.inReset = false) (hr : s.ready = true) (hs : s.safe = true) (req : Nat) {i v : Nat}
    (hi : i < 2) (hv : v < 2 ^ 32) : exec (.registerWrite req (0x12400 + 4 * i) 4 v) s = .next s := by
  have tables : ∀ i < 2, inMsix (0x12400 + 4 * i) = false ∧ regAt (0x12400 + 4 * i) = none ∧ safeAllows (0x12400 + 4 * i) = true := by decide +kernel
  obtain ⟨hm, ha, allowed⟩ := tables i hi
  have ht : s.turnedAway (0x12400 + 4 * i) true = none := by
    rw [State.turnedAway_safe hr hs, allowed]
    rfl
  rw [exec_registerWrite, s.busWrite_word req (by omega) (by omega) hv, s.write4_none req hw hm ha ht, State.settle_of_quiet _ q]

/-- POP takes the oldest packet from the receive FIFO (R396). -/
theorem State.registerWrite_nbrPop {s : State} (q : Quiet s) (req : Nat) {v : Nat} (h : Taken s HIF_NBR_RX_POP) (hv : v < 2 ^ 32) :
    ∃ t, exec (.registerWrite req HIF_NBR_RX_POP.off 4 v) s = .next t ∧ t.host.nbrRx = s.host.nbrRx.drop (v % 2) ∧ t.regs = s.regs := by
  have effect := s.busWrite_sole req h (b := HIF_NBR_RX_POP.off) (ix := []) (by decide +kernel) hv
  rw [s.hostWrite_HIF_NBR_RX_POP _ h, BitVec.toNat_ofNat, Nat.mod_eq_of_lt hv] at effect
  have pop : bit v 0 = (v % 2 == 1) := by rw [bit, Nat.pow_zero, Nat.div_one]
  rcases Nat.mod_two_eq_zero_or_one v with e | e
  · rw [pop, e, if_neg (by decide)] at effect
    exact ⟨s, by rw [exec_registerWrite, effect, State.settle_of_quiet _ q], by rw [e, List.drop_zero], rfl⟩
  · rw [pop, e, if_pos (by decide)] at effect
    have only : HostOnly s s.nbrPop := (HostOnly.refl s).modHost _
    exact ⟨s.nbrPop, by rw [exec_registerWrite, effect, State.settle_of_quiet _ (only.quiet q)], by rw [e]; rfl, only.regs⟩

/-! Fields of stored registers -/

theorem testBit_ones {i : Nat} (hi : i < 32) : Nat.testBit 0xFFFFFFFF i = true := by
  rw [show 0xFFFFFFFF = 2 ^ 32 - 1 from rfl, Nat.testBit_two_pow_sub_one]
  exact decide_eq_true hi

/-- A bit of the mask is taken from the new value. -/
theorem maskIn_testBit_of_mem (old new mask i : Nat) (hi : i < 32) (h : mask.testBit i = true) : (maskIn old new mask).testBit i = new.testBit i := by
  simp [maskIn, h, testBit_ones hi]

/-- A write with an empty mask keeps the 32 bits there were. -/
theorem maskIn_testBit_zero (old new i : Nat) (hi : i < 32) : (maskIn old new 0).testBit i = old.testBit i := by
  simp [maskIn, testBit_ones hi]

theorem bits_testBit (x lo width i : Nat) : (bits x lo width).testBit i = (decide (i < width) && x.testBit (lo + i)) := by
  rw [bits, Nat.testBit_mod_two_pow, Nat.testBit_div_two_pow, Nat.add_comm]

theorem bits_congr {x y lo width : Nat} (h : ∀ i < width, x.testBit (lo + i) = y.testBit (lo + i)) : bits x lo width = bits y lo width := by
  refine Nat.eq_of_testBit_eq fun i => ?_
  rw [bits_testBit, bits_testBit]
  by_cases hi : i < width
  · rw [h i hi]
  · simp [hi]

theorem bits_mod_word (x : Nat) {lo width : Nat} (h : lo + width ≤ 32) : bits (x % 2 ^ 32) lo width = bits x lo width :=
  bits_congr fun i hi => by rw [Nat.testBit_mod_two_pow, decide_eq_true (show lo + i < 32 by omega), Bool.true_and]

/-- Whether the bits of a row's register from lo on, as many as width says, are all RW, and no bit of it is W1C, RWP or RWB. -/
def RegRow.rwBits (row : RegRow) (lo width : Nat) : Bool :=
  row.w1c == 0 && row.rwp == 0 && row.rwb == 0 && bits row.rw lo width == 2 ^ width - 1 && decide (lo + width ≤ 32)

theorem bits_keptValue {row : RegRow} {lo width : Nat} (old v : Nat) (h : row.rwBits lo width = true) :
    bits (keptValue row old v) lo width = bits v lo width := by
  simp only [RegRow.rwBits, Bool.and_eq_true, beq_iff_eq, decide_eq_true_eq] at h
  obtain ⟨⟨⟨⟨w1c, rwp⟩, -⟩, all⟩, le⟩ := h
  refine bits_congr fun i hi => ?_
  have rwBit : row.rw.testBit (lo + i) = true := by
    have := congrArg (·.testBit i) all
    simpa [bits_testBit, Nat.testBit_two_pow_sub_one, hi] using this
  rw [keptValue, w1c, rwp, Nat.and_zero, maskIn_testBit_zero _ _ _ (by omega), maskIn_testBit_zero _ _ _ (by omega),
    maskIn_testBit_of_mem _ _ _ _ (by omega) rwBit]

/-- The stored effect of a write where the bits from lo on, as many as width says, are RW. -/
theorem State.storeBits_rwBits (s : State) {row : RegRow} {off : Nat} (at_ v : Nat) {lo width : Nat} (h : row.rwBits lo width = true) :
    ∃ x, s.storeBits row off at_ v = s.setR (regOf off) x ∧ bits x lo width = bits v lo width := by
  have kept := bits_keptValue (s.getR (regOf off)) v h
  simp only [RegRow.rwBits, Bool.and_eq_true, beq_iff_eq] at h
  obtain ⟨⟨⟨⟨-, rwp⟩, rwb⟩, -⟩, -⟩ := h
  exact ⟨_, s.stored_eq ⟨row, off, at_, v, 0⟩ (.inl rwp) rwb, kept⟩

/-- A field of a register just written. -/
theorem State.get_setR_same (s : State) (f : Fld) (x : Nat) (h : f.lo + f.width ≤ 32) : (s.setR f.reg x).get f = bits x f.lo f.width := by
  rw [State.get, State.getR_setR_same, bits_mod_word _ h]

/-- What the register tables say of a field: its register is a plain one, of which no bit is W1C, and all its own bits are RW. -/
def rwField (f : Fld) : Bool := (regAt f.reg.off).any fun x => x.1.rwBits f.lo f.width && x.1.resetAt x.2 == f.reg.reset

theorem regOf_rwField {f : Fld} (h : rwField f = true) : regOf f.reg.off = f.reg := by
  rw [rwField, Option.any_eq_true] at h
  obtain ⟨⟨row, ix⟩, ha, h⟩ := h
  simp only [Bool.and_eq_true, beq_iff_eq] at h
  simp only [regOf, ha, h.2]

theorem State.writeReg_hif (s : State) {w : RegWrite} (h : w.off / 0x10000 = 0x01) : s.writeReg w = s.hifWrite w := by
  rw [State.writeReg, h, if_neg (by decide), if_pos rfl]

/-- But for five registers and arrays, a write in the HIF block only stores its bits. -/
theorem State.hifWrite_stored (s : State) {w : RegWrite}
    (h : w.row.base ∉ [HIF_NBR_TX_CTRL.off, HIF_NBR_RX_POP.off, HIF_MBOX_CMD.off, (HIF_SQ_CFG 0).off, (HIF_SQ_TAIL 0).off]) :
    s.hifWrite w = s.stored w := by
  simp only [List.mem_cons, List.not_mem_nil, or_false, not_or] at h
  obtain ⟨tx, pop, cmd, cfg, tail⟩ := h
  simp only [State.hifWrite, RegWrite.is, beq_false_of_ne tx, beq_false_of_ne pop, beq_false_of_ne cmd, beq_false_of_ne cfg, beq_false_of_ne tail,
    Bool.false_eq_true, if_false]

/-- A write of a HIF register that only stores puts the value's bits in its RW fields and changes no other register. -/
theorem State.registerWrite_hif_rwField {s : State} (q : Quiet s) (req : Nat) {f : Fld} {v b : Nat} {ix : List Nat} (h : Taken s f.reg)
    (hs : soleReg f.reg.off b ix = true) (hf : rwField f = true) (hblock : f.reg.off / 0x10000 = 0x01)
    (hb : b ∉ [HIF_NBR_TX_CTRL.off, HIF_NBR_RX_POP.off, HIF_MBOX_CMD.off, (HIF_SQ_CFG 0).off, (HIF_SQ_TAIL 0).off]) (hv : v < 2 ^ 32) :
    ∃ t, exec (.registerWrite req f.reg.off 4 v) s = .next t ∧ t.get f = bits v f.lo f.width ∧ RegsKept [f.reg.off] s t := by
  obtain ⟨row, hr, rfl, eq⟩ := s.hostWrite_sole f.reg (BitVec.ofNat 32 v) b ix h hs
  have own := regOf_rwField hf
  simp only [rwField, hr, Option.any_some, Bool.and_eq_true] at hf
  have le : f.lo + f.width ≤ 32 := of_decide_eq_true (Bool.and_eq_true_iff.mp hf.1).2
  rw [BitVec.toNat_ofNat, Nat.mod_eq_of_lt hv] at eq
  obtain ⟨x, val, get⟩ := s.storeBits_rwBits f.reg.off v hf.1
  rw [own] at val
  have effect : s.busWrite req f.reg.off 4 v = s.setR f.reg x := by
    rw [s.busWrite_sole req h hs hv, eq, State.writeReg_hif _ hblock, State.hifWrite_stored _ hb]
    exact val
  refine ⟨_, by rw [exec_registerWrite, effect, State.settle_eq s _ q (s.setR_fault _ _) (s.setR_switch _ _)], ?_, fun r hr => ?_⟩
  · rw [s.get_setR_same f x le, get]
  · exact s.getR_setR_ne _ _ _ fun e => hr (List.mem_singleton.mpr e)

/-- A field that begins at bit 0. -/
theorem bits_from_zero (x width : Nat) : bits x 0 width = x % 2 ^ width := by rw [bits, Nat.pow_zero, Nat.div_one]

theorem State.registerWrite_cqHead {s : State} (q : Quiet s) (req : Nat) {r v : Nat} (hr : r < 16) (h : Taken s (HIF_CQ_HEAD r)) (hv : v < 2 ^ 32) :
    ∃ t, exec (.registerWrite req (HIF_CQ_HEAD r).off 4 v) s = .next t ∧ t.cqHead r = v % 65536 ∧ RegsKept [(HIF_CQ_HEAD r).off] s t := by
  have tables : ∀ r < 16, soleReg (HIF_CQ_HEAD r).off (HIF_CQ_HEAD 0).off [r] = true ∧ rwField (HIF_CQ_HEAD_INDEX r) = true ∧
      (HIF_CQ_HEAD r).off / 0x10000 = 0x01 := by decide +kernel
  obtain ⟨sole, field, block⟩ := tables r hr
  obtain ⟨t, next, get, kept⟩ := State.registerWrite_hif_rwField q req (f := HIF_CQ_HEAD_INDEX r) h sole field block (by decide) hv
  exact ⟨t, next, get.trans (bits_from_zero v 16), kept⟩

theorem State.registerWrite_mboxLen {s : State} (q : Quiet s) (req : Nat) {v : Nat} (h : Taken s HIF_MBOX_LEN) (hv : v < 2 ^ 32) :
    ∃ t, exec (.registerWrite req HIF_MBOX_LEN.off 4 v) s = .next t ∧ t.get HIF_MBOX_LEN_LEN = v % 2 ^ 23 ∧ RegsKept [HIF_MBOX_LEN.off] s t := by
  obtain ⟨t, next, get, kept⟩ := State.registerWrite_hif_rwField q req (f := HIF_MBOX_LEN_LEN) (b := HIF_MBOX_LEN.off) (ix := []) h
    (by decide +kernel) (by decide +kernel) (by decide) (by decide) hv
  exact ⟨t, next, get.trans (bits_from_zero v 23), kept⟩

/-! The buffer address, a pair -/

/-- A write of a whole pair that is taken and not closed by an arm stores both halves (R8). -/
theorem State.busWrite_pair (s : State) (req : Nat) {off v : Nat} (hb : off < 0x2000000) (h8 : off % 8 = 0) (hl : isLow off = true)
    (hw : s.inReset = false) (ht : s.turnedAway off true = none) (ha : s.pairArmed off = false) (hv : v < 2 ^ 64) :
    s.busWrite req off 8 v = (s.dropHeld req off).storePair off off v := by
  have ht' : (s.dropHeld req off).turnedAway off true = none := ht
  have ha' : (s.dropHeld req off).pairArmed off = false := ha
  unfold State.busWrite
  rw [if_neg (Nat.not_le.mpr hb), if_neg (fun h => absurd h.1 (by decide)), if_pos ⟨rfl, h8⟩, if_pos hl, hw, Nat.mod_eq_of_lt hv]
  simp only [Bool.false_eq_true, if_false, State.writePair, State.pairEffect, ht', ha']

/-- The rows of the buffer address: bits [31:12] of the lower half and the whole upper half are RW. -/
theorem regAt_mboxAddr : ∃ a b, regAt HIF_MBOX_ADDR.off = some (a, []) ∧ regAt (HIF_MBOX_ADDR.off + 4) = some (b, []) ∧ a.rwp ||| b.rwp = 0 ∧
    a.rwBits 12 20 = true ∧ b.rwBits 0 32 = true :=
  ⟨⟨0x10208, [], .word 0, .low, 0xFFFFF000, 0, 0, 0, 0⟩, ⟨0x1020C, [], .word 0, .high, 0xFFFFFFFF, 0, 0, 0, 0⟩, by decide +kernel⟩

theorem State.storePair_mboxAddr (s : State) (at_ v : Nat) :
    ∃ x y, s.storePair HIF_MBOX_ADDR.off at_ v = (s.setR HIF_MBOX_ADDR.low x).setR HIF_MBOX_ADDR.high y ∧
      bits x 12 20 = bits (v % 2 ^ 32) 12 20 ∧ bits y 0 32 = bits (v / 2 ^ 32) 0 32 := by
  obtain ⟨a, b, ha, hb, rwp, rwa, rwb⟩ := regAt_mboxAddr
  obtain ⟨x, low, hx⟩ := s.storeBits_rwBits (off := HIF_MBOX_ADDR.off) at_ (v % 2 ^ 32) rwa
  obtain ⟨y, high, hy⟩ := (s.setR (regOf HIF_MBOX_ADDR.off) x).storeBits_rwBits (off := HIF_MBOX_ADDR.off + 4) at_ (v / 2 ^ 32) rwb
  have lowReg : regOf HIF_MBOX_ADDR.off = HIF_MBOX_ADDR.low := by decide +kernel
  have highReg : regOf (HIF_MBOX_ADDR.off + 4) = HIF_MBOX_ADDR.high := by decide +kernel
  refine ⟨x, y, ?_, hx, hy⟩
  simp only [State.storePair, ha, hb, rwp, ne_eq, not_true_eq_false, decide_false, Bool.false_and, Bool.false_eq_true, if_false]
  rw [low, high, lowReg, highReg]

theorem State.registerWrite_mboxAddr {s : State} (q : Quiet s) (req : Nat) {v : Nat} (h : Taken s HIF_MBOX_ADDR.low) (hv : v < 2 ^ 64) :
    ∃ t, exec (.registerWrite req HIF_MBOX_ADDR.off 8 v) s = .next t ∧ t.getR64 HIF_MBOX_ADDR / 4096 = v / 4096 ∧
      RegsKept [HIF_MBOX_ADDR.off, HIF_MBOX_ADDR.off + 4] s t := by
  obtain ⟨x, y, eq, hx, hy⟩ := (s.dropHeld req HIF_MBOX_ADDR.off).storePair_mboxAddr HIF_MBOX_ADDR.off v
  have effect := s.busWrite_pair req (off := HIF_MBOX_ADDR.off) (by decide) (by decide) (by decide +kernel) h.1 h.2 rfl hv
  rw [eq] at effect
  have quiet : Quiet (((s.dropHeld req HIF_MBOX_ADDR.off).setR HIF_MBOX_ADDR.low x).setR HIF_MBOX_ADDR.high y) := q
  refine ⟨_, by rw [exec_registerWrite, effect, State.settle_of_quiet _ quiet], ?_, fun r hr => ?_⟩
  · rw [State.getR64, State.getR_setR_same, State.getR_setR_ne _ _ _ _ (by decide), State.getR_setR_same]
    unfold bits at hx hy
    omega
  · simp only [List.mem_cons, List.not_mem_nil, or_false, not_or] at hr
    exact (State.getR_setR_ne _ HIF_MBOX_ADDR.high r y hr.2).trans (State.getR_setR_ne _ HIF_MBOX_ADDR.low r x hr.1)

/-! The mailbox -/

/-- What HIF_MBOX_STATUS shows of a command under way. -/
def State.mboxBusy (s : State) (c : Nat) : State := (s.set HIF_MBOX_STATUS_BUSY 1).set HIF_MBOX_STATUS_CMD c

theorem State.busy_mboxBusy (s : State) (c : Nat) : (s.mboxBusy c).flag HIF_MBOX_STATUS_BUSY = true := by
  rw [State.flag, State.mboxBusy, State.get_set_apart _ HIF_MBOX_STATUS_CMD HIF_MBOX_STATUS_BUSY _ rfl (by decide) (by decide),
    State.get_set_same _ _ _ (by decide)]
  rfl

theorem State.cmd_mboxBusy (s : State) (c : Nat) : (s.mboxBusy c).get HIF_MBOX_STATUS_CMD = c % 16 := State.get_set_same _ _ _ (by decide)

theorem State.mboxBusy_only (s : State) (c : Nat) : RegsOnly s (s.mboxBusy c) := RegsOnly.set (RegsOnly.set (RegsOnly.refl s) _ _) _ _

theorem State.mboxBusy_kept (s : State) (c : Nat) : RegsKept [HIF_MBOX_STATUS.off] s (s.mboxBusy c) := by
  intro r hr
  have ne : r.off ≠ HIF_MBOX_STATUS.off := fun e => hr (List.mem_singleton.mpr e)
  exact (State.getR_set_ne _ HIF_MBOX_STATUS_CMD r _ ne).trans (State.getR_set_ne _ HIF_MBOX_STATUS_BUSY r _ ne)

/-- A command written while none runs is shown as under way, and but for the host bridge's state that is all. -/
theorem State.mboxCmd_hostOnly (s : State) (at_ c : Nat) (h : s.host.mbox = none) : HostOnly (s.mboxBusy c) (s.mboxCmd at_ c) := by
  have under (f : HostState → HostState) : HostOnly (s.mboxBusy c) ((s.mboxBusy c).modHost f) := (HostOnly.refl _).modHost f
  unfold State.mboxCmd
  rw [h]
  simp only [Option.isSome_none, Bool.false_eq_true, if_false]
  split
  · exact under _
  · exact (under _).emit _

/-- A command written while none runs waits for its work, or with the status of its first checks for its end. -/
theorem State.mbox_mboxCmd (s : State) (at_ c : Nat) (h : s.host.mbox = none) :
    (s.mboxCmd at_ c).host.mbox = some (c, if s.mboxStatus c = 0 then none else some (s.mboxStatus c)) := by
  unfold State.mboxCmd
  rw [h]
  simp only [Option.isSome_none, Bool.false_eq_true, if_false]
  split
  · rfl
  · rfl

/-- The write of a mailbox command that is taken while none runs. -/
theorem State.registerWrite_mboxCmd {s : State} (q : Quiet s) (req : Nat) {v : Nat} (h : Taken s HIF_MBOX_CMD) (hm : s.host.mbox = none)
    (hv : v < 2 ^ 32) : ∃ t, exec (.registerWrite req HIF_MBOX_CMD.off 4 v) s = .next t ∧ t.regs = (s.mboxBusy (v % 16)).regs ∧ Quiet t ∧
      t.host.mbox = some (v % 16, if s.mboxStatus (v % 16) = 0 then none else some (s.mboxStatus (v % 16))) := by
  have effect := s.busWrite_sole req h (b := HIF_MBOX_CMD.off) (ix := []) (by decide +kernel) hv
  rw [s.hostWrite_HIF_MBOX_CMD _ h, BitVec.toNat_ofNat, Nat.mod_eq_of_lt hv] at effect
  have only := s.mboxCmd_hostOnly HIF_MBOX_CMD.off (v % 16) hm
  have quiet := only.quiet (RegsOnly.quiet (s.mboxBusy_only (v % 16)) q)
  exact ⟨_, by rw [exec_registerWrite, effect, State.settle_of_quiet _ quiet], only.regs, quiet, s.mbox_mboxCmd _ _ hm⟩

/-- Every command but ATTEST ends at its first check in the safe state, with NOT_ALLOWED (R461). -/
theorem State.mboxStatus_safe {s : State} (hs : s.safe = true) {c : Nat} (hc : c ≠ 1) : s.mboxStatus c = 0x0B := by
  unfold State.mboxStatus
  simp [hs, hc]

/-- The end of a command that failed shows its status and clears BUSY (R462). -/
theorem exec_mailboxDone_failed {s : State} (q : Quiet s) {c st : Nat} (h : s.host.mbox = some (c, some st)) (hst : st ≠ 0) :
    ∃ u, exec .mailboxDone s = .next u ∧ u.regs = ((s.set HIF_MBOX_STATUS_CODE st).set HIF_MBOX_STATUS_BUSY 0).regs := by
  have only := ((HostOnly.refl ((s.set HIF_MBOX_STATUS_CODE st).set HIF_MBOX_STATUS_BUSY 0)).modHost fun h => { h with mbox := none }).raiseVec 3
  have quiet := only.quiet (RegsOnly.quiet (RegsOnly.set (RegsOnly.set (RegsOnly.refl s) HIF_MBOX_STATUS_CODE st) HIF_MBOX_STATUS_BUSY 0) q)
  refine ⟨_, ?_, only.regs⟩
  change execMailboxDone s = _
  simp only [execMailboxDone, h, hst, and_false, if_false, done_eq]
  rw [State.settle_of_quiet _ quiet]

/-- In the safe state a command other than ATTEST completes with NOT_ALLOWED (R461). -/
theorem State.mboxCmd_notAllowed {s t : State} (qt : Quiet t) {c : Nat} (hc : c < 16) (hm : t.host.mbox = some (c, some 0x0B))
    (hr : t.regs = (s.mboxBusy c).regs) : ∃ u, exec .mailboxDone t = .next u ∧ u.get HIF_MBOX_STATUS_CODE = 0x0B ∧
      u.flag HIF_MBOX_STATUS_BUSY = false ∧ u.get HIF_MBOX_STATUS_CMD = c := by
  obtain ⟨u, hu, regs⟩ := exec_mailboxDone_failed qt hm (by decide)
  refine ⟨u, hu, ?_, ?_, ?_⟩
  · rw [State.get_congr _ _ _ regs, State.get_set_apart _ HIF_MBOX_STATUS_BUSY HIF_MBOX_STATUS_CODE _ rfl (by decide) (by decide),
      State.get_set_same _ _ _ (by decide)]
    rfl
  · rw [State.flag_congr _ _ _ regs, State.flag_set_same _ _ _ (by decide)]
    rfl
  · rw [State.get_congr _ _ _ regs, State.get_set_apart _ HIF_MBOX_STATUS_BUSY HIF_MBOX_STATUS_CMD _ rfl (by decide) (by decide),
      State.get_set_apart _ HIF_MBOX_STATUS_CODE HIF_MBOX_STATUS_CMD _ rfl (by decide) (by decide), State.get_congr _ _ _ hr,
      State.cmd_mboxBusy, Nat.mod_eq_of_lt hc]

/-! The statement -/

/-- Settles O56: `safeAllows` decides which writes are taken; each that is does what it does in every state, and ATTEST alone passes the first check of
the mailbox. -/
theorem safeStateHostWrites : Obligations.SafeStateHostWrites := by
  intro req v s q hw hr hs hv
  have taken {r : Reg} (h : safeAllows r.off = true) : Taken s r := Taken.of_safe hw hr hs h
  refine ⟨fun vec hvec i hi => s.registerWrite_msix q hw req hvec hi hv, fun i hi => ⟨s, s.registerWrite_pba q hw hr hs req hi hv, rfl⟩,
    fun r hr => s.registerWrite_cqHead q req hr (taken (safeAllows_cqHead hr)) hv, s.registerWrite_nbrPop q req (taken (by decide)) hv,
    fun a ha => s.registerWrite_mboxAddr q req (taken (by decide)) ha, s.registerWrite_mboxLen q req (taken (by decide)) hv, fun hm => ?mailbox,
    fun off row ix lo hi h4 hm hp ha hh hn hq => ?others⟩
  case mailbox =>
    obtain ⟨t, next, regs, quiet, mbox⟩ := s.registerWrite_mboxCmd q req (taken (by decide)) hm hv
    refine ⟨fun attest => ⟨t, next, ?_, ?_, fun r hr => ?_⟩, fun other => ?_⟩
    · rw [State.flag_congr _ _ _ regs, State.busy_mboxBusy]
    · rw [State.get_congr _ _ _ regs, State.cmd_mboxBusy, attest]
    · rw [State.getR_congr _ _ _ regs, State.mboxBusy_kept _ _ r hr]
    · rw [State.mboxStatus_safe hs other] at mbox
      obtain ⟨u, ended, shown⟩ := State.mboxCmd_notAllowed quiet (Nat.mod_lt v (by decide)) mbox regs
      exact ⟨t, u, next, ended, shown⟩
  case others =>
    have away : s.turnedAway off true = some 2 := by
      rw [State.turnedAway_safe hr hs, safeAllows_hif_single lo hi hm hp ha hh hn hq]
      rfl
    exact s.registerWrite_turnedAway req hw (by omega) h4 hm ha hh away hv

end Sys2Proof.Machine
end

section
/-! Every command ends by handing its reports to the collector, so that a step leaves no report and no notice waiting. -/

namespace Sys2Proof.Machine

open Sys2Proof

/-- A command goes on: it answers the settled form of some state. -/
def GoesOn (o : Host.Outcome State Fault Refusal) : Prop := ∃ u, o = done u

theorem execDebugInstruction_goesOn {code : Nat} {s : State} (h : bit (s.get SEC_STATUS_PERMS) 0 = false) : GoesOn (execDebugInstruction code s) := by
  unfold execDebugInstruction
  rw [h]
  exact ⟨s.bypass, rfl⟩

theorem GoesOn.done (s : State) : GoesOn (done s) := ⟨s, rfl⟩

theorem GoesOn.ite {c : Prop} [Decidable c] {o p : Host.Outcome State Fault Refusal} (ho : GoesOn o) (hp : GoesOn p) :
    GoesOn (if c then o else p) := by
  split
  · exact ho
  · exact hp

theorem execBar2Read_goesOn (addr len : Nat) (bad : Bool) (s : State) : GoesOn (execBar2Read addr len bad s) := by
  refine .ite (.done _) (.ite (.done _) ?_)
  generalize (List.range len).map (addr + ·) = os
  generalize s.bar2Fail addr len bad = failing
  generalize s.bar2Kind false os = kind
  rcases kind with _ | k
  · rcases failing with _ | b
    · exact .done _
    · exact .ite (.done _) (.done _)
  · by_cases other : k = 6
    · rw [other]
      exact .done _
    · simp only
      exact .done _

/-- Each command but a debug instruction goes on, on each of its paths. -/
theorem exec_goesOn (i : Instr) (s : State) (h : ∀ code, i = .debugInstruction code → bit (s.get SEC_STATUS_PERMS) 0 = false) :
    GoesOn (exec i s) := by
  cases i
  case debugInstruction code => exact execDebugInstruction_goesOn (h code rfl)
  case bar2Read addr len bad => exact execBar2Read_goesOn addr len bad s
  all_goals
    clear h
    dsimp only [exec,
      execDispatchExpertSignal, execCombineTimeout, execRaccRetryResend, execNoAckAgeLimit, execDescriptorComplete, execRaccPacket,
      execGateTimeout, execTombstoneExpiry, execTrainingDone, execMemShutdownDone, execStagingReserved, execChunkSend, execTicketStart,
      execOrderTimeout, execBarrierArrive, execBarrierRelease, execChainCredit, execChainAbort, execBackupAct, execStandbyRelease,
      execRepairReq, execCombineTerm, execChainTimeout, execStandbyTimeout, execHeldActivationTimeout, execDomainShutdownDone,
      execColShutdownDone, execPermuteWaitEnd, execPermuteBlockedTimeout, execPermuteData, execPermuteComplete, execPermuteProgressTimeout,
      execXlateHoldExpiry, execAck, execRetry, execRefuse, execReadReq, execReadResp, execRsignalPacket, execMcastResidueServe,
      execIdentFrame, execReadyFrame, execLaneLock, execEqFrame, execEqAdaptEnd, execLoopReqFrame, execNarrowFrame, execLaneLockLoss,
      execFomMeasure, execMarkerBlock, execTrainingStepTimeout, execFailedRetryTimer, execPortShutdownDone, execPortPowerTurn, execDataFlit,
      execCtrlFlit, execCreditFlit, execNak, execReplayStart, execFatalFlit, execReqLp1, execReqLp2, execLpmAccept, execLpmRefuse, execWake,
      execLpmDisable, execSquelchWake, execLp2ExitDone, execLp1AutoIdle, execPingRequest, execPingResponse, execAckTimeout, execNakTimeout,
      execCreditWaitTimeout, execOpenPacketTimeout, execPortUpHoldExpiry, execMarkerIntervalEnd, execOutputSlot, execGateWindowChange,
      execCellGrant, execCongestionHoldEnd, execAgeScan, execRsqTimeout, execRsqIdleRelease, execSweepDone, execReclaimTimeout,
      execAuditPeriodTimer, execAuditDone, execPatternCheckDone, execSeamApply, execOldBankRelease, execZeroingDone, execCoreShutdownDone,
      execCqIntTimer, execEvwaitSatisfied, execSfenceDone, execDmawaitDone, execGbarComplete, execCoreHalted, execJobLaunch,
      execStartBarrierRelease, execJobEnd, execReplayResume, execReplayCaughtUp, execReleasePointWait, execSyntonMeasureDone,
      execSyntonSlewDone, execSyntonSourceLost, execHoldoverRevertTimeout, execSlewDone, execSnapTimeReached, execLatencySample,
      execTraceDrainDone, execLinkReset, execFlr, execDeviceResetDone, execPowerOnReset, execRootPllLock, execFlashSlotRead, execBootReady,
      execRecoveryImageRead, execPowerSample, execLimiterCheck, execThermalTrip, execSafeStateReached, execFaultPulseEnd, execMailboxDone,
      execBar2Write, execProbe, execProbeResp, execNbrMsg, execSmbusReadWord, execSmbusWrite]
    repeat' split
    all_goals exact .done _

theorem quiet_of_done {u t : State} (h : done u = .next t) : Quiet t := by
  cases h
  exact u.settle_quiet

/-- A command that answers a next state answers a settled one. -/
theorem exec_quiet {i : Instr} {s t : State} (h : exec i s = .next t) : Quiet t := by
  obtain ⟨u, hu⟩ : GoesOn (exec i s) := by
    refine exec_goesOn i s fun code hi => ?_
    subst hi
    refine Bool.eq_false_iff.mpr fun hp => ?_
    have refused : exec (.debugInstruction code) s = .refused (.debugInstruction code) := if_pos hp
    rw [refused] at h
    cases h
  rw [hu] at h
  exact quiet_of_done h

theorem step_of_pending {s : State} {c : Instr} {rest : List Instr} (h : s.pending = c :: rest) : step s = exec c { s with pending := rest } := by
  unfold step
  rw [h]

theorem step_of_empty {s : State} (h : s.pending = []) : step s = done s.tick := by
  unfold step
  rw [h]

/-- Settles O1. -/
theorem stepRunsFrontCommand : Obligations.StepRunsFrontCommand := fun _ _ _ h => step_of_pending h

/-- Settles O2: `tick` is the FCLK of a device with power and nothing without it. -/
theorem emptyQueuePassesTime : Obligations.EmptyQueuePassesTime := by
  intro s h
  rw [step_of_empty h]
  refine ⟨fun power => ?_, fun power quiet => ?_⟩
  · rw [State.tick, if_pos power, done_eq]
  · rw [State.tick, power, if_neg Bool.false_ne_true, done_eq, State.settle_of_quiet s quiet]

/-- Settles O4: on either kind of step the state answered is a settled one. -/
theorem everyStepLeavesQuiet : Obligations.EveryStepLeavesQuiet := by
  intro s t _ h
  cases hp : s.pending with
  | nil =>
    rw [step_of_empty hp] at h
    exact quiet_of_done h
  | cons c rest =>
    rw [step_of_pending hp] at h
    exact exec_quiet h

/-- Settles O5. -/
theorem everyCommandGoesOn : Obligations.EveryCommandGoesOn := by
  refine ⟨fun s i h => ?_, State.settle_of_quiet⟩
  obtain ⟨u, hu⟩ := exec_goesOn i s h
  exact ⟨u.settle, hu, u.settle_quiet⟩

end Sys2Proof.Machine
end

section
/-! The sequencer: what an instruction that issues leaves, once for all forms of the statements about its results. -/

namespace Sys2Proof.Machine

open Sys2Proof

/-- A core past its fetch differs in its loop buffers alone. -/
theorem fetchedCore_eq (s : State) (L : Nat) :
    fetchedCore s L = { s.core L with loops := bufferWord (s.core L).loops (s.get (SEQ_PC_INDEX L)) (s.wordOf L) } :=
  fetched_core s L (s.wordOf L)

theorem fetchedCore_gval (s : State) (L r : Nat) : (fetchedCore s L).gval r = (s.core L).gval r := by rw [fetchedCore_eq]; rfl

theorem fetchedCore_pval (s : State) (L i : Nat) : (fetchedCore s L).pval i = (s.core L).pval i := by rw [fetchedCore_eq]; rfl

theorem fetchedCore_vreg (s : State) (L r : Nat) : (fetchedCore s L).vreg r = (s.core L).vreg r := by rw [fetchedCore_eq]; rfl

theorem fetchedCore_opB (s : State) (L w : Nat) : (fetchedCore s L).opB w = (s.core L).opB w := by rw [fetchedCore_eq]; rfl

theorem fetchedCore_ops (s : State) (L : Nat) : (fetchedCore s L).ops = (s.core L).ops := by rw [fetchedCore_eq]

theorem fetchedCore_wait (s : State) (L : Nat) : (fetchedCore s L).wait = (s.core L).wait := by rw [fetchedCore_eq]

/-- What an effect comes to when it goes on: the state it leaves is base but for core L, which is c. -/
structure Runs (base : State) (L : Nat) (c : Core) (n : Nat) (e : Eff) : Prop where
  exists_next : ∃ u, e = .next u n ∧ CoreVariant L base u ∧ u.core L = c

/-- An instruction that issues and whose effect goes on completes. -/
theorem issue_completes {i : Instr} {s base : State} {L : Nat} {bad : Option Nat} {cls op : Nat} {legal : Nat → Bool} {uses : Nat → Uses}
    {eff : Nat → State → Eff} {n : Nat} {c : Core} (he : exec i s = done (issue L bad cls op legal uses eff s))
    (h : Issues s L bad cls op legal uses) (hd : definedOp cls op = true) (hb : Quiet base)
    (run : Runs base L c n (eff (s.wordOf L) (s.fetched L (s.wordOf L)))) (hw : c.wait = none) :
    ∃ t, exec i s = .next t ∧ RetiredOn base L c n t := by
  obtain ⟨u, e, hv, rfl⟩ := run
  exact issue_goes he h hd hb e hv hw

/-- The effect that leaves a core changed by f, and nothing else. -/
theorem runs_modCore (s : State) (L n : Nat) (f : Core → Core) : Runs s L (f (fetchedCore s L)) n (.next ((s.fetched L (s.wordOf L)).modCore L f) n) :=
  ⟨_, rfl, (CoreVariant.fetched L _ s).modCore f, State.core_modCore_same _ _ _⟩

theorem runs_setCore (s : State) (L n : Nat) (c : Core) : Runs s L c n (.next ((s.fetched L (s.wordOf L)).setCore L c) n) :=
  ⟨_, rfl, (CoreVariant.fetched L _ s).setCore c, State.core_setCore_same _ _ _⟩

theorem runs_fetched (s : State) (L n : Nat) : Runs s L (fetchedCore s L) n (.next (s.fetched L (s.wordOf L)) n) :=
  ⟨_, rfl, CoreVariant.fetched L _ s, rfl⟩

theorem setG_wait (c : Core) (r v : Nat) : (c.setG r v).wait = c.wait := by
  unfold Core.setG
  split
  · rfl
  · rfl

theorem setP_wait (c : Core) (i : Nat) (b : Bool) : (c.setP i b).wait = c.wait := by
  unfold Core.setP
  split
  · rfl
  · rfl

/-- The general registers of a core whose loops alone have changed. -/
theorem gval_of_retiredOn {s t : State} {L n : Nat} {c : Core} (h : RetiredOn s L c n t) (r : Nat) : (t.core L).gval r = c.gval r := by
  rw [h.core]; rfl

theorem pval_of_retiredOn {s t : State} {L n : Nat} {c : Core} (h : RetiredOn s L c n t) (i : Nat) : (t.core L).pval i = c.pval i := by
  rw [h.core]; rfl

theorem vreg_of_retiredOn {s t : State} {L n : Nat} {c : Core} (h : RetiredOn s L c n t) (r : Nat) : (t.core L).vreg r = c.vreg r := by
  rw [h.core]; rfl

/-! General registers and predicates -/

/-- A register write keeps the low 64 bits, so values equal modulo 2^64 leave the same core. -/
theorem Core.setG_congr (c : Core) (r : Nat) {v x : Nat} (h : v % 2 ^ 64 = x % 2 ^ 64) : c.setG r v = c.setG r x := by
  unfold Core.setG; rw [h]

/-- An instruction that writes general register d and changes nothing else. -/
theorem issue_writesG {i : Instr} {s : State} {L : Nat} {bad : Option Nat} {cls op : Nat} {legal : Nat → Bool} {uses : Nat → Uses}
    {eff : Nat → State → Eff} {d v : Nat} (he : exec i s = done (issue L bad cls op legal uses eff s))
    (h : Issues s L bad cls op legal uses) (hd : definedOp cls op = true) (q : Quiet s)
    (run : Runs s L ((fetchedCore s L).setG d v) 1 (eff (s.wordOf L) (s.fetched L (s.wordOf L)))) :
    ∃ t, exec i s = .next t ∧ RetiredOn s L ((fetchedCore s L).setG d v) 1 t ∧
      ∀ r, (t.core L).gval r = if r = d ∧ d ≠ 0 then v % 2 ^ 64 else (s.core L).gval r := by
  obtain ⟨t, ht, hr⟩ := issue_completes he h hd q run (by rw [setG_wait, fetchedCore_wait, Issues.wait h])
  exact ⟨t, ht, hr, fun r => by rw [gval_of_retiredOn hr, Core.gval_setG, fetchedCore_gval]⟩

theorem scalarResult {mk : CoreIx → Option Nat → Instr} {op : Nat} {f : Nat → Nat → Nat} (hd : definedOp 1 op = true)
    (he : ∀ core bad s, exec (mk core bad) s = done (scalarOp core bad op f s)) : ScalarResult mk op f := by
  intro core bad s q h
  refine issue_writesG (he core bad s) h hd q ?_
  rw [← fetchedCore_gval, ← fetchedCore_opB]
  exact runs_setCore s core.val 1 _

theorem immediateResult {mk : CoreIx → Option Nat → Instr} {op : Nat} {f g : Nat → Nat → Nat} (hd : definedOp 1 op = true)
    (he : ∀ core bad s, exec (mk core bad) s = done (issue core.val bad 1 op liLegal (fun w => { g := [wD w] })
      (fun w s => .next (s.modCore core.val fun c => c.setG (wD w) (g (c.gval (wD w)) w)) 1) s))
    (hf : ∀ a w, g a w % 2 ^ 64 = f a w % 2 ^ 64) : ImmediateResult mk op f := by
  intro core bad s q h
  refine issue_writesG (he core bad s) h hd q ?_
  rw [← fetchedCore_gval, Core.setG_congr _ _ (hf _ _).symm]
  exact runs_modCore s core.val 1 fun c => c.setG (wD (s.wordOf core.val)) (g (c.gval (wD (s.wordOf core.val))) (s.wordOf core.val))

theorem predicateResult {mk : CoreIx → Option Nat → Instr} {op : Nat} {f : Nat → Nat → Bool} (hd : definedOp 7 op = true)
    (he : ∀ core bad s, exec (mk core bad) s = done (predOp core bad op f s)) : PredicateResult mk op f := by
  intro core bad s q h
  have run := runs_setCore s core.val 1 ((fetchedCore s core.val).setP (wPd (s.wordOf core.val))
    (f ((fetchedCore s core.val).gval (wA (s.wordOf core.val))) ((fetchedCore s core.val).opB (s.wordOf core.val))))
  obtain ⟨t, ht, hr⟩ := issue_completes (he core bad s) h hd q run (by rw [setP_wait, fetchedCore_wait, Issues.wait h])
  rw [fetchedCore_gval, fetchedCore_opB] at hr
  exact ⟨t, ht, hr, fun i => by rw [pval_of_retiredOn hr, Core.pval_setP, fetchedCore_pval]⟩

/-- Settles O6: the eleven are one operation with eleven functions of their operands. -/
theorem scalarResults : Obligations.ScalarResults :=
  ⟨scalarResult rfl fun _ _ _ => rfl, scalarResult rfl fun _ _ _ => rfl, scalarResult rfl fun _ _ _ => rfl,
    scalarResult rfl fun _ _ _ => rfl, scalarResult rfl fun _ _ _ => rfl, scalarResult rfl fun _ _ _ => rfl,
    scalarResult rfl fun _ _ _ => rfl, scalarResult rfl fun _ _ _ => rfl, scalarResult rfl fun _ _ _ => rfl,
    scalarResult rfl fun _ _ _ => rfl, scalarResult rfl fun _ _ _ => rfl⟩

/-- LIH puts the immediate above the low 32 bits; of what stood above bit 63 a register keeps nothing. -/
theorem putBits_high_word (a w : Nat) : putBits a 32 32 (wImm w) % 2 ^ 64 = (a % 2 ^ 32 + 2 ^ 32 * wImm w) % 2 ^ 64 := by
  have imm : wImm w < 2 ^ 32 := bits_lt w 0 32
  rw [putBits_eq, Nat.mod_eq_of_lt imm]
  omega

/-- Settles O7. -/
theorem immediatesAndPredicates : Obligations.ImmediatesAndPredicates :=
  ⟨immediateResult (g := fun _ w => wSext w) rfl (fun _ _ _ => rfl) fun _ _ => rfl,
    immediateResult (g := fun a w => putBits a 32 32 (wImm w)) rfl (fun _ _ _ => rfl) putBits_high_word,
    predicateResult rfl fun _ _ _ => rfl,
    predicateResult rfl fun core bad s => congrArg (fun f => done (predOp core bad 1 f s)) (funext fun a => funext fun b => Bool.eq_iff_iff.mpr (by simp)),
    predicateResult rfl fun _ _ _ => rfl, predicateResult rfl fun _ _ _ => rfl, predicateResult rfl fun _ _ _ => rfl,
    predicateResult rfl fun _ _ _ => rfl⟩

end Sys2Proof.Machine
end

section
/-! The rows of the sequencer are issues of instructions; words that do not come to an effect; control flow; loads and stores (R58 to R63). -/

namespace Sys2Proof.Machine

open Sys2Proof

/-! The rows of the sequencer -/

/-- A mnemonic row is the issue of the instruction of its class and code. -/
def SeqRow.Issues (row : SeqRow) : Prop :=
  definedOp row.2.1 row.2.2.1 = true ∧ ∃ (uses : CoreIx → Nat → Uses) (eff : CoreIx → Option Nat → Nat → State → Eff),
    ∀ core bad s, exec (row.1 core bad) s = done (issue core.val bad row.2.1 row.2.2.1 row.2.2.2 (uses core) (eff core bad) s)

theorem scalarRows_issue : ∀ row ∈ scalarRows, SeqRow.Issues row := by
  unfold scalarRows
  repeat refine List.forall_mem_cons.mpr ⟨⟨rfl, _, _, fun _ _ _ => rfl⟩, ?_⟩
  exact List.forall_mem_nil _

theorem vectorRows_issue : ∀ row ∈ vectorRows, SeqRow.Issues row := by
  unfold vectorRows
  repeat refine List.forall_mem_cons.mpr ⟨⟨rfl, _, _, fun _ _ _ => rfl⟩, ?_⟩
  exact List.forall_mem_nil _

theorem syncRows_issue : ∀ row ∈ syncRows, SeqRow.Issues row := by
  unfold syncRows
  repeat refine List.forall_mem_cons.mpr ⟨⟨rfl, _, _, fun _ _ _ => rfl⟩, ?_⟩
  exact List.forall_mem_nil _

theorem condRows_issue : ∀ row ∈ condRows, SeqRow.Issues row := by
  unfold condRows
  repeat refine List.forall_mem_cons.mpr ⟨⟨rfl, _, _, fun _ _ _ => rfl⟩, ?_⟩
  exact List.forall_mem_nil _

theorem sequencerRows_issue {row : SeqRow} (h : row ∈ sequencerRows) : SeqRow.Issues row := by
  simp only [sequencerRows, List.mem_append] at h
  obtain ((h | h) | h) | h := h
  · exact scalarRows_issue row h
  · exact vectorRows_issue row h
  · exact syncRows_issue row h
  · exact condRows_issue row h

/-! Words that do not come to an effect -/

/-- A program fault answers the faulted state. -/
theorem programFault_answers {s : State} (q : Quiet s) (L : Nat) {n : Nat} (hn : n < 256) :
    ∃ t, done (s.programFault L n) = .next t ∧ Faulted s L n t := by
  have f := programFault_faulted s L n hn
  exact ⟨_, by rw [done_eq, Faulted_settle f q], f⟩

/-- What the issue of an instruction comes to at a word whose bytes cannot be had. -/
theorem issue_of_fetchFault {s : State} {L : Nat} {bad : Option Nat} (hr : s.canIssue L = true) (hf : s.fetchFault L bad = some 0x04)
    (cls op : Nat) (legal : Nat → Bool) (uses : Nat → Uses) (eff : Nat → State → Eff) :
    issue L bad cls op legal uses eff s = s.programFault L 0x04 := by
  unfold issue
  simp only [hr, hf, Bool.not_true, Bool.false_eq_true, if_false]

/-- What it comes to at a word that can be had: the checks of R63 in their order, the word's own instruction, then its fields. -/
theorem issue_of_fetch {s : State} {L : Nat} {bad : Option Nat} (hr : s.canIssue L = true) (hf : s.fetchFault L bad = none)
    (cls op : Nat) (legal : Nat → Bool) (uses : Nat → Uses) (eff : Nat → State → Eff) :
    let w := s.wordOf L
    (9 ≤ wClass w → issue L bad cls op legal uses eff s = s.programFault L 0x01) ∧
    (wClass w < 9 → definedOp (wClass w) (wOp w) = false → issue L bad cls op legal uses eff s = s.programFault L 0x02) ∧
    (wClass w < 9 → definedOp (wClass w) (wOp w) = true → (wClass w ≠ cls ∨ wOp w ≠ op) → issue L bad cls op legal uses eff s = s) ∧
    (wClass w < 9 → definedOp (wClass w) (wOp w) = true → wClass w = cls → wOp w = op → legal w = false →
      issue L bad cls op legal uses eff s = s.programFault L 0x03) := by
  unfold issue
  simp only [hr, hf, Bool.not_true, Bool.false_eq_true, if_false]
  refine ⟨fun h => if_pos h, fun h9 hd => ?_, fun h9 hd other => ?_, fun h9 hd hc ho hl => ?_⟩
  · rw [if_neg (Nat.not_le.mpr h9), hd]
    rfl
  · have other' : (wClass (s.wordOf L) != cls || wOp (s.wordOf L) != op) = true := by simpa [bne_iff_ne] using other
    rw [if_neg (Nat.not_le.mpr h9), hd, other']
    rfl
  · rw [if_neg (Nat.not_le.mpr h9), hd, hc, ho, hl]
    simp

/-- The classes with a defined code are those below 9. -/
theorem class_lt_of_definedOp {cls op : Nat} (h : definedOp cls op = true) : cls < 9 := by
  refine Nat.lt_of_not_le fun hc => ?_
  obtain ⟨k, rfl⟩ : ∃ k, cls = k + 9 := ⟨cls - 9, by omega⟩
  cases h

theorem falsePredicateSkips : FalsePredicateSkips := by
  intro row hrow core bad s q L w hr hf hc ho hl hp hh
  obtain ⟨hd, uses, eff, he⟩ := sequencerRows_issue hrow
  have waits : ((s.fetched L w).core L).wait = none := by
    have : (s.core L).wait = none := by
      simp only [State.canIssue, Bool.and_eq_true, Option.isNone_iff_eq_none] at hr
      exact hr.2
    rw [fetched_core, this]
  have goes := State.goOn_retired (CoreVariant.fetched L w s) 1 waits
  refine ⟨(s.fetched L w).goOn L 1, ?_, goes⟩
  rw [he, issue_skips hr hf hc ho hl hp hh hd (class_lt_of_definedOp hd), done_eq, OnlyCore.settle goes.rest q]

theorem illegalWordsFault : IllegalWordsFault := by
  intro row hrow core bad s q L w hr
  obtain ⟨hd, uses, eff, he⟩ := sequencerRows_issue hrow
  simp only [he]
  refine ⟨fun hf => ?_, fun hf h9 => ?_, fun hf h9 hu => ?_, fun hf hc ho hl => ?_, fun hf hu other => ?_⟩
  · rw [issue_of_fetchFault hr hf]
    exact programFault_answers q L (by decide)
  all_goals obtain ⟨reserved, undefined, apart, illegal⟩ := issue_of_fetch hr hf row.2.1 row.2.2.1 row.2.2.2 (uses core) (eff core bad)
  · rw [reserved h9]
    exact programFault_answers q L (by decide)
  · rw [undefined h9 hu]
    exact programFault_answers q L (by decide)
  · rw [illegal (hc ▸ class_lt_of_definedOp hd) (by rw [hc, ho]; exact hd) hc ho hl]
    exact programFault_answers q L (by decide)
  · rw [apart (class_lt_of_definedOp hu) hu other, done_eq, State.settle_of_quiet s q]

/-- Settles O8. -/
theorem skipsAndFaults : Obligations.SkipsAndFaults := ⟨falsePredicateSkips, illegalWordsFault⟩

end Sys2Proof.Machine
end

section
/-! Control flow, loads and stores, and the vector unit (R55, R61, R62, R89, R90). -/

namespace Sys2Proof.Machine

open Sys2Proof

/-- A statement of the form CoreResult holds when the effect runs to the core it names. -/
theorem coreResult {mk : CoreIx → Option Nat → Instr} {cls op : Nat} {legal : Nat → Bool} {uses : Nat → Uses}
    {pre : State → Nat → Option Nat → Nat → Prop} {base : State → Nat → Nat → State} {res : State → Nat → Nat → Core → Core} {n : Nat → Nat}
    {eff : CoreIx → Option Nat → Nat → State → Eff} (hd : definedOp cls op = true)
    (he : ∀ core bad s, exec (mk core bad) s = done (issue core.val bad cls op legal uses (eff core bad) s))
    (hb : ∀ s L w, Quiet s → Quiet (base s L w))
    (hw : ∀ s L w c, (res s L w c).wait = c.wait)
    (run : ∀ (core : CoreIx) bad s, pre s core.val bad (s.wordOf core.val) →
      Runs (base s core.val (s.wordOf core.val)) core.val (res s core.val (s.wordOf core.val) (fetchedCore s core.val)) (n (s.wordOf core.val))
        (eff core bad (s.wordOf core.val) (s.fetched core.val (s.wordOf core.val)))) :
    CoreResult mk cls op legal uses pre base res n := by
  intro core bad s q h w hp
  exact issue_completes (he core bad s) h hd (hb s core.val w q) (run core bad s hp) (by rw [hw, fetchedCore_wait, Issues.wait h])

/-! Control flow -/

theorem fetchedCore_loops_length (s : State) (L : Nat) : (fetchedCore s L).loops.length = (s.core L).loops.length := by
  rw [fetchedCore_eq]; exact List.length_map _

theorem fetched_pc (s : State) (L w : Nat) : (s.fetched L w).get (SEQ_PC_INDEX L) = s.get (SEQ_PC_INDEX L) :=
  State.get_congr _ _ _ (CoreVariant.fetched L w s).regs

/-- What LOOP comes to, in the order of its tests (R61). -/
theorem loopEff_cases (L w : Nat) (s : State) :
    let count := (s.core L).ctrlOperand w 16
    let len := bits w 16 16
    let first := (s.get (SEQ_PC_INDEX L) + 1) % 2 ^ 18
    (count = 0 → loopEff L w s = .next s (1 + len)) ∧ (count ≠ 0 → 4 ≤ (s.core L).loops.length → loopEff L w s = .fault 0x05) ∧
    (count ≠ 0 → (s.core L).loops.length < 4 → len = 0 → loopEff L w s = .next s 1) ∧
    (count ≠ 0 → (s.core L).loops.length < 4 → len ≠ 0 → loopEff L w s =
      .jump (s.modCore L fun c => { c with loops := { start := first, stop := (first + len) % 2 ^ 18, left := count } :: c.loops }) first) := by
  refine ⟨fun hc => if_pos hc, fun hc h4 => ?_, fun hc h4 hl => ?_, fun hc h4 hl => ?_⟩
  all_goals refine (if_neg hc).trans ?_
  · exact if_pos h4
  · exact (if_neg (Nat.not_le.mpr h4)).trans (if_pos hl)
  · exact (if_neg (Nat.not_le.mpr h4)).trans (if_neg hl)

/-- A jump leaves the loops as they are. -/
theorem jmp_retires {core : CoreIx} {bad : Option Nat} {s : State} (q : Quiet s)
    (h : Issues s core.val bad 0 2 jmpLegal fun w => { g := if wSel w then [wA w] else [] }) :
    ∃ t, exec (.jmp core bad) s = .next t ∧
      Retired s core.val (fetchedCore s core.val) ((fetchedCore s core.val).ctrlOperand (s.wordOf core.val) 32) t :=
  issue_jumps rfl h rfl q rfl (CoreVariant.fetched core.val _ s) (by rw [← fetchedCore, fetchedCore_wait, Issues.wait h])

theorem loop_issues {core : CoreIx} {bad : Option Nat} {s : State} (q : Quiet s)
    (h : Issues s core.val bad 0 3 loopLegal fun w => { g := if wSel w then [wA w] else [] }) :
    let L := core.val
    let w := s.wordOf L
    let c := fetchedCore s L
    let count := c.ctrlOperand w 16
    let len := bits w 16 16
    let first := (s.get (SEQ_PC_INDEX L) + 1) % 2 ^ 18
    (count = 0 → ∃ t, exec (.loop core bad) s = .next t ∧ RetiredOn s L c (1 + len) t) ∧
    (count ≠ 0 → 4 ≤ (s.core L).loops.length → ∃ t, exec (.loop core bad) s = .next t ∧ Faulted (s.fetched L w) L 0x05 t) ∧
    (count ≠ 0 → (s.core L).loops.length < 4 → len = 0 → ∃ t, exec (.loop core bad) s = .next t ∧ RetiredOn s L c 1 t) ∧
    (count ≠ 0 → (s.core L).loops.length < 4 → len ≠ 0 → ∃ t, exec (.loop core bad) s = .next t ∧
      Retired s L { c with loops := { start := first, stop := (first + len) % 2 ^ 18, left := count } :: c.loops } first t) := by
  intro L w c count len first
  obtain ⟨skips, faults, empty, pushes⟩ := loopEff_cases L w (s.fetched L w)
  have waits : c.wait = none := by rw [fetchedCore_wait, Issues.wait h]
  rw [fetched_pc] at pushes
  rw [← fetchedCore_loops_length]
  refine ⟨fun hc => ?_, fun hc h4 => ?_, fun hc h4 hl => ?_, fun hc h4 hl => ?_⟩
  · exact issue_completes rfl h rfl q (skips hc ▸ runs_fetched s L (1 + len)) waits
  · exact issue_faults rfl h rfl q (by decide) (faults hc h4)
  · exact issue_completes rfl h rfl q (empty hc h4 hl ▸ runs_fetched s L 1) waits
  · obtain ⟨t, ht, hr⟩ := issue_jumps (i := .loop core bad) rfl h rfl q (pushes hc h4 hl) ((CoreVariant.fetched L w s).modCore _) (by
      rw [State.core_modCore_same]; exact waits)
    rw [State.core_modCore_same] at hr
    exact ⟨t, ht, hr⟩

/-- Past the fetch the innermost loop has the bounds it had. -/
theorem bufferWord_cons (l : Loop) (ls : List Loop) (pc w : Nat) :
    ∃ l' ls', bufferWord (l :: ls) pc w = l' :: ls' ∧ l'.start = l.start ∧ l'.stop = l.stop := by
  refine ⟨_, _, rfl, ?_, ?_⟩
  all_goals dsimp only; split
  all_goals rfl

/-- SKIP goes on when the words it skips lie in the body of the innermost loop, if it stands in one (R90). -/
theorem skipEff_next {s : State} {L w : Nat} (h : ∀ l ∈ (s.core L).loops.head?, s.get (SEQ_PC_INDEX L) < l.stop →
    l.start ≤ s.get (SEQ_PC_INDEX L) → s.get (SEQ_PC_INDEX L) + 1 + bits w 0 8 ≤ l.stop) :
    skipEff L w (s.fetched L (s.wordOf L)) = .next (s.fetched L (s.wordOf L)) (1 + bits w 0 8) := by
  unfold skipEff
  rw [fetched_core, fetched_pc]
  dsimp only
  cases hl : (s.core L).loops with
  | nil => rfl
  | cons l ls =>
    obtain ⟨l', ls', hb, hstart, hstop⟩ := bufferWord_cons l ls (s.get (SEQ_PC_INDEX L)) (s.wordOf L)
    have inside := h l (by rw [hl]; rfl)
    rw [hb]
    dsimp only
    rw [hstart, hstop, if_neg]
    rintro ⟨hs, hp, out⟩
    exact absurd (inside hp hs) (Nat.not_le.mpr out)

/-- HALT holds issue for the engines to empty (R61, R74). -/
theorem halt_holds {core : CoreIx} {bad : Option Nat} {s : State} (q : Quiet s)
    (h : Issues s core.val bad 0 1 (fun w => onlyFields w []) fun _ => {}) :
    ∃ t, exec (.halt core bad) s = .next t ∧ HeldOn s core.val { fetchedCore s core.val with wait := some .halt } 1 5 t := by
  let halted : State := (s.fetched core.val (s.wordOf core.val)).modCore core.val fun c => { c with wait := some .halt }
  have hc : halted.core core.val = { fetchedCore s core.val with wait := some .halt } := State.core_modCore_same _ _ _
  rw [← hc]
  exact issue_holds rfl h rfl q rfl ((CoreVariant.fetched core.val _ s).modCore _) (by rw [hc]; rfl)

/-- Settles O9. -/
theorem controlFlow : Obligations.ControlFlow := by
  refine ⟨?nop, fun core bad s q h => ?jmp, fun core bad s q h => ?loop, ?skip, fun core bad s q h => ?halt⟩
  case nop => exact coreResult rfl (fun _ _ _ => rfl) (fun _ _ _ q => q) (fun _ _ _ _ => rfl) fun core _ s _ => runs_fetched s core.val 1
  case jmp =>
    obtain ⟨t, ht, hr⟩ := jmp_retires q h
    rw [Core.ctrlOperand, fetchedCore_gval] at hr
    exact ⟨t, ht, hr⟩
  case loop => exact loop_issues q h
  case skip =>
    exact coreResult rfl (fun _ _ _ => rfl) (fun _ _ _ q => q) (fun _ _ _ _ => rfl) fun core _ s inside => by
      rw [skipEff_next inside]
      exact runs_fetched s core.val _
  case halt => exact halt_holds q h

/-! Accesses of SRAM, operations of the engines -/

theorem accessFault_none {s : State} {L : Nat} {bad : Option Nat} {a n align : Nat} (h : AccessOk s L bad a n align) :
    s.accessFault L bad a n align = none := by
  obtain ⟨aligned, inside, good⟩ := h
  unfold State.accessFault
  rw [if_neg (not_not_intro aligned), if_neg (Nat.not_lt.mpr inside)]
  cases bad with
  | none => rfl
  | some b => exact if_neg (good b rfl)

/-- The core a step with an operation of an engine leaves. -/
def Core.withOp (c : Core) (o : EngOp) : Core := { c with ops := c.ops ++ [o] }

theorem Runs.startOp {s u : State} {L : Nat} {c : Core} (hv : CoreVariant L s u) (hc : u.core L = c) (o : EngOp) (n : Nat) :
    Runs s L (c.withOp o) n (.next (u.startOp L o) n) := by
  subst hc
  exact ⟨_, rfl, hv.modCore _, State.core_modCore_same _ _ _⟩

/-- An operation that starts after flags have been raised. -/
theorem Runs.raise_startOp {s u : State} {L : Nat} {c : Core} (hv : CoreVariant L s u) (hc : u.core L = c) (f : Flags) (e o k : Nat) (x : EngOp)
    (n : Nat) : Runs (s.raise L f e o k) L (c.withOp x) n (.next ((u.raise L f e o k).startOp L x) n) :=
  Runs.startOp (CoreVariant.lift (f := fun s => s.raise L f e o k) (raise_cores L f e o k) hv)
    ((core_lift (f := fun s => s.raise L f e o k) (raise_cores L f e o k) u L).trans hc) x n

theorem fetchedCore_ldstAddr (s : State) (L w : Nat) : (fetchedCore s L).ldstAddr w = (s.core L).ldstAddr w := by
  rw [fetchedCore_eq]; rfl

/-! Loads and stores -/

theorem loadEff_runs {s : State} {L : Nat} {bad : Option Nat} {n align : Nat} (h : LdstOk s L bad (s.wordOf L) n align) (e : Engine)
    (put : List Byte → Core → Core) (op : EngOp) :
    Runs s L ((put (s.engRead L e ((fetchedCore s L).ldstAddr (s.wordOf L)) n) (fetchedCore s L)).withOp op) 1
      (loadEff L bad e n align (s.wordOf L) put op (s.fetched L (s.wordOf L))) := by
  have ok : s.accessFault L bad ((fetchedCore s L).ldstAddr (s.wordOf L)) n align = none := by
    rw [fetchedCore_ldstAddr]; exact accessFault_none h
  unfold loadEff
  dsimp only
  rw [← fetchedCore, fetched_accessFault, ok, fetched_engRead]
  exact Runs.startOp ((CoreVariant.fetched L _ s).modCore _) (State.core_modCore_same _ _ _) op 1

theorem storeEff_runs {s : State} {L align : Nat} (e : Engine) (bytes : Core → List Byte)
    (h : LdstOk s L none (s.wordOf L) (bytes (fetchedCore s L)).length align) :
    Runs s L ((fetchedCore s L).withOp { eng := e, stores := [((fetchedCore s L).ldstAddr (s.wordOf L), bytes (fetchedCore s L))] }) 1
      (storeEff L e align (s.wordOf L) bytes (s.fetched L (s.wordOf L))) := by
  have ok : s.accessFault L none ((fetchedCore s L).ldstAddr (s.wordOf L)) (bytes (fetchedCore s L)).length align = none := by
    rw [fetchedCore_ldstAddr]; exact accessFault_none h
  unfold storeEff State.storeFault
  dsimp only
  rw [← fetchedCore, fetched_accessFault, ok]
  exact Runs.startOp (CoreVariant.fetched L _ s) rfl _ 1

theorem setV_wait (c : Core) (r : Nat) (x : List Nat) : (c.setV r x).wait = c.wait := rfl

theorem setG_ops (c : Core) (r v : Nat) : (c.setG r v).ops = c.ops := by
  unfold Core.setG
  split
  · rfl
  · rfl

theorem leBytes_length (n v : Nat) : (leBytes n v).length = n := by
  induction n generalizing v with
  | zero => rfl
  | succ n ih => exact congrArg (· + 1) (ih _)

/-- Settles O10. -/
theorem loadsAndStores : Obligations.LoadsAndStores := by
  refine ⟨?ldg, ?stg, ?vld, ?vst⟩
  case ldg =>
    refine coreResult rfl (fun _ _ _ => rfl) (fun _ _ _ q => q) (fun _ _ _ c => setG_wait c _ _) fun core bad s ok => ?_
    have run := loadEff_runs ok .scalar (fun bs c => c.setG (wD (s.wordOf core.val)) (leNat bs))
      { eng := .scalar, gs := if wD (s.wordOf core.val) = 0 then [] else [wD (s.wordOf core.val)] }
    rw [Core.withOp, setG_ops] at run
    exact run
  case stg =>
    exact coreResult rfl (fun _ _ _ => rfl) (fun _ _ _ q => q) (fun _ _ _ _ => rfl) fun core _ s ok =>
      storeEff_runs .scalar (fun c => leBytes 8 (c.gval (wD (s.wordOf core.val)))) (by rw [leBytes_length]; exact ok)
  case vld =>
    exact coreResult rfl (fun _ _ _ => rfl) (fun _ _ _ q => q) (fun _ _ _ _ => rfl) fun core _ s ok =>
      loadEff_runs ok .vxu (fun bs c => c.setV (wD (s.wordOf core.val)) (lanesOf bs)) { eng := .vxu, vs := [wD (s.wordOf core.val)] }
  case vst =>
    exact coreResult rfl (fun _ _ _ => rfl) (fun _ _ _ q => q) (fun _ _ _ _ => rfl) fun core _ s ok =>
      storeEff_runs .vxu (fun c => c.vbytes (wD (s.wordOf core.val))) (by rw [fetchedCore_eq]; exact ok)

end Sys2Proof.Machine
end

section
/-! The vector unit (R55, R56, R61, R122, R135). -/

namespace Sys2Proof.Machine

open Sys2Proof

/-- The lanes of a result go into a vector register and their flags to CORE_EXC. -/
theorem vWrite_runs (s : State) (L : Nat) (rs : List (Nat × Flags)) :
    Runs (s.raise L (Flags.union (rs.map (·.2))) 1 (s.wordAt L) (invalidCount (rs.map (·.2)))) L
      (((fetchedCore s L).setV (wD (s.wordOf L)) (rs.map (·.1))).withOp { eng := .vxu, vs := [wD (s.wordOf L)] }) 1
      (vWrite L (s.wordOf L) rs (s.fetched L (s.wordOf L))) :=
  Runs.raise_startOp ((CoreVariant.fetched L _ s).modCore fun c => c.setV (wD (s.wordOf L)) (rs.map (·.1)))
    (State.core_modCore_same _ _ _) _ 1 (s.wordAt L) _ _ 1

theorem vreg_setV (c : Core) (d : Nat) (x : List Nat) (r : Nat) : (c.setV d x).vreg r = if r = d then x else c.vreg r := by
  unfold Core.vreg Core.setV
  split
  case isTrue same => rw [same, Tbl.read_write_same]
  case isFalse other => rw [Tbl.read_write_ne _ _ _ _ _ _ other]

/-- An instruction of the vector unit whose lanes are a function of its word and of the registers of its core. -/
theorem vectorResult {mk : CoreIx → Option Nat → Instr} {op : Nat} {legal : Nat → Bool} {uses : Nat → Uses}
    {lanes : Nat → Core → List (Nat × Flags)} (hd : definedOp 4 op = true) (hl : ∀ w c ls, lanes w { c with loops := ls } = lanes w c)
    (he : ∀ core bad s, exec (mk core bad) s =
      done (issue core.val bad 4 op legal uses (fun w s => vWrite core.val w (lanes w (s.core core.val)) s) s)) :
    VectorResult mk op legal uses lanes := by
  intro core bad s q h L w c rs fs
  have same : lanes w ((s.fetched L w).core L) = rs := by rw [← fetchedCore, fetchedCore_eq]; exact hl w c _
  have run := vWrite_runs s L rs
  rw [← same] at run
  obtain ⟨t, ht, hr⟩ := issue_completes (he core bad s) h hd (raise_quiet q L _ _ _ _) run ((fetchedCore_wait s L).trans (Issues.wait h))
  rw [same] at hr
  rw [Core.withOp, show ((fetchedCore s L).setV (wD (s.wordOf L)) (rs.map (·.1))).ops = c.ops from fetchedCore_ops s L] at hr
  exact ⟨t, ht, hr, fun r => by rw [vreg_of_retiredOn hr, ← fetchedCore_vreg]; exact vreg_setV (fetchedCore s L) (wD w) _ r⟩

/-- Settles O11: nine functions of lanes, each the model's own. -/
theorem vectorArithmetic : Obligations.VectorArithmetic :=
  ⟨vectorResult rfl (fun _ _ _ => rfl) fun _ _ _ => rfl, vectorResult rfl (fun _ _ _ => rfl) fun _ _ _ => rfl,
    vectorResult rfl (fun _ _ _ => rfl) fun _ _ _ => rfl, vectorResult rfl (fun _ _ _ => rfl) fun _ _ _ => rfl,
    vectorResult rfl (fun _ _ _ => rfl) fun _ _ _ => rfl, vectorResult rfl (fun _ _ _ => rfl) fun _ _ _ => rfl,
    vectorResult rfl (fun _ _ _ => rfl) fun _ _ _ => rfl, vectorResult rfl (fun _ _ _ => rfl) fun _ _ _ => rfl,
    vectorResult rfl (fun _ _ _ => rfl) fun _ _ _ => rfl⟩

/-! Moves and conversion -/

/-- The mask of VSEL as the statement puts it (log entry 36). -/
theorem selectsA_iff (z : Nat) : selectsA z = true ↔ z = 2 ^ 32 - 1 ∨ (z ≠ 0 ∧ Config.selOther (BitVec.ofNat 32 z) = true) := by
  simp [selectsA]

theorem exec_vsel (core : CoreIx) (bad : Option Nat) (s : State) :
    exec (.vsel core bad) s = done (issue core.val bad 4 7 (v3Legal false) (fun w => { v := [wD w, wA w, wB w, wC w] })
      (fun w s => vWrite core.val w ((((s.core core.val).vreg (wA w)).zip ((s.core core.val).vreg (wB w))).zipWith
        (fun p z => ((if z = 2 ^ 32 - 1 ∨ (z ≠ 0 ∧ Config.selOther (BitVec.ofNat 32 z) = true) then p.1 else p.2), ({} : Flags)))
        ((s.core core.val).vreg (wC w))) s) s) := by
  have select : (fun (p : Nat × Nat) (z : Nat) => ((if selectsA z then p.1 else p.2), ({} : Flags))) =
      fun p z => ((if z = 2 ^ 32 - 1 ∨ (z ≠ 0 ∧ Config.selOther (BitVec.ofNat 32 z) = true) then p.1 else p.2), ({} : Flags)) :=
    funext fun p => funext fun z => by simp only [selectsA_iff]
  rw [← select]
  rfl

/-- VMOVG in either direction (R55). -/
theorem vmovg_runs (s : State) (L : Nat) :
    let w := s.wordOf L
    let c := fetchedCore s L
    Runs s L (if Config.movgToG (wC w) then
        { c.setG (wD w) ((c.vreg (wA w)).getD (moveLane w) 0 % 2 ^ 32 + 2 ^ 32 * (Config.movgHigh (BitVec.ofNat 64 (c.gval (wD w)))
            (BitVec.ofNat 32 ((c.vreg (wA w)).getD (moveLane w) 0))).toNat) with
          ops := c.ops ++ [{ eng := .vxu, gs := if wD w = 0 then [] else [wD w] }] }
      else
        { c.setV (wD w) ((c.vreg (wD w)).set (moveLane w) (c.gval (wA w) % 2 ^ 32)) with
          ops := c.ops ++ [{ eng := .vxu, vs := [wD w] }] }) 1 (vmovgEff L w (s.fetched L w)) := by
  intro w c
  unfold vmovgEff
  split
  · rw [← setG_ops c (wD w)]
    exact Runs.startOp ((CoreVariant.fetched L w s).setCore _) (State.core_setCore_same _ _ _) _ 1
  · exact Runs.startOp ((CoreVariant.fetched L w s).setCore _) (State.core_setCore_same _ _ _) _ 1

/-- VCVT: the elements of register a, each with its draw, converted and packed into register d (R122). -/
theorem vcvt_runs (s : State) (L : Nat) :
    let w := s.wordOf L
    let c := s.core L
    let src := (actVals (bits w 28 4) 64 (c.vbytes (wA w))).zipIdx
    let r := convertVals (vFmt w) (vRound w) (vOvf w)
      (src.map fun (v, i) => (v, if vRound w = 2 then s.elemDraw L (c.gval (wB w)) 64 i else 0))
    Runs (s.raise L (Flags.union r.2) 1 (s.wordAt L) (invalidCount r.2)) L
      { (fetchedCore s L).setV (wD w) (lanesOf (slice r.1 0 256)) with ops := c.ops ++ [{ eng := .vxu, vs := [wD w] }] } 1 (vcvtEff L w (s.fetched L w)) := by
  intro w c src r
  have hr : convertVals (vFmt w) (vRound w) (vOvf w) ((actVals (bits w 28 4) 64 ((fetchedCore s L).vbytes (wA w))).zipIdx.map fun (v, i) =>
      (v, if vRound w = 2 then (s.fetched L w).elemDraw L ((fetchedCore s L).gval (wB w)) 64 i else 0)) = r := by
    simp only [fetched_elemDraw, fetchedCore_gval]
    rw [fetchedCore_eq]
    rfl
  unfold vcvtEff
  dsimp only
  rw [← fetchedCore, hr, ← fetchedCore_ops s L]
  exact Runs.raise_startOp ((CoreVariant.fetched L w s).setCore _) (State.core_setCore_same _ _ _) _ _ _ _ _ _

/-- Settles O12. -/
theorem vectorMoves : Obligations.VectorMoves := by
  refine ⟨?vcmp, ?vsel, ?vred, ?vbcast, ?vmovv, ?vmovg, fun core bad s q h => ?vcvt⟩
  case vcmp => exact vectorResult rfl (fun _ _ _ => rfl) fun _ _ _ => rfl
  case vsel => exact vectorResult rfl (fun _ _ _ => rfl) exec_vsel
  case vred => exact vectorResult rfl (fun _ _ _ => rfl) fun _ _ _ => rfl
  case vbcast => exact vectorResult rfl (fun _ _ _ => rfl) fun _ _ _ => rfl
  case vmovv => exact vectorResult rfl (fun _ _ _ => rfl) fun _ _ _ => rfl
  case vmovg =>
    refine coreResult rfl (fun _ _ _ => rfl) (fun _ _ _ q => q) (fun s L w c => ?_) fun core _ s _ => vmovg_runs s core.val
    split
    · exact setG_wait c _ _
    · rfl
  case vcvt =>
    exact issue_completes rfl h rfl (raise_quiet q _ _ _ _ _) (vcvt_runs s core.val) ((fetchedCore_wait s core.val).trans (Issues.wait h))

end Sys2Proof.Machine
end

section
/-! The matrix engine: tiles, MMA and MMAZ, DRAIN (R50 to R54, R85 to R87, R89, R116). -/

namespace Sys2Proof.Machine

open Sys2Proof

/-! Loading a tile -/

theorem loadTile_runs {s : State} {L : Nat} {bad : Option Nat} {fmt row mode a align : Nat} (hs : (s.core L).wShadow = none)
    (ok : s.accessFault L bad a (tileBytes fmt row mode) align = none)
    (asc : mode = 0 ∨ indicesAscend fmt row mode (s.engRead L .mxe a (tileBytes fmt row mode)) = true) :
    Runs s L (Core.withOp { fetchedCore s L with
        wShadow := some { fmt := fmt, mode := mode, addr := a, bytes := s.engRead L .mxe a (tileBytes fmt row mode) } } { eng := .mxe }) 1
      (loadTile L bad fmt row mode a align (s.fetched L (s.wordOf L))) := by
  have empty : (fetchedCore s L).wShadow = none := by rw [fetchedCore_eq]; exact hs
  have good : ¬(mode ≠ 0 ∧ (!indicesAscend fmt row mode (s.engRead L .mxe a (tileBytes fmt row mode))) = true) := by
    rcases asc with rfl | asc
    · exact fun h => h.1 rfl
    · rw [asc]
      exact fun h => Bool.false_ne_true h.2
  unfold loadTile
  dsimp only
  rw [← fetchedCore, empty, fetched_accessFault, ok, fetched_engRead, if_neg (by decide)]
  dsimp only
  rw [if_neg good]
  exact Runs.startOp ((CoreVariant.fetched L _ s).modCore fun c => { c with
    wShadow := some { fmt := fmt, mode := mode, addr := a, bytes := s.engRead L .mxe a (tileBytes fmt row mode) } })
    (State.core_modCore_same _ _ _) _ 1

/-! MMA and MMAZ -/

/-- The tile that a core's MMA runs on becomes active and leaves the shadow buffer empty; the rest of the core stays. -/
theorem takeTile_some {c k : Core} {t : WTile} (h : c.takeTile = (some t, k)) :
    k.wShadow = none ∧ k.wActive = some t ∧ k.wait = c.wait ∧ (∀ i, k.tile i = c.tile i) := by
  unfold Core.takeTile at h
  cases hs : c.wShadow with
  | none =>
    rw [hs] at h
    obtain ⟨active, rfl⟩ := Prod.mk.inj h
    exact ⟨hs, active, rfl, fun _ => rfl⟩
  | some x =>
    rw [hs] at h
    obtain ⟨active, rfl⟩ := Prod.mk.inj h
    exact ⟨rfl, active, rfl, fun _ => rfl⟩

/-- The core that an MMA leaves: its tile holds the outcome, marked by whether it holds integers. -/
def Core.mmaDone (c : Core) (x : MmaArgs) (r : MmaRes) : Core :=
  { c.setTile x.tile r.tile with accInt := putBits c.accInt x.tile 1 (b2n (mulKind ((mxeRow x.fmtA).getD 0) x.fmtA x.fmtW == .ints)) }

/-- The blocks of a row and the bytes of one, on a tile. -/
def mmaBlocks (x : MmaArgs) (t : WTile) : Nat := max 1 (tileK ((mxeRow x.fmtA).getD 0) t.mode / 32)

def mmaRowBytes (x : MmaArgs) (t : WTile) : Nat := actBytes x.fmtA (tileK ((mxeRow x.fmtA).getD 0) t.mode)

/-- The activation rows that an MMA reads on a tile. -/
def State.mmaRows (s : State) (L : Nat) (x : MmaArgs) (t : WTile) : List ActRow :=
  s.actRows L x (mmaRowBytes x t) (mmaBlocks x t) (x.bitmap.map fun a => s.engRead L .mxe a ((x.rows * mmaBlocks x t + 7) / 8))

/-- The checks of an MMA: of the bitmap's bytes, of the range of every row, of the bytes of every row it reads. -/
def State.mmaFaults (s : State) (L : Nat) (bad : Option Nat) (x : MmaArgs) (t : WTile) : List (Option Eff) :=
  [match x.bitmap with
    | some a => s.accessFault L bad a ((x.rows * mmaBlocks x t + 7) / 8) 8
    | none => none,
   (s.mmaRows L x t).findSome? fun r => s.accessFault L none r.addr (mmaRowBytes x t) 1,
   ((s.mmaRows L x t).filter (!·.skip)).findSome? fun r => s.accessFault L bad r.addr (mmaRowBytes x t) 1]

/-- An MMA that has a tile that suits it. -/
theorem mmaEff_eq {s : State} {L : Nat} (bad : Option Nat) {x : MmaArgs} {t : WTile} {k : Core} (ht : (s.core L).takeTile = (some t, k))
    (fits : mmaFits x t = true) :
    let r := mmaOutcome s L x t
    mmaEff L bad x s = orElse (s.mmaFaults L bad x t)
      (.next (((s.setCore L (k.mmaDone x r)).raise L r.flags 0 (r.first.getD 0) r.invalids).startOp L { eng := .mxe, accs := [x.tile] }) 1) := by
  obtain ⟨-, -, -, tiles⟩ := takeTile_some ht
  unfold mmaEff mmaOutcome
  rw [ht, ← tiles]
  simp only [fits, Bool.not_true, Bool.false_eq_true, if_false]
  rfl

/-- The activation rows stand at the addresses that MmaReady speaks of. -/
theorem actRows_addr {s : State} {L : Nat} {x : MmaArgs} {n b : Nat} {bm : Option (List Byte)} {r : ActRow} (h : r ∈ s.actRows L x n b bm) :
    ∃ i < x.rows, r.addr = x.rowAddr i := by
  obtain ⟨i, hi, rfl⟩ := List.mem_map.mp h
  exact ⟨i, List.mem_range.mp hi, rfl⟩

theorem orElse_of_none {cs : List (Option Eff)} (e : Eff) (h : ∀ c ∈ cs, c = none) : orElse cs e = e := by
  induction cs with
  | nil => rfl
  | cons c cs ih =>
    obtain ⟨rfl, rest⟩ := List.forall_mem_cons.mp h
    exact ih rest

theorem mmaFaults_none {s : State} {L : Nat} {bad : Option Nat} {x : MmaArgs} {t : WTile} (ready : MmaReady s L bad x t) :
    ∀ c ∈ s.mmaFaults L bad x t, c = none := by
  obtain ⟨-, map, rows, inside⟩ := ready
  simp only [State.mmaFaults, List.forall_mem_cons]
  refine ⟨?bitmap, ?range, ?bytes, List.forall_mem_nil _⟩
  case bitmap =>
    cases hb : x.bitmap with
    | none => rfl
    | some a => exact map a hb
  case range =>
    refine List.findSome?_eq_none_iff.mpr fun r hr => ?_
    obtain ⟨i, hi, addr⟩ := actRows_addr hr
    rw [addr]
    exact inside i hi
  case bytes =>
    refine List.findSome?_eq_none_iff.mpr fun r hr => ?_
    obtain ⟨i, hi, addr⟩ := actRows_addr (List.mem_filter.mp hr).1
    rw [addr]
    exact rows i hi

theorem fetched_actRows (s : State) (L w : Nat) (x : MmaArgs) (n b : Nat) (bm : Option (List Byte)) :
    (s.fetched L w).actRows L x n b bm = s.actRows L x n b bm := by
  unfold State.actRows
  simp only [fetched_engRead]

theorem fetched_mmaOutcome (s : State) (L w : Nat) (x : MmaArgs) (t : WTile) : mmaOutcome (s.fetched L w) L x t = mmaOutcome s L x t := by
  unfold mmaOutcome
  simp only [fetched_actRows, fetched_engRead, fetched_core]
  rfl

theorem MmaReady_fetched {s : State} {L : Nat} {bad : Option Nat} {x : MmaArgs} {t : WTile} (w : Nat) (ready : MmaReady s L bad x t) :
    MmaReady (s.fetched L w) L bad x t := by
  obtain ⟨fits, map, rows, inside⟩ := ready
  constructor
  · exact fits
  all_goals simp only [fetched_accessFault]
  · exact map
  · exact rows
  · exact inside

theorem mmaEff_runs {s : State} {L : Nat} {bad : Option Nat} {x : MmaArgs} {t : WTile} {k : Core}
    (ht : (fetchedCore s L).takeTile = (some t, k)) (ready : MmaReady s L bad x t) :
    let r := mmaOutcome s L x t
    Runs (s.raise L r.flags 0 (r.first.getD 0) r.invalids) L ((k.mmaDone x r).withOp { eng := .mxe, accs := [x.tile] }) 1
      (mmaEff L bad x (s.fetched L (s.wordOf L))) := by
  intro r
  rw [mmaEff_eq bad ht ready.fits, orElse_of_none _ (mmaFaults_none (MmaReady_fetched _ ready)), fetched_mmaOutcome]
  exact Runs.raise_startOp ((CoreVariant.fetched L _ s).setCore _) (State.core_setCore_same _ _ _) _ _ _ _ _ _

theorem tile_setTile_same (c : Core) (i : Nat) (x : List Nat) : (c.setTile i x).tile i = x := by
  unfold Core.tile Core.setTile
  rw [Tbl.read_write_same]

theorem mmaResult {mk : CoreIx → Option Nat → Instr} {cls op : Nat} {legal : Nat → Bool} {uses : Nat → Uses} {args : Core → Nat → MmaArgs}
    (hd : definedOp cls op = true) (hargs : ∀ c ls w, args { c with loops := ls } w = args c w)
    (he : ∀ core bad s, exec (mk core bad) s =
      done (issue core.val bad cls op legal uses (fun w s => mmaEff core.val bad (args (s.core core.val) w) s) s)) :
    MmaResult mk cls op legal uses args := by
  intro core bad s tile k q h L w x ht ready r
  obtain ⟨shadow, active, wait, -⟩ := takeTile_some ht
  have same : args ((s.fetched L w).core L) w = x := by rw [← fetchedCore, fetchedCore_eq]; exact hargs _ _ _
  have run := mmaEff_runs ht ready
  rw [← same] at run
  obtain ⟨t, next, hr⟩ := issue_completes (he core bad s) h hd (raise_quiet q L _ _ _ _) run
    (wait.trans ((fetchedCore_wait s L).trans (Issues.wait h)))
  rw [same] at hr
  refine ⟨t, next, hr, ?_, ?_, ?_⟩
  all_goals rw [hr.core]
  · exact tile_setTile_same k x.tile r.tile
  · exact shadow
  · exact active

/-! DRAIN -/

/-- The source offset of a NaN that DRAIN converts to an integer, a free value drawn when there is one. -/
def State.nanOffset (b : Bool) (s : State) : Nat × State := if b then s.draw else (0, s)

theorem nanOffset_cores (b : Bool) (s : State) (k : Tbl Core) :
    (State.nanOffset b { s with cores := k }).2 = { (State.nanOffset b s).2 with cores := k } := by
  cases b
  · rfl
  · rfl

theorem nanOffset_fst (b : Bool) {s u : State} (h : u.free = s.free) : (State.nanOffset b u).1 = (State.nanOffset b s).1 := by
  cases b
  · rfl
  · exact congrArg (fun n => (Config.freeWord n).toNat) h

theorem nanOffset_quiet (b : Bool) {s : State} (q : Quiet s) : Quiet (State.nanOffset b s).2 := by
  cases b
  · exact q
  · exact q

theorem CoreVariant.free {L : Nat} {s u : State} (h : CoreVariant L s u) : u.free = s.free := by
  obtain ⟨k, rfl⟩ := h.same
  rfl

/-- The bytes and the flags of DRAIN. -/
def drainOutcome (s : State) (L w : Nat) : List Byte × List Flags :=
  drainRun (bit (s.core L).accInt (wTile w)) (bits w 25 4) (bits w 23 2) (bits w 13 7 + 1) (bit w 22) ((s.core L).tile (wTile w))
    (s.elemDraw L ((s.core L).gval (wB w)) 4096)

/-- What DRAIN leaves once its rows are inside the grant. -/
theorem drainEff_eq {s : State} {L w : Nat} (inside : (s.core L).gval (wA w) + (bits w 13 7 + 1) * drainRow (bits w 25 4) ≤ s.grant L) :
    let r := drainOutcome s L w
    let f := Flags.union r.2
    let d := State.nanOffset f.inv (s.setCore L ((s.core L).clearTile (wTile w)))
    drainEff L w s = .next ((d.2.raise L f 0 d.1 (invalidCount r.2)).startOp L
      { eng := .mxe, accs := [wTile w], stores := [((s.core L).gval (wA w), r.1)] }) 1 := by
  have ok : s.storeFault L ((s.core L).gval (wA w)) ((bits w 13 7 + 1) * drainRow (bits w 25 4)) 1 = none :=
    accessFault_none ⟨Nat.mod_one _, inside, fun _ h => nomatch h⟩
  unfold drainEff drainOutcome
  dsimp only
  rw [ok]
  rfl

theorem fetched_drainOutcome (s : State) (L w : Nat) : drainOutcome (s.fetched L w) L w = drainOutcome s L w := by
  unfold drainOutcome
  rw [funext (fetched_elemDraw s L w _ 4096), fetched_core]
  rfl

theorem drainEff_runs {s : State} {L : Nat}
    (inside : (s.core L).gval (wA (s.wordOf L)) + (bits (s.wordOf L) 13 7 + 1) * drainRow (bits (s.wordOf L) 25 4) ≤ s.grant L) :
    let w := s.wordOf L
    let r := drainOutcome s L w
    let f := Flags.union r.2
    let d := State.nanOffset f.inv s
    Runs (d.2.raise L f 0 d.1 (invalidCount r.2)) L
      (((fetchedCore s L).clearTile (wTile w)).withOp { eng := .mxe, accs := [wTile w], stores := [((s.core L).gval (wA w), r.1)] }) 1
      (drainEff L w (s.fetched L w)) := by
  intro w r f d
  have variant : CoreVariant L s ((s.fetched L w).setCore L ((fetchedCore s L).clearTile (wTile w))) := (CoreVariant.fetched L w s).setCore _
  rw [drainEff_eq (by rw [← fetchedCore, fetchedCore_gval, fetched_grant]; exact inside), fetched_drainOutcome, ← fetchedCore, fetchedCore_gval,
    nanOffset_fst f.inv variant.free]
  exact Runs.raise_startOp (CoreVariant.lift (f := fun s => (State.nanOffset f.inv s).2) (nanOffset_cores f.inv) variant)
    ((core_lift (f := fun s => (State.nanOffset f.inv s).2) (nanOffset_cores f.inv) _ L).trans (State.core_setCore_same _ _ _)) _ _ _ _ _ _

theorem nanOffset_ite (b : Bool) (s : State) : (State.nanOffset b s).2 = (if b then s.draw.2 else s) ∧
    (State.nanOffset b s).1 = if b then s.draw.1 else 0 := by
  cases b
  · exact ⟨rfl, rfl⟩
  · exact ⟨rfl, rfl⟩

theorem tile_of_retiredOn {s t : State} {L n : Nat} {c : Core} (h : RetiredOn s L c n t) (i : Nat) : (t.core L).tile i = c.tile i := by
  rw [h.core]; rfl

theorem withOp_wait (c : Core) (o : EngOp) : (c.withOp o).wait = c.wait := rfl

theorem tile_withOp (c : Core) (o : EngOp) (i : Nat) : (c.withOp o).tile i = c.tile i := rfl

theorem nextFmt_loops (c : Core) (ls : List Loop) : Core.nextFmt { c with loops := ls } = c.nextFmt := by
  unfold Core.nextFmt Core.takeTile
  cases c.wShadow
  · rfl
  · rfl

theorem mmazArgs_loops (c : Core) (ls : List Loop) (w : Nat) : Core.mmazArgs { c with loops := ls } w = c.mmazArgs w := by
  unfold Core.mmazArgs
  rw [nextFmt_loops]
  rfl

theorem drain_issues {core : CoreIx} {bad : Option Nat} {s : State} (q : Quiet s)
    (h : Issues s core.val bad 3 2 drainLegal fun w => { g := [wA w, wB w], acc := [wTile w] })
    (inside : (s.core core.val).gval (wA (s.wordOf core.val)) + (bits (s.wordOf core.val) 13 7 + 1) * drainRow (bits (s.wordOf core.val) 25 4) ≤
      s.grant core.val) :
    let L := core.val
    let w := s.wordOf L
    let r := drainOutcome s L w
    let f := Flags.union r.2
    ∃ t, exec (.drain core bad) s = .next t ∧
      RetiredOn ((if f.inv then s.draw.2 else s).raise L f 0 (if f.inv then s.draw.1 else 0) (invalidCount r.2)) L
        (((fetchedCore s L).clearTile (wTile w)).withOp { eng := .mxe, accs := [wTile w], stores := [((s.core L).gval (wA w), r.1)] }) 1 t ∧
      (t.core L).tile (wTile w) = zeros 4096 := by
  intro L w r f
  have run := drainEff_runs inside
  dsimp only at run
  obtain ⟨base, offset⟩ := nanOffset_ite (Flags.union (drainOutcome s core.val (s.wordOf core.val)).2).inv s
  have quiet := nanOffset_quiet f.inv q
  rw [base, offset] at run
  rw [base] at quiet
  obtain ⟨t, ht, hr⟩ := issue_completes (i := .drain core bad) rfl h rfl (raise_quiet quiet L _ _ _ _) run
    (by rw [withOp_wait, Core.clearTile_wait, fetchedCore_wait, Issues.wait h])
  exact ⟨t, ht, hr, by rw [tile_of_retiredOn hr, tile_withOp, Core.tile_clearTile]⟩

/-- Settles O13. -/
theorem matrixResults : Obligations.MatrixResults := by
  refine ⟨?ldw, ?ldws, ?mma, ?mmaz, fun core bad s q h => ?drain⟩
  case ldw =>
    refine coreResult rfl (fun _ _ _ => rfl) (fun _ _ _ q => q) (fun _ _ _ _ => rfl) fun core bad s ok => ?_
    have run := loadTile_runs ok.1 ok.2 (.inl rfl)
    rw [Core.withOp, ← fetchedCore_gval] at run
    exact run
  case ldws =>
    refine coreResult rfl (fun _ _ _ => rfl) (fun _ _ _ q => q) (fun _ _ _ _ => rfl) fun core bad s ok => ?_
    obtain ⟨empty, inside, ascend⟩ := ok
    have run := loadTile_runs empty inside (.inr ascend)
    rw [Core.withOp, ← fetchedCore_gval] at run
    exact run
  case mma => exact mmaResult rfl (fun _ _ _ => rfl) fun _ _ _ => rfl
  case mmaz => exact mmaResult rfl mmazArgs_loops fun _ _ _ => rfl
  case drain =>
    intro L w c rows r f inside
    obtain ⟨t, ht, hr, ho⟩ := drain_issues q h inside
    rw [Core.withOp, Core.clearTile_ops, fetchedCore_ops] at hr
    exact ⟨t, ht, hr, ho⟩

end Sys2Proof.Machine
end

section
/-! Waits, signals and barriers: at issue and at their ends (R61, R62, R70 to R74, R338 to R345). -/

namespace Sys2Proof.Machine

open Sys2Proof

/-! Waits at issue -/

/-- An instruction whose effect is to hold issue. -/
theorem issue_waits {i : Instr} {s base u : State} {L : Nat} {bad : Option Nat} {cls op : Nat} {legal : Nat → Bool} {uses : Nat → Uses}
    {eff : Nat → State → Eff} {x : Wait} {r : Nat} (he : exec i s = done (issue L bad cls op legal uses eff s))
    (h : Issues s L bad cls op legal uses) (hd : definedOp cls op = true) (hb : Quiet base) (hv : CoreVariant L base u)
    (hc : u.core L = fetchedCore s L) (e : eff (s.wordOf L) (s.fetched L (s.wordOf L)) = .next (u.holdOn L x) 1)
    (hw : Core.waitStall { fetchedCore s L with wait := some x } = some r) :
    ∃ t, exec i s = .next t ∧ HeldOn base L { fetchedCore s L with wait := some x } 1 r t := by
  have core : (u.holdOn L x).core L = { fetchedCore s L with wait := some x } := by
    rw [State.holdOn, State.core_modCore_same, hc]
  rw [← core] at hw ⊢
  exact issue_holds he h hd hb e (hv.modCore _) hw

/-- As issue_waits, when nothing else of the device changes. -/
theorem issue_waits_only {i : Instr} {s : State} {L : Nat} {bad : Option Nat} {cls op : Nat} {legal : Nat → Bool} {uses : Nat → Uses}
    {eff : Nat → State → Eff} {x : Wait} {r : Nat} (he : exec i s = done (issue L bad cls op legal uses eff s))
    (h : Issues s L bad cls op legal uses) (hd : definedOp cls op = true) (q : Quiet s)
    (e : eff (s.wordOf L) (s.fetched L (s.wordOf L)) = .next ((s.fetched L (s.wordOf L)).holdOn L x) 1)
    (hw : Core.waitStall { fetchedCore s L with wait := some x } = some r) :
    ∃ t, exec i s = .next t ∧ HeldOn s L { fetchedCore s L with wait := some x } 1 r t :=
  issue_waits he h hd q (CoreVariant.fetched L _ s) rfl e hw

/-- An instruction that goes on and changes nothing. -/
theorem issue_passes {i : Instr} {s : State} {L : Nat} {bad : Option Nat} {cls op : Nat} {legal : Nat → Bool} {uses : Nat → Uses}
    {eff : Nat → State → Eff} (he : exec i s = done (issue L bad cls op legal uses eff s)) (h : Issues s L bad cls op legal uses)
    (hd : definedOp cls op = true) (q : Quiet s) (e : eff (s.wordOf L) (s.fetched L (s.wordOf L)) = .next (s.fetched L (s.wordOf L)) 1) :
    ∃ t, exec i s = .next t ∧ RetiredOn s L (fetchedCore s L) 1 t :=
  issue_completes he h hd q (e ▸ runs_fetched s L 1) ((fetchedCore_wait s L).trans (Issues.wait h))

theorem fetchedCore_evtVal (s : State) (L e : Nat) : (fetchedCore s L).evtVal e = (s.core L).evtVal e := by rw [fetchedCore_eq]; rfl

theorem fetchedCore_queues (s : State) (L : Nat) : (fetchedCore s L).queues = (s.core L).queues := by rw [fetchedCore_eq]

theorem fetchedCore_quiet (s : State) (L : Nat) : (fetchedCore s L).quiet = (s.core L).quiet := by rw [fetchedCore_eq]; rfl

theorem fetchedCore_storing (s : State) (L : Nat) : (fetchedCore s L).storing = (s.core L).storing := by rw [fetchedCore_eq]; rfl

theorem fetched_queueOf (s : State) (L w q : Nat) : (s.fetched L w).queueOf L q = s.queueOf L q := by
  unfold State.queueOf
  rw [fetched_core]

theorem storing_eq_true {c : Core} : c.storing = true ↔ ∃ o ∈ c.ops, o.stores ≠ [] := by
  simp [Core.storing]

theorem storing_eq_false {c : Core} : c.storing = false ↔ ∀ o ∈ c.ops, o.stores = [] := by
  simp [Core.storing]

/-- The test of EVWAIT on a target of 32 bits. -/
theorem evtReached_low (v a : Nat) : evtReached v (a % 2 ^ 32) = decide (0 ≤ toSigned 32 (v + 2 ^ 32 - a % 2 ^ 32)) := by
  unfold evtReached
  rw [Nat.mod_mod]

theorem evtVal_addEvt (c : Core) (d n e : Nat) : (c.addEvt d n).evtVal e = if e = d then (c.evtVal e + n) % 2 ^ 32 else c.evtVal e := by
  unfold Core.addEvt Core.evtVal
  split
  case isTrue same => rw [same, Tbl.read_write_same]
  case isFalse other => exact Tbl.read_write_ne _ _ _ _ _ _ other

theorem evwaitStall (c : Core) (e target : Nat) : Core.waitStall { c with wait := some (.evwait e target) } =
    some (if c.queues.flatten.any fun d => 0x20 ≤ d.op && d.op ≤ 0x28 && d.evt == e then 4 else 3) := by
  rw [apply_ite some]
  rfl

theorem evwait_issues {core : CoreIx} {bad : Option Nat} {s : State} (q : Quiet s)
    (h : Issues s core.val bad 6 0 (fun w => onlyFields w [(43, 5), (38, 5)]) fun w => { g := [wA w] }) :
    let L := core.val
    let w := s.wordOf L
    let c := s.core L
    let target := c.gval (wA w) % 2 ^ 32
    (evtReached (c.evtVal (wD w)) target = true → ∃ t, exec (.evwait core bad) s = .next t ∧ RetiredOn s L (fetchedCore s L) 1 t) ∧
    (evtReached (c.evtVal (wD w)) target = false → ∃ t, exec (.evwait core bad) s = .next t ∧
      HeldOn s L { fetchedCore s L with wait := some (.evwait (wD w) target) } 1
        (if c.queues.flatten.any fun d => 0x20 ≤ d.op && d.op ≤ 0x28 && d.evt == wD w then 4 else 3) t) := by
  intro L w c target
  have same : ((s.fetched L w).core L).gval (wA w) % 2 ^ 32 = target := by rw [← fetchedCore, fetchedCore_gval]
  have val : ((s.fetched L w).core L).evtVal (wD w) = c.evtVal (wD w) := by rw [← fetchedCore, fetchedCore_evtVal]
  refine ⟨fun reached => issue_passes rfl h rfl q ?_, fun behind => issue_waits_only rfl h rfl q ?_ ?_⟩
  · dsimp only
    rw [same, val, if_pos reached]
  · dsimp only
    rw [same, val, behind]
    rfl
  · rw [evwaitStall, fetchedCore_queues]

theorem sfence_issues {core : CoreIx} {bad : Option Nat} {s : State} (q : Quiet s)
    (h : Issues s core.val bad 6 4 (fun w => onlyFields w []) fun _ => {}) :
    let L := core.val
    ((s.core L).storing = false → ∃ t, exec (.sfence core bad) s = .next t ∧ RetiredOn s L (fetchedCore s L) 1 t) ∧
    ((s.core L).storing = true → ∃ t, exec (.sfence core bad) s = .next t ∧
      HeldOn s L { fetchedCore s L with wait := some .sfence } 1 5 t) := by
  intro L
  have same : ((s.fetched L (s.wordOf L)).core L).storing = (s.core L).storing := fetchedCore_storing s L
  refine ⟨fun none => issue_passes rfl h rfl q ?_, fun some => issue_waits_only rfl h rfl q ?_ rfl⟩
  · rw [same, none]
    rfl
  · rw [same, some]
    rfl

theorem dmawait_issues {core : CoreIx} {bad : Option Nat} {s : State} (q : Quiet s)
    (h : Issues s core.val bad 6 5 (fun w => onlyFields w [(0, 2)]) fun _ => {}) :
    let L := core.val
    let n := bits (s.wordOf L) 0 2
    (s.queueOf L n = [] → ∃ t, exec (.dmawait core bad) s = .next t ∧ RetiredOn s L (fetchedCore s L) 1 t) ∧
    (s.queueOf L n ≠ [] → ∃ t, exec (.dmawait core bad) s = .next t ∧
      HeldOn s L { fetchedCore s L with wait := some (.dmawait n) } 1 3 t) := by
  intro L n
  refine ⟨fun empty => issue_passes rfl h rfl q ?_, fun some => issue_waits_only rfl h rfl q ?_ rfl⟩
  · dsimp only
    rw [fetched_queueOf, if_pos (List.isEmpty_iff.mpr empty)]
  · dsimp only
    rw [fetched_queueOf, if_neg (fun e => some (List.isEmpty_iff.mp e))]

/-- Settles O14. -/
theorem eventAndFenceWaits : Obligations.EventAndFenceWaits := by
  refine ⟨fun core bad s q h => ?evwait, fun core bad s q h => ?evadd, fun core bad s q h => ?sfence, fun core bad s q h => ?dmawait⟩
  case evwait =>
    obtain ⟨passes, waits⟩ := evwait_issues q h
    refine ⟨fun reached => passes ?_, fun behind => waits ?_⟩
    · rw [evtReached_low]
      exact decide_eq_true reached
    · rw [evtReached_low]
      exact decide_eq_false (Int.not_le.mpr behind)
  case evadd =>
    obtain ⟨t, ht, hr⟩ := issue_completes (i := .evadd core bad) rfl h rfl q
      (runs_modCore s core.val 1 fun c => c.addEvt (wD (s.wordOf core.val)) (wImm (s.wordOf core.val)))
      ((fetchedCore_wait s core.val).trans (Issues.wait h))
    refine ⟨t, ht, hr, fun e => ?_⟩
    rw [hr.core, ← fetchedCore_evtVal]
    exact evtVal_addEvt (fetchedCore s core.val) _ _ e
  case sfence =>
    obtain ⟨passes, waits⟩ := sfence_issues q h
    exact ⟨fun none => passes (storing_eq_false.mpr none), fun some => waits (storing_eq_true.mpr some)⟩
  case dmawait => exact dmawait_issues q h

/-! Signals and barriers at issue -/

theorem fetched_logFind (s : State) (L w n : Nat) : (s.fetched L w).logFind L n = s.logFind L n := rfl

theorem fetched_cdet (s : State) (L w M : Nat) : (s.fetched L w).cdet M = s.cdet M := rfl

/-! The three cases of the replay log: the item is there, the log is full, the item is added (R342, R345). -/

theorem logAdd_found {s : State} {L : Nat} {it : LogItem} (h : (s.logFind L it.number).isSome = true) : s.logAdd L it = s := if_pos h

theorem logAdd_full {s : State} {L : Nat} {it : LogItem} (h : ¬(s.logFind L it.number).isSome = true) (full : (s.cdet L).log.length ≥ 512) :
    s.logAdd L it = s.set (DET_CORE_REPLAY_UNSAFE L) 1 := (if_neg h).trans (if_pos full)

theorem logAdd_new {s : State} {L : Nat} {it : LogItem} (h : ¬(s.logFind L it.number).isSome = true) (room : ¬(s.cdet L).log.length ≥ 512) :
    s.logAdd L it = (s.modDet L fun d => { d with log := d.log ++ [it] }).showLog L := (if_neg h).trans (if_neg room)

theorem logAdd_cores (L : Nat) (it : LogItem) (s : State) (k : Tbl Core) :
    ({ s with cores := k }).logAdd L it = { s.logAdd L it with cores := k } := by
  by_cases found : (s.logFind L it.number).isSome = true
  · rw [logAdd_found found, logAdd_found (s := { s with cores := k }) found]
  by_cases full : (s.cdet L).log.length ≥ 512
  · rw [logAdd_full found full, logAdd_full (s := { s with cores := k }) found full]
    rfl
  · rw [logAdd_new found full, logAdd_new (s := { s with cores := k }) found full]
    rfl

theorem logAdd_quiet {s : State} (q : Quiet s) (L : Nat) (it : LogItem) : Quiet (s.logAdd L it) := by
  unfold State.logAdd
  split
  · exact q
  split
  · exact q
  · exact q

/-- An item logged past a fetch leaves the core as the fetch did. -/
theorem CoreVariant.logAdd_fetched (s : State) (L : Nat) (it : LogItem) :
    CoreVariant L (s.logAdd L it) ((s.fetched L (s.wordOf L)).logAdd L it) ∧
      ((s.fetched L (s.wordOf L)).logAdd L it).core L = fetchedCore s L :=
  ⟨CoreVariant.lift (f := fun u => u.logAdd L it) (logAdd_cores L it) (CoreVariant.fetched L _ s),
    core_lift (f := fun u => u.logAdd L it) (logAdd_cores L it) _ L⟩

/-- An increment from another core leaves all cores but its own as they are. -/
theorem core_extEvt (s : State) (M i n K : Nat) :
    (s.extEvt M i n).core K = if K = M then (s.core M).addEvt i n else s.core K := by
  split
  case isTrue same => rw [same]; exact State.core_modCore_same s M fun c => c.addEvt i n
  case isFalse other => exact State.core_modCore_ne s M K (fun c => c.addEvt i n) other

theorem CoreVariant.extEvt {L : Nat} {s u : State} (h : CoreVariant L s u) (M i n : Nat) :
    CoreVariant L (s.extEvt M i n) (u.extEvt M i n) := by
  refine ⟨?_, fun K other => ?_⟩
  · obtain ⟨k, rfl⟩ := h.same
    exact ⟨_, rfl⟩
  · rw [core_extEvt, core_extEvt]
    split
    case isTrue same => rw [h.others M (same ▸ other)]
    case isFalse => exact h.others K other

theorem extEvt_quiet {s : State} (q : Quiet s) (M i n : Nat) : Quiet (s.extEvt M i n) := q

theorem signal_issues {core : CoreIx} {bad : Option Nat} {s : State} (q : Quiet s)
    (h : Issues s core.val bad 6 2 (fun w => onlyFields w [(43, 5), (38, 5), (0, 32)]) fun w => { g := [wA w] }) :
    let L := core.val
    let w := s.wordOf L
    let M := (s.core L).gval (wA w)
    let sent := s.logAdd L { queue := 4, number := (s.cdet L).key, op := 0, st := .sent }
    (s.logFind L (s.cdet L).key = none → M < 144 → ∃ t, exec (.signal core bad) s = .next t ∧
      RetiredOn (sent.extEvt M (wD w) (wImm w)) L
        (if M = L then (fetchedCore s L).addEvt (wD w) (wImm w) else fetchedCore s L) 1 t) ∧
    (s.logFind L (s.cdet L).key = none → 144 ≤ M → ∃ t, exec (.signal core bad) s = .next t ∧ RetiredOn sent L (fetchedCore s L) 1 t) ∧
    (s.logFind L (s.cdet L).key ≠ none → ∃ t, exec (.signal core bad) s = .next t ∧ RetiredOn s L (fetchedCore s L) 1 t) := by
  intro L w M sent
  have waits : (fetchedCore s L).wait = none := (fetchedCore_wait s L).trans (Issues.wait h)
  have dst : ((s.fetched L w).core L).gval (wA w) = M := fetchedCore_gval s L _
  obtain ⟨variant, stays⟩ := CoreVariant.logAdd_fetched s L { queue := 4, number := (s.cdet L).key, op := 0, st := .sent }
  refine ⟨fun new inside => ?_, fun new outside => ?_, fun logged => ?_⟩
  · refine issue_completes (i := .signal core bad) rfl h rfl (extEvt_quiet (logAdd_quiet q L _) _ _ _) ⟨_, ?_, variant.extEvt M (wD w) (wImm w), ?_⟩ ?_
    · unfold signalEff
      dsimp only
      rw [dst, fetched_logFind, fetched_cdet, new, if_pos inside]
      rfl
    · rw [core_extEvt, stays]
      by_cases own : M = L
      · rw [if_pos own.symm, if_pos own, own, stays]
      · rw [if_neg (Ne.symm own), if_neg own]
    · rw [apply_ite Core.wait]
      exact (ite_self _).trans waits
  · refine issue_completes (i := .signal core bad) rfl h rfl (logAdd_quiet q L _) ⟨_, ?_, variant, stays⟩ waits
    unfold signalEff
    dsimp only
    rw [dst, fetched_logFind, fetched_cdet, new, if_neg (Nat.not_lt.mpr outside)]
    rfl
  · refine issue_passes rfl h rfl q ?_
    unfold signalEff
    dsimp only
    rw [fetched_logFind]
    exact if_pos (Option.isSome_iff_ne_none.mpr logged)

/-- GBAR notes whether its core is quiet. -/
def State.noteQuiet (s : State) (L : Nat) (b : Bool) : State := s.modDet L fun d => { d with quiet := b }

theorem noteQuiet_fetched {s u : State} {L : Nat} (hv : CoreVariant L s u) (hc : u.core L = fetchedCore s L) (b : Bool) :
    CoreVariant L (s.noteQuiet L b) (u.noteQuiet L b) ∧ (u.noteQuiet L b).core L = fetchedCore s L :=
  ⟨CoreVariant.lift (f := fun u => u.noteQuiet L b) (fun _ _ => rfl) hv, hc⟩

theorem repassBar_cores (L : Nat) (b : Bool) (s : State) (k : Tbl Core) :
    ({ s with cores := k }).repassBar L b = { s.repassBar L b with cores := k } := by
  cases b
  · rfl
  · rfl

theorem repassBar_quiet {s : State} (q : Quiet s) (L : Nat) (b : Bool) : Quiet (s.repassBar L b) := by
  cases b
  · exact q
  · exact q

theorem gbar_issues {core : CoreIx} {bad : Option Nat} {s : State} (q : Quiet s)
    (h : Issues s core.val bad 6 3 (fun w => onlyFields w [(0, 1)]) fun _ => {}) :
    let L := core.val
    let step := bit (s.wordOf L) 0
    let waits := { fetchedCore s L with wait := some (.gbar step) }
    (s.logFind L (s.cdet L).key = none → ∃ t, exec (.gbar core bad) s = .next t ∧
      HeldOn ((s.logAdd L { queue := 5, number := (s.cdet L).key, op := 0, st := .issued }).noteQuiet L (s.core L).quiet) L waits 1 3 t) ∧
    (∀ it, s.logFind L (s.cdet L).key = some it →
      (it.st = .completed → ∃ t, exec (.gbar core bad) s = .next t ∧ RetiredOn (s.repassBar L step) L (fetchedCore s L) 1 t) ∧
      (it.st ≠ .completed → ∃ t, exec (.gbar core bad) s = .next t ∧ HeldOn (s.noteQuiet L (s.core L).quiet) L waits 1 3 t)) := by
  intro L step waits
  have running : (fetchedCore s L).wait = none := (fetchedCore_wait s L).trans (Issues.wait h)
  refine ⟨fun new => ?_, fun it logged => ⟨fun completed => ?_, fun open_ => ?_⟩⟩
  · obtain ⟨added, stays⟩ := CoreVariant.logAdd_fetched s L { queue := 5, number := (s.cdet L).key, op := 0, st := .issued }
    have variant := CoreVariant.lift (f := fun u => u.noteQuiet L (s.core L).quiet) (fun _ _ => rfl) added
    refine issue_waits (i := .gbar core bad) rfl h rfl (logAdd_quiet q L _) variant stays ?_ rfl
    unfold gbarEff
    dsimp only
    rw [fetched_logFind, fetched_cdet, new]
    dsimp only
    rw [stays, fetchedCore_quiet]
    rfl
  · refine issue_completes (i := .gbar core bad) rfl h rfl (repassBar_quiet q L step) ⟨_, ?_,
      CoreVariant.lift (f := fun u => u.repassBar L step) (repassBar_cores L step) (CoreVariant.fetched L _ s),
      core_lift (f := fun u => u.repassBar L step) (repassBar_cores L step) _ L⟩ running
    unfold gbarEff
    dsimp only
    rw [fetched_logFind, fetched_cdet, logged]
    exact if_pos completed
  · obtain ⟨variant, stays⟩ := noteQuiet_fetched (CoreVariant.fetched L (s.wordOf L) s) rfl (s.core L).quiet
    refine issue_waits (i := .gbar core bad) rfl h rfl (base := s.noteQuiet L (s.core L).quiet) q variant stays ?_ rfl
    unfold gbarEff
    dsimp only
    rw [fetched_logFind, fetched_cdet, logged]
    dsimp only
    rw [if_neg open_, ← fetchedCore, fetchedCore_quiet]
    rfl

/-- Settles O15. -/
theorem signalAndBarrierIssue : Obligations.SignalAndBarrierIssue :=
  ⟨fun _ _ _ q h => signal_issues q h, fun _ _ _ q h => gbar_issues q h⟩

end Sys2Proof.Machine
end

section
/-! The ends of waits and of the barrier of a job (R61, R62, R70 to R74, R338, R340). -/

namespace Sys2Proof.Machine

open Sys2Proof

/-! How a command ends -/

/-- A command that answers a state differing from a quiet one in neither reports nor notices. -/
theorem done_same {s t : State} (q : Quiet s) (hf : t.fault = s.fault) (hs : t.switch = s.switch) : done t = .next t := by
  rw [done_eq, State.settle_eq s t q hf hs]

theorem done_quiet {s : State} (q : Quiet s) : done s = .next s := done_same q rfl rfl

/-! The end of a wait -/

theorem endWait_waitEnds (s : State) (L : Nat) : WaitEnds s L (s.endWait L) where
  core := State.core_modCore_same s L fun c => { c with wait := none }
  others M other := State.core_modCore_ne s L M (fun c => { c with wait := none }) other
  issues := State.flag_set_same (s.modCore L fun c => { c with wait := none }) _ 0 (by decide : 11 + 1 ≤ 32)
  state := State.get_set_apart (s.modCore L fun c => { c with wait := none }) (CORE_STATUS_STALLED L) (CORE_STATUS_STATE L) 0 rfl
    (by decide : 11 + 1 ≤ 32) (.inl (by decide : 0 + 4 ≤ 11))
  regs r hr := State.getR_set_ne (s.modCore L fun c => { c with wait := none }) _ r 0 (List.ne_of_not_mem_cons hr)
  rest := rfl

theorem waits_eq_true {s : State} {L : Nat} (hf : s.fatal = false) (hr : s.cst L = stRun) : s.waits L = true := by
  rw [State.waits, hf, hr]
  rfl

/-- A command that ends a wait when its condition holds, and otherwise changes nothing. -/
theorem waitEnds_of_ite {i : Instr} {s : State} {L : Nat} {c : Bool} (q : Quiet s) (he : exec i s = done (if c then s.endWait L else s)) :
    (c = true → ∃ t, exec i s = .next t ∧ WaitEnds s L t) ∧ (c = false → exec i s = .next s) := by
  refine ⟨fun holds => ⟨s.endWait L, ?_, endWait_waitEnds s L⟩, fun fails => ?_⟩
  · rw [he, if_pos holds]
    exact done_same q rfl rfl
  · rw [he, if_neg (by rw [fails]; exact Bool.false_ne_true)]
    exact done_quiet q

theorem exec_evwaitSatisfied {core : CoreIx} {s : State} {e target : Nat} (hw : s.waits core.val = true)
    (h : (s.core core.val).wait = some (.evwait e target)) : exec (.evwaitSatisfied core) s =
      done (if evtReached ((s.core core.val).evtVal e) target then s.endWait core.val else s) := by
  change execEvwaitSatisfied core s = _
  unfold execEvwaitSatisfied
  rw [hw, h]

theorem exec_dmawaitDone {core : CoreIx} {s : State} {q : Nat} (hw : s.waits core.val = true)
    (h : (s.core core.val).wait = some (.dmawait q)) :
    exec (.dmawaitDone core) s = done (if (s.queueOf core.val q).isEmpty then s.endWait core.val else s) := by
  change execDmawaitDone core s = _
  unfold execDmawaitDone
  rw [hw, h]

/-! Stores become visible -/

/-- Nothing but SRAM differs. -/
def SramOnly (s t : State) : Prop := t = { s with sram := t.sram }

theorem SramOnly.sramWrite {s t : State} (h : SramOnly s t) (L a : Nat) (bs : List Byte) : SramOnly s (t.sramWrite L a bs) := by
  unfold State.sramWrite
  split
  case h_1 =>
    rw [h]
    exact rfl
  case h_2 => exact h

theorem SramOnly.stores {s t : State} (h : SramOnly s t) (L : Nat) (sts : List (Nat × List Byte)) :
    SramOnly s (sts.foldl (fun u st => u.sramWrite L st.1 st.2) t) := by
  induction sts generalizing t with
  | nil => exact h
  | cons st sts ih => exact ih (h.sramWrite L st.1 st.2)

theorem SramOnly.quiet {s t : State} (h : SramOnly s t) (q : Quiet s) : Quiet t := by
  rw [h]
  exact q

theorem exec_sfenceDone {core : CoreIx} {s : State} (hw : s.waits core.val = true) (h : (s.core core.val).wait = some .sfence) :
    exec (.sfenceDone core) s = done (((((s.core core.val).ops.map (·.stores)).flatten.foldl (fun u st => u.sramWrite core.val st.1 st.2) s).modCore
      core.val fun c => { c with ops := c.ops.filter (·.stores.isEmpty) }).endWait core.val) := by
  change execSfenceDone core s = _
  unfold execSfenceDone
  rw [hw, h]

/-- The oldest operation of an engine ends. -/
theorem engineOpDone_ends {core : CoreIx} {eng : EngIx} {s : State} (q : Quiet s) (hf : s.fatal = false) :
    let L := core.val
    (∀ o, (s.core L).ops.find? (·.eng == engOf eng.val) = some o → exec (.engineOpDone core eng) s =
      .next ((o.stores.foldl (fun u st => u.sramWrite L st.1 st.2) s).modCore L fun c => { c with ops := c.ops.erase o })) ∧
    ((s.core L).ops.find? (·.eng == engOf eng.val) = none → exec (.engineOpDone core eng) s = .next s) := by
  intro L
  have run : exec (.engineOpDone core eng) s = done (s.endOp L (engOf eng.val)) := by
    change done (if s.fatal = true then s else s.endOp L (engOf eng.val)) = _
    rw [hf, if_neg Bool.false_ne_true]
  rw [run]
  unfold State.endOp
  refine ⟨fun o ho => ?_, fun ho => ?_⟩
  · rw [ho]
    exact done_quiet ((SramOnly.stores (rfl : SramOnly s s) L o.stores).quiet q)
  · rw [ho]
    exact done_quiet q

theorem setCst_only (s : State) (L st : Nat) : RegsOnly s (s.setCst L st) := 
  RegsOnly.set (RegsOnly.set (RegsOnly.set (RegsOnly.refl s) _ _) _ _) _ _

/-- HALT ends: once the engines and the queues are empty the core is HALTED (R61, R72). -/
theorem coreHalted_ends {core : CoreIx} {s : State} (q : Quiet s) (hw : s.waits core.val = true) (h : (s.core core.val).wait = some .halt) :
    let L := core.val
    (((s.core L).ops.isEmpty && (s.core L).queues.all (·.isEmpty)) = true →
      exec (.coreHalted core) s = .next ((s.modCore L fun c => { c with wait := none }).setCst L stHalted)) ∧
    (((s.core L).ops.isEmpty && (s.core L).queues.all (·.isEmpty)) = false → exec (.coreHalted core) s = .next s) := by
  intro L
  have run : exec (.coreHalted core) s = done (if ((s.core L).ops.isEmpty && (s.core L).queues.all (·.isEmpty)) = true then
      (s.modCore L fun c => { c with wait := none }).setCst L stHalted else s) := by
    change execCoreHalted core s = _
    unfold execCoreHalted
    dsimp only
    rw [hw, h]
  rw [run]
  refine ⟨fun empty => ?_, fun busy => ?_⟩
  · rw [if_pos empty]
    exact done_same q rfl rfl
  · rw [busy, if_neg Bool.false_ne_true]
    exact done_quiet q

theorem waitsEnd : WaitsEnd := by
  refine ⟨fun core s e target q hf hr h => ?evwait, fun core s n q hf hr h => ?dmawait, fun core s q hf hr h => ?sfence,
    fun core s q hf hr h => ?halt, fun core eng s q hf => ?engine⟩
  case evwait => exact waitEnds_of_ite q (exec_evwaitSatisfied (waits_eq_true hf hr) h)
  case dmawait =>
    obtain ⟨ends, stays⟩ := waitEnds_of_ite q (exec_dmawaitDone (waits_eq_true hf hr) h)
    exact ⟨fun empty => ends (List.isEmpty_iff.mpr empty), fun some => stays (List.isEmpty_eq_false_iff.mpr some)⟩
  case sfence =>
    refine ⟨_, ?_, endWait_waitEnds _ _⟩
    rw [exec_sfenceDone (waits_eq_true hf hr) h]
    exact done_quiet ((SramOnly.stores (rfl : SramOnly s s) core.val _).quiet q)
  case halt =>
    obtain ⟨halts, stays⟩ := coreHalted_ends q (waits_eq_true hf hr) h
    refine ⟨fun ops queues => ⟨_, halts (by rw [ops, queues]; rfl), ?_, ?_, ?_, ?_⟩, fun busy => stays ?_⟩
    · exact cst_setCst _ _ _
    · exact State.core_modCore_same s core.val fun c => { c with wait := none }
    · exact fun r hr => getR_setCst_ne _ _ _ _ (List.ne_of_not_mem_cons hr)
    · rw [setCst_only (s.modCore core.val fun c => { c with wait := none }) core.val stHalted]
      rfl
    · rcases busy with ops | queues
      · rw [List.isEmpty_eq_false_iff.mpr ops, Bool.false_and]
      · rw [queues, Bool.and_false]
  case engine =>
    obtain ⟨ends, stays⟩ := engineOpDone_ends (core := core) (eng := eng) q hf
    exact ⟨fun o ho => ⟨_, ends o ho, rfl⟩, stays⟩

/-! The barrier of a job -/

theorem exec_gbarComplete {core : CoreIx} {s : State} {j : Job} (hj : s.coreJob core.val = some j) :
    exec (.gbarComplete core) s = done (s.barrier j) := by
  change execGbarComplete core s = _
  unfold execGbarComplete
  rw [hj]

/-- The STEP bits with which the cores of a job wait in its barrier. -/
def State.barSteps (s : State) (j : Job) : List Bool := j.cores.map fun L => ((s.core L).gbarStep).getD false

theorem barrier_not_all {s : State} {j : Job} (h : s.allAtBar j = false) : s.barrier j = s := by
  unfold State.barrier
  exact if_pos (by rw [h, Bool.not_false, Bool.or_true])

/-- The barrier of a job all cores of which wait there. -/
theorem barrier_all {s : State} {j : Job} (hf : s.fatal = false) (h : s.allAtBar j = true) : s.barrier j =
    if j.ring.isNone || (s.barSteps j).all (!·) then j.cores.foldl State.passBar s
    else if !(s.barSteps j).all id then j.cores.foldl (fun s L => s.programFault L 0x03) (j.cores.foldl State.passBar s)
    else if s.oldCollective j || decide (s.now < s.barFrom j.group) then
      { s with det := { s.det with heldBar := Tbl.insert s.det.heldBar j.group (s.barFrom j.group) } }
    else s.stepBar j := by
  unfold State.barrier
  rw [if_neg (by rw [hf, h]; decide)]
  rfl

/-- A barrier with STEP of a job of a ring is no ordinary one. -/
theorem not_ordinary {s : State} {j : Job} (ring : j.ring ≠ none) (step : true ∈ s.barSteps j) :
    ¬(j.ring.isNone || (s.barSteps j).all (!·)) = true := by
  simp only [Bool.or_eq_true, Option.isNone_iff_eq_none, List.all_eq_true, not_or]
  exact ⟨ring, fun all => Bool.false_ne_true (all true step)⟩

theorem barrierCompletes : BarrierCompletes := by
  intro core s j q hf hj steps
  refine ⟨fun none => ?waiting, fun all ordinary => ?ordinary, fun all ring yes no => ?disagree, fun all ring yes agree old time => ?step⟩
  case waiting =>
    rw [exec_gbarComplete hj, barrier_not_all none]
    exact done_quiet q
  all_goals refine (exec_gbarComplete hj).trans (congrArg done ((barrier_all hf all).trans ?_))
  case ordinary =>
    refine if_pos ?_
    simp only [Bool.or_eq_true, Option.isNone_iff_eq_none, List.all_eq_true, Bool.not_eq_true']
    exact ordinary
  case disagree =>
    rw [if_neg (not_ordinary ring yes)]
    refine if_pos ?_
    simp only [Bool.not_eq_true', List.all_eq_false]
    exact ⟨false, no, Bool.false_ne_true⟩
  case step =>
    rw [if_neg (not_ordinary ring yes), if_neg, if_neg]
    · rw [old, Bool.false_or, decide_eq_true_iff]
      exact Nat.not_lt.mpr time
    · simp only [Bool.not_eq_true', List.all_eq_false, not_exists, not_and, Decidable.not_not]
      exact fun b hb => by
        cases b
        · exact absurd hb agree
        · rfl

/-- Settles O16. -/
theorem waitsAndBarriersEnd : Obligations.WaitsAndBarriersEnd := ⟨waitsEnd, barrierCompletes⟩

end Sys2Proof.Machine
end

section
/-! ZMAP, TOPK, SLOTSET, BCLASS and EMASK (R86 to R98). -/

namespace Sys2Proof.Machine

open Sys2Proof

theorem storeFault_none {s : State} {L a n align : Nat} (h : AccessOk s L none a n align) : s.storeFault L a n align = none :=
  accessFault_none h

theorem fetched_storeFault (s : State) (L w a n align : Nat) : (s.fetched L w).storeFault L a n align = s.storeFault L a n align :=
  fetched_accessFault s L w none a n align

theorem fetched_jobSlot (s : State) (L w i : Nat) : (s.fetched L w).jobSlot L i = s.jobSlot L i := by
  unfold State.jobSlot State.coreJob
  rw [fetched_core]
  rfl

theorem setP_ops (c : Core) (i : Nat) (b : Bool) : (c.setP i b).ops = c.ops := by
  unfold Core.setP
  split
  · rfl
  · rfl

/-- Two checks that pass let the effect take place. -/
theorem orElse_two {c d : Option Eff} (e : Eff) (hc : c = none) (hd : d = none) : orElse [c, d] e = e := by
  rw [hc, hd]
  rfl

/-- Checks of a row of accesses that all pass. -/
theorem rowFaults_none {s : State} {L n rows align : Nat} {bad : Option Nat} {addr : Nat → Nat}
    (h : ∀ r < rows, AccessOk s L bad (addr r) n align) : ((List.range rows).findSome? fun r => s.accessFault L bad (addr r) n align) = none :=
  List.findSome?_eq_none_iff.mpr fun r hr => accessFault_none (h r (List.mem_range.mp hr))

theorem fetched_gval (s : State) (L w r : Nat) : ((s.fetched L w).core L).gval r = (s.core L).gval r := by
  rw [fetched_core]
  rfl

/-! ZMAP -/

/-- The address of a row of ZMAP, and the bitmap of its rows. -/
def Core.zmapRow (c : Core) (w r : Nat) : Nat := (c.gval (wA w) + r * c.gval (wB w)) % 2 ^ 64

def State.zmapBits (s : State) (L w : Nat) : List Byte :=
  packBits (((List.range (bits w 16 7 + 1)).map fun r => rowMap (bits w 24 4) (zmapB w)
    (s.engRead L .vxu ((s.core L).zmapRow w r) (actBytes (bits w 24 4) (32 * zmapB w)))).flatten)

theorem fetched_zmapRow (s : State) (L w r : Nat) : ((s.fetched L w).core L).zmapRow w r = (s.core L).zmapRow w r := by
  rw [fetched_core]; rfl

theorem fetched_zmapBits (s : State) (L w : Nat) : (s.fetched L w).zmapBits L w = s.zmapBits L w := by
  unfold State.zmapBits
  simp only [fetched_engRead, fetched_zmapRow]

theorem zmapEff_eq {s : State} {L : Nat} {bad : Option Nat} {w : Nat}
    (rows : ∀ r < bits w 16 7 + 1, AccessOk s L bad ((s.core L).zmapRow w r) (actBytes (bits w 24 4) (32 * zmapB w)) 1)
    (dst : AccessOk s L none ((s.core L).gval (wC w)) (s.zmapBits L w).length 8) :
    zmapEff L bad w s = .next (s.startOp L { eng := .vxu, stores := [((s.core L).gval (wC w), s.zmapBits L w)] }) 1 :=
  orElse_two _ (rowFaults_none rows) (storeFault_none dst)

theorem AccessOk_fetched {s : State} {L : Nat} {bad : Option Nat} {a n align : Nat} (w : Nat) (h : AccessOk s L bad a n align) :
    AccessOk (s.fetched L w) L bad a n align := by
  obtain ⟨aligned, inside, good⟩ := h
  exact ⟨aligned, by rw [fetched_grant]; exact inside, good⟩

theorem zmapEff_runs {s : State} {L : Nat} {bad : Option Nat} :
    let w := s.wordOf L
    (∀ r < bits w 16 7 + 1, AccessOk s L bad ((s.core L).zmapRow w r) (actBytes (bits w 24 4) (32 * zmapB w)) 1) →
    AccessOk s L none ((s.core L).gval (wC w)) (s.zmapBits L w).length 8 →
    Runs s L ((fetchedCore s L).withOp { eng := .vxu, stores := [((s.core L).gval (wC w), s.zmapBits L w)] }) 1
      (zmapEff L bad w (s.fetched L w)) := by
  intro w rows dst
  rw [zmapEff_eq, fetched_zmapBits, fetched_gval]
  · exact Runs.startOp (CoreVariant.fetched L w s) rfl _ 1
  · intro r hr
    rw [fetched_zmapRow]
    exact AccessOk_fetched w (rows r hr)
  · rw [fetched_zmapBits, fetched_gval]
    exact AccessOk_fetched w dst

/-! TOPK -/

/-- The tokens of a TOPK: the routing entry, the flags and the address of each. -/
def State.topkRuns (s : State) (L w : Nat) : List ((List Byte × Flags) × Nat) :=
  (List.range (bits ((s.core L).gval (wB w)) 0 13)).map fun t =>
    (topkToken w ((bits ((s.core L).gval (wD w)) 0 22 + t) % 2 ^ 22 + bits ((s.core L).gval (wD w)) 22 5 * 2 ^ 22)
      ((List.range (topkE w)).map fun e =>
        field (s.engRead L .vxu ((s.core L).gval (wA w) + t * ((4 * topkE w + 63) / 64 * 64)) (4 * topkE w)) (4 * e) 4),
      (s.core L).gval (wA w) + t * ((4 * topkE w + 63) / 64 * 64))

theorem topkEff_eq {s : State} {L : Nat} {bad : Option Nat} {w : Nat} :
    let c := s.core L
    let n := bits (c.gval (wB w)) 0 13
    let rs := s.topkRuns L w
    let fs := rs.map fun r => r.1.2
    1 ≤ n → n ≤ 4096 → (∀ t < n, AccessOk s L bad (c.gval (wA w) + t * ((4 * topkE w + 63) / 64 * 64)) (4 * topkE w) 1) →
    AccessOk s L none (c.gval (wC w)) (48 * n) 1 →
    topkEff L bad w s = .next ((s.raise L (Flags.union fs) 1 (((rs.find? fun r => r.1.2.inv).map (·.2)).getD 0) (invalidCount fs)).startOp L
      { eng := .vxu, stores := [(c.gval (wC w), (rs.map fun r => r.1.1).flatten)] }) 1 := by
  intro c n rs fs some most rows dst
  have count : ¬(n = 0 ∨ n > 4096) := by omega
  exact (if_neg count).trans (orElse_two _ (rowFaults_none rows) (storeFault_none dst))

theorem fetched_topkRuns (s : State) (L w : Nat) : (s.fetched L w).topkRuns L w = s.topkRuns L w := by
  unfold State.topkRuns
  simp only [fetched_engRead, fetched_gval]

theorem topkEff_runs {s : State} {L : Nat} {bad : Option Nat} :
    let w := s.wordOf L
    let c := s.core L
    let n := bits (c.gval (wB w)) 0 13
    let rs := s.topkRuns L w
    let fs := rs.map fun r => r.1.2
    1 ≤ n → n ≤ 4096 → (∀ t < n, AccessOk s L bad (c.gval (wA w) + t * ((4 * topkE w + 63) / 64 * 64)) (4 * topkE w) 1) →
    AccessOk s L none (c.gval (wC w)) (48 * n) 1 →
    Runs (s.raise L (Flags.union fs) 1 (((rs.find? fun r => r.1.2.inv).map (·.2)).getD 0) (invalidCount fs)) L
      ((fetchedCore s L).withOp { eng := .vxu, stores := [(c.gval (wC w), (rs.map fun r => r.1.1).flatten)] }) 1
      (topkEff L bad w (s.fetched L w)) := by
  intro w c n rs fs some most rows dst
  have run := topkEff_eq (s := s.fetched L w) (L := L) (bad := bad) (w := w)
  simp only [fetched_gval, fetched_topkRuns] at run
  rw [run some most (fun t ht => AccessOk_fetched w (rows t ht)) (AccessOk_fetched w dst)]
  exact Runs.raise_startOp (CoreVariant.fetched L w s) rfl _ _ _ _ _ _

/-! SLOTSET -/

/-- A slot of a job filled. -/
def State.fillSlot (s : State) (k : Nat) (x : Slot) : State :=
  { s with slots := Tbl.write s.slots {} k { x with job := (s.slotOf k).job, index := (s.slotOf k).index } }

/-- A slot shown in its registers. -/
def State.showSlot (s : State) (k : Nat) (x : Slot) : State :=
  ((s.set (CORE_SLOT_STATE_SEQ_LEN k) x.seqLen).set (CORE_SLOT_POS_Q_BASE k) x.qBase).set (CORE_SLOT_POS_MASK k) x.mask

theorem showSlot_regFn (k : Nat) (x : Slot) : RegFn fun s => s.showSlot k x :=
  RegFn.comp (f := fun s => (s.set (CORE_SLOT_STATE_SEQ_LEN k) x.seqLen).set (CORE_SLOT_POS_Q_BASE k) x.qBase)
    (h := fun s => s.set (CORE_SLOT_POS_MASK k) x.mask)
    (RegFn.comp (f := fun s => s.set (CORE_SLOT_STATE_SEQ_LEN k) x.seqLen) (h := fun s => s.set (CORE_SLOT_POS_Q_BASE k) x.qBase)
      (RegFn.set _ _) (RegFn.set _ _)) (RegFn.set _ _)

theorem fillSlot_cores (k : Nat) (x : Slot) (s : State) (cs : Tbl Core) :
    (({ s with cores := cs } : State).fillSlot k x).showSlot k x = { (s.fillSlot k x).showSlot k x with cores := cs } :=
  RegFn.cores (showSlot_regFn k x) (s.fillSlot k x) cs

theorem fillSlot_quiet {s : State} (q : Quiet s) (k : Nat) (x : Slot) : Quiet ((s.fillSlot k x).showSlot k x) :=
  RegFn.quiet (showSlot_regFn k x) (s := s.fillSlot k x) q

theorem slotsetEff_eq {s : State} {L w k : Nat} {x : Slot} (slot : s.jobSlot L (bits w 20 5) = some k)
    (good : slotFrom ((s.core L).gval (wA w)) ((s.core L).gval (wB w)) ((s.core L).gval (wC w)) = some x) :
    slotsetEff L w s = .next ((s.fillSlot k x).showSlot k x) 1 := by
  unfold slotsetEff
  dsimp only
  rw [slot, good]
  rfl

theorem slotsetEff_runs {s : State} {L k : Nat} {x : Slot} :
    let w := s.wordOf L
    let c := s.core L
    s.jobSlot L (bits w 20 5) = some k → slotFrom (c.gval (wA w)) (c.gval (wB w)) (c.gval (wC w)) = some x →
    Runs ((s.fillSlot k x).showSlot k x) L (fetchedCore s L) 1 (slotsetEff L w (s.fetched L w)) := by
  intro w c slot good
  refine ⟨((s.fetched L w).fillSlot k x).showSlot k x, ?_,
    CoreVariant.lift (f := fun u => (u.fillSlot k x).showSlot k x) (fillSlot_cores k x) (CoreVariant.fetched L w s),
    core_lift (f := fun u => (u.fillSlot k x).showSlot k x) (fillSlot_cores k x) _ L⟩
  exact slotsetEff_eq ((fetched_jobSlot s L w _).trans slot) (by rw [fetched_gval, fetched_gval, fetched_gval]; exact good)

/-! BCLASS and EMASK -/

/-- The core that BCLASS leaves, given the bitmap word it reads. -/
def Core.classed (c : Core) (d : Nat) (cl : PairClass) : Core := (c.setP d (cl != .skip)).setP (d + 1) (cl == .part)

theorem Core.classed_wait (c : Core) (d : Nat) (cl : PairClass) : (c.classed d cl).wait = c.wait := (setP_wait _ _ _).trans (setP_wait _ _ _)

theorem Core.classed_ops (c : Core) (d : Nat) (cl : PairClass) : (c.classed d cl).ops = c.ops := (setP_ops _ _ _).trans (setP_ops _ _ _)

/-- The class of the block pair that BCLASS names, of slot k. -/
def State.pairClass (s : State) (L w k : Nat) : PairClass :=
  let g := (s.core L).gval (wA w)
  (s.slotOf k).classify (pairQ g) (pairK g) ((((s.slotOf k).mapWord (pairQ g) (pairK g)).map fun a => leNat (s.engRead L .scalar a 8)).getD 0)

theorem fetched_pairClass (s : State) (L w k : Nat) : (s.fetched L w).pairClass L w k = s.pairClass L w k := by
  unfold State.pairClass
  simp only [fetched_engRead, fetched_gval]
  rfl

theorem bclassEff_eq {s : State} {L w k : Nat} {bad : Option Nat} (slot : s.jobSlot L (bits w 20 5) = some k)
    (word : ∀ a, (s.slotOf k).mapWord (pairQ ((s.core L).gval (wA w))) (pairK ((s.core L).gval (wA w))) = some a → AccessOk s L bad a 8 1) :
    bclassEff L bad w s = .next ((s.setCore L ((s.core L).classed (wPd w) (s.pairClass L w k))).startOp L
      { eng := .scalar, ps := [wPd w, wPd w + 1] }) 1 := by
  have ok : (((s.slotOf k).mapWord (pairQ ((s.core L).gval (wA w))) (pairK ((s.core L).gval (wA w)))).bind
      fun a => s.accessFault L bad a 8 1) = none :=
    Option.bind_eq_none_iff.mpr fun a ha => accessFault_none (word a ha)
  unfold bclassEff
  rw [slot]
  dsimp only
  rw [ok]
  rfl

theorem bclassEff_runs {s : State} {L k : Nat} {bad : Option Nat} :
    let w := s.wordOf L
    s.jobSlot L (bits w 20 5) = some k →
    (∀ a, (s.slotOf k).mapWord (pairQ ((s.core L).gval (wA w))) (pairK ((s.core L).gval (wA w))) = some a → AccessOk s L bad a 8 1) →
    Runs s L (((fetchedCore s L).classed (wPd w) (s.pairClass L w k)).withOp { eng := .scalar, ps := [wPd w, wPd w + 1] }) 1
      (bclassEff L bad w (s.fetched L w)) := by
  intro w slot word
  rw [bclassEff_eq (k := k), fetched_pairClass]
  · exact Runs.startOp ((CoreVariant.fetched L w s).setCore _) (State.core_setCore_same _ _ _) _ 1
  · rw [fetched_jobSlot]
    exact slot
  · rw [fetched_gval]
    exact fun a ha => AccessOk_fetched w (word a ha)

/-- The bytes of an element mask. -/
def maskBytes (m : List Bool) : List Byte := ((List.range 128).map fun r => packBits ((m.drop (128 * r)).take 128)).flatten

theorem emaskEff_runs {s : State} {L k : Nat} :
    let w := s.wordOf L
    let g := (fetchedCore s L).gval (wA w)
    s.jobSlot L (bits w 20 5) = some k → AccessOk s L none ((fetchedCore s L).gval (wC w)) 2048 1 →
    let m := maskBytes ((s.slotOf k).elemMask (pairQ g) (pairK g))
    Runs s L ((fetchedCore s L).withOp { eng := .vxu, stores := [((fetchedCore s L).gval (wC w), m)] }) 1
      (emaskEff L w (s.fetched L w)) := by
  intro w g slot dst m
  unfold emaskEff
  rw [fetched_jobSlot, slot]
  dsimp only
  rw [fetched_storeFault, ← fetchedCore, storeFault_none dst]
  exact Runs.startOp (CoreVariant.fetched L w s) rfl _ 1

/-- Settles O17. -/
theorem conditionalResults : Obligations.ConditionalResults := by
  refine ⟨?zmap, fun core bad s q h => ?topk, fun core bad s k x q h => ?slotset, ?bclass, ?emask⟩
  case zmap =>
    refine coreResult rfl (fun _ _ _ => rfl) (fun _ _ _ q => q) (fun _ _ _ _ => rfl) fun core bad s ok => ?_
    have run := zmapEff_runs ok.1 ok.2
    unfold State.zmapBits Core.zmapRow at run
    simp only [← fetchedCore_gval] at run
    exact run
  case topk =>
    intro L w c E n addr key rs fs first some most rows dst
    obtain ⟨t, ht, hr⟩ := issue_completes (i := .topk core bad) rfl h rfl (raise_quiet q L _ _ _ _) (topkEff_runs some most rows dst)
      ((withOp_wait _ _).trans ((fetchedCore_wait s L).trans (Issues.wait h)))
    rw [Core.withOp, fetchedCore_ops] at hr
    exact ⟨t, ht, hr⟩
  case slotset =>
    intro L w c slot good filled
    exact issue_completes (i := .slotset core bad) rfl h rfl (fillSlot_quiet q k x) (slotsetEff_runs slot good)
      ((fetchedCore_wait s L).trans (Issues.wait h))
  case bclass =>
    refine coreResult rfl (fun _ _ _ => rfl) (fun _ _ _ q => q) (fun _ _ _ c => Core.classed_wait c _ _) fun core bad s ok => ?_
    obtain ⟨k, slot, word⟩ := ok
    have run := bclassEff_runs slot word
    rw [Core.withOp, Core.classed_ops] at run
    unfold State.pairClass at run
    rw [← fetchedCore_gval] at run
    rw [slot]
    exact run
  case emask =>
    refine coreResult rfl (fun _ _ _ => rfl) (fun _ _ _ q => q) (fun _ _ _ _ => rfl) fun core bad s ok => ?_
    obtain ⟨slot, dst⟩ := ok
    obtain ⟨k, hk⟩ := Option.ne_none_iff_exists'.mp slot
    rw [← fetchedCore_gval] at dst
    rw [hk]
    exact emaskEff_runs hk dst

end Sys2Proof.Machine
end

section
/-! Register accesses: plain registers, accesses turned away, the access-error log, the host commands (R8 to R11, R445, R459, R460). -/

namespace Sys2Proof.Machine

open Sys2Proof

/-! Plain registers -/

/-- A write of a register without a meaning of its own stores its bits and does nothing else. -/
theorem writeReg_stored (s : State) {w : RegWrite} (plain : ∀ r ∈ controlRegs, w.row.base ≠ r.off) : s.writeReg w = s.stored w := by
  have other : ∀ r ∈ controlRegs, w.is r = false := fun r hr => beq_false_of_ne (plain r hr)
  simp only [controlRegs, List.cons_append, List.nil_append, List.forall_mem_cons] at other
  simp only [State.writeReg, State.pwrWrite, State.hifWrite, State.secWrite, State.patWrite, State.fltWrite, State.obsWrite, State.coreWrite,
    State.memWrite, State.lnkWrite, State.rteWrite, State.bpmWrite, State.schWrite, State.colWrite, State.detWrite, other,
    Bool.or_self, Bool.false_and, Bool.false_eq_true, if_false, ite_self]

theorem write4_taken {s : State} {req off v : Nat} {row : RegRow} {ix : List Nat} (hw : s.inReset = false) (hm : inMsix off = false)
    (ha : regAt off = some (row, ix)) (hh : row.half = .single) (ht : s.turnedAway off true = none) :
    s.write4 req off v = s.writeReg { row := row, off := off, at_ := off, v := v, i := ix.headD 0 } := by
  unfold State.write4
  rw [hw, hm, ha, ht]
  simp only [Bool.false_and, Bool.false_eq_true, if_false, hh]

/-- Settles O18. -/
theorem registerWriteStores : Obligations.RegisterWriteStores := by
  intro req off v row ix s q hb h4 hm ha hh hrwb plain taken hopen
  obtain ⟨hw, ht⟩ := taken
  rw [regOf_off] at ht
  have effect : s.busWrite req off 4 v = s.setR (regOf off) (keptValue row (s.getR (regOf off)) (v % 2 ^ 32)) := by
    unfold State.busWrite
    rw [if_neg (Nat.not_le.mpr hb), if_pos ⟨rfl, h4⟩, write4_taken hw hm ha hh ht, writeReg_stored s plain, State.stored_eq s _ hopen hrwb]
  refine ⟨s.setR (regOf off) _, ?_, State.getR_setR_same s (regOf off) _, fun r hr => ?_, RegsOnly.setR (RegsOnly.refl s) _ _⟩
  · rw [exec_registerWrite, effect, State.settle_eq s _ q (s.setR_fault _ _) (s.setR_switch _ _)]
    rfl
  · exact s.getR_setR_ne _ _ _ (by rw [regOf_off]; exact List.ne_of_not_mem_cons hr)

/-! Accesses turned away -/

theorem turnedAway_early {s : State} {off : Nat} (w : Bool) (hr : s.ready = false) (hp : inPwrHif off = false) (ha : (regAt off).isSome = true) :
    s.turnedAway off w = some 8 := by
  unfold State.turnedAway
  rw [hr, hp, ha]
  rfl

theorem turnedAway_safe_write {s : State} {off : Nat} (hr : s.ready = true) (hs : s.safe = true) (hn : safeAllows off = false) :
    s.turnedAway off true = some 2 := by
  rw [State.turnedAway_safe hr hs, hn]
  rfl

/-- Once the boot has reached READY no read is turned away. -/
theorem turnedAway_read {s : State} (off : Nat) (hr : s.ready = true) : s.turnedAway off false = none := by
  unfold State.turnedAway
  rw [hr, Bool.and_false]
  rfl

theorem busWrite_beyond {s : State} {req off size v : Nat} (h : 0x2000000 ≤ off) : s.busWrite req off size v = s := if_pos h

theorem busWrite_reset {s : State} {req off v : Nat} (hw : s.inReset = true) (hj : s.boot.jtagWait = false) : s.busWrite req off 4 v = s := by
  unfold State.busWrite State.write4
  rw [hw, hj]
  simp

theorem busWrite_misaligned {s : State} {req off size v : Nat} (hb : off < 0x2000000) (hw : s.inReset = false) (h4 : size ≠ 4 ∨ off % 4 ≠ 0)
    (h8 : size ≠ 8 ∨ off % 8 ≠ 0) : s.busWrite req off size v = s.aerr 0 off true 9 := by
  unfold State.busWrite
  rw [if_neg (Nat.not_le.mpr hb), if_neg (Decidable.not_and_iff_or_not.mpr h4), if_neg (Decidable.not_and_iff_or_not.mpr h8), hw, if_neg Bool.false_ne_true]

theorem registerWrite_ends {s u : State} {req off size v : Nat} (h : s.busWrite req off size v = u) : Ends (.registerWrite req off size v) s u := by
  rw [← h]
  exact exec_registerWrite req off size v s

theorem registerWrite_nothing {s : State} {req off size v : Nat} (q : Quiet s) (h : s.busWrite req off size v = s) :
    exec (.registerWrite req off size v) s = .next s := by
  rw [exec_registerWrite, h, State.settle_of_quiet s q]

theorem busWrite_turnedAway {s : State} {req off v k : Nat} {row : RegRow} {ix : List Nat} (hb : off < 0x2000000) (h4 : off % 4 = 0)
    (hm : inMsix off = false) (hw : s.inReset = false) (ha : regAt off = some (row, ix)) (hh : row.half = .single)
    (ht : s.turnedAway off true = some k) : s.busWrite req off 4 v = s.aerr 0 off true k := by
  unfold State.busWrite
  rw [if_neg (Nat.not_le.mpr hb), if_pos ⟨rfl, h4⟩, s.write4_turnedAway req hw hm ha hh ht]

/-! Reads -/

theorem busRead_word {s : State} {req off : Nat} (h4 : off % 4 = 0) : s.busRead req off 4 = s.read4 req off := if_pos ⟨rfl, h4⟩

/-- A read outside the MSI-X structures of a device that takes it. -/
theorem read4_register {s : State} {req off : Nat} (hw : s.inReset = false) (hm : inMsix off = false) (hp : inPba off = false) :
    s.read4 req off = match s.turnedAway off false with
      | some k => (0, s.aerr 0 off false k)
      | none => if pairLow off then
          ((s.dropCaptured req off).regView off, { s.dropCaptured req off with
            captured := (s.dropCaptured req off).captured ++ [{ req := req, off := off, value := (s.dropCaptured req off).regView (off + 4) }] })
        else match s.capturedHigh req (off - 4) with
          | some v => (v, s.dropCaptured req (off - 4))
          | none => (s.regView off, s) := by
  unfold State.read4
  rw [hw, hm, hp]
  rfl

/-- What a read of a pair's lower half leaves captured for its reader. -/
def State.captureHigh (s : State) (req off : Nat) : State :=
  { s.dropCaptured req off with
    captured := (s.dropCaptured req off).captured ++ [{ req := req, off := off, value := (s.dropCaptured req off).regView (off + 4) }] }

/-- The state with other halves captured. -/
def State.withCaptured (s : State) (c : List PairHold) : State := { s with captured := c }

theorem settleTok_down {s : State} {o t : Nat} (h : o < 24 ∧ !s.portUp o) : s.settleTok o t = s.modOut o fun x => { x with tokAt := t } :=
  if_pos h

theorem settleTok_up {s : State} {o t : Nat} (h : ¬(o < 24 ∧ !s.portUp o)) : s.settleTok o t =
    (s.set (SCH_OUT_TOKENS_T o) (tokensAfter (s.get (SCH_OUT_TOKENS_T o)) (s.ctrlRate o) (s.ctrlBurst o)
      ((t - (s.outSt o).tokAt) / s.slotTime o))).modOut o
      fun x => { x with tokAt := x.tokAt + (t - (s.outSt o).tokAt) / s.slotTime o * s.slotTime o } := if_neg h

theorem tokens_withCaptured (s : State) (c : List PairHold) (o t : Nat) : (s.withCaptured c).tokens o t = s.tokens o t := by
  unfold State.tokens
  by_cases down : o < 24 ∧ !s.portUp o
  · rw [settleTok_down down, settleTok_down (s := s.withCaptured c) down]
    rfl
  · rw [settleTok_up down, settleTok_up (s := s.withCaptured c) down]
    rfl

theorem schView_withCaptured (s : State) (c : List PairHold) (r : Reg) : (s.withCaptured c).schView r = s.schView r := by
  have tokens : (s.withCaptured c).tokens = s.tokens := funext fun a => funext (tokens_withCaptured s c a)
  have gate : (s.withCaptured c).gateOpen = s.gateOpen := rfl
  have window : (s.withCaptured c).window = s.window := rfl
  have weight : (s.withCaptured c).weight = s.weight := rfl
  have rates : (s.withCaptured c).ovhPkt = s.ovhPkt ∧ (s.withCaptured c).ovhFlit = s.ovhFlit ∧
    (s.withCaptured c).ctrlRate = s.ctrlRate ∧ (s.withCaptured c).ctrlBurst = s.ctrlBurst := ⟨rfl, rfl, rfl, rfl⟩
  have time : (s.withCaptured c).tu = s.tu := rfl
  obtain ⟨pkt, flit, rate, burst⟩ := rates
  unfold State.schView
  rw [tokens, gate, window, weight, pkt, flit, rate, burst, time]

theorem counterView_withCaptured (s : State) (c : List PairHold) (off : Nat) : (s.withCaptured c).counterView off = s.counterView off := by
  have word : (s.withCaptured c).setWord = s.setWord := rfl
  unfold State.counterView
  rw [word]

theorem regView_withCaptured (s : State) (c : List PairHold) (off : Nat) : (s.withCaptured c).regView off = s.regView off := by
  have hif : (s.withCaptured c).hifView = s.hifView := rfl
  have faultN : (s.withCaptured c).faultNLow = s.faultNLow := rfl
  have free : (s.withCaptured c).coreFreeView = s.coreFreeView := rfl
  have staging : (s.withCaptured c).staging = s.staging := rfl
  have cells : (s.withCaptured c).countCells = s.countCells := rfl
  have bpm : (s.withCaptured c).bpmView = s.bpmView := rfl
  have drain : (s.withCaptured c).drainCount = s.drainCount := rfl
  have col : (s.withCaptured c).colView = s.colView := rfl
  have trace : (s.withCaptured c).traceWin = s.traceWin := rfl
  unfold State.regView
  rw [hif, faultN, free, staging, cells, bpm, drain, col, trace, funext (schView_withCaptured s c), funext (counterView_withCaptured s c)]
  rfl

theorem regView_dropCaptured (s : State) (req off at_ : Nat) : (s.dropCaptured req off).regView at_ = s.regView at_ :=
  regView_withCaptured s _ at_

theorem capturedHigh_captureHigh (s : State) (req off : Nat) : (s.captureHigh req off).capturedHigh req off = some (s.regView (off + 4)) := by
  have fresh : (s.dropCaptured req off).captured.find? (fun h => h.req == req && h.off == off) = none := by
    refine List.find?_eq_none.mpr fun h hh => ?_
    have kept := (List.mem_filter.mp hh).2
    rw [Bool.not_eq_true'] at kept
    rw [kept]
    exact Bool.false_ne_true
  unfold State.capturedHigh State.captureHigh
  rw [List.find?_append, fresh, Option.none_or, List.find?_cons_of_pos (by simp)]
  exact congrArg some (regView_dropCaptured s req off (off + 4))

theorem read4_pairLow {s : State} {req off : Nat} (hw : s.inReset = false) (hm : inMsix off = false) (hp : inPba off = false)
    (hr : s.ready = true) (low : pairLow off = true) : s.read4 req off = (s.regView off, s.captureHigh req off) := by
  rw [read4_register hw hm hp, turnedAway_read off hr, low]
  exact congrArg (·, s.captureHigh req off) (regView_dropCaptured s req off off)

theorem read4_captured {s : State} {req off v : Nat} (hw : s.inReset = false) (hm : inMsix (off + 4) = false) (hp : inPba (off + 4) = false)
    (hr : s.ready = true) (low : pairLow (off + 4) = false) (h : s.capturedHigh req off = some v) : (s.read4 req (off + 4)).1 = v := by
  rw [read4_register hw hm hp, turnedAway_read _ hr, low, Nat.add_sub_cancel, h]
  rfl

/-- Settles O19. -/
theorem accessesTurnedAway : Obligations.AccessesTurnedAway := by
  refine ⟨fun req off size v s q beyond => ?beyond, fun req off v s q hw hj => ?reset, fun req off size v s q hb hw h4 h8 => ?misaligned,
    fun req off v row ix s q hb h4 hm hw ha hh => ⟨fun hr hp => ?early, fun hr hs hn => ?safe⟩, fun req off s h4 hw => ?readReset,
    fun req off s h4 hm hp hw => ⟨fun hr hi ha => ?readEarly, fun hr low high hm' hp' => ?readPair⟩⟩
  case beyond => exact registerWrite_nothing q (busWrite_beyond beyond)
  case reset => exact registerWrite_nothing q (busWrite_reset hw hj)
  case misaligned => exact registerWrite_ends (busWrite_misaligned hb hw h4 h8)
  case early => exact registerWrite_ends (busWrite_turnedAway hb h4 hm hw ha hh (turnedAway_early true hr hp (by rw [ha]; rfl)))
  case safe => exact registerWrite_ends (busWrite_turnedAway hb h4 hm hw ha hh (turnedAway_safe_write hr hs hn))
  case readReset =>
    rw [busRead_word h4]
    exact if_pos hw
  case readEarly => rw [busRead_word h4, read4_register hw hm hp, turnedAway_early false hr hi ha]
  case readPair =>
    intro r
    have first : r = (s.regView off, s.captureHigh req off) := (busRead_word h4).trans (read4_pairLow hw hm hp hr low)
    rw [first]
    refine ⟨rfl, ?_⟩
    rw [busRead_word (by omega)]
    exact read4_captured hw hm' hp' hr high (capturedHigh_captureHigh s req off)

end Sys2Proof.Machine
end

section
/-! The access-error log, the unmask of a vector, and the commands that are a host write (R445, R459, R460). -/

namespace Sys2Proof.Machine

open Sys2Proof

/-! The access-error log -/

/-- A log entry written and counted, before vector 2 is raised. -/
def State.aerrEntry (s : State) (i space off : Nat) (write : Bool) (kind : Nat) : State :=
  ((((s.setR (HIF_AERR_ADDR i).low (off % 2 ^ 38 % 2 ^ 32)).setR (HIF_AERR_ADDR i).high (off % 2 ^ 38 / 2 ^ 32)).setR (HIF_AERR_INFO i)
    (space + 4 * b2n write + 16 * kind)).setR (HIF_AERR_TIME i) (s.ft % 2 ^ 32)).countWrap HIF_AERR_PROD_PROD

theorem aerr_eq (s : State) (space off kind : Nat) (write : Bool) :
    s.aerr space off write kind = (s.aerrEntry (s.getR HIF_AERR_PROD % 16) space off write kind).raiseVec 2 := rfl

/-- The registers of an entry of the log, and its producer count. -/
def aerrOffs (i : Nat) : List Nat :=
  [(HIF_AERR_INFO i).off, (HIF_AERR_ADDR i).off, (HIF_AERR_ADDR i).off + 4, (HIF_AERR_TIME i).off, HIF_AERR_PROD.off]

theorem aerrEntry_only (s : State) (i space off : Nat) (write : Bool) (kind : Nat) : RegsOnly s (s.aerrEntry i space off write kind) :=
  RegsOnly.set (RegsOnly.setR (RegsOnly.setR (RegsOnly.setR (RegsOnly.setR (RegsOnly.refl s) _ _) _ _) _ _) _ _) _ _

theorem aerrEntry_kept (s : State) (i space off : Nat) (write : Bool) (kind : Nat) :
    RegsKept (aerrOffs i) s (s.aerrEntry i space off write kind) := by
  intro r hr
  simp only [aerrOffs, List.mem_cons, List.not_mem_nil, or_false, not_or] at hr
  obtain ⟨info, low, high, time, prod⟩ := hr
  unfold State.aerrEntry State.countWrap
  rw [State.getR_set_ne _ _ _ _ prod, State.getR_setR_ne _ _ _ _ time, State.getR_setR_ne _ _ _ _ info, State.getR_setR_ne _ _ _ _ high,
    State.getR_setR_ne _ _ _ _ low]

/-- The five registers of an entry lie apart. -/
theorem aerrOffs_apart (i : Nat) : (HIF_AERR_INFO i).off ≠ HIF_AERR_PROD.off ∧ (HIF_AERR_ADDR i).off ≠ HIF_AERR_PROD.off ∧
    (HIF_AERR_ADDR i).off + 4 ≠ HIF_AERR_PROD.off ∧ (HIF_AERR_TIME i).off ≠ HIF_AERR_PROD.off ∧ (HIF_AERR_INFO i).off ≠ (HIF_AERR_TIME i).off ∧
    (HIF_AERR_ADDR i).off ≠ (HIF_AERR_TIME i).off ∧ (HIF_AERR_ADDR i).off + 4 ≠ (HIF_AERR_TIME i).off ∧
    (HIF_AERR_ADDR i).off ≠ (HIF_AERR_INFO i).off ∧ (HIF_AERR_ADDR i).off + 4 ≠ (HIF_AERR_INFO i).off := by
  dsimp only [HIF_AERR_INFO, HIF_AERR_ADDR, HIF_AERR_TIME, HIF_AERR_PROD]
  omega

theorem aerrEntry_entry (s : State) (i : Nat) {space off kind : Nat} (write : Bool) (hs : space < 4) (ho : off < 2 ^ 32) (hk : kind < 16) :
    let t := s.aerrEntry i space off write kind
    t.getR (HIF_AERR_INFO i) = space + 4 * b2n write + 16 * kind ∧ t.getR64 (HIF_AERR_ADDR i) = off ∧ t.getR (HIF_AERR_TIME i) = s.ft % 2 ^ 32 ∧
      t.getR HIF_AERR_PROD = (s.getR HIF_AERR_PROD + 1) % 2 ^ 32 := by
  obtain ⟨infoProd, lowProd, highProd, timeProd, infoTime, lowTime, highTime, lowInfo, highInfo⟩ := aerrOffs_apart i
  have word : space + 4 * b2n write + 16 * kind < 2 ^ 32 := by
    have : b2n write ≤ 1 := by cases write <;> decide
    omega
  dsimp only
  unfold State.aerrEntry State.countWrap State.getR64
  refine ⟨?info, ?addr, ?time, ?prod⟩
  case info => rw [State.getR_set_ne _ _ _ _ infoProd, State.getR_setR_ne _ _ _ _ infoTime, State.getR_setR_same, Nat.mod_eq_of_lt word]
  case addr =>
    have low : (HIF_AERR_ADDR i).low.off = (HIF_AERR_ADDR i).off := rfl
    have high : (HIF_AERR_ADDR i).high.off = (HIF_AERR_ADDR i).off + 4 := rfl
    rw [State.getR_set_ne _ _ _ _ lowProd, State.getR_setR_ne _ _ _ _ lowTime, State.getR_setR_ne _ _ _ _ lowInfo,
      State.getR_setR_ne _ _ _ _ (by rw [low, high]; omega), State.getR_setR_same,
      State.getR_set_ne _ _ _ _ highProd, State.getR_setR_ne _ _ _ _ highTime, State.getR_setR_ne _ _ _ _ highInfo, State.getR_setR_same]
    omega
  case time => rw [State.getR_set_ne _ _ _ _ timeProd, State.getR_setR_same, Nat.mod_mod]
  case prod =>
    have whole (u : State) : u.getR HIF_AERR_PROD = u.get HIF_AERR_PROD_PROD :=
      ((bits_from_zero _ 32).trans (Nat.mod_eq_of_lt (u.getR_lt _))).symm
    rw [whole, State.get_set_same _ _ _ (by decide), ← whole, State.getR_setR_ne _ _ _ _ timeProd.symm, State.getR_setR_ne _ _ _ _ infoProd.symm,
      State.getR_setR_ne _ _ _ _ highProd.symm, State.getR_setR_ne _ _ _ _ lowProd.symm]
    rfl

/-- The entry, the count and the frame of the access-error log. -/
theorem aerr_logs (s : State) {space off kind : Nat} (write : Bool) (hs : space < 4) (ho : off < 2 ^ 32) (hk : kind < 16) :
    let i := s.getR HIF_AERR_PROD % 16
    let t := s.aerr space off write kind
    (t.getR (HIF_AERR_INFO i) = space + 4 * b2n write + 16 * kind ∧ t.getR64 (HIF_AERR_ADDR i) = off ∧ t.getR (HIF_AERR_TIME i) = s.ft % 2 ^ 32 ∧
      t.getR HIF_AERR_PROD = (s.getR HIF_AERR_PROD + 1) % 2 ^ 32) ∧ RegsKept (aerrOffs i) s t ∧
      t = { s with regs := t.regs, host := t.host, out := t.out } := by
  intro i t
  have raised : HostOnly (s.aerrEntry i space off write kind) t := (HostOnly.refl _).raiseVec 2
  have regs (r : Reg) : t.getR r = (s.aerrEntry i space off write kind).getR r := State.getR_congr _ _ r raised.regs
  refine ⟨?_, fun r hr => (regs r).trans (aerrEntry_kept s i space off write kind r hr), ?_⟩
  · unfold State.getR64
    rw [regs, regs, regs, regs, regs]
    exact aerrEntry_entry s i write hs ho hk
  · obtain ⟨h, o, same⟩ := raised
    rw [same, aerrEntry_only s i space off write kind]

/-! The unmask of a vector -/

/-- A word of the MSI-X table stored. -/
def State.storeMsix (s : State) (word d x : Nat) : State := s.modHost fun h => { h with msix := Tbl.write h.msix d word x }

/-- The unmask of a vector: its message leaves when it was pending. -/
theorem msixWrite_unmask (s : State) (v : Nat) : s.msixWrite (4 * v + 3) 0 =
    if bit s.host.msixPending v then
      ((s.storeMsix (4 * v + 3) 1 0).modHost fun h => { h with msixPending := putBits h.msixPending v 1 0 }).sendMsix v
    else s.storeMsix (4 * v + 3) 1 0 := by
  have last : (4 * v + 3) % 4 = 3 := by omega
  have vec : (4 * v + 3) / 4 = v := by omega
  unfold State.msixWrite
  simp only [last, vec, if_true, Nat.zero_mod, true_and]
  rfl

theorem msixWord_storeMsix (s : State) (v w i : Nat) (hi : i < 4) (other : ¬(w = v ∧ i = 3)) :
    (s.storeMsix (4 * v + 3) 1 0).msixWord w i = s.msixWord w i :=
  Tbl.read_write_ne s.host.msix 1 (if i = 3 then 1 else 0) (4 * v + 3) (4 * w + i) 0 (by omega)

theorem msixWord_storeMsix_same (s : State) (v : Nat) : (s.storeMsix (4 * v + 3) 1 0).msixWord v 3 = 0 :=
  Tbl.read_write_same s.host.msix 1 (4 * v + 3) 0

theorem exec_msixUnmask {s : State} (q : Quiet s) (hw : s.inReset = false) (vector : VecIx) :
    exec (.msixUnmask vector) s = .next (s.msixWrite (4 * vector.val + 3) 0) := by
  have inTable : inMsix (0x12000 + 16 * vector.val + 12) = true := by
    have := vector.isLt
    simp only [inMsix, Bool.and_eq_true, decide_eq_true_eq]
    omega
  have word : (0x12000 + 16 * vector.val + 12 - 0x12000) / 4 = 4 * vector.val + 3 := by omega
  have small := vector.isLt
  change done (s.busWrite hostReq (0x12000 + 16 * vector.val + 12) 4 0) = _
  rw [s.busWrite_word hostReq (by omega) (by omega) (by decide), s.write4_msix hostReq hw inTable, word]
  exact done_quiet (((HostOnly.refl s).msixWrite _ _).quiet q)

theorem msixUnmask_sends {s : State} (v : Nat) :
    let t := s.msixWrite (4 * v + 3) 0
    t.msixWord v 3 = 0 ∧ (∀ w i, i < 4 → ¬(w = v ∧ i = 3) → t.msixWord w i = s.msixWord w i) ∧
      (bit s.host.msixPending v = false → t.out = s.out ∧ t.host.msixPending = s.host.msixPending) ∧
      (bit s.host.msixPending v = true → bit t.host.msixPending v = false ∧
        t.out = s.out ++ [.msix v (s.msixWord v 0 + 2 ^ 32 * s.msixWord v 1) (s.msixWord v 2)]) ∧ t.regs = s.regs := by
  dsimp only
  rw [msixWrite_unmask]
  cases pending : bit s.host.msixPending v with
  | false =>
    rw [if_neg Bool.false_ne_true]
    exact ⟨msixWord_storeMsix_same s v, fun w i => msixWord_storeMsix s v w i, fun _ => ⟨rfl, rfl⟩, fun h => absurd h Bool.false_ne_true, rfl⟩
  | true =>
    rw [if_pos rfl]
    refine ⟨msixWord_storeMsix_same s v, fun w i => msixWord_storeMsix s v w i, fun h => absurd h.symm Bool.false_ne_true, fun _ => ⟨?_, ?_⟩, rfl⟩
    · exact bit_putBits_same _ _ _
    · rw [← msixWord_storeMsix s v v 0 (by decide) (by omega), ← msixWord_storeMsix s v v 1 (by decide) (by omega),
        ← msixWord_storeMsix s v v 2 (by decide) (by omega)]
      rfl

/-- Settles O20. -/
theorem errorLogAndUnmask : Obligations.ErrorLogAndUnmask := by
  refine ⟨fun s space off kind write hs ho hk => ?log, fun vector s q hw => ⟨_, exec_msixUnmask q hw vector, msixUnmask_sends vector.val⟩⟩
  case log =>
    obtain ⟨⟨info, addr, time, prod⟩, kept, rest⟩ := aerr_logs s write hs ho hk
    exact ⟨info, addr, time, prod, kept, rest⟩

/-! The host's commands -/

/-- Settles O21: each command is defined as the host write it stands for. -/
theorem hostCommandsAreWrites : Obligations.HostCommandsAreWrites := by
  intro core ring port dom entry v s
  refine ⟨?_, ?_, ?_⟩
  all_goals
    repeat refine List.forall_mem_cons.mpr ⟨rfl, ?_⟩
    exact List.forall_mem_nil _

end Sys2Proof.Machine
end

section
/-! The states of a core (R48, R57, R72, R73, R80, R407). -/

namespace Sys2Proof.Machine

open Sys2Proof

theorem bits_zero (lo width : Nat) : bits 0 lo width = 0 := by
  rw [bits, Nat.zero_div, Nat.zero_mod]

/-! What a core's changes leave alone -/

theorem caughtUp_getR (s : State) (L : Nat) {r : Reg} (replay : r.off ≠ (DET_CORE_REPLAY L).off) (count : r.off ≠ DET_REPLAYS.off) :
    (s.caughtUp L).getR r = s.getR r := by
  unfold State.caughtUp
  split
  · exact (State.getR_set_ne _ _ _ _ count).trans (State.getR_set_ne s _ _ _ replay)
  · rfl

theorem takeCkpt_getR (s : State) (L : Nat) {r : Reg} (replay : r.off ≠ (DET_CORE_REPLAY L).off) (count : r.off ≠ DET_REPLAYS.off)
    (log : r.off ≠ (DET_CORE_LOG L).off) : (s.takeCkpt L).getR r = s.getR r := by
  unfold State.takeCkpt State.showLog
  dsimp only
  rw [State.getR_set_ne _ _ _ _ log, State.getR_set_ne _ _ _ _ log, State.getR_set_ne _ _ _ _ replay, State.getR_set_ne _ _ _ _ replay]
  exact caughtUp_getR s L replay count

theorem caughtUp_cores (s : State) (L : Nat) : (s.caughtUp L).cores = s.cores := by
  unfold State.caughtUp
  split
  · rw [State.count_cores, State.modDet_cores, State.set_cores]
  · rfl

theorem takeCkpt_core (s : State) (L M : Nat) : (s.takeCkpt L).core M = s.core M := by
  refine State.core_congr s _ M ?_
  unfold State.takeCkpt State.showLog
  simp only [State.set_cores, State.modDet_cores, caughtUp_cores]

/-- The producer counts of a core's completion rings cleared. -/
def State.clearCprod (s : State) (L : Nat) (qs : List Nat) : State := qs.foldl (fun s q => s.setR (CORE_DMA_CPROD L q) 0) s

theorem clearCprod_getR (s : State) (L : Nat) {r : Reg} {qs : List Nat} (cprod : ∀ q ∈ qs, r.off ≠ (CORE_DMA_CPROD L q).off) :
    (s.clearCprod L qs).getR r = s.getR r := by
  induction qs generalizing s with
  | nil => rfl
  | cons q qs ih =>
    obtain ⟨first, rest⟩ := List.forall_mem_cons.mp cprod
    exact (ih _ rest).trans (s.getR_setR_ne _ _ _ first)

theorem clearCprod_cores (s : State) (L : Nat) (qs : List Nat) : (s.clearCprod L qs).cores = s.cores := by
  induction qs generalizing s with
  | nil => rfl
  | cons q qs ih => exact ih _

theorem freshCore_eq (s : State) (L : Nat) : s.freshCore L =
    ((((((s.clearCore L).modDet L fun d => { seg := d.seg }).setR (SEQ_PC L) 0).setR (SEQ_FAULT L) 0).setR (CORE_EXC_COUNT L) 0).clearCprod L
      (List.range 4)).setR (DET_CORE_REPLAY L) 0 := rfl

theorem clearCore_core (s : State) (L : Nat) : (s.clearCore L).core L = { job := (s.core L).job } := State.core_setCore_same _ L _

/-- The start of a job or of a core by hand leaves nothing in a core but its job (R57, R80). -/
theorem freshCore_core (s : State) (L : Nat) : (s.freshCore L).core L = { job := (s.core L).job } := by
  rw [freshCore_eq]
  refine Eq.trans (State.core_congr (s.clearCore L) _ L ?_) (clearCore_core s L)
  simp only [State.setR_cores, clearCprod_cores, State.modDet_cores]

/-- The start of a job or of a core by hand begins at word 0, without a fault. -/
theorem freshCore_pc (s : State) (L : Nat) : (s.freshCore L).getR (SEQ_PC L) = 0 ∧ (s.freshCore L).getR (SEQ_FAULT L) = 0 := by
  have pcReplay : (SEQ_PC L).off ≠ (DET_CORE_REPLAY L).off := by dsimp only [SEQ_PC, DET_CORE_REPLAY]; omega
  have faultReplay : (SEQ_FAULT L).off ≠ (DET_CORE_REPLAY L).off := by dsimp only [SEQ_FAULT, DET_CORE_REPLAY]; omega
  have pcCount : (SEQ_PC L).off ≠ (CORE_EXC_COUNT L).off := by dsimp only [SEQ_PC, CORE_EXC_COUNT]; omega
  have faultCount : (SEQ_FAULT L).off ≠ (CORE_EXC_COUNT L).off := by dsimp only [SEQ_FAULT, CORE_EXC_COUNT]; omega
  have pcFault : (SEQ_PC L).off ≠ (SEQ_FAULT L).off := by dsimp only [SEQ_PC, SEQ_FAULT]; omega
  have pcRing : ∀ q ∈ List.range 4, (SEQ_PC L).off ≠ (CORE_DMA_CPROD L q).off := fun q hq => by
    have := List.mem_range.mp hq
    dsimp only [SEQ_PC, CORE_DMA_CPROD]
    omega
  have faultRing : ∀ q ∈ List.range 4, (SEQ_FAULT L).off ≠ (CORE_DMA_CPROD L q).off := fun q hq => by
    have := List.mem_range.mp hq
    dsimp only [SEQ_FAULT, CORE_DMA_CPROD]
    omega
  rw [freshCore_eq, State.getR_setR_ne _ _ _ _ pcReplay, State.getR_setR_ne _ _ _ _ faultReplay, clearCprod_getR _ _ pcRing,
    clearCprod_getR _ _ faultRing, State.getR_setR_ne _ _ _ _ pcCount, State.getR_setR_ne _ _ _ _ faultCount, State.getR_setR_ne _ _ _ _ pcFault,
    State.getR_setR_same, State.getR_setR_same]
  exact ⟨rfl, rfl⟩

/-! The registers of CORE_CTRL and CORE_STATUS lie apart -/

theorem status_ne_ctrl (L : Nat) : (CORE_STATUS L).off ≠ (CORE_CTRL L).off := by dsimp only [CORE_STATUS, CORE_CTRL]; omega

theorem cst_setCtrl (s : State) (L : Nat) (f : Fld) (v : Nat) (h : f.reg = CORE_CTRL L) : (s.set f v).cst L = s.cst L :=
  State.get_set_ne s f (CORE_STATUS_STATE L) v (by rw [h]; exact status_ne_ctrl L)

theorem patLive_setCtrl (s : State) (L : Nat) (f : Fld) (v : Nat) (h : f.reg = CORE_CTRL L) : (s.set f v).patLive = s.patLive :=
  State.flag_set_ne s f PAT_STATUS_LIVE_VALID v (by rw [h]; dsimp only [PAT_STATUS_LIVE_VALID, PAT_STATUS, CORE_CTRL]; omega)

theorem ctrlFlag_setCst (s : State) (L st : Nat) (f : Fld) (h : f.reg = CORE_CTRL L) : (s.setCst L st).flag f = s.flag f := by
  unfold State.flag
  rw [get_setCst_ne s L st f (by rw [h]; exact (status_ne_ctrl L).symm)]

/-! Enable -/

theorem coreOn_off {s : State} {L : Nat} (h : s.cst L = stOff) :
    s.coreOn L = if s.patLive then (s.set (CORE_CTRL_EN L) 1).zeroCore L else s.set (CORE_CTRL_EN L) 1 := by
  unfold State.coreOn
  dsimp only
  rw [if_pos ((cst_setCtrl s L _ _ rfl).trans h), patLive_setCtrl s L _ _ rfl]

theorem coreOn_shutdown {s : State} {L : Nat} (h : s.cst L = stShutdown) :
    s.coreOn L = (s.set (CORE_CTRL_EN L) 1).set (CORE_CTRL_ENABLE_PENDING L) 1 := by
  have same := (cst_setCtrl s L (CORE_CTRL_EN L) 1 rfl).trans h
  unfold State.coreOn
  dsimp only
  rw [if_neg (by rw [same]; decide), if_pos same]

theorem coreOn_other {s : State} {L : Nat} (h : s.cst L ≠ stOff) (h' : s.cst L ≠ stShutdown) : s.coreOn L = s.set (CORE_CTRL_EN L) 1 := by
  rw [← cst_setCtrl s L (CORE_CTRL_EN L) 1 rfl] at h h'
  unfold State.coreOn
  dsimp only
  rw [if_neg h, if_neg h']

/-- What CORE_ENABLE comes to (R72, R73, R407). -/
theorem exec_coreEnable {core : CoreIx} {v : Word} {s : State} (taken : Taken s (CORE_CTRL core.val)) (noStart : bit v.toNat 1 = false) :
    exec (.coreEnable core v) s =
      done (if s.cst core.val = stFenced then s.aerr 0 (CORE_CTRL core.val).off true 2 else s.coreOn core.val) := by
  change done (s.hostWrite (CORE_CTRL core.val) (setBit v 0)) = _
  rw [s.hostWrite_CORE_CTRL core _ taken]
  unfold State.coreCtrl
  rw [bit_setBit_same v 0 (by decide), bit_setBit_ne v 0 1 (by decide) (by decide), noStart, Bool.true_and, if_pos rfl, if_neg Bool.false_ne_true]
  by_cases fenced : s.cst core.val = stFenced
  · rw [if_pos fenced, if_pos (beq_iff_eq.mpr fenced)]
    rfl
  · rw [if_neg fenced, if_neg (fun e => fenced (beq_iff_eq.mp e))]

theorem zeroCore_zeroes (s : State) (L : Nat) :
    let t := (s.set (CORE_CTRL_EN L) 1).zeroCore L
    t.cst L = stZeroing ∧ t.core L = { s.core L with zeroEnd := s.now + 512 } ∧ (∀ M, M ≠ L → t.core M = s.core M) ∧
      t.flag (CORE_CTRL_EN L) = true ∧ RegsKept [(CORE_CTRL L).off, (CORE_STATUS L).off] s t ∧ t = { s with regs := t.regs, cores := t.cores } := by
  intro t
  have only : RegsOnly s ((s.set (CORE_CTRL_EN L) 1).setCst L stZeroing) := by
    rw [RegsOnly, setCst_only (s.set (CORE_CTRL_EN L) 1) L stZeroing]
    rfl
  have cores : ((s.set (CORE_CTRL_EN L) 1).setCst L stZeroing).cores = s.cores := by rw [only]
  have now : ((s.set (CORE_CTRL_EN L) 1).setCst L stZeroing).now = s.now := by rw [only]
  have same : t.regs = ((s.set (CORE_CTRL_EN L) 1).setCst L stZeroing).regs := rfl
  refine ⟨?state, ?core, fun M other => ?others, ?enabled, fun r hr => ?kept, ?rest⟩
  case state => exact (State.get_congr _ t _ same).trans (cst_setCst _ L stZeroing)
  case core =>
    rw [← State.core_congr s _ L cores, ← now]
    exact State.core_modCore_same _ L fun c => { c with zeroEnd := ((s.set (CORE_CTRL_EN L) 1).setCst L stZeroing).now + 512 }
  case others =>
    rw [← State.core_congr s _ M cores]
    exact State.core_modCore_ne _ L M (fun c => { c with zeroEnd := ((s.set (CORE_CTRL_EN L) 1).setCst L stZeroing).now + 512 }) other
  case enabled =>
    exact (State.flag_congr _ t _ same).trans ((ctrlFlag_setCst _ L stZeroing (CORE_CTRL_EN L) rfl).trans
      (State.flag_set_same s (CORE_CTRL_EN L) 1 (by decide : 0 + 1 ≤ 32)))
  case kept =>
    simp only [List.mem_cons, List.not_mem_nil, or_false, not_or] at hr
    exact (State.getR_congr _ t r same).trans ((getR_setCst_ne _ L stZeroing r hr.2).trans (s.getR_set_ne _ r 1 hr.1))
  case rest =>
    have same : t = { (s.set (CORE_CTRL_EN L) 1).setCst L stZeroing with cores := t.cores } := rfl
    rw [same, only]

/-! Disable -/

theorem exec_coreDisable {core : CoreIx} {v : Word} {s : State} (taken : Taken s (CORE_CTRL core.val)) (noStart : bit v.toNat 1 = false) :
    exec (.coreDisable core v) s = done (s.coreOff core.val) := by
  change done (s.hostWrite (CORE_CTRL core.val) (clearBit v 0)) = _
  rw [s.hostWrite_CORE_CTRL core _ taken]
  unfold State.coreCtrl
  rw [bit_clearBit_same v 0 (by decide), bit_clearBit_ne v 0 1 (by decide) (by decide), noStart, Bool.false_and, if_neg Bool.false_ne_true,
    if_neg Bool.false_ne_true, if_neg Bool.false_ne_true]

/-- A core that stops shows SHUTDOWN (R73). -/
def State.toShutdown (s : State) (L : Nat) : State := ((s.stopCore L).setCst L stShutdown).showTakeover

theorem shutCore_active {s : State} {L : Nat} (h : s.cst L ∈ [stIdle, stRun, stHalted, stFaulted]) :
    s.shutCore L = (s.toShutdown L).modCore L fun c => { c with shutAt := (s.toShutdown L).now } := by
  simp only [List.mem_cons, List.not_mem_nil, or_false] at h
  refine if_pos ?_
  obtain h | h | h | h := h
  all_goals simp [h]

theorem status_ne_takeover {L : Nat} (hL : L < 144) : (CORE_STATUS L).off ≠ DET_STATUS.off := by
  dsimp only [CORE_STATUS, DET_STATUS]
  omega

theorem shutCore_cst {s : State} {L : Nat} (hL : L < 144) (h : s.cst L ∈ [stIdle, stRun, stHalted, stFaulted]) :
    (s.shutCore L).cst L = stShutdown := by
  rw [shutCore_active h]
  have regs : ((s.toShutdown L).modCore L fun c => { c with shutAt := (s.toShutdown L).now }).cst L = (s.toShutdown L).cst L :=
    State.get_congr _ _ _ rfl
  rw [regs]
  exact (State.get_set_ne _ _ _ _ (status_ne_takeover hL)).trans (cst_setCst _ L stShutdown)

theorem shutCore_other {s : State} {L : Nat} (h : s.cst L ∈ [stOff, stZeroing, stShutdown]) : s.shutCore L = s := by
  simp only [List.mem_cons, List.not_mem_nil, or_false] at h
  refine if_neg ?_
  rcases h with h | h | h
  all_goals rw [h]; decide

/-! Start by hand -/

/-- What CORE_START with EN as given comes to on a core that is not fenced (R72, R80). -/
theorem exec_coreStart {core : CoreIx} {v : Word} {s : State} (taken : Taken s (CORE_CTRL core.val)) (enable : bit v.toNat 0 = true)
    (fenced : s.cst core.val ≠ stFenced) :
    exec (.coreStart core v) s = done ((s.coreOn core.val).startCore core.val (CORE_CTRL core.val).off) := by
  change done (s.hostWrite (CORE_CTRL core.val) (setBit v 1)) = _
  rw [s.hostWrite_CORE_CTRL core _ taken]
  unfold State.coreCtrl
  rw [bit_setBit_same v 1 (by decide), bit_setBit_ne v 1 0 (by decide) (by decide), enable, Bool.true_and, if_pos rfl, if_pos rfl,
    if_neg (fun e => fenced (beq_iff_eq.mp e))]

/-- The core that a start by hand takes, before it is cleared. -/
def State.handStarted (s : State) (L : Nat) : State :=
  let u : State := { s with host := { s.host with nextJob := s.host.nextJob + 1 }, jobs := s.jobs ++ [handJob s.host.nextJob L] }
  u.modCore L fun c => { c with job := some s.host.nextJob }

theorem startCore_idle {s : State} {L : Nat} (at_ : Nat) (idle : s.cst L = stIdle) (free : (s.core L).job = none) :
    s.startCore L at_ = ((((s.handStarted L).freshCore L).takeCkpt L).setCst L stRun) := by
  refine if_neg ?_
  rw [idle, free]
  decide

theorem startCore_busy {s : State} {L : Nat} (at_ : Nat) (busy : s.cst L ≠ stIdle) : s.startCore L at_ = s.aerr 0 at_ true 2 :=
  if_pos (.inl busy)

/-- A core started by hand runs from word 0, and holds nothing but its job. -/
theorem startCore_runs {s : State} {L : Nat} (at_ : Nat) (hL : L < 144) (idle : s.cst L = stIdle) (free : (s.core L).job = none) :
    let k := s.startCore L at_
    k.cst L = stRun ∧ k.get (SEQ_PC_INDEX L) = 0 ∧ k.getR (SEQ_FAULT L) = 0 ∧ k.core L = { job := some s.host.nextJob } := by
  obtain ⟨pc, fault⟩ := freshCore_pc (s.handStarted L) L
  have kept (r : Reg) (status : r.off ≠ (CORE_STATUS L).off) (replay : r.off ≠ (DET_CORE_REPLAY L).off) (count : r.off ≠ DET_REPLAYS.off)
      (log : r.off ≠ (DET_CORE_LOG L).off) :
      (((((s.handStarted L).freshCore L).takeCkpt L).setCst L stRun)).getR r = ((s.handStarted L).freshCore L).getR r :=
    (getR_setCst_ne _ L stRun r status).trans (takeCkpt_getR _ L replay count log)
  dsimp only
  rw [startCore_idle at_ idle free]
  refine ⟨cst_setCst _ L stRun, ?pc, ?fault, ?core⟩
  case pc =>
    rw [State.get, kept (SEQ_PC_INDEX L).reg]
    · rw [show (SEQ_PC_INDEX L).reg = SEQ_PC L from rfl, pc, bits_zero]
    all_goals dsimp only [SEQ_PC_INDEX, SEQ_PC, CORE_STATUS, DET_CORE_REPLAY, DET_REPLAYS, DET_CORE_LOG]; omega
  case fault =>
    rw [kept (SEQ_FAULT L)]
    · exact fault
    all_goals dsimp only [SEQ_FAULT, CORE_STATUS, DET_CORE_REPLAY, DET_REPLAYS, DET_CORE_LOG]; omega
  case core =>
    have job : (s.handStarted L).core L = { s.core L with job := some s.host.nextJob } := State.core_modCore_same _ _ _
    have cores := setCst_only (((s.handStarted L).freshCore L).takeCkpt L) L stRun
    rw [State.core_congr (((s.handStarted L).freshCore L).takeCkpt L) _ L (by rw [cores]), takeCkpt_core, freshCore_core, job]

theorem coreControl : CoreControl := by
  refine ⟨fun core v s q taken noStart => ?enable, fun core v s q taken noStart => ?disable, fun core v s q taken enable => ?start⟩
  case enable =>
    have run := exec_coreEnable taken noStart
    refine ⟨fun off dead => ?_, fun off live => ?_, fun shut => ?_, fun fenced => ?_⟩
    · rw [if_neg (by rw [off]; decide), coreOn_off off, dead, if_neg Bool.false_ne_true] at run
      exact run
    · rw [if_neg (by rw [off]; decide), coreOn_off off, live, if_pos rfl] at run
      have zeroes := zeroCore_zeroes s core.val
      refine ⟨_, run.trans ?_, zeroes⟩
      obtain ⟨-, -, -, -, -, rest⟩ := zeroes
      exact done_same q (by rw [rest]) (by rw [rest])
    · rw [if_neg (by rw [shut]; decide), coreOn_shutdown shut] at run
      exact run
    · rw [if_pos fenced] at run
      exact run
  case disable =>
    intro L u
    have run := exec_coreDisable taken noStart
    have same : u.cst L = s.cst L := (cst_setCtrl _ L _ _ rfl).trans (cst_setCtrl s L _ _ rfl)
    refine ⟨fun active => ⟨_, run, rfl, shutCore_cst core.isLt (same ▸ active)⟩, fun other => run.trans ?_⟩
    exact congrArg done (shutCore_other (same ▸ other))
  case start =>
    intro L
    refine ⟨fun idle free => ?_, fun busy => ?_⟩
    · have run := exec_coreStart taken enable (by rw [idle]; decide)
      rw [coreOn_other (by rw [idle]; decide) (by rw [idle]; decide)] at run
      exact ⟨_, run, startCore_runs _ core.isLt ((cst_setCtrl s L _ _ rfl).trans idle) free⟩
    · simp only [List.mem_cons, List.not_mem_nil, or_false] at busy
      have state : s.cst L ≠ stOff ∧ s.cst L ≠ stShutdown ∧ s.cst L ≠ stFenced ∧ s.cst L ≠ stIdle := by
        rcases busy with h | h | h
        all_goals rw [h]; decide
      obtain ⟨off, shut, fenced, idle⟩ := state
      have run := exec_coreStart taken enable fenced
      rw [coreOn_other off shut, startCore_busy _ (by rw [cst_setCtrl s core.val _ _ rfl]; exact idle)] at run
      exact run

/-! Zeroing and shutdown -/

theorem exec_zeroingDone {core : CoreIx} {s : State} (h : (s.fatal || s.cst core.val != stZeroing) = false) :
    let u := s.passTo (s.core core.val).zeroEnd
    let z := match u.phys core.val with
      | some P => u.sramZero P
      | none => u
    exec (.zeroingDone core) s = done (z.setCst core.val (if z.flag (CORE_CTRL_EN core.val) then stIdle else stOff)) :=
  if_neg (by rw [h]; exact Bool.false_ne_true)

theorem exec_zeroingDone_other {core : CoreIx} {s : State} (h : s.cst core.val ≠ stZeroing) : exec (.zeroingDone core) s = done s :=
  if_pos (by rw [bne_iff_ne.mpr h, Bool.or_true])

theorem exec_coreShutdownDone {core : CoreIx} {s : State} (h : (s.fatal || s.cst core.val != stShutdown) = false) :
    let w := if (s.core core.val).left.isEmpty then s else s.passTo ((s.core core.val).shutAt + s.ageLimit)
    let u := w.endShut core.val
    exec (.coreShutdownDone core) s = done (if u.flag (CORE_CTRL_EN core.val) then u.zeroCore core.val else u) :=
  if_neg (by rw [h]; exact Bool.false_ne_true)

theorem exec_coreShutdownDone_other {core : CoreIx} {s : State} (h : s.cst core.val ≠ stShutdown) :
    exec (.coreShutdownDone core) s = done s :=
  if_pos (by rw [bne_iff_ne.mpr h, Bool.or_true])

/-- The job of a core started by hand ends with it. -/
def State.endHand (s : State) (L : Nat) : State :=
  match s.coreJob L with
  | some j => if j.ring.isNone then ({ s with jobs := s.jobs.erase j }.modCore L fun c => { c with job := none }) else s
  | none => s

theorem endHand_of_none {s : State} {L : Nat} (h : (s.core L).job = none) : s.endHand L = s := by
  unfold State.endHand State.coreJob
  rw [h]
  rfl

theorem endShut_eq (s : State) (L : Nat) :
    s.endShut L = (((s.endHand L).clearCore L).set (CORE_CTRL_ENABLE_PENDING L) 0).setCst L stOff := rfl

theorem endShut_core (s : State) (L : Nat) : (s.endShut L).core L = { job := ((s.endHand L).core L).job } := by
  rw [endShut_eq]
  have cores := setCst_only (((s.endHand L).clearCore L).set (CORE_CTRL_ENABLE_PENDING L) 0) L stOff
  refine Eq.trans (State.core_congr ((s.endHand L).clearCore L) _ L ?_) (clearCore_core (s.endHand L) L)
  rw [cores, State.set_cores]

/-- What a core that has left SHUTDOWN shows (R73). -/
theorem endShut_shows (s : State) (L : Nat) :
    let u := s.endShut L
    u.core L = { job := (u.core L).job } ∧ u.cst L = stOff ∧ u.flag (CORE_CTRL_ENABLE_PENDING L) = false := by
  refine ⟨by rw [endShut_core], cst_setCst _ L stOff, ?_⟩
  rw [endShut_eq]
  exact (ctrlFlag_setCst _ L stOff (CORE_CTRL_ENABLE_PENDING L) rfl).trans
    (State.flag_set_same _ (CORE_CTRL_ENABLE_PENDING L) 0 (by decide : 2 + 1 ≤ 32))

theorem coreZeroingAndShutdown : CoreZeroingAndShutdown := by
  refine ⟨fun core s q hf => ?zeroing, fun core s q hf => ?shutdown⟩
  case zeroing =>
    intro L u z
    refine ⟨fun zeroing enabled => ⟨?_, cst_setCst _ L stIdle⟩, fun zeroing disabled => ⟨?_, cst_setCst _ L stOff⟩, fun other => ?_⟩
    · exact (exec_zeroingDone (by rw [hf, zeroing]; rfl)).trans (congrArg (fun st => done (z.setCst L st)) (if_pos enabled))
    · exact (exec_zeroingDone (by rw [hf, zeroing]; rfl)).trans
        (congrArg (fun st => done (z.setCst L st)) (if_neg (ne_true_of_eq_false disabled)))
    · exact (exec_zeroingDone_other other).trans (done_quiet q)
  case shutdown =>
    intro L
    refine ⟨fun shut => ?_, fun other => (exec_coreShutdownDone_other other).trans (done_quiet q)⟩
    intro w u
    obtain ⟨core', state, pending⟩ := endShut_shows w L
    have run := exec_coreShutdownDone (core := core) (s := s) (by rw [hf, shut]; rfl)
    simp only [List.isEmpty_iff] at run
    refine ⟨core', state, pending, fun noJob noAnswers => ?_, fun disabled => run.trans (congrArg done (if_neg ?_)),
      fun enabled => run.trans (congrArg done (if_pos enabled))⟩
    · have same : w = s := if_pos noAnswers
      rw [show u = w.endShut L from rfl, same, endShut_core, endHand_of_none noJob, noJob]
    · rw [disabled]
      exact Bool.false_ne_true

/-- Settles O22. -/
theorem coreStates : Obligations.CoreStates := ⟨coreControl, coreZeroingAndShutdown⟩

end Sys2Proof.Machine
end

section
/-! Jobs: launch and end (R76 to R79, R454 to R457). -/

namespace Sys2Proof.Machine

open Sys2Proof

/-- The step counter and the collectives of a group when a job of it is launched (R338, R340). -/
def State.launchGroup (s : State) (j : Job) : State :=
  let u := s.set64 (DET_STEP_STEP j.group) j.stepStart
  { u with det := { u.det with lastCol := Tbl.drop u.det.lastCol j.group, prevCol := Tbl.drop u.det.prevCol j.group
                               heldBar := Tbl.drop u.det.heldBar j.group } }

theorem launchGroup_eq (s : State) (j : Job) : s.launchGroup j =
    { s.set64 (DET_STEP_STEP j.group) j.stepStart with
      det := { s.det with lastCol := Tbl.drop s.det.lastCol j.group, prevCol := Tbl.drop s.det.prevCol j.group
                          heldBar := Tbl.drop s.det.heldBar j.group } } := by
  unfold State.launchGroup
  dsimp only
  rw [State.set64_det]

/-- A core given its program, cleared and checkpointed. -/
def Job.loadCore (j : Job) (s : State) (L : Nat) : State :=
  let z := if j.zeroSram then s.zeroGrant L j.sram else s
  (((z.copyProgram j L).set (SEQ_PROG_BASE_BASE L) ((j.sram - j.progLen) / 8)).freshCore L).takeCkpt L

/-- A job launched, before its cores run. -/
def State.launch (s : State) (j : Job) : State :=
  (j.cores.foldl j.loadCore (s.launchGroup j)).modJob j.key fun x => { x with launched := true }

theorem exec_jobLaunch {core : CoreIx} {s : State} {j : Job} (hj : s.coreJob core.val = some j)
    (go : (s.fatal || j.launched || j.aborting || !s.imageOpen j || !(j.cores.all fun L => s.cst L == stIdle)) = false) :
    exec (.jobLaunch core) s = done (if j.held then s.launch j else (s.launch j).runJob j) := by
  change execJobLaunch core s = _
  unfold execJobLaunch
  rw [hj]
  dsimp only
  rw [if_neg (ne_true_of_eq_false go)]
  rfl

theorem exec_jobEnd {core : CoreIx} {s : State} {j : Job} {r tag : Nat} (hf : s.fatal = false) (hj : s.coreJob core.val = some j)
    (hr : j.ring = some (r, tag)) : exec (.jobEnd core) s =
      if !s.jobEnded j || s.cqFull r then done s
      else done (if (((s.releaseJob j).traceJobEnd j.cores j.group j.id (s.jobRec j tag).status (s.jobRec j tag).step).writeCq r (s.jobRec j tag)).flag
          OBS_CTRL_SNAP_ON_JOB
        then (((s.releaseJob j).traceJobEnd j.cores j.group j.id (s.jobRec j tag).status (s.jobRec j tag).step).writeCq r (s.jobRec j tag)).snapshot
        else ((s.releaseJob j).traceJobEnd j.cores j.group j.id (s.jobRec j tag).status (s.jobRec j tag).step).writeCq r (s.jobRec j tag)) := by
  change execJobEnd core s = _
  unfold execJobEnd
  rw [hj]
  dsimp only
  rw [if_neg (ne_true_of_eq_false hf), hr]

theorem exec_jobEnd_fatal {core : CoreIx} {s : State} {j : Job} (hf : s.fatal = true) (hj : s.coreJob core.val = some j) :
    exec (.jobEnd core) s = done s := by
  change execJobEnd core s = _
  unfold execJobEnd
  rw [hj]
  exact if_pos hf

/-- Settles O23. -/
theorem jobLaunchAndEnd : Obligations.JobLaunchAndEnd := by
  refine ⟨fun core s j q hf hj launched aborting image idle => ?launch, fun core s j r tag q hf hj ring ended room => ?ends,
    fun core s j r tag q hj ring waits => ?waits⟩
  case launch =>
    have all : (j.cores.all fun L => s.cst L == stIdle) = true := List.all_eq_true.mpr fun L hL => beq_iff_eq.mpr (idle L hL)
    have run := exec_jobLaunch hj (by rw [hf, launched, aborting, image, all]; rfl)
    rw [State.launch, launchGroup_eq] at run
    refine ⟨fun held => ?_, fun held => ?_⟩
    · rw [if_neg (ne_true_of_eq_false held)] at run
      exact run
    · rw [if_pos held] at run
      exact run
  case ends =>
    refine (exec_jobEnd hf hj ring).trans (if_neg ?_)
    rw [ended, room]
    exact Bool.false_ne_true
  case waits =>
    cases hf : s.fatal with
    | true => exact (exec_jobEnd_fatal hf hj).trans (done_quiet q)
    | false =>
      refine (exec_jobEnd hf hj ring).trans ((if_pos ?_).trans (done_quiet q))
      rcases waits with running | full
      · rw [running]
        rfl
      · rw [full, Bool.or_true]

end Sys2Proof.Machine
end

section
/-! The control of a ring, and its completion records (R451, R455 to R458, R473). -/

namespace Sys2Proof.Machine

open Sys2Proof

/-! Bits of a stored value -/

/-- The bits of a written value, by the access codes of its row (R9). -/
theorem keptValue_testBit (row : RegRow) (old v : Nat) {i : Nat} (hi : i < 32) : (keptValue row old v).testBit i =
    if row.rwp.testBit i then v.testBit i else if row.w1c.testBit i && v.testBit i then false
    else if row.rw.testBit i then v.testBit i else old.testBit i := by
  unfold keptValue maskIn
  simp only [Nat.testBit_or, Nat.testBit_and, Nat.testBit_xor, testBit_ones hi, Nat.zero_testBit]
  cases row.rwp.testBit i
  · cases row.w1c.testBit i
    · cases row.rw.testBit i
      · simp
      · simp
    · cases v.testBit i
      · simp [Bool.and_comm]
      · simp
  · simp

/-- A field of RW bits of a register that no other access code touches there takes the value's bits. -/
theorem bits_keptValue_rw {row : RegRow} (old v : Nat) {lo width : Nat} (le : lo + width ≤ 32)
    (h : ∀ i < width, row.rw.testBit (lo + i) = true ∧ row.w1c.testBit (lo + i) = false) :
    bits (keptValue row old v) lo width = bits v lo width := by
  refine bits_congr fun i hi => ?_
  obtain ⟨rw, w1c⟩ := h i hi
  rw [keptValue_testBit row old v (by omega), rw, w1c]
  simp

/-- A field of RWP bits takes the value's bits. -/
theorem bits_keptValue_rwp {row : RegRow} (old v : Nat) {lo width : Nat} (le : lo + width ≤ 32) (h : ∀ i < width, row.rwp.testBit (lo + i) = true) :
    bits (keptValue row old v) lo width = bits v lo width :=
  bits_congr fun i hi => by rw [keptValue_testBit row old v (by omega), if_pos (h i hi)]

/-! HIF_SQ_CFG -/

theorem sqCfg_row (ring : RingIx) {row : RegRow} {ix : List Nat} (h : regAt (HIF_SQ_CFG ring.val).off = some (row, ix)) :
    row.rw = 256 ∧ row.rwp = 31 ∧ row.w1c = 0 ∧ row.rwb = 0 ∧ regOf (HIF_SQ_CFG ring.val).off = HIF_SQ_CFG ring.val := by
  have table : ∀ r : Fin 16, (regAt (HIF_SQ_CFG r.val).off).any (fun x => x.1.rw == 256 && x.1.rwp == 31 && x.1.w1c == 0 && x.1.rwb == 0) = true ∧
      regOf (HIF_SQ_CFG r.val).off = HIF_SQ_CFG r.val := by decide +kernel
  obtain ⟨fields, own⟩ := table ring
  rw [h] at fields
  simp only [Option.any_some, Bool.and_eq_true, beq_iff_eq] at fields
  obtain ⟨⟨⟨rw, rwp⟩, w1c⟩, rwb⟩ := fields
  exact ⟨rw, rwp, w1c, rwb, own⟩

/-- The RWP bits of a ring's configuration are open while the ring is off. -/
theorem rwpOpen_sqCfg (s : State) (ring : RingIx) : s.rwpOpen (HIF_SQ_CFG ring.val).off = !(s.ring ring.val).on := by
  have small := ring.isLt
  have index : ((HIF_SQ_CFG ring.val).off - 0x11000) / 0x40 = ring.val := by
    dsimp only [HIF_SQ_CFG]
    omega
  have block : 0x11000 ≤ (HIF_SQ_CFG ring.val).off ∧ (HIF_SQ_CFG ring.val).off < 0x12000 := by
    dsimp only [HIF_SQ_CFG]
    omega
  generalize (HIF_SQ_CFG ring.val).off = off at index block
  unfold State.rwpOpen
  rw [index]
  iterate 9 rw [if_neg (by omega)]
  rw [if_pos block]

/-- EN of a ring's configuration is an RW bit, LOG2_ENTRIES an RWP field. -/
theorem sqCfg_fields (ring : RingIx) {row : RegRow} {ix : List Nat} (h : regAt (HIF_SQ_CFG ring.val).off = some (row, ix)) (old v : Nat) :
    bits (keptValue row old v) 8 1 = bits v 8 1 ∧ bits (keptValue row old v) 0 5 = v % 32 := by
  obtain ⟨rw, rwp, w1c, -, -⟩ := sqCfg_row ring h
  refine ⟨bits_keptValue_rw old v (by decide) ?_, (bits_keptValue_rwp old v (by decide) ?_).trans (bits_from_zero v 5)⟩
  · rw [rw, w1c]
    decide
  · rw [rwp]
    decide

/-- An enabled configuration written to a ring that is off. -/
theorem sqCfg_stored_off {s : State} (ring : RingIx) {row : RegRow} (v : Word) (h : regAt (HIF_SQ_CFG ring.val).off = some (row, [ring.val]))
    (off : (s.ring ring.val).on = false) :
    s.stored (ownWrite (HIF_SQ_CFG ring.val) row [ring.val] v) =
      s.setR (HIF_SQ_CFG ring.val) (keptValue row (s.getR (HIF_SQ_CFG ring.val)) v.toNat) := by
  obtain ⟨-, -, -, rwb, own⟩ := sqCfg_row ring h
  have stored := s.stored_eq (ownWrite (HIF_SQ_CFG ring.val) row [ring.val] v) (.inr ((rwpOpen_sqCfg s ring).trans (by rw [off]; rfl))) rwb
  rw [show (ownWrite (HIF_SQ_CFG ring.val) row [ring.val] v).off = (HIF_SQ_CFG ring.val).off from rfl, own] at stored
  exact stored

/-- A ring begins at index 0 with no error, and is on (R451). -/
def State.ringStart (s : State) (r : Nat) : State :=
  (((s.set (HIF_SQ_HEAD_INDEX r) 0).set (HIF_CQ_TAIL_INDEX r) 0).set (HIF_RING_STATUS_ERROR r) 0).modRing r fun _ => { on := true }

theorem ringCfg_start {s : State} {r : Nat} (en : s.flag (HIF_SQ_CFG_EN r) = true) (off : (s.ring r).on = false) : s.ringCfg r = s.ringStart r :=
  if_pos (by rw [en, off]; rfl)

theorem ringCfg_stop {s : State} {r : Nat} (en : s.flag (HIF_SQ_CFG_EN r) = false) :
    s.ringCfg r = s.modRing r fun x => { x with on := false } :=
  (if_neg (by rw [en, Bool.false_and]; exact Bool.false_ne_true)).trans (if_pos (by rw [en]; rfl))

theorem ring_modRing_same (s : State) (r : Nat) (f : RingState → RingState) : (s.modRing r f).ring r = f (s.ring r) := Tbl.read_write_same _ _ _ _

/-- The registers of a ring lie apart. -/
theorem ringRegs_apart (r : Nat) : (HIF_SQ_CFG r).off ≠ (HIF_SQ_HEAD r).off ∧ (HIF_SQ_CFG r).off ≠ (HIF_CQ_TAIL r).off ∧
    (HIF_SQ_CFG r).off ≠ (HIF_RING_STATUS r).off ∧ (HIF_SQ_HEAD r).off ≠ (HIF_CQ_TAIL r).off ∧ (HIF_SQ_HEAD r).off ≠ (HIF_RING_STATUS r).off ∧
    (HIF_CQ_TAIL r).off ≠ (HIF_RING_STATUS r).off := by
  dsimp only [HIF_SQ_CFG, HIF_SQ_HEAD, HIF_CQ_TAIL, HIF_RING_STATUS]
  omega

theorem ringStart_starts (s : State) (r : Nat) :
    let t := s.ringStart r
    (t.ring r).on = true ∧ t.sqHead r = 0 ∧ t.cqTail r = 0 ∧ t.get (HIF_RING_STATUS_ERROR r) = 0 ∧
      (∀ q : Reg, q.off ∉ [(HIF_SQ_HEAD r).off, (HIF_CQ_TAIL r).off, (HIF_RING_STATUS r).off] → t.getR q = s.getR q) ∧
      t = { s with regs := t.regs, host := t.host } := by
  intro t
  obtain ⟨-, -, -, headTail, headStatus, tailStatus⟩ := ringRegs_apart r
  have regs : t.regs = (((s.set (HIF_SQ_HEAD_INDEX r) 0).set (HIF_CQ_TAIL_INDEX r) 0).set (HIF_RING_STATUS_ERROR r) 0).regs := State.modRing_regs _ _ _
  have only := RegsOnly.set (RegsOnly.set (RegsOnly.set (RegsOnly.refl s) (HIF_SQ_HEAD_INDEX r) 0) (HIF_CQ_TAIL_INDEX r) 0) (HIF_RING_STATUS_ERROR r) 0
  refine ⟨?on, ?head, ?tail, ?error, fun q hq => ?kept, ?rest⟩
  case on => exact congrArg RingState.on (ring_modRing_same _ r fun _ => { on := true })
  case head =>
    refine (State.get_congr _ t _ regs).trans ?_
    rw [State.get_set_ne _ _ _ _ headStatus, State.get_set_ne _ _ _ _ headTail, State.get_set_same _ _ _ (by decide : 0 + 16 ≤ 32), Nat.zero_mod]
  case tail =>
    refine (State.get_congr _ t _ regs).trans ?_
    rw [State.get_set_ne _ _ _ _ tailStatus, State.get_set_same _ _ _ (by decide : 0 + 16 ≤ 32), Nat.zero_mod]
  case error =>
    refine (State.get_congr _ t _ regs).trans ?_
    rw [State.get_set_same _ _ _ (by decide : 8 + 8 ≤ 32), Nat.zero_mod]
  case kept =>
    simp only [List.mem_cons, List.not_mem_nil, or_false, not_or] at hq
    obtain ⟨head, tail, status⟩ := hq
    rw [State.getR_congr _ t q regs, State.getR_set_ne _ _ _ _ status, State.getR_set_ne _ _ _ _ tail, State.getR_set_ne _ _ _ _ head]
  case rest =>
    have host : t = { ((s.set (HIF_SQ_HEAD_INDEX r) 0).set (HIF_CQ_TAIL_INDEX r) 0).set (HIF_RING_STATUS_ERROR r) 0 with host := t.host } := rfl
    rw [host, only]

/-- A flag of one bit, in a register just written. -/
theorem flag_setR_bit (s : State) (r : Reg) (x : Nat) {i : Nat} (hi : i + 1 ≤ 32) : (s.setR r x).flag ⟨r, i, 1⟩ = bit x i := by
  rw [State.flag, s.get_setR_same ⟨r, i, 1⟩ x hi, bits, bit, Nat.pow_one]
  rcases Nat.mod_two_eq_zero_or_one (x / 2 ^ i) with e | e
  · rw [e]
    rfl
  · rw [e]
    rfl

theorem bit_congr {x y i : Nat} (h : bits x i 1 = bits y i 1) : bit x i = bit y i := by
  rw [bits, bits, Nat.pow_one] at h
  rw [bit, bit, h]

theorem exec_ringEnable {ring : RingIx} {v : Word} {s : State} (taken : Taken s (HIF_SQ_CFG ring.val)) (off : (s.ring ring.val).on = false) :
    ∃ row, regAt (HIF_SQ_CFG ring.val).off = some (row, [ring.val]) ∧ exec (.ringEnable ring v) s =
      done ((s.setR (HIF_SQ_CFG ring.val) (keptValue row (s.getR (HIF_SQ_CFG ring.val)) (setBit v 8).toNat)).ringStart ring.val) := by
  obtain ⟨row, hr, write⟩ := s.hostWrite_HIF_SQ_CFG ring (setBit v 8) taken
  refine ⟨row, hr, ?_⟩
  change done (s.hostWrite (HIF_SQ_CFG ring.val) (setBit v 8)) = _
  rw [write, sqCfg_stored_off ring _ hr off]
  refine congrArg done (ringCfg_start ?_ off)
  exact (flag_setR_bit s _ _ (by decide)).trans ((bit_congr (sqCfg_fields ring hr _ _).1).trans (bit_setBit_same v 8 (by decide)))

/-- LOG2_ENTRIES lies below EN: setting EN leaves it. -/
theorem setBit_low (v : Word) : (setBit v 8).toNat % 32 = v.toNat % 32 := by
  rw [setBit_toNat v 8 (by decide)]
  have below := bits_putBits_below v.toNat 8 1 1 0 5 (by decide)
  rw [bits_from_zero, bits_from_zero] at below
  exact below

theorem ringEnable_starts {ring : RingIx} {v : Word} {s : State} (q : Quiet s) (taken : Taken s (HIF_SQ_CFG ring.val))
    (off : (s.ring ring.val).on = false) : ∃ t, exec (.ringEnable ring v) s = .next t ∧ (t.ring ring.val).on = true ∧ t.sqHead ring.val = 0 ∧
      t.cqTail ring.val = 0 ∧ t.get (HIF_RING_STATUS_ERROR ring.val) = 0 ∧ t.get (HIF_SQ_CFG_LOG2_ENTRIES ring.val) = v.toNat % 32 ∧
      RegsKept [(HIF_SQ_CFG ring.val).off, (HIF_SQ_HEAD ring.val).off, (HIF_CQ_TAIL ring.val).off, (HIF_RING_STATUS ring.val).off] s t ∧
      t = { s with regs := t.regs, host := t.host } := by
  obtain ⟨row, hr, run⟩ := exec_ringEnable (v := v) taken off
  generalize hx : keptValue row (s.getR (HIF_SQ_CFG ring.val)) (setBit v 8).toNat = x at run
  obtain ⟨on, head, tail, error, kept, rest⟩ := ringStart_starts (s.setR (HIF_SQ_CFG ring.val) x) ring.val
  obtain ⟨cfgHead, cfgTail, cfgStatus, -, -, -⟩ := ringRegs_apart ring.val
  generalize (s.setR (HIF_SQ_CFG ring.val) x).ringStart ring.val = t at *
  have size : t.getR (HIF_SQ_CFG ring.val) = x % 2 ^ 32 := by
    rw [kept (HIF_SQ_CFG ring.val) (by simp [cfgHead, cfgTail, cfgStatus]), State.getR_setR_same]
  refine ⟨t, run.trans (done_same q (by rw [rest]; rfl) (by rw [rest]; rfl)), on, head, tail, error, ?_, fun r out => ?_, ?_⟩
  · have value : t.get (HIF_SQ_CFG_LOG2_ENTRIES ring.val) = bits x 0 5 :=
      (congrArg (fun y => bits y 0 5) size).trans (bits_mod_word x (by decide : 0 + 5 ≤ 32))
    rw [value, ← hx]
    exact (sqCfg_fields ring hr _ _).2.trans (setBit_low v)
  · simp only [List.mem_cons, List.not_mem_nil, or_false, not_or] at out
    obtain ⟨cfg, out⟩ := out
    rw [kept r (by simpa using out), State.getR_setR_ne _ _ _ _ cfg]
  · rw [rest, RegsOnly.setR (RegsOnly.refl s) (HIF_SQ_CFG ring.val) x]

/-! A disabled ring -/

/-- The log of access errors lies outside a ring's configuration. -/
theorem aerr_getR (s : State) (space off kind : Nat) (write : Bool) {r : Reg} (h : r.off ∉ aerrOffs (s.getR HIF_AERR_PROD % 16)) :
    (s.aerr space off write kind).getR r = s.getR r :=
  (State.getR_congr _ _ r (HostOnly.regs ((HostOnly.refl _).raiseVec 2))).trans (aerrEntry_kept s _ space off write kind r h)

/-- Nothing but registers, the host bridge's state and what has left the block differs. -/
def BridgeOnly (s t : State) : Prop := t = { s with regs := t.regs, host := t.host, out := t.out }

theorem BridgeOnly.of_regsOnly {s t : State} (h : RegsOnly s t) : BridgeOnly s t := by
  rw [RegsOnly] at h
  rw [BridgeOnly, h]

theorem BridgeOnly.trans {s t u : State} (h : BridgeOnly s t) (k : BridgeOnly t u) : BridgeOnly s u := by
  rw [BridgeOnly] at *
  rw [k, h]

theorem BridgeOnly.of_hostOnly {s t : State} (h : HostOnly s t) : BridgeOnly s t := by
  obtain ⟨a, o, rfl⟩ := h
  rfl

theorem BridgeOnly.aerr (s : State) (space off kind : Nat) (write : Bool) : BridgeOnly s (s.aerr space off write kind) :=
  (BridgeOnly.of_regsOnly (aerrEntry_only s _ space off write kind)).trans (.of_hostOnly ((HostOnly.refl _).raiseVec 2))

theorem BridgeOnly.quiet {s t : State} (h : BridgeOnly s t) (q : Quiet s) : Quiet t := by
  rw [h]
  exact q

/-- The write of a register without RWB bits stores what its RW bits, and its RWP bits where they are open, take; refused RWP bits are recorded. -/
theorem stored_cases (s : State) (w : RegWrite) (hb : w.row.rwb = 0) :
    ∃ x, (x = keptValue w.row (s.getR (regOf w.off)) w.v ∨ x = maskIn (maskIn (s.getR (regOf w.off)) w.v w.row.rw) 0 (w.v &&& w.row.w1c)) ∧
      (s.stored w = s.setR (regOf w.off) x ∨ s.stored w = (s.setR (regOf w.off) x).aerr 0 w.at_ true 1) := by
  unfold State.stored State.storeBits keptValue
  dsimp only
  rw [if_pos hb]
  cases (decide (w.row.rwp = 0) || s.rwpOpen w.off) with
  | true => exact ⟨_, .inl rfl, .inl rfl⟩
  | false =>
    refine ⟨_, .inr rfl, ?_⟩
    split
    · exact .inl rfl
    · exact .inr rfl

/-- EN as written stays after the write of a ring's configuration, whatever the ring's state. -/
theorem sqCfg_stored {s : State} (ring : RingIx) {row : RegRow} (v : Word) (h : regAt (HIF_SQ_CFG ring.val).off = some (row, [ring.val])) :
    let u := s.stored (ownWrite (HIF_SQ_CFG ring.val) row [ring.val] v)
    u.flag (HIF_SQ_CFG_EN ring.val) = bit v.toNat 8 ∧ BridgeOnly s u := by
  obtain ⟨rw, rwp, w1c, rwb, own⟩ := sqCfg_row ring h
  obtain ⟨x, val, effect⟩ := stored_cases s (ownWrite (HIF_SQ_CFG ring.val) row [ring.val] v) rwb
  rw [show (ownWrite (HIF_SQ_CFG ring.val) row [ring.val] v).off = (HIF_SQ_CFG ring.val).off from rfl, own] at val effect
  have enabled : bit x 8 = bit v.toNat 8 := by
    rcases val with rfl | rfl
    · exact bit_congr (sqCfg_fields ring h _ _).1
    · refine bit_congr (bits_congr fun i hi => ?_)
      rw [show (ownWrite (HIF_SQ_CFG ring.val) row [ring.val] v).row = row from rfl, w1c, rw, Nat.and_zero,
        maskIn_testBit_zero _ _ _ (by omega), maskIn_testBit_of_mem _ _ _ _ (by omega) (by rw [Nat.lt_one_iff.mp hi]; decide)]
      rfl
  have flag : (s.setR (HIF_SQ_CFG ring.val) x).flag (HIF_SQ_CFG_EN ring.val) = bit v.toNat 8 :=
    (flag_setR_bit s _ x (by decide)).trans enabled
  have only : BridgeOnly s (s.setR (HIF_SQ_CFG ring.val) x) := .of_regsOnly (RegsOnly.setR (RegsOnly.refl s) _ _)
  intro u
  rcases effect with effect | effect
  · rw [show u = _ from effect]
    exact ⟨flag, only⟩
  · rw [show u = _ from effect]
    refine ⟨?_, only.trans (.aerr _ _ _ _ _)⟩
    rw [State.flag, State.get, aerr_getR]
    · exact flag
    · have := ring.isLt
      simp only [aerrOffs, List.mem_cons, List.not_mem_nil, or_false, not_or]
      dsimp only [HIF_SQ_CFG_EN, HIF_SQ_CFG, HIF_AERR_INFO, HIF_AERR_ADDR, HIF_AERR_TIME, HIF_AERR_PROD]
      omega

theorem ringDisable_stops {ring : RingIx} {v : Word} {s : State} (q : Quiet s) (taken : Taken s (HIF_SQ_CFG ring.val)) :
    ∃ t, exec (.ringDisable ring v) s = .next t ∧ (t.ring ring.val).on = false ∧ t.flag (HIF_SQ_CFG_EN ring.val) = false ∧
      t = { s with regs := t.regs, host := t.host, out := t.out } := by
  obtain ⟨row, hr, write⟩ := s.hostWrite_HIF_SQ_CFG ring (clearBit v 8) taken
  obtain ⟨enabled, only⟩ := sqCfg_stored (s := s) ring (clearBit v 8) hr
  rw [bit_clearBit_same v 8 (by decide)] at enabled
  generalize s.stored (ownWrite (HIF_SQ_CFG ring.val) row [ring.val] (clearBit v 8)) = u at *
  have stopped : BridgeOnly s (u.modRing ring.val fun x => { x with on := false }) := only.trans rfl
  refine ⟨u.modRing ring.val fun x => { x with on := false }, ?_, ?_, ?_, stopped⟩
  · change done (s.hostWrite (HIF_SQ_CFG ring.val) (clearBit v 8)) = _
    rw [write, ringCfg_stop enabled]
    exact done_quiet (stopped.quiet q)
  · rw [ring_modRing_same]
  · exact (State.flag_congr _ _ _ (State.modRing_regs _ _ _)).trans enabled

/-! Doorbells -/

/-- A host write of a HIF register that only stores puts the value's bits in an RW field and changes nothing else. -/
theorem hostWrite_hif_rwField {s : State} {f : Fld} {v : Word} {b : Nat} {ix : List Nat} (h : Taken s f.reg)
    (hs : soleReg f.reg.off b ix = true) (hf : rwField f = true) (hblock : f.reg.off / 0x10000 = 0x01)
    (hb : b ∉ [HIF_NBR_TX_CTRL.off, HIF_NBR_RX_POP.off, HIF_MBOX_CMD.off, (HIF_SQ_CFG 0).off, (HIF_SQ_TAIL 0).off]) :
    ∃ x, s.hostWrite f.reg v = s.setR f.reg x ∧ (s.setR f.reg x).get f = bits v.toNat f.lo f.width := by
  obtain ⟨row, hr, rfl, eq⟩ := s.hostWrite_sole f.reg v b ix h hs
  have own := regOf_rwField hf
  simp only [rwField, hr, Option.any_some, Bool.and_eq_true] at hf
  have le : f.lo + f.width ≤ 32 := of_decide_eq_true (Bool.and_eq_true_iff.mp hf.1).2
  obtain ⟨x, val, get⟩ := s.storeBits_rwBits f.reg.off v.toNat hf.1
  rw [own] at val
  refine ⟨x, ?_, (s.get_setR_same f x le).trans get⟩
  rw [eq, State.writeReg_hif _ hblock, State.hifWrite_stored _ hb]
  exact val

/-- Nothing but one register differs, and a field of it holds a value. -/
theorem done_setR {s : State} (q : Quiet s) (r : Reg) (x : Nat) : done (s.setR r x) = .next (s.setR r x) :=
  done_same q (s.setR_fault r x) (s.setR_switch r x)

theorem setR_kept (s : State) (r : Reg) (x : Nat) : RegsKept [r.off] s (s.setR r x) :=
  fun _ hq => s.getR_setR_ne _ _ _ (List.ne_of_not_mem_cons hq)

theorem sqTail_row (ring : RingIx) : rwField (HIF_SQ_TAIL_INDEX ring.val) = true := by
  have table : ∀ r : Fin 16, rwField (HIF_SQ_TAIL_INDEX r.val) = true := by decide +kernel
  exact table ring

theorem sqDoorbell_rings {ring : RingIx} {v : Word} {s : State} (q : Quiet s) (taken : Taken s (HIF_SQ_TAIL ring.val)) :
    (v.toNat % 65536 < s.ringSize ring.val → ∃ t, exec (.sqDoorbell ring v) s = .next t ∧ t.sqTail ring.val = v.toNat % 65536 ∧
      RegsKept [(HIF_SQ_TAIL ring.val).off] s t ∧ RegsOnly s t) ∧
    (s.ringSize ring.val ≤ v.toNat % 65536 → Ends (.sqDoorbell ring v) s (s.aerr 0 (HIF_SQ_TAIL ring.val).off true 2)) := by
  obtain ⟨row, hr, write⟩ := s.hostWrite_HIF_SQ_TAIL ring v taken
  have run : exec (.sqDoorbell ring v) s = done (s.sqTailWrite (ownWrite (HIF_SQ_TAIL ring.val) row [ring.val] v)) := congrArg done write
  have own := regOf_rwField (sqTail_row ring)
  have fields : (regAt (HIF_SQ_TAIL ring.val).off).any (fun x => x.1.rwBits 0 16 && x.1.resetAt x.2 == (HIF_SQ_TAIL ring.val).reset) = true :=
    sqTail_row ring
  rw [hr, Option.any_some, Bool.and_eq_true] at fields
  obtain ⟨x, stored, get⟩ := s.storeBits_rwBits (HIF_SQ_TAIL ring.val).off v.toNat (off := (HIF_SQ_TAIL ring.val).off) fields.1
  rw [show regOf (HIF_SQ_TAIL ring.val).off = HIF_SQ_TAIL ring.val from own] at stored
  refine ⟨fun inside => ⟨s.setR (HIF_SQ_TAIL ring.val) x, ?_, ?_, setR_kept s _ x, RegsOnly.setR (RegsOnly.refl s) _ x⟩, fun outside => ?_⟩
  · have effect : s.sqTailWrite (ownWrite (HIF_SQ_TAIL ring.val) row [ring.val] v) = s.setR (HIF_SQ_TAIL ring.val) x :=
      (if_neg (Nat.not_le.mpr inside)).trans stored
    rw [run, effect, done_setR q]
  · exact (s.get_setR_same (HIF_SQ_TAIL_INDEX ring.val) x (by decide : 0 + 16 ≤ 32)).trans (get.trans (bits_from_zero _ 16))
  · exact run.trans (congrArg done (if_pos outside))

theorem cqDoorbell_rings {ring : RingIx} {v : Word} {s : State} (q : Quiet s) (taken : Taken s (HIF_CQ_HEAD ring.val)) :
    ∃ t, exec (.cqDoorbell ring v) s = .next t ∧ t.cqHead ring.val = v.toNat % 65536 ∧
      RegsKept [(HIF_CQ_HEAD ring.val).off] s t ∧ RegsOnly s t := by
  have table : ∀ r : Fin 16, rwField (HIF_CQ_HEAD_INDEX r.val) = true ∧ soleReg (HIF_CQ_HEAD r.val).off (HIF_CQ_HEAD 0).off [r.val] = true ∧
      (HIF_CQ_HEAD r.val).off / 0x10000 = 0x01 := by decide +kernel
  obtain ⟨field, sole, block⟩ := table ring
  obtain ⟨x, write, get⟩ := hostWrite_hif_rwField (f := HIF_CQ_HEAD_INDEX ring.val) (v := v) taken sole field block (by decide)
  refine ⟨s.setR (HIF_CQ_HEAD ring.val) x, ?_, get.trans (bits_from_zero _ 16), setR_kept s _ x, RegsOnly.setR (RegsOnly.refl s) _ x⟩
  exact (congrArg done write).trans (done_setR q _ x)

theorem ringControl : RingControl :=
  ⟨fun _ _ _ q taken off => ringEnable_starts q taken off, fun _ _ _ q taken => ringDisable_stops q taken,
    fun _ _ _ q taken => sqDoorbell_rings q taken, fun _ _ _ q taken => cqDoorbell_rings q taken⟩

/-! Completion records -/

theorem cqRec_bytes_length (c : CqRec) (phase : Bool) : (c.bytes phase).length = 32 := by
  simp only [CqRec.bytes, List.length_append, leBytes_length, List.length_singleton]

/-- A record that is written at CQ_TAIL, before the interrupt (R455, R457). -/
def State.putCq (s : State) (r : Nat) (c : CqRec) : State :=
  let n := (s.cqTail r + 1) % s.ringSize r
  let u := (s.emit (.hostWrite (s.getR64 (HIF_CQ_BASE r) + 32 * s.cqTail r) (c.bytes (!(s.ring r).oddPass)))).set (HIF_CQ_TAIL_INDEX r) n
  u.modRing r fun x =>
    { x with oddPass := if n = 0 then !x.oddPass else x.oddPass, unsignalled := x.unsignalled + 1
             firstAt := if x.unsignalled = 0 then u.now else x.firstAt }

theorem writeCq_eq (s : State) (r : Nat) (c : CqRec) : s.writeCq r c =
    if ((s.putCq r c).ring r).unsignalled ≥ (s.putCq r c).get (HIF_CQ_INT_COALESCE r) then (s.putCq r c).signalRing r else s.putCq r c := rfl

/-- What a raised vector sends comes after what had left before. -/
theorem raiseVec_out (s : State) (v : Nat) : ∃ more, (s.raiseVec v).out = s.out ++ more := by
  unfold State.raiseVec
  dsimp only
  split
  · exact ⟨[], (List.append_nil _).symm⟩
  split
  · exact ⟨[], (List.append_nil _).symm⟩
  · exact ⟨_, rfl⟩

theorem set_emit (s : State) (o : Out) (f : Fld) (v : Nat) : (s.emit o).set f v = (s.set f v).emit o := rfl

theorem putCq_puts (s : State) (r : Nat) (c : CqRec) :
    (s.putCq r c).regs = (s.set (HIF_CQ_TAIL_INDEX r) ((s.cqTail r + 1) % s.ringSize r)).regs ∧
      (s.putCq r c).out = s.out ++ [.hostWrite (s.getR64 (HIF_CQ_BASE r) + 32 * s.cqTail r) (c.bytes (!(s.ring r).oddPass))] := by
  unfold State.putCq
  dsimp only
  rw [State.modRing_regs, State.modRing_out, set_emit, State.emit_regs]
  refine ⟨rfl, ?_⟩
  rw [State.emit, State.set_out]

/-- A ring signalled: the host bridge's state alone differs, and what it sends comes last. -/
theorem signalRing_signals (s : State) (r : Nat) : (s.signalRing r).regs = s.regs ∧ ∃ more, (s.signalRing r).out = s.out ++ more :=
  ⟨((HostOnly.refl _).raiseVec _).regs, raiseVec_out (s.modRing r fun x => { x with unsignalled := 0 }) (16 + r)⟩

theorem writeCq_writes (s : State) (r : Nat) (c : CqRec) :
    let t := s.writeCq r c
    t.cqTail r = (s.cqTail r + 1) % s.ringSize r % 65536 ∧
      (∃ more, t.out = s.out ++ .hostWrite (s.getR64 (HIF_CQ_BASE r) + 32 * s.cqTail r) (c.bytes (!(s.ring r).oddPass)) :: more) ∧
      RegsKept [(HIF_CQ_TAIL r).off] s t := by
  obtain ⟨regs, out⟩ := putCq_puts s r c
  have signalled : (s.writeCq r c).regs = (s.putCq r c).regs ∧ ∃ more, (s.writeCq r c).out = (s.putCq r c).out ++ more := by
    rw [writeCq_eq]
    split
    · exact signalRing_signals _ r
    · exact ⟨rfl, [], (List.append_nil _).symm⟩
  obtain ⟨same, more, rest⟩ := signalled
  rw [regs] at same
  refine ⟨?_, ⟨more, ?_⟩, fun q hq => ?_⟩
  · exact (State.get_congr _ _ (HIF_CQ_TAIL_INDEX r) same).trans (State.get_set_same _ _ _ (by decide : 0 + 16 ≤ 32))
  · rw [rest, out, List.append_assoc]
    rfl
  · rw [State.getR_congr _ _ q same, State.getR_set_ne _ _ _ _ (List.ne_of_not_mem_cons hq)]

theorem exec_cqIntTimer (ring : RingIx) (s : State) : exec (.cqIntTimer ring) s =
    if s.get (HIF_CQ_INT_TIMER ring.val) = 0 ∨ (s.ring ring.val).unsignalled = 0 then done s
    else done ((s.passTo ((s.ring ring.val).firstAt + fclk (s.get (HIF_CQ_INT_TIMER ring.val)))).signalRing ring.val) := rfl

theorem completionRecords : CompletionRecords := by
  refine ⟨cqRec_bytes_length, fun s r c _ => writeCq_writes s r c, fun ring s q => ?_⟩
  intro r us
  refine ⟨fun timed waiting => ?_, fun none => ?_⟩
  · exact (exec_cqIntTimer ring s).trans (if_neg (not_or.mpr ⟨timed, waiting⟩))
  · exact (exec_cqIntTimer ring s).trans ((if_pos none).trans (done_quiet q))

/-- Settles O24. -/
theorem ringsAndRecords : Obligations.RingsAndRecords := ⟨ringControl, completionRecords⟩

end Sys2Proof.Machine
end

section
/-! The entries of a submission ring (R451 to R457). -/

namespace Sys2Proof.Machine

open Sys2Proof

/-- The state that asks the host for the entry at the head of a ring. -/
def State.askEntry (s : State) (r : Nat) : State := s.emit (.hostRead (s.getR64 (HIF_SQ_BASE r) + 128 * s.sqHead r) 128)

/-- The head and the rotating priority moved on past an entry that has been read (R453). -/
def State.tookEntry (s : State) (r : Nat) : State :=
  let u := (s.askEntry r).set (HIF_SQ_HEAD_INDEX r) ((s.sqHead r + 1) % s.ringSize r)
  { u with host := { u.host with ringPtr := (r + 1) % 16 } }

theorem fetch_other {s : State} {r op : Nat} {entry : Option Entry} {go : State → Entry → State} (h : s.ringWinner ≠ some r) :
    s.fetch r op entry go = s := by
  refine if_pos ?_
  rw [bne_iff_ne.mpr h, Bool.or_true]

theorem served {s : State} {r : Nat} (hf : s.fatal = false) (hw : s.ringWinner = some r) : ¬(s.fatal || s.ringWinner != some r) = true := by
  rw [hf, hw, bne_self_eq_false]
  exact Bool.false_ne_true

theorem fetch_failed {s : State} {r op : Nat} {go : State → Entry → State} (hf : s.fatal = false) (hw : s.ringWinner = some r) :
    s.fetch r op none go = (s.askEntry r).set (HIF_RING_STATUS_ERROR r) 0x14 := if_neg (served hf hw)

/-- The entry read, when it is of the command given or has a bad field. -/
theorem fetch_entry {s : State} {r op : Nat} {raw : List Byte} {go : State → Entry → State} (hf : s.fatal = false) (hw : s.ringWinner = some r)
    (mine : ¬(badEntry (slice raw 0 128) = none ∧ sqOp (slice raw 0 128) ≠ op)) :
    s.fetch r op (some raw) go = match badEntry (slice raw 0 128) with
      | some off => (s.tookEntry r).plainRec r (slice raw 0 128) 0x60 off
      | none => go (s.tookEntry r) (slice raw 0 128) :=
  (if_neg (served hf hw)).trans (if_neg mine)

theorem fetch_good {s : State} {r op : Nat} {raw : List Byte} {go : State → Entry → State} (hf : s.fatal = false) (hw : s.ringWinner = some r)
    (good : badEntry (slice raw 0 128) = none) (mine : sqOp (slice raw 0 128) = op) :
    s.fetch r op (some raw) go = go (s.tookEntry r) (slice raw 0 128) := by
  rw [fetch_entry hf hw (fun h => h.2 mine), good]

theorem fetch_bad {s : State} {r op off : Nat} {raw : List Byte} {go : State → Entry → State} (hf : s.fatal = false) (hw : s.ringWinner = some r)
    (bad : badEntry (slice raw 0 128) = some off) : s.fetch r op (some raw) go = (s.tookEntry r).plainRec r (slice raw 0 128) 0x60 off := by
  rw [fetch_entry hf hw (fun h => nomatch bad.symm.trans h.1), bad]

/-- An admitted job takes what it needs (R78). -/
theorem submit_admitted {s : State} {r : Nat} {e : Entry} (h : s.admission (e.drop 64) = 0) :
    s.submit r e = ((s.setR CORE_JOB_REFUSE 0).setR CORE_JOB_REFUSE_ID (jId (e.drop 64))).takeJob r e (e.drop 64) := by
  unfold State.submit
  dsimp only
  rw [h, if_pos rfl]

theorem submit_refused {s : State} {r code : Nat} {e : Entry} (h : s.admission (e.drop 64) = code) (refused : code ≠ 0) :
    let d := e.drop 64
    let shown := (s.setR CORE_JOB_REFUSE code).setR CORE_JOB_REFUSE_ID (jId d)
    let cores := ((shown.coregroup (jGroup d)).map groupCores).getD []
    let traced := shown.traceJobEnd cores (jGroup d) (jId d) code 0
    s.submit r e = traced.writeCq r { tag := sqTag e, op := 1, status := code, job := jId d, sqHead := traced.sqHead r } := by
  subst h
  exact if_neg refused

/-- The jobs that an abort takes (R454). -/
def State.abortedJobs (s : State) (e : Entry) : List Job :=
  s.jobs.filter fun j => j.ring.isSome && j.id == field e 0x40 4 && (j.aborting || !s.jobEnded j)

theorem abort_none {s : State} {r : Nat} {e : Entry} (h : s.abortedJobs e = []) : s.abort r e = s.plainRec r e 0x61 0 := by
  have run : s.abort r e = if (s.abortedJobs e).isEmpty then ((s.abortedJobs e).foldl State.abortJob s).plainRec r e 0x61 0
      else ((s.abortedJobs e).foldl State.abortJob s).plainRec r e 0 (s.abortedJobs e).length := rfl
  rw [run, h]
  rfl

theorem abort_some {s : State} {r : Nat} {e : Entry} (h : s.abortedJobs e ≠ []) :
    s.abort r e = ((s.abortedJobs e).foldl State.abortJob s).plainRec r e 0 (s.abortedJobs e).length :=
  if_neg (fun none => h (List.isEmpty_iff.mp none))

/-- Settles O25. -/
theorem ringEntries : Obligations.RingEntries := by
  refine ⟨fun ring raw s q hf hw => ?served, fun ring entry s q hw => ?other⟩
  case served =>
    intro r e read u' u
    refine ⟨fun good => ⟨fun nop => ?nop, fun job ok => ?admitted, fun code job refused bad => ?refused, fun abort => ?abort⟩,
      fun off bad => ?bad, congrArg done (fetch_failed hf hw)⟩
    case nop => exact congrArg done (fetch_good hf hw good nop)
    case admitted => exact congrArg done ((fetch_good hf hw good job).trans (submit_admitted ok))
    case refused => exact congrArg done ((fetch_good hf hw good job).trans (submit_refused refused bad))
    case abort =>
      exact ⟨fun none => congrArg done ((fetch_good hf hw good abort).trans (abort_none none)),
        fun some => congrArg done ((fetch_good hf hw good abort).trans (abort_some some))⟩
    case bad => exact ⟨congrArg done (fetch_bad hf hw bad), congrArg done (fetch_bad hf hw bad), congrArg done (fetch_bad hf hw bad)⟩
  case other =>
    exact ⟨(congrArg done (fetch_other hw)).trans (done_quiet q), (congrArg done (fetch_other hw)).trans (done_quiet q),
      (congrArg done (fetch_other hw)).trans (done_quiet q), (congrArg done (fetch_other hw)).trans (done_quiet q)⟩

end Sys2Proof.Machine
end

section
/-! The memories: read after write, other bytes unchanged, a zeroed SRAM (R45, R48, R141). -/

namespace Sys2Proof.Machine

open Sys2Proof

/-! GDDR7 -/

/-- A byte of a table of cells after a run of bytes has been stored from an address on. -/
theorem find_gddrPuts (m : List Host.Cell) (a b : Nat) (bs : List Byte) :
    Tbl.find (gddrPuts m a bs) b = if a ≤ b ∧ b < a + bs.length then bs[b - a]? else Tbl.find m b := by
  induction bs generalizing m a with
  | nil => exact (if_neg (by rw [List.length_nil]; omega)).symm
  | cons x xs ih =>
    rw [gddrPuts, ih, List.length_cons]
    rcases Nat.lt_trichotomy b a with below | rfl | above
    · rw [if_neg (by omega), if_neg (by omega), Tbl.find_insert_ne _ _ _ _ (by omega)]
    · rw [if_neg (by omega), if_pos (by omega), Tbl.find_insert_same, Nat.sub_self]
      rfl
    · by_cases inside : b < a + (xs.length + 1)
      · rw [if_pos (by omega), if_pos (by omega), show b - a = b - (a + 1) + 1 by omega, List.getElem?_cons_succ]
      · rw [if_neg (by omega), if_neg (by omega), Tbl.find_insert_ne _ _ _ _ (by omega)]

/-- A list read back byte by byte. -/
theorem range_map_eq {bs : List Byte} {f : Nat → Byte} (h : ∀ i, ∀ hi : i < bs.length, f i = bs[i]) : (List.range bs.length).map f = bs := by
  refine List.ext_getElem (by simp) fun i _ hi => ?_
  rw [List.getElem_map, List.getElem_range, h i hi]

theorem gddrByte_gddrWrite (s : State) (a b : Nat) (bs : List Byte) : (s.gddrWrite a bs).gddrByte b =
    match (if a ≤ b ∧ b < a + (bs.take (gddrSize - a)).length then (bs.take (gddrSize - a))[b - a]? else Tbl.find s.gddr b) with
    | some x => x
    | none => Config.gddrByte s.gddrGen b := by
  rw [← find_gddrPuts]
  rfl

theorem gddrRead_gddrWrite (s : State) (a : Nat) (bs : List Byte) (fits : a + bs.length ≤ gddrSize) :
    (s.gddrWrite a bs).gddrRead a bs.length = bs := by
  refine range_map_eq fun i hi => ?_
  rw [gddrByte_gddrWrite, List.take_of_length_le (by omega), if_pos (by omega), Nat.add_sub_cancel_left, List.getElem?_eq_getElem hi]

theorem gddrByte_gddrWrite_outside (s : State) (a b : Nat) (bs : List Byte) (out : b < a ∨ a + bs.length ≤ b) :
    (s.gddrWrite a bs).gddrByte b = s.gddrByte b := by
  have short : (bs.take (gddrSize - a)).length ≤ bs.length := by rw [List.length_take]; exact Nat.min_le_right _ _
  rw [gddrByte_gddrWrite, if_neg (by omega)]
  rfl

/-! SRAM -/

/-- The byte at a key of a list of SRAM cells. -/
def sramAt (zeroed : List Nat) (gen : Nat) (m : List Host.Cell) (k : Nat) : Byte :=
  (Tbl.find m k).getD (if zeroed.contains (k / sramSize) then 0 else Config.sramByte gen k)

theorem sramKey_div (P : Nat) {a : Nat} (h : a < sramSize) : (P * sramSize + a) / sramSize = P := by
  rw [Nat.mul_comm, Nat.mul_add_div (by decide), Nat.div_eq_of_lt h, Nat.add_zero]

theorem sramByte_eq (s : State) (P : Nat) {a : Nat} (h : a < sramSize) : s.sramByte P a = sramAt s.zeroed s.gddrGen s.sram (P * sramSize + a) := by
  unfold State.sramByte sramAt
  rw [sramKey_div P h]
  cases Tbl.find s.sram (P * sramSize + a) with
  | none => rfl
  | some b => rfl

theorem sramAt_sramPut (zeroed : List Nat) (gen : Nat) (m : List Host.Cell) (k : Nat) (x : Byte) (j : Nat) :
    sramAt zeroed gen (sramPut zeroed m k x) j = if j = k then x else sramAt zeroed gen m j := by
  unfold sramAt sramPut
  by_cases same : j = k
  · subst same
    rw [if_pos rfl]
    by_cases zero : x = 0 ∧ zeroed.contains (j / sramSize) = true
    · rw [if_pos zero, Tbl.find_drop_same, zero.2, zero.1]
      rfl
    · rw [if_neg zero, Tbl.find_insert_same, Option.getD_some]
  · rw [if_neg same]
    by_cases zero : x = 0 ∧ zeroed.contains (k / sramSize) = true
    · rw [if_pos zero, Tbl.find_drop_ne _ _ _ same]
    · rw [if_neg zero, Tbl.find_insert_ne _ _ _ _ same]

theorem sramAt_sramPuts (zeroed : List Nat) (gen : Nat) (m : List Host.Cell) (k : Nat) (bs : List Byte) (j : Nat) :
    sramAt zeroed gen (sramPuts zeroed m k bs) j = if k ≤ j ∧ j < k + bs.length then bs.getD (j - k) 0 else sramAt zeroed gen m j := by
  induction bs generalizing m k with
  | nil => exact (if_neg (by rw [List.length_nil]; omega)).symm
  | cons x xs ih =>
    rw [sramPuts, ih, List.length_cons, sramAt_sramPut]
    rcases Nat.lt_trichotomy j k with below | rfl | above
    · rw [if_neg (by omega), if_neg (by omega), if_neg (by omega)]
    · rw [if_neg (by omega), if_pos rfl, if_pos (by omega), Nat.sub_self, List.getD_cons_zero]
    · by_cases inside : j < k + (xs.length + 1)
      · rw [if_pos (by omega), if_pos (by omega), show j - k = j - (k + 1) + 1 by omega, List.getD_cons_succ]
      · rw [if_neg (by omega), if_neg (by omega), if_neg (by omega)]

/-- A byte of SRAM after a write that stays inside it. -/
theorem sramByte_sramWrite {s : State} {L P off : Nat} {bs : List Byte} (hp : s.phys L = some P) (fits : off + bs.length ≤ sramSize) (Q : Nat)
    {b : Nat} (hb : b < sramSize) : (s.sramWrite L off bs).sramByte Q b =
      if Q = P ∧ off ≤ b ∧ b < off + bs.length then bs.getD (b - off) 0 else s.sramByte Q b := by
  have write : s.sramWrite L off bs =
      { s with sram := sramPuts s.zeroed s.sram (P * sramSize + off % sramSize) (bs.take (sramSize - off % sramSize)) } := by
    unfold State.sramWrite
    rw [hp]
  rw [write, sramByte_eq _ Q hb, sramByte_eq s Q hb]
  dsimp only
  rw [sramAt_sramPuts]
  rcases Nat.eq_zero_or_pos bs.length with empty | some
  · rw [List.length_eq_zero_iff.mp empty, List.take_nil, List.length_nil, if_neg (by omega), if_neg (by omega)]
  · rw [Nat.mod_eq_of_lt (by omega : off < sramSize), List.take_of_length_le (by omega)]
    by_cases same : Q = P
    · subst same
      rw [show Q * sramSize + b - (Q * sramSize + off) = b - off by omega]
      exact ite_congr (propext (by omega)) (fun _ => rfl) fun _ => rfl
    · have apart : ∀ i < sramSize, Q * sramSize + b ≠ P * sramSize + i := fun i hi e => same (by
        have quot : (Q * sramSize + b) / sramSize = (P * sramSize + i) / sramSize := congrArg (· / sramSize) e
        rwa [sramKey_div Q hb, sramKey_div P hi] at quot)
      refine (if_neg ?_).trans (if_neg fun h => same h.1).symm
      rintro ⟨lo, hi⟩
      exact apart (Q * sramSize + b - P * sramSize) (by omega) (by omega)

theorem sramRead_sramWrite {s : State} {L P off : Nat} {bs : List Byte} (hp : s.phys L = some P) (fits : off + bs.length ≤ sramSize) :
    (s.sramWrite L off bs).sramRead L off bs.length = bs := by
  have same : (s.sramWrite L off bs).phys L = some P := by
    unfold State.sramWrite
    rw [hp]
    exact hp
  unfold State.sramRead
  rw [same]
  refine range_map_eq fun i hi => ?_
  rw [Nat.mod_eq_of_lt (by omega), sramByte_sramWrite hp fits P (by omega), if_pos (by omega), Nat.add_sub_cancel_left, List.getD_eq_getElem?_getD, List.getElem?_eq_getElem hi]
  rfl

/-! A zeroed SRAM -/

theorem find_filter_key {α : Type} (t : Tbl α) (f : Nat → Bool) (k : Nat) :
    Tbl.find (t.filter fun c => f c.1) k = if f k then Tbl.find t k else none := by
  induction t with
  | nil => exact (ite_self _).symm
  | cons p t ih =>
    obtain ⟨i, x⟩ := p
    by_cases kept : f i = true
    · rw [List.filter_cons_of_pos (p := fun c : Nat × α => f c.1) kept, Tbl.find_cons, Tbl.find_cons, ih]
      by_cases here : k = i
      · rw [if_pos here, if_pos here, here, if_pos kept]
      · rw [if_neg here, if_neg here]
    · rw [List.filter_cons_of_neg (p := fun c : Nat × α => f c.1) kept, ih, Tbl.find_cons]
      by_cases here : k = i
      · rw [here, if_neg kept, if_neg kept]
      · rw [if_neg here]

theorem sramByte_sramZero (s : State) (P Q : Nat) {off : Nat} (h : off < sramSize) :
    (s.sramZero P).sramByte Q off = if Q = P then 0 else s.sramByte Q off := by
  unfold State.sramByte State.sramZero
  dsimp only
  rw [find_filter_key s.sram fun k => k / sramSize != P, sramKey_div Q h]
  by_cases same : Q = P
  · subst same
    rw [bne_self_eq_false, if_neg Bool.false_ne_true, if_pos rfl]
    refine if_pos ?_
    by_cases before : s.zeroed.contains Q = true
    · rw [if_pos before]
      exact before
    · rw [if_neg before]
      simp
  · rw [if_pos (bne_iff_ne.mpr same), if_neg same]
    have zeroed : (if s.zeroed.contains P then s.zeroed else s.zeroed ++ [P]).contains Q = s.zeroed.contains Q := by
      split
      · rfl
      · simp [same]
    rw [zeroed]

/-- Settles O26. -/
theorem memoryReadAfterWrite : Obligations.MemoryReadAfterWrite :=
  ⟨gddrRead_gddrWrite, gddrByte_gddrWrite_outside,
    fun _ _ _ _ _ hp fits => ⟨sramRead_sramWrite hp fits, fun Q _ hb out => (sramByte_sramWrite hp fits Q hb).trans (if_neg out)⟩,
    fun s P _ h => ⟨(sramByte_sramZero s P P h).trans (if_pos rfl), fun Q other => (sramByte_sramZero s P Q h).trans (if_neg other)⟩⟩

end Sys2Proof.Machine
end

section
/-! Training, enabling and disabling GDDR7 (R144, R145, R408, R409). -/

namespace Sys2Proof.Machine

open Sys2Proof

/-! Enable and disable -/

theorem memCtrl_enable {s : State} (off : s.flag MEM_CTRL_EN = false) :
    s.memCtrl true = if s.mem.shutting then s.set MEM_CTRL_ENABLE_PENDING 1 else s.memEnable :=
  (if_pos rfl).trans (if_neg (ne_true_of_eq_false off))

theorem exec_memEnable {v : Word} {s : State} (taken : Taken s MEM_CTRL) (off : s.flag MEM_CTRL_EN = false) :
    exec (.memEnable v) s = done (if s.mem.shutting then s.set MEM_CTRL_ENABLE_PENDING 1 else s.memEnable) := by
  obtain ⟨_, -, write⟩ := s.hostWrite_MEM_CTRL (setBit v 0) taken
  change done (s.hostWrite MEM_CTRL (setBit v 0)) = _
  rw [write, bit_setBit_same v 0 (by decide), memCtrl_enable off]

/-- Some controller below 24 is in one of two states. -/
theorem anyCtl_iff (s : State) (m n : Nat) : ((List.range 24).any fun c => ctlState s c == m || ctlState s c == n) = true ↔
    ∃ c < 24, ctlState s c = m ∨ ctlState s c = n := by simp

theorem memRefuse_untrained {s : State} (h : ∃ c < 24, ctlState s c = 0 ∨ ctlState s c = 1) : s.memRefuse = 1 :=
  if_pos ((anyCtl_iff s 0 1).mpr h)

theorem not_untrained {s : State} (trained : ∀ c < 24, ctlState s c ≠ 0 ∧ ctlState s c ≠ 1) :
    ¬ ((List.range 24).any fun c => ctlState s c == 0 || ctlState s c == 1) = true := fun any =>
  have ⟨c, small, is⟩ := (anyCtl_iff s 0 1).mp any
  is.elim (trained c small).1 (trained c small).2

theorem memRefuse_failed {s : State} (trained : ∀ c < 24, ctlState s c ≠ 0 ∧ ctlState s c ≠ 1) (hashed : s.hashedUnits ≠ 0)
    (h : ∃ c < 24, ctlState s c = 3 ∨ ctlState s c = 5) : s.memRefuse = 2 :=
  (if_neg (not_untrained trained)).trans (if_pos ⟨hashed, (anyCtl_iff s 3 5).mpr h⟩)

theorem memRefuse_none {s : State} (trained : ∀ c < 24, ctlState s c ≠ 0 ∧ ctlState s c ≠ 1)
    (h : s.hashedUnits = 0 ∨ ∀ c < 24, ctlState s c ≠ 3 ∧ ctlState s c ≠ 5) : s.memRefuse = 0 := by
  refine (if_neg (not_untrained trained)).trans (if_neg ?_)
  rintro ⟨hashed, any⟩
  obtain ⟨c, small, is⟩ := (anyCtl_iff s 3 5).mp any
  rcases h with bare | sound
  · exact hashed bare
  · exact is.elim (sound c small).1 (sound c small).2

theorem memEnable_refused {s : State} {n : Nat} (h : s.memRefuse = n) (refused : n ≠ 0) :
    s.memEnable = (s.set MEM_CTRL_EN 0).set MEM_STATUS_REFUSE n := by
  unfold State.memEnable
  dsimp only
  rw [h, if_neg refused]

theorem memEnable_allowed {s : State} (h : s.memRefuse = 0) : s.memEnable = s.set MEM_CTRL_EN 1 := if_pos h

theorem memEnable_rows (v : Word) {s : State} (q : Quiet s) (taken : Taken s MEM_CTRL) (off : s.flag MEM_CTRL_EN = false) :
    let refused (n : Nat) := (s.set MEM_CTRL_EN 0).set MEM_STATUS_REFUSE n
    (s.mem.shutting = true → Ends (.memEnable v) s (s.set MEM_CTRL_ENABLE_PENDING 1)) ∧
    (s.mem.shutting = false →
      ((∃ c < 24, ctlState s c = 0 ∨ ctlState s c = 1) → Ends (.memEnable v) s (refused 1)) ∧
      ((∀ c < 24, ctlState s c ≠ 0 ∧ ctlState s c ≠ 1) → s.hashedUnits ≠ 0 → (∃ c < 24, ctlState s c = 3 ∨ ctlState s c = 5) →
        Ends (.memEnable v) s (refused 2)) ∧
      ((∀ c < 24, ctlState s c ≠ 0 ∧ ctlState s c ≠ 1) → (s.hashedUnits = 0 ∨ ∀ c < 24, ctlState s c ≠ 3 ∧ ctlState s c ≠ 5) →
        ∃ t, exec (.memEnable v) s = .next t ∧ t.flag MEM_CTRL_EN = true ∧ RegsKept [MEM_CTRL.off] s t ∧ RegsOnly s t)) := by
  have run := exec_memEnable (v := v) taken off
  refine ⟨fun shutting => run.trans (congrArg done (if_pos shutting)), fun closed => ?_⟩
  have enable : exec (.memEnable v) s = done s.memEnable := run.trans (congrArg done (if_neg (ne_true_of_eq_false closed)))
  refine ⟨fun untrained => enable.trans (congrArg done (memEnable_refused (memRefuse_untrained untrained) Nat.one_ne_zero)),
    fun trained hashed failed => enable.trans (congrArg done (memEnable_refused (memRefuse_failed trained hashed failed) (by decide))),
    fun trained sound => ⟨s.set MEM_CTRL_EN 1, ?_, State.flag_set_same _ _ _ (by decide), fun r out => ?_, RegsOnly.set (RegsOnly.refl s) _ _⟩⟩
  · rw [enable, memEnable_allowed (memRefuse_none trained sound)]
    exact done_same q rfl rfl
  · exact State.getR_set_ne _ _ _ _ (List.ne_of_not_mem_cons out)

/-- MEM_CTRL with EN and ENABLE_PENDING cleared. -/
def State.memOff (s : State) : State := (s.set MEM_CTRL_EN 0).set MEM_CTRL_ENABLE_PENDING 0

theorem memOff_flags (s : State) : s.memOff.flag MEM_CTRL_EN = false ∧ s.memOff.flag MEM_CTRL_ENABLE_PENDING = false := by
  refine ⟨?_, State.flag_set_same _ _ _ (by decide)⟩
  rw [State.flag, State.memOff, State.get_set_apart _ MEM_CTRL_ENABLE_PENDING MEM_CTRL_EN _ rfl (by decide) (by decide),
    State.get_set_same _ _ _ (by decide)]
  rfl

theorem memDisable_row (v : Word) {s : State} (q : Quiet s) (taken : Taken s MEM_CTRL) :
    ∃ t, exec (.memDisable v) s = .next t ∧ t.flag MEM_CTRL_EN = false ∧ t.flag MEM_CTRL_ENABLE_PENDING = false ∧
      t.mem.shutting = (s.mem.shutting || s.flag MEM_CTRL_EN) ∧ RegsKept [MEM_CTRL.off] s t := by
  obtain ⟨_, -, write⟩ := s.hostWrite_MEM_CTRL (clearBit v 0) taken
  have run : exec (.memDisable v) s = done (s.memCtrl false) := by
    change done (s.hostWrite MEM_CTRL (clearBit v 0)) = _
    rw [write, bit_clearBit_same v 0 (by decide)]
  obtain ⟨en, pending⟩ := memOff_flags s
  have kept : RegsKept [MEM_CTRL.off] s s.memOff := fun r out => by
    have other := List.ne_of_not_mem_cons out
    exact (State.getR_set_ne _ MEM_CTRL_ENABLE_PENDING r _ other).trans (State.getR_set_ne _ MEM_CTRL_EN r _ other)
  by_cases on : s.flag MEM_CTRL_EN = true
  · have ctrl : s.memCtrl false = s.memOff.modMem fun m => { m with shutting := true } := if_pos on
    refine ⟨_, run.trans ((congrArg done ctrl).trans (done_same q rfl rfl)), en, pending, ?_, kept⟩
    rw [on, Bool.or_true]
    rfl
  · have ctrl : s.memCtrl false = s.memOff := if_neg on
    refine ⟨_, run.trans ((congrArg done ctrl).trans (done_same q rfl rfl)), en, pending, ?_, kept⟩
    rw [Bool.eq_false_iff.mpr on, Bool.or_false]
    rfl

/-! Training -/

/-- A controller begins to train at a rate. -/
def State.trainCtl (rate : Nat) (s : State) (c : Nat) : State :=
  (s.set (MEM_CH_STATUS_STATE c) 1).modMem fun m => { m with rates := Tbl.write m.rates 0 c rate }

theorem chStatus_inj {b c : Nat} (h : b ≠ c) : (MEM_CH_STATUS b).off ≠ (MEM_CH_STATUS c).off := by
  dsimp only [MEM_CH_STATUS]
  omega

theorem chStatus_apart (c : Nat) : (MEM_CH_STATUS c).off ≠ MEM_STATUS.off ∧ MEM_TRAIN_CTRL.off ≠ (MEM_CH_STATUS c).off := by
  dsimp only [MEM_CH_STATUS, MEM_STATUS, MEM_TRAIN_CTRL]
  omega

theorem ctlState_trainCtl (rate : Nat) (s : State) (b c : Nat) : ctlState (s.trainCtl rate b) c = if c = b then 1 else ctlState s c := by
  by_cases same : c = b
  · rw [if_pos same, same]
    exact State.get_set_same s (MEM_CH_STATUS_STATE b) 1 (by decide : 0 + 3 ≤ 32)
  · rw [if_neg same]
    exact State.get_set_ne s (MEM_CH_STATUS_STATE b) (MEM_CH_STATUS_STATE c) 1 (chStatus_inj same)

theorem rates_trainCtl (rate : Nat) (s : State) (b c : Nat) :
    Tbl.read (s.trainCtl rate b).mem.rates 0 c = if c = b then rate else Tbl.read s.mem.rates 0 c := by
  by_cases same : c = b
  · rw [if_pos same, same]
    exact Tbl.read_write_same _ _ _ _
  · rw [if_neg same]
    exact Tbl.read_write_ne _ _ _ _ _ _ same

/-- Each controller of a list begins to train; nothing else of what training reads changes. -/
theorem trainAll (rate : Nat) (s : State) (cs : List Nat) :
    let t := cs.foldl (State.trainCtl rate) s
    (∀ c, ctlState t c = if c ∈ cs then 1 else ctlState s c) ∧
      (∀ c, Tbl.read t.mem.rates 0 c = if c ∈ cs then rate else Tbl.read s.mem.rates 0 c) ∧
      t.getR MEM_TRAIN_CTRL = s.getR MEM_TRAIN_CTRL ∧ t.fault = s.fault ∧ t.switch = s.switch := by
  induction cs generalizing s with
  | nil => simp
  | cons b cs ih =>
    obtain ⟨states, rates, ctrl, fault, switch⟩ := ih (s.trainCtl rate b)
    refine ⟨fun c => ?_, fun c => ?_, ctrl.trans ?_, fault, switch⟩
    · rw [List.foldl_cons, states, ctlState_trainCtl]
      by_cases here : c = b
      · simp [here]
      · simp [here]
    · rw [List.foldl_cons, rates, rates_trainCtl]
      by_cases here : c = b
      · simp [here]
      · simp [here]
    · exact State.getR_set_ne s (MEM_CH_STATUS_STATE b) _ _ (chStatus_apart b).2

/-- A START whose controllers may all train. -/
theorem trainStart_all {s : State} (at_ : Nat) (ready : ∀ c < 24, ctlState s c ≠ 1 ∧ ctlState s c ≠ 4 ∧ ctlState s c ≠ 5) :
    s.trainStart at_ = ((onesBelow 24 (s.get MEM_TRAIN_CTRL_MASK)).foldl (State.trainCtl (min 2 (s.get MEM_TRAIN_CTRL_RATE))) s).showTraining := by
  have skips : ∀ c ∈ onesBelow 24 (s.get MEM_TRAIN_CTRL_MASK), [1, 4, 5].contains (s.get (MEM_CH_STATUS_STATE c)) = false := by
    intro c hc
    have small : c < 24 := List.mem_range.mp (List.mem_filter.mp hc).1
    obtain ⟨training, shut, fenced⟩ := ready c small
    simp [training, shut, fenced]
  have all : (onesBelow 24 (s.get MEM_TRAIN_CTRL_MASK)).filter (fun c => !List.contains [1, 4, 5] (s.get (MEM_CH_STATUS_STATE c))) =
      onesBelow 24 (s.get MEM_TRAIN_CTRL_MASK) := List.filter_eq_self.mpr fun c hc => by rw [skips c hc]; rfl
  unfold State.trainStart
  dsimp only
  rw [all, if_neg (by rw [List.any_eq_true]; rintro ⟨c, hc, skip⟩; exact Bool.false_ne_true ((skips c hc).symm.trans skip))]
  rfl

theorem trainCtrl_row {row : RegRow} {ix : List Nat} (h : regAt MEM_TRAIN_CTRL.off = some (row, ix)) : row.rwp = 0x3FFFFFF ∧ row.rwb = 0 := by
  have table : (regAt MEM_TRAIN_CTRL.off).any (fun x => x.1.rwp == 0x3FFFFFF && x.1.rwb == 0) = true := by decide +kernel
  rw [h] at table
  simpa using table

theorem trainCtrl_regOf : regOf MEM_TRAIN_CTRL.off = MEM_TRAIN_CTRL := by decide +kernel

theorem exec_memTrainStart {v : Word} {s : State} (taken : Taken s MEM_TRAIN_CTRL) (off : s.flag MEM_CTRL_EN = false)
    (idle : s.flag MEM_CTRL_ENABLE_PENDING = false) :
    ∃ x, bits x 0 24 = bits v.toNat 0 24 ∧ exec (.memTrainStart v) s = done ((s.setR MEM_TRAIN_CTRL x).trainStart MEM_TRAIN_CTRL.off) := by
  obtain ⟨row, hr, write⟩ := s.hostWrite_MEM_TRAIN_CTRL (setBit v 31) taken
  obtain ⟨rwp, rwb⟩ := trainCtrl_row hr
  have opened : s.rwpOpen MEM_TRAIN_CTRL.off = true := by
    change (!(s.flag MEM_CTRL_EN || s.flag MEM_CTRL_ENABLE_PENDING)) = true
    rw [off, idle]
    rfl
  have stored := s.stored_eq (ownWrite MEM_TRAIN_CTRL row [] (setBit v 31)) (.inr opened) rwb
  rw [show regOf (ownWrite MEM_TRAIN_CTRL row [] (setBit v 31)).off = MEM_TRAIN_CTRL from trainCtrl_regOf] at stored
  refine ⟨keptValue row (s.getR MEM_TRAIN_CTRL) (setBit v 31).toNat, ?_, ?_⟩
  · rw [bits_keptValue_rwp _ _ (by decide) (by rw [rwp]; decide), setBit_toNat v 31 (by decide), bits_putBits_below _ _ _ _ _ _ (by decide)]
  · change done (s.hostWrite MEM_TRAIN_CTRL (setBit v 31)) = _
    rw [write, bit_setBit_same v 31 (by decide), off, idle, stored]
    rfl

theorem memTrainStart_row (v : Word) {s : State} (q : Quiet s) (taken : Taken s MEM_TRAIN_CTRL) (off : s.flag MEM_CTRL_EN = false)
    (idle : s.flag MEM_CTRL_ENABLE_PENDING = false) (ready : ∀ c < 24, ctlState s c ≠ 1 ∧ ctlState s c ≠ 4 ∧ ctlState s c ≠ 5) :
    ∃ t, exec (.memTrainStart v) s = .next t ∧
      ∀ c < 24, (ctlState t c = if bit (bits v.toNat 0 24) c then 1 else ctlState s c) ∧
        Tbl.read t.mem.rates 0 c = if bit (bits v.toNat 0 24) c then min 2 (t.get MEM_TRAIN_CTRL_RATE) else Tbl.read s.mem.rates 0 c := by
  obtain ⟨x, mask, run⟩ := exec_memTrainStart (v := v) taken off idle
  have same (c : Nat) : ctlState (s.setR MEM_TRAIN_CTRL x) c = ctlState s c := State.get_setR_ne s _ _ _ (chStatus_apart c).2.symm
  have fld : (s.setR MEM_TRAIN_CTRL x).get MEM_TRAIN_CTRL_MASK = bits v.toNat 0 24 := (s.get_setR_same MEM_TRAIN_CTRL_MASK x (by decide)).trans mask
  rw [trainStart_all _ fun c small => by rw [same c]; exact ready c small, fld] at run
  obtain ⟨states, rates, ctrl, fault, switch⟩ :=
    trainAll (min 2 ((s.setR MEM_TRAIN_CTRL x).get MEM_TRAIN_CTRL_RATE)) (s.setR MEM_TRAIN_CTRL x) (onesBelow 24 (bits v.toNat 0 24))
  generalize (onesBelow 24 (bits v.toNat 0 24)).foldl _ _ = t at run states rates ctrl fault switch
  have member {c : Nat} (small : c < 24) : c ∈ onesBelow 24 (bits v.toNat 0 24) ↔ bit (bits v.toNat 0 24) c = true := by simp [onesBelow, small]
  have rate : t.showTraining.get MEM_TRAIN_CTRL_RATE = (s.setR MEM_TRAIN_CTRL x).get MEM_TRAIN_CTRL_RATE :=
    (t.get_set_ne MEM_STATUS_TRAIN_BUSY MEM_TRAIN_CTRL_RATE _ (by decide)).trans (congrArg (fun y => bits y 24 2) ctrl)
  refine ⟨t.showTraining, run.trans (done_same q fault switch), fun c small => ⟨?_, ?_⟩⟩
  · refine (t.get_set_ne MEM_STATUS_TRAIN_BUSY (MEM_CH_STATUS_STATE c) _ (chStatus_apart c).1).trans ((states c).trans ?_)
    rw [same c]
    exact ite_congr (propext (member small)) (fun _ => rfl) fun _ => rfl
  · rw [rate]
    exact (rates c).trans (ite_congr (propext (member small)) (fun _ => rfl) fun _ => rfl)

/-- A controller shows how its training ended (R144, R145). -/
def State.trained (s : State) (c failCode failMap : Nat) : State :=
  ((s.set (MEM_CH_STATUS_STATE c) (if failCode = 0 then 2 else 3)).set (MEM_CH_STATUS_CODE c) failCode).set
    (MEM_CH_STATUS_CHANNELS c) (if failCode = 0 then 0 else failMap)

/-- A controller in use shows the rate it trained at. -/
def State.trainedRate (s : State) (c failCode rate : Nat) : State := if failCode = 0 then s.set (MEM_CH_STATUS_RATE c) rate else s

theorem exec_trainingDone {ctl : CtlIx} {failCode failMap : Nat} {s : State} (run : s.fatal = false) (training : ctlState s ctl.val = 1) :
    exec (.trainingDone ctl failCode failMap) s =
      done ((((s.trained ctl.val failCode failMap).trainedRate ctl.val failCode (Tbl.read s.mem.rates 0 ctl.val)).gddrForget
        fun a => ((s.trained ctl.val failCode failMap).trainedRate ctl.val failCode (Tbl.read s.mem.rates 0 ctl.val)).ctlOf a == ctl.val).showTraining) :=
  if_neg (by rw [run, show s.get (MEM_CH_STATUS_STATE ctl.val) = 1 from training]; decide)

theorem trained_shows (s : State) (c failCode failMap : Nat) (small : failCode < 256) :
    let t := s.trained c failCode failMap
    ctlState t c = (if failCode = 0 then 2 else 3) ∧ t.get (MEM_CH_STATUS_CODE c) = failCode ∧
      (∀ r : Reg, r.off ≠ (MEM_CH_STATUS c).off → t.getR r = s.getR r) ∧ RegsOnly s t := by
  refine ⟨?_, ?_, fun r other => ?_, RegsOnly.set (RegsOnly.set (RegsOnly.set (RegsOnly.refl s) _ _) _ _) _ _⟩
  · refine (State.get_set_apart _ (MEM_CH_STATUS_CHANNELS c) (MEM_CH_STATUS_STATE c) _ rfl (by decide : 12 + 4 ≤ 32) (.inl (by decide : 0 + 3 ≤ 12))).trans ?_
    refine (State.get_set_apart _ (MEM_CH_STATUS_CODE c) (MEM_CH_STATUS_STATE c) _ rfl (by decide : 4 + 8 ≤ 32) (.inl (by decide : 0 + 3 ≤ 4))).trans ?_
    rw [State.get_set_same _ _ _ (by decide : 0 + 3 ≤ 32)]
    exact Nat.mod_eq_of_lt (show (if failCode = 0 then 2 else 3) < 8 by split <;> decide)
  · refine (State.get_set_apart _ (MEM_CH_STATUS_CHANNELS c) (MEM_CH_STATUS_CODE c) _ rfl (by decide : 12 + 4 ≤ 32) (.inl (by decide : 4 + 8 ≤ 12))).trans ?_
    rw [State.get_set_same _ _ _ (by decide : 4 + 8 ≤ 32)]
    exact Nat.mod_eq_of_lt small
  · exact (State.getR_set_ne _ (MEM_CH_STATUS_CHANNELS c) r _ other).trans
      ((State.getR_set_ne _ (MEM_CH_STATUS_CODE c) r _ other).trans (State.getR_set_ne _ (MEM_CH_STATUS_STATE c) r _ other))

theorem trainedRate_shows (s : State) (c failCode rate : Nat) :
    let t := s.trainedRate c failCode rate
    ctlState t c = ctlState s c ∧ t.get (MEM_CH_STATUS_CODE c) = s.get (MEM_CH_STATUS_CODE c) ∧
      (failCode = 0 → t.get (MEM_CH_STATUS_RATE c) = rate % 4) ∧
      (∀ r : Reg, r.off ≠ (MEM_CH_STATUS c).off → t.getR r = s.getR r) ∧ RegsOnly s t := by
  intro t
  by_cases good : failCode = 0
  · have is : t = s.set (MEM_CH_STATUS_RATE c) rate := if_pos good
    rw [is]
    refine ⟨State.get_set_apart s (MEM_CH_STATUS_RATE c) (MEM_CH_STATUS_STATE c) rate rfl (by decide : 16 + 2 ≤ 32) (.inl (by decide : 0 + 3 ≤ 16)),
      State.get_set_apart s (MEM_CH_STATUS_RATE c) (MEM_CH_STATUS_CODE c) rate rfl (by decide : 16 + 2 ≤ 32) (.inl (by decide : 4 + 8 ≤ 16)),
      fun _ => State.get_set_same s _ rate (by decide : 16 + 2 ≤ 32), fun r other => State.getR_set_ne _ _ _ _ other, RegsOnly.set (RegsOnly.refl s) _ _⟩
  · have is : t = s := if_neg good
    rw [is]
    exact ⟨rfl, rfl, fun zero => absurd zero good, fun _ _ => rfl, rfl⟩

theorem trainingDone_rows {ctl : CtlIx} {failCode : Nat} (failMap : Nat) {s : State} (q : Quiet s) (run : s.fatal = false) (small : failCode < 256) :
    (ctlState s ctl.val = 1 → ∃ t, exec (.trainingDone ctl failCode failMap) s = .next t ∧
      ctlState t ctl.val = (if failCode = 0 then 2 else 3) ∧ t.get (MEM_CH_STATUS_CODE ctl.val) = failCode ∧
      (failCode = 0 → t.get (MEM_CH_STATUS_RATE ctl.val) = Tbl.read s.mem.rates 0 ctl.val % 4) ∧
      RegsKept [(MEM_CH_STATUS ctl.val).off, MEM_STATUS.off] s t) ∧
    (ctlState s ctl.val ≠ 1 → exec (.trainingDone ctl failCode failMap) s = .next s) := by
  refine ⟨fun training => ?_, fun other => (if_pos (Bool.or_eq_true_iff.mpr (.inr (bne_iff_ne.mpr other)))).trans (done_quiet q)⟩
  have ends := exec_trainingDone (failCode := failCode) (failMap := failMap) run training
  obtain ⟨state, code, kept, only⟩ := trained_shows s ctl.val failCode failMap small
  obtain ⟨state', code', rate', kept', only'⟩ :=
    trainedRate_shows (s.trained ctl.val failCode failMap) ctl.val failCode (Tbl.read s.mem.rates 0 ctl.val)
  generalize s.trained ctl.val failCode failMap = t at *
  generalize t.trainedRate ctl.val failCode (Tbl.read s.mem.rates 0 ctl.val) = u at *
  have quiet : Quiet u := RegsOnly.quiet only' (RegsOnly.quiet only q)
  have busy (f : Fld) (out : f.reg.off ≠ MEM_STATUS.off) : (u.gddrForget fun a => u.ctlOf a == ctl.val).showTraining.get f = u.get f :=
    State.get_set_ne _ MEM_STATUS_TRAIN_BUSY f _ out
  have apart := (chStatus_apart ctl.val).1
  refine ⟨_, ends.trans (done_same quiet rfl rfl), (busy _ apart).trans (state'.trans state), (busy _ apart).trans (code'.trans code),
    fun good => (busy _ apart).trans (rate' good), fun r out => ?_⟩
  simp only [List.mem_cons, List.not_mem_nil, or_false, not_or] at out
  exact (State.getR_set_ne _ MEM_STATUS_TRAIN_BUSY r _ out.2).trans ((kept' r out.1).trans (kept r out.1))

theorem memShutdownDone_rows {s : State} (q : Quiet s) (run : s.fatal = false) (shutting : s.mem.shutting = true) :
    let u := { s with mem := { s.mem with shutting := false } }
    (s.flag MEM_CTRL_ENABLE_PENDING = false → exec .memShutdownDone s = .next u) ∧
    (s.flag MEM_CTRL_ENABLE_PENDING = true → Ends .memShutdownDone s ((u.set MEM_CTRL_ENABLE_PENDING 0).memEnable)) := by
  intro u
  have ends : exec .memShutdownDone s = done (if u.flag MEM_CTRL_ENABLE_PENDING then (u.set MEM_CTRL_ENABLE_PENDING 0).memEnable else u) :=
    if_neg (by rw [run, shutting]; decide)
  exact ⟨fun idle => ends.trans ((congrArg done (if_neg (ne_true_of_eq_false idle))).trans (done_same q rfl rfl)),
    fun pending => ends.trans (congrArg done (if_pos pending))⟩

/-- Settles O27. -/
theorem memoryControl : Obligations.MemoryControl :=
  ⟨fun v _ q taken off => memEnable_rows v q taken off, fun v _ q taken => memDisable_row v q taken,
    fun v _ q taken off idle ready => memTrainStart_row v q taken off idle ready,
    fun _ _ failMap _ q run small => trainingDone_rows failMap q run small, fun _ q run shutting => memShutdownDone_rows q run shutting⟩

end Sys2Proof.Machine
end

section
/-! The rank-ordered gate (R149 to R154, R374). -/

namespace Sys2Proof.Machine

open Sys2Proof

theorem exec_raccPacket {bad : Option Nat} {s u : State} {x : Inb} (opened : s.memOpen = true)
    (took : s.takeInb (fun x => x.pkt.data && x.pkt.opcode == 0x42) = some (x, u)) : exec (.raccPacket bad) s = done (u.raccArrive bad x.pkt) := by
  change execRaccPacket bad s = _
  unfold execRaccPacket
  rw [opened, took]
  rfl

theorem raccArrive_stale {u : State} {p : Pkt} (bad : Option Nat) (h : u.xlate p = .stale) :
    u.raccArrive bad p = (u.answer p 0x03 0x10 0).count MEM_XLATE_STALE_COUNT := by
  unfold State.raccArrive
  rw [h]

theorem raccArrive_away {u : State} {p q : Pkt} {dev : Nat} (bad : Option Nat) (h : u.xlate p = .away q dev) : u.raccArrive bad p = u.raccForward p q dev := by
  unfold State.raccArrive
  rw [h]

theorem raccArrive_here {u : State} {p q : Pkt} (bad : Option Nat) (h : (u.xlate p = .keep ∧ q = p) ∨ u.xlate p = .moved q) :
    u.raccArrive bad p = u.raccEnter bad q := by
  unfold State.raccArrive
  rcases h with ⟨keep, same⟩ | moved
  · rw [keep, same]
  · rw [moved]

/-! Past translation -/

theorem raccEnter_outside {u : State} {p : Pkt} (bad : Option Nat) (h : u.raccRange p = false) :
    u.raccEnter bad p = (u.answer p 0x03 0x10 0).count MEM_RACC_REJECT_COUNT := if_pos (by rw [h]; rfl)

section
variable {u : State} {p : Pkt} (bad : Option Nat) (inside : u.raccRange p = true)
include inside

theorem raccEnter_inside : u.raccEnter bad p = match u.shardHit p.addr p.byteCount with
    | some (_, e) => (u.noteRefused e 0x30).raccReject p (0x30000000 + e)
    | none => match u.gateOf p.rChunk p.rStep with
      | some g => if g.closed.isSome then (u.answer p 0x01 0 0).count MEM_RACC_DUP_COUNT else u.raccGate bad g p
      | none => u.raccOpen bad p :=
  (if_neg (by rw [inside]; exact Bool.false_ne_true)).trans rfl

theorem raccEnter_protected {off e : Nat} (hit : u.shardHit p.addr p.byteCount = some (off, e)) :
    u.raccEnter bad p = ((u.noteRefused e 0x30).answer p 0x03 0x10 (0x30000000 + e)).count MEM_RACC_REJECT_COUNT := by
  rw [raccEnter_inside bad inside, hit]
  rfl

theorem raccEnter_first (clear : u.shardHit p.addr p.byteCount = none) (first : u.gateOf p.rChunk p.rStep = none) :
    u.raccEnter bad p = u.raccOpen bad p := by rw [raccEnter_inside bad inside, clear, first]

theorem raccEnter_entry {g : Gate} (clear : u.shardHit p.addr p.byteCount = none) (entry : u.gateOf p.rChunk p.rStep = some g) :
    u.raccEnter bad p = if g.closed.isSome then (u.answer p 0x01 0 0).count MEM_RACC_DUP_COUNT else u.raccGate bad g p := by
  rw [raccEnter_inside bad inside, clear, entry]

end

/-! An open entry -/

/-- A packet whose descriptor is that of the entry, its rank one of the entry's, not yet got. -/
structure GateFits (g : Gate) (p : Pkt) : Prop where
  same : g.first = p.rFirst ∧ g.count = p.rCount ∧ g.length = p.rLength ∧ g.dst = p.rDst
  low : g.first ≤ p.rRank
  high : p.rRank < g.first + g.count
  fresh : (p.rRank, p.rK) ∉ g.got

/-- The entry that has got a packet. -/
def Gate.gotPkt (g : Gate) (p : Pkt) : Gate := { g with got := g.got ++ [(p.rRank, p.rK)] }

section
variable {u : State} {g : Gate} {p : Pkt} (bad : Option Nat) (fits : GateFits g p)
include fits

theorem raccGate_fits (due : g.first + g.next ≤ p.rRank) : u.raccGate bad g p =
    if p.rRank = g.first + g.next then
      let (r, k) := (u.putGate { g.gotPkt p with lastAt := u.now }).applyRacc bad { g.gotPkt p with lastAt := u.now } p
      let k := match r with
        | some h => State.advanceGate (h.count + 1) h k
        | none => k
      k.answer p 0x01 0 0
    else
      match u.stageCells p with
      | none => (u.answer p 0x02 0 0).count MEM_RACC_RETRY_COUNT
      | some (cs, k) =>
        (k.putGate { g.gotPkt p with parked := (g.gotPkt p).parked ++ [{ rank := p.rRank, k := p.rK, pkt := p, cells := cs }] }).answer p 0x01 0 0 := by
  obtain ⟨first, count, length, dst⟩ := fits.same
  refine (if_neg ?_).trans ((if_neg ?_).trans rfl)
  · rintro (h | h | h | h | h | h)
    · exact h first
    · exact h count
    · exact h length
    · exact h dst
    · exact absurd fits.low (Nat.not_le.mpr h)
    · exact absurd fits.high (Nat.not_lt.mpr h)
  · rw [Bool.or_eq_true, decide_eq_true_eq, List.contains_iff_mem]
    rintro (got | early)
    · exact fits.fresh got
    · exact absurd due (Nat.not_le.mpr early)

theorem raccGate_awaited (awaited : p.rRank = g.first + g.next) {z : Gate} {k : State}
    (added : State.addPacket bad (List.range ((p.byteCount + 63) / 64)) p { g.gotPkt p with lastAt := u.now } (u.putGate { g.gotPkt p with lastAt := u.now }) =
      (true, z, k)) (more : z.applied + 1 < raccPackets z.length) :
    u.raccGate bad g p = (k.putGate { z with applied := z.applied + 1 }).answer p 0x01 0 0 := by
  have applied : (u.putGate { g.gotPkt p with lastAt := u.now }).applyRacc bad { g.gotPkt p with lastAt := u.now } p =
      (some { z with applied := z.applied + 1 }, k) := by
    unfold State.applyRacc
    dsimp only
    rw [added]
  have stays : State.advanceGate (z.count + 1) { z with applied := z.applied + 1 } k = k.putGate { z with applied := z.applied + 1 } := if_pos more
  rw [raccGate_fits bad fits (Nat.le_of_eq awaited.symm), if_pos awaited, applied]
  exact congrArg (fun t => State.answer t p 0x01 0 0) stays

theorem raccGate_later (later : g.first + g.next < p.rRank) : u.raccGate bad g p = match u.stageCells p with
    | none => (u.answer p 0x02 0 0).count MEM_RACC_RETRY_COUNT
    | some (cs, k) =>
      (k.putGate { g.gotPkt p with parked := (g.gotPkt p).parked ++ [{ rank := p.rRank, k := p.rK, pkt := p, cells := cs }] }).answer p 0x01 0 0 := by
  rw [raccGate_fits bad fits (Nat.le_of_lt later), if_neg (Nat.ne_of_gt later)]

end

/-! The timers -/

theorem gateTimeout_rows {s : State} {i : Nat} {g : Gate} (q : Quiet s) (run : s.fatal = false) (entry : s.mem.gates[i]? = some g) :
    (g.closed = none → Ends (.gateTimeout i) s ((s.passTo (g.lastAt + s.gateTime)).closeGate g 1)) ∧
    (g.closed.isSome = true → exec (.gateTimeout i) s = .next s) ∧
    (g.closed = none → exec (.tombstoneExpiry i) s = .next s) ∧
    (∀ t, g.closed = some t → Ends (.tombstoneExpiry i) s ((s.passTo t).modMem fun m => { m with gates := m.gates.erase g })) := by
  have timeout : exec (.gateTimeout i) s = if g.closed.isSome then done s else done ((s.passTo (g.lastAt + s.gateTime)).closeGate g 1) := by
    change execGateTimeout i s = _
    unfold execGateTimeout
    rw [entry]
    dsimp only
    rw [run, Bool.false_or]
  have expiry : exec (.tombstoneExpiry i) s = match g.closed with
      | some t => done ((s.passTo t).modMem fun m => { m with gates := m.gates.erase g })
      | none => done s := by
    change execTombstoneExpiry i s = _
    unfold execTombstoneExpiry
    rw [entry]
    dsimp only
    rw [run]
    rfl
  refine ⟨fun opened => timeout.trans (if_neg ?_), fun closed => (timeout.trans (if_pos closed)).trans (done_quiet q),
    fun opened => ?_, fun t closed => ?_⟩
  · rw [opened]
    exact Bool.false_ne_true
  · rw [expiry, opened]
    exact done_quiet q
  · rw [Ends, expiry, closed]
    rfl

theorem gateTimers_none {s : State} {i : Nat} (q : Quiet s) (vacant : s.mem.gates[i]? = none) :
    exec (.gateTimeout i) s = .next s ∧ exec (.tombstoneExpiry i) s = .next s := by
  constructor
  · change execGateTimeout i s = _
    unfold execGateTimeout
    rw [vacant]
    exact done_quiet q
  · change execTombstoneExpiry i s = _
    unfold execTombstoneExpiry
    rw [vacant]
    exact done_quiet q

/-- Settles O28. -/
theorem gatedAccumulation : Obligations.GatedAccumulation := by
  refine ⟨fun bad s u x q opened took => ?_, fun _ _ _ q run entry => gateTimeout_rows q run entry, fun _ _ q vacant => gateTimers_none q vacant⟩
  have ends (t : State) (h : u.raccArrive bad x.pkt = t) : Ends (.raccPacket bad) s t := (exec_raccPacket opened took).trans (congrArg done h)
  refine ⟨fun stale => ends _ (raccArrive_stale bad stale), fun _ _ away => ends _ (raccArrive_away bad away), fun p here => ?_⟩
  have enter (t : State) (h : u.raccEnter bad p = t) : Ends (.raccPacket bad) s t := ends t ((raccArrive_here bad here).trans h)
  refine ⟨fun outside => enter _ (raccEnter_outside bad outside), fun _ _ inside hit => enter _ (raccEnter_protected bad inside hit),
    fun inside clear => ⟨fun first => enter _ (raccEnter_first bad inside clear first), fun g entry => ?_⟩⟩
  have known := raccEnter_entry bad inside clear entry
  have gate (opened : g.closed = none) : u.raccEnter bad p = u.raccGate bad g p := known.trans (if_neg (by rw [opened]; exact Bool.false_ne_true))
  refine ⟨fun closed => enter _ (known.trans (if_pos closed)), fun opened => enter _ (gate opened), fun opened same low high fresh => ?_⟩
  have fits : GateFits g p := ⟨same, low, high, fresh⟩
  refine ⟨fun awaited z k added more => enter _ ((gate opened).trans (raccGate_awaited bad fits awaited added more)), fun later => ⟨fun full => ?_, fun cs k staged => ?_⟩⟩
  · refine enter _ ((gate opened).trans ((raccGate_later bad fits later).trans ?_))
    rw [full]
  · refine enter _ ((gate opened).trans ((raccGate_later bad fits later).trans ?_))
    rw [staged]
    rfl

end Sys2Proof.Machine
end

section
/-! Writes at an endpoint (R67, R100, R102, R108, R204, R256, R358). -/

namespace Sys2Proof.Machine

open Sys2Proof

/-! A write that is delivered -/

theorem serveWrite_outside {u : State} {p : Pkt} (out : epRange p.destEp p.addr p.byteCount = false) : u.serveWrite p = u.answer p 0x03 0x10 0 :=
  if_pos (by rw [out]; rfl)

theorem serveWrite_inside {u : State} {p : Pkt} (inside : epRange p.destEp p.addr p.byteCount = true) : u.serveWrite p =
    match (if p.destEp = 0xC0 then u.shardHit p.addr p.byteCount else none) with
    | some (_, e) => (u.noteRefused e 0x30).answer p 0x03 0x10 (0x30000000 + e)
    | none => if (u.writeRange p.addr p.payload).1.isSome then (u.writeRange p.addr p.payload).2.answer p 0x03 0x10 0
        else (u.writeRange p.addr p.payload).2.answer p 0x01 0 (b2n p.mcast) :=
  (if_neg (by rw [inside]; exact Bool.false_ne_true)).trans rfl

theorem serveWrite_protected {u : State} {p : Pkt} {i e : Nat} (inside : epRange p.destEp p.addr p.byteCount = true) (gddr : p.destEp = 0xC0)
    (hit : u.shardHit p.addr p.byteCount = some (i, e)) :
    u.serveWrite p = (u.noteRefused e 0x30).answer p 0x03 0x10 (0x30000000 + e) := by
  rw [serveWrite_inside inside, if_pos gddr, hit]

theorem serveWrite_clear {u : State} {p : Pkt} (inside : epRange p.destEp p.addr p.byteCount = true)
    (clear : p.destEp = 0xC0 → u.shardHit p.addr p.byteCount = none) : u.serveWrite p =
      if (u.writeRange p.addr p.payload).1.isSome then (u.writeRange p.addr p.payload).2.answer p 0x03 0x10 0
      else (u.writeRange p.addr p.payload).2.answer p 0x01 0 (b2n p.mcast) := by
  have unmet : (if p.destEp = 0xC0 then u.shardHit p.addr p.byteCount else none) = none := by
    by_cases gddr : p.destEp = 0xC0
    · rw [if_pos gddr, clear gddr]
    · rw [if_neg gddr]
  rw [serveWrite_inside inside, unmet]

/-- What a row of endpoint writes does with a packet of its opcodes, whatever the row. -/
theorem takeWrite_rows {c : Instr} {ops : List Nat} {s : State} (q : Quiet s) (run : exec c s = done (s.takeWrite ops)) :
    let ok (x : Inb) : Bool := x.pkt.data && ops.contains x.pkt.opcode && !s.epWaits x.pkt.destEp
    (s.takeInb ok = none → exec c s = .next s) ∧
    ∀ x u, s.takeInb ok = some (x, u) →
      let p := x.pkt
      (epRange p.destEp p.addr p.byteCount = false → Ends c s (u.answer p 0x03 0x10 0)) ∧
      (epRange p.destEp p.addr p.byteCount = true →
        (∀ i e, p.destEp = 0xC0 → u.shardHit p.addr p.byteCount = some (i, e) →
          Ends c s ((u.noteRefused e 0x30).answer p 0x03 0x10 (0x30000000 + e))) ∧
        ((p.destEp = 0xC0 → u.shardHit p.addr p.byteCount = none) →
          let r := u.writeRange p.addr p.payload
          (r.1 = none → Ends c s (r.2.answer p 0x01 0 (b2n p.mcast))) ∧ (r.1 ≠ none → Ends c s (r.2.answer p 0x03 0x10 0)))) := by
  intro ok
  have take : s.takeWrite ops = match s.takeInb ok with
      | some (x, u) => u.serveWrite x.pkt
      | none => s := rfl
  refine ⟨fun idle => ?_, fun x u took => ?_⟩
  · rw [run, take, idle]
    exact done_quiet q
  · have ends {t : State} (h : u.serveWrite x.pkt = t) : Ends c s t := by
      rw [Ends, run, take, took]
      exact congrArg done h
    refine ⟨fun out => ends (serveWrite_outside out), fun inside => ⟨fun i e gddr hit => ends (serveWrite_protected inside gddr hit), fun clear => ⟨fun good => ?_, fun failed => ?_⟩⟩⟩
    · refine ends ((serveWrite_clear inside clear).trans (if_neg ?_))
      rw [good]
      exact Bool.false_ne_true
    · exact ends ((serveWrite_clear inside clear).trans (if_pos (Option.isSome_iff_ne_none.mpr failed)))

/-- Settles O29. -/
theorem writePackets : Obligations.WritePackets := by
  intro c ops row s q
  refine takeWrite_rows q ?_
  simp only [List.mem_cons, List.not_mem_nil, or_false, Prod.mk.injEq] at row
  obtain ⟨rfl, rfl⟩ | ⟨rfl, rfl⟩ | ⟨rfl, rfl⟩ := row
  · rfl
  · rfl
  · rfl

end Sys2Proof.Machine
end

section
/-! Reads, read responses and signals at an endpoint (R66, R67, R70, R204, R210). -/

namespace Sys2Proof.Machine

open Sys2Proof

/-! A read -/

theorem serveRead_bad {u : State} {p : Pkt} (bad : Option Nat) (h : readOk p = false) : u.serveRead bad p = u.answer p 0x03 0x10 0 :=
  if_pos (by rw [h]; rfl)

theorem serveRead_good {u k : State} {p : Pkt} {bad : Option Nat} {r : ReadRes} (h : readOk p = true)
    (read : u.readRange (field p.pay 0 6) (field p.pay 0x10 2) bad = (r, k)) : u.serveRead bad p =
      if r.fail.isSome then k.answer p 0x03 0x10 0
      else k.offer { input := k.inputOf p.destEp (field p.pay 0 6), pkt := k.mkData p.srcAddr p.srcEp p.destEp 0x41 p.ctag none 4 0 (field p.pay 0x12 1) (field p.pay 8 6) [] r.bytes, orig := .endpoint } := by
  refine (if_neg (by rw [h]; exact Bool.false_ne_true)).trans ?_
  dsimp only
  rw [read]

theorem readReq_rows (bad : Option Nat) {s : State} (q : Quiet s) :
    let ok (x : Inb) : Bool := !x.pkt.data && x.pkt.opcode == 0x04 && !s.epWaits x.pkt.destEp
    (s.takeInb ok = none → exec (.readReq bad) s = .next s) ∧
    ∀ x u, s.takeInb ok = some (x, u) →
      let p := x.pkt
      let a := field p.pay 0 6
      (readOk p = false → Ends (.readReq bad) s (u.answer p 0x03 0x10 0)) ∧
      (readOk p = true → ∀ r k, u.readRange a (field p.pay 0x10 2) bad = (r, k) →
        (r.fail.isSome = true → Ends (.readReq bad) s (k.answer p 0x03 0x10 0)) ∧
        (r.fail = none →
          let q := k.mkData p.srcAddr p.srcEp p.destEp 0x41 p.ctag none 4 0 (field p.pay 0x12 1) (field p.pay 8 6) [] r.bytes
          Ends (.readReq bad) s (k.offer { input := k.inputOf p.destEp a, pkt := q, orig := .endpoint }))) := by
  intro ok
  have run : exec (.readReq bad) s = match s.takeInb ok with
      | some (x, u) => done (u.serveRead bad x.pkt)
      | none => done s := rfl
  refine ⟨fun idle => ?_, fun x u took => ?_⟩
  · rw [run, idle]
    exact done_quiet q
  · have ends {t : State} (h : u.serveRead bad x.pkt = t) : Ends (.readReq bad) s t := by
      rw [Ends, run, took]
      exact congrArg done h
    refine ⟨fun broken => ends (serveRead_bad bad broken), fun keeps r k read => ⟨fun failed => ends ((serveRead_good keeps read).trans (if_pos failed)), fun good => ?_⟩⟩
    refine ends ((serveRead_good keeps read).trans (if_neg ?_))
    rw [good]
    exact Bool.false_ne_true

/-! The data of a read at a core -/

theorem coreData_stale {u : State} {L : Nat} {p : Pkt} (missing : u.outstOf L (answersRead p) = none)
    (missingLeft : (u.core L).left.find? (answersRead p) = none) : u.coreData L p = u.count (DET_CORE_STALE_COUNT L) := by
  unfold State.coreData
  rw [missing]
  dsimp only
  rw [missingLeft]

theorem coreData_written {u k z : State} {L q : Nat} {p : Pkt} {d : Desc} {o : Outst} (found : u.outstOf L (answersRead p) = some (q, d, o))
    (clear : u.shardStatus p.addr p.byteCount = (none, k)) (written : k.writeRange p.addr p.payload = (none, z)) :
    u.coreData L p = ((z.busy (4 * L + 3) (2 * ((p.byteCount + 63) / 64))).dropOutst L q d.number o).advance L q d.number o.xfer := by
  unfold State.coreData
  rw [found]
  dsimp only
  rw [clear]
  dsimp only
  rw [written]

theorem readResp_rows {s : State} (q : Quiet s) :
    let ok (x : Inb) : Bool := x.pkt.data && x.pkt.opcode == 0x41 && !s.memWaits x.pkt.addr x.pkt.byteCount
    (s.takeInb ok = none → exec .readResp s = .next s) ∧
    ∀ x u, s.takeInb ok = some (x, u) → x.pkt.destEp < 144 →
      let p := x.pkt
      let L := p.destEp
      (u.outstOf L (answersRead p) = none → (u.core L).left.find? (answersRead p) = none → Ends .readResp s (u.count (DET_CORE_STALE_COUNT L))) ∧
      ∀ q d o, u.outstOf L (answersRead p) = some (q, d, o) → ∀ k, u.shardStatus p.addr p.byteCount = (none, k) →
        ∀ z, k.writeRange p.addr p.payload = (none, z) →
        Ends .readResp s ((((z.busy (4 * L + 3) (2 * ((p.byteCount + 63) / 64))).dropOutst L q d.number o).advance L q d.number o.xfer)) := by
  intro ok
  have run : exec .readResp s = match s.takeInb ok with
      | some (x, u) => done (if x.pkt.destEp < 144 then u.coreData x.pkt.destEp x.pkt else u)
      | none => done s := rfl
  refine ⟨fun idle => ?_, fun x u took core => ?_⟩
  · rw [run, idle]
    exact done_quiet q
  · have ends {t : State} (h : u.coreData x.pkt.destEp x.pkt = t) : Ends .readResp s t := by
      rw [Ends, run, took]
      exact congrArg done ((if_pos core).trans h)
    exact ⟨fun missing missingLeft => ends (coreData_stale missing missingLeft), fun q d o found k clear z written => ends (coreData_written found clear written)⟩

/-! Signals -/

theorem rsignalPacket_rows {s : State} (q : Quiet s) : (s.takePkt false 0x05 = none → exec .rsignalPacket s = .next s) ∧
    ∀ x u, s.takePkt false 0x05 = some (x, u) →
      Ends .rsignalPacket s ((u.extEvt x.pkt.destEp (field x.pkt.pay 4 1 % 32) (field x.pkt.pay 0 4)).answer x.pkt 0x01 0 0) := by
  have run : exec .rsignalPacket s = match s.takePkt false 0x05 with
      | some (x, u) => done ((u.extEvt x.pkt.destEp (field x.pkt.pay 4 1 % 32) (field x.pkt.pay 0 4)).answer x.pkt 0x01 0 0)
      | none => done s := rfl
  refine ⟨fun idle => ?_, fun x u took => ?_⟩
  · rw [run, idle]
    exact done_quiet q
  · rw [Ends, run, took]
    rfl

/-- Settles O30. -/
theorem readAndSignalPackets : Obligations.ReadAndSignalPackets :=
  ⟨fun bad _ q => readReq_rows bad q, fun _ q => readResp_rows q, fun _ q => rsignalPacket_rows q⟩

end Sys2Proof.Machine
end

section
/-! The answers to a core's packets, and the replicator of the switch (R67, R154, R210, R225, R253 to R256, R261, R265). -/

namespace Sys2Proof.Machine

open Sys2Proof

/-! The rows of the answers -/

/-- The answer of a row goes to the endpoint it is addressed to. -/
theorem exec_answer {s : State} : (exec .ack s = match s.takePkt false 0x01 with
      | some (x, u) => done (u.takeAnswer x.pkt State.coreAck State.colAck)
      | none => done s) ∧
    (exec .retry s = match s.takePkt false 0x02 with
      | some (x, u) => done (u.takeAnswer x.pkt State.coreRetry State.colRetry)
      | none => done s) ∧
    exec .refuse s = match s.takePkt false 0x03 with
      | some (x, u) => done (u.takeAnswer x.pkt State.coreRefused State.colRefused)
      | none => done s := ⟨rfl, rfl, rfl⟩

theorem answers_idle {s : State} (q : Quiet s) : (s.takePkt false 0x01 = none → exec .ack s = .next s) ∧
    (s.takePkt false 0x02 = none → exec .retry s = .next s) ∧ (s.takePkt false 0x03 = none → exec .refuse s = .next s) := by
  obtain ⟨ack, retry, refuse⟩ := exec_answer (s := s)
  refine ⟨fun idle => ?_, fun idle => ?_, fun idle => ?_⟩
  · rw [ack, idle]
    exact done_quiet q
  · rw [retry, idle]
    exact done_quiet q
  · rw [refuse, idle]
    exact done_quiet q

section
variable {s u t : State} {x : Inb} (core : x.pkt.destEp < 144)
include core

theorem ack_core (took : s.takePkt false 0x01 = some (x, u)) (h : u.coreAck x.pkt.destEp x.pkt = t) : Ends .ack s t := by
  rw [Ends, exec_answer.1, took]
  exact congrArg done ((if_pos core).trans h)

theorem retry_core (took : s.takePkt false 0x02 = some (x, u)) (h : u.coreRetry x.pkt.destEp x.pkt = t) : Ends .retry s t := by
  rw [Ends, exec_answer.2.1, took]
  exact congrArg done ((if_pos core).trans h)

theorem refuse_core (took : s.takePkt false 0x03 = some (x, u)) (h : u.coreRefused x.pkt.destEp x.pkt = t) : Ends .refuse s t := by
  rw [Ends, exec_answer.2.2, took]
  exact congrArg done ((if_pos core).trans h)

end

/-! What an answer does at its core -/

section
variable {u : State} {L : Nat} {p : Pkt}

theorem unmatched_stale (missing : (u.core L).left.find? (answersOutst p) = none) : u.unmatched L p = u.count (DET_CORE_STALE_COUNT L) := by
  unfold State.unmatched
  rw [missing]

theorem coreAck_last {q : Nat} {d : Desc} {o : Outst} (found : u.outstOf L (answersOutst p) = some (q, d, o)) (single : o.xfer.op ≠ 0x43)
    (last : o.need ≤ 1) : u.coreAck L p = (u.dropOutst L q d.number o).advance L q d.number o.xfer := by
  unfold State.coreAck
  rw [found]
  dsimp only
  rw [beq_eq_false_iff_ne.mpr single, Bool.false_and, if_neg Bool.false_ne_true, if_neg single, if_neg (Nat.not_lt.mpr last)]

theorem coreAck_stale (missing : u.outstOf L (answersOutst p) = none) (unlogged : u.loggedSignal L p.ctag = none)
    (missingLeft : (u.core L).left.find? (answersOutst p) = none) : u.coreAck L p = u.count (DET_CORE_STALE_COUNT L) := by
  unfold State.coreAck State.staleAnswer
  rw [missing]
  dsimp only
  rw [unlogged]
  exact unmatched_stale missingLeft

theorem coreRetry_again {q : Nat} {d : Desc} {o : Outst} (found : u.outstOf L (answersOutst p) = some (q, d, o)) :
    u.coreRetry L p = u.modDesc L q d.number fun d =>
      { d with outst := d.outst.map fun y => if y = o then { o with retryAt := some (u.now + 1650) } else y } := by
  unfold State.coreRetry
  rw [found]
  rfl

theorem coreRetry_stale (missing : u.outstOf L (answersOutst p) = none) (missingLeft : (u.core L).left.find? (answersOutst p) = none) :
    u.coreRetry L p = u.count (DET_CORE_STALE_COUNT L) := by
  unfold State.coreRetry
  rw [missing]
  exact unmatched_stale missingLeft

theorem coreRefused_fails {q : Nat} {d : Desc} {o : Outst} (found : u.outstOf L (answersOutst p) = some (q, d, o)) :
    u.coreRefused L p = (u.failPacket L q d.number o (refuseStatus (field p.pay 0 1))).pump L := by
  unfold State.coreRefused
  dsimp only
  rw [found]

end

theorem answerPackets : AnswerPackets :=
  ⟨fun _ q => answers_idle q,
    fun _ _ _ _ took core => ⟨fun _ _ _ found single last => ack_core core took (coreAck_last found single last),
      fun missing unlogged missingLeft => ack_core core took (coreAck_stale missing unlogged missingLeft)⟩,
    fun _ _ _ _ took core => ⟨fun _ _ _ found => retry_core core took (coreRetry_again found),
      fun missing missingLeft => retry_core core took (coreRetry_stale missing missingLeft)⟩,
    fun _ _ _ _ took core _ _ _ found => refuse_core core took (coreRefused_fails found)⟩

/-! The replicator -/

/-- Whether a residue of the replicator can be served: its packet is gone, or one of its destinations is ready. -/
def State.residueReady (s : State) (r : Residue) : Bool :=
  match s.bufPkt r.head with
  | some b => (onesBelow 25 r.dests).any fun d => s.mcastReady b.pkt b.input d
  | none => true

theorem exec_mcastResidueServe {s : State} (run : s.fatal = false) : exec .mcastResidueServe s =
    match s.switch.residues.findIdx? s.residueReady with
    | some i => done (s.serveResidue i false)
    | none => done s := (if_neg (ne_true_of_eq_false run)).trans rfl

theorem replicatorRows : ReplicatorRows := by
  intro s q
  refine ⟨fun fatal => ⟨(congrArg done (if_pos fatal)).trans (done_quiet q), (if_pos fatal).trans (done_quiet q)⟩, fun run =>
    ⟨congrArg done (if_neg (ne_true_of_eq_false run)), fun i found => ?_, fun idle => ?_⟩⟩
  · rw [Ends, exec_mcastResidueServe run, show s.switch.residues.findIdx? s.residueReady = some i from found]
    rfl
  · rw [exec_mcastResidueServe run, show s.switch.residues.findIdx? s.residueReady = none from idle]
    exact done_quiet q

/-- Settles O31. -/
theorem answersAndReplication : Obligations.AnswersAndReplication := ⟨answerPackets, replicatorRows⟩

end Sys2Proof.Machine
end

section
/-! A descriptor is queued by DMAQ, and started by the row of its operation (R61, R62, R64 to R67). -/

namespace Sys2Proof.Machine

open Sys2Proof

/-! DMAQ -/

/-- The descriptor that DMAQ copies from SRAM. -/
def State.copiedDesc (s : State) (L a : Nat) : Desc :=
  { bytes := s.sramRead L a 64, pc := s.get (SEQ_PC_INDEX L), number := (s.cdet L).key, step := (s.seedStep L).2 }

/-- The count of the descriptors of a queue, one more. -/
def CoreDet.countDesc (c : CoreDet) (q : Nat) : CoreDet := { c with dcount := c.dcount.set q (c.dcount.getD q 0 + 1) }

/-- A descriptor is counted and, when its operation is a logged one, logged (R342). -/
def State.noteDesc (s : State) (L q : Nat) (d : Desc) : State :=
  if loggedOp d.op then (s.modDet L fun c => c.countDesc q).logAdd L { queue := q, number := d.number, op := d.op, st := .issued }
  else s.modDet L fun c => c.countDesc q

theorem noteDesc_cores (L q : Nat) (d : Desc) (s : State) (k : Tbl Core) :
    ({ s with cores := k }).noteDesc L q d = { s.noteDesc L q d with cores := k } := by
  unfold State.noteDesc
  by_cases logged : loggedOp d.op = true
  · rw [if_pos logged, if_pos logged]
    exact logAdd_cores L _ (s.modDet L fun c => c.countDesc q) k
  · rw [if_neg logged, if_neg logged]
    rfl

theorem noteDesc_quiet {s : State} (quiet : Quiet s) (L q : Nat) (d : Desc) : Quiet (s.noteDesc L q d) := by
  unfold State.noteDesc
  by_cases logged : loggedOp d.op = true
  · rw [if_pos logged]
    exact logAdd_quiet (s := s.modDet L fun c => c.countDesc q) quiet L _
  · rw [if_neg logged]
    exact quiet

theorem seqPc_apart (L : CoreIx) (M : Nat) : (SEQ_PC L.val).off ≠ (DET_CORE_REPLAY M).off ∧ (SEQ_PC L.val).off ≠ (DET_CORE_LOG M).off := by
  have small := L.isLt
  dsimp only [SEQ_PC, DET_CORE_REPLAY, DET_CORE_LOG]
  omega

theorem logAdd_pc (s : State) (L : Nat) (M : CoreIx) (it : LogItem) :
    (s.logAdd L it).get (SEQ_PC_INDEX M.val) = s.get (SEQ_PC_INDEX M.val) := by
  by_cases found : (s.logFind L it.number).isSome = true
  · rw [logAdd_found found]
  by_cases full : (s.cdet L).log.length ≥ 512
  · rw [logAdd_full found full]
    exact State.get_set_ne _ _ _ _ (seqPc_apart M L).1
  · rw [logAdd_new found full]
    exact State.get_set_ne _ _ _ _ (seqPc_apart M L).2

theorem noteDesc_pc (s : State) (L q : Nat) (M : CoreIx) (d : Desc) : (s.noteDesc L q d).get (SEQ_PC_INDEX M.val) = s.get (SEQ_PC_INDEX M.val) := by
  unfold State.noteDesc
  by_cases logged : loggedOp d.op = true
  · rw [if_pos logged]
    exact logAdd_pc _ _ _ _
  · rw [if_neg logged]
    rfl

theorem dmaqEff_full {s : State} {L w : Nat} (bad : Option Nat) (full : 16 ≤ (s.queueOf L (bits w 46 2)).length) : dmaqEff L bad w s = .stall 5 :=
  if_pos full

/-- The effect of DMAQ when the queue has room: the descriptor is noted and joins its queue. -/
theorem dmaqEff_room {s : State} {L w : Nat} {bad : Option Nat} (room : (s.queueOf L (bits w 46 2)).length < 16)
    (ok : s.accessFault L bad ((s.core L).gval (wA w)) 64 1 = none) (fresh : s.logFind L (s.cdet L).key = none) :
    let d := s.copiedDesc L ((s.core L).gval (wA w))
    let u := s.noteDesc L (bits w 46 2) d
    dmaqEff L bad w s = .next (u.setDescs L (bits w 46 2) (u.queueOf L (bits w 46 2) ++ [d])) 1 := by
  unfold dmaqEff
  dsimp only
  rw [if_neg (Nat.not_le.mpr room), ok]
  dsimp only
  rw [fresh]
  rfl

/-- A core whose queue has taken a descriptor. -/
def Core.queued (c : Core) (q : Nat) (d : Desc) : Core := { c with queues := c.queues.set q (c.queues.getD q [] ++ [d]) }

/-- DMAQ past the fetch: the noted state with the descriptor in the queue of the core. -/
theorem dmaq_effect {s : State} {L : Nat} {bad : Option Nat} (room : (s.queueOf L (bits (s.wordOf L) 46 2)).length < 16)
    (ok : AccessOk s L bad ((s.core L).gval (wA (s.wordOf L))) 64 1) (fresh : s.logFind L (s.cdet L).key = none) :
    let d := (s.fetched L (s.wordOf L)).copiedDesc L ((s.core L).gval (wA (s.wordOf L)))
    Runs (s.noteDesc L (bits (s.wordOf L) 46 2) d) L ((fetchedCore s L).queued (bits (s.wordOf L) 46 2) d) 1
      (dmaqEff L bad (s.wordOf L) (s.fetched L (s.wordOf L))) := by
  intro d
  have variant := CoreVariant.lift (f := fun u => u.noteDesc L (bits (s.wordOf L) 46 2) d) (noteDesc_cores L _ d) (CoreVariant.fetched L (s.wordOf L) s)
  have core := core_lift (f := fun u => u.noteDesc L (bits (s.wordOf L) 46 2) d) (noteDesc_cores L _ d) (s.fetched L (s.wordOf L)) L
  refine ⟨_, (dmaqEff_room (s := s.fetched L (s.wordOf L)) ?_ ?_ fresh).trans ?_, variant.modCore fun c => c.queued (bits (s.wordOf L) 46 2) d, ?_⟩
  · rw [fetched_queueOf]
    exact room
  · rw [fetched_gval, fetched_accessFault]
    exact accessFault_none ok
  · rw [fetched_gval]
    rfl
  · rw [State.core_modCore_same]
    exact congrArg (fun c => Core.queued c _ d) core

theorem queued_same {c : Core} {q : Nat} (d : Desc) (h : q < c.queues.length) : (c.queued q d).queues.getD q [] = c.queues.getD q [] ++ [d] := by
  rw [Core.queued, List.getD_eq_getElem?_getD, List.getElem?_set_self h]
  rfl

theorem queued_other {c : Core} {q r : Nat} (d : Desc) (h : r ≠ q) : (c.queued q d).queues.getD r [] = c.queues.getD r [] := by
  rw [Core.queued, List.getD_eq_getElem?_getD, List.getElem?_set_ne h.symm, ← List.getD_eq_getElem?_getD]

theorem descriptorQueued : DescriptorQueued := by
  intro core bad s quiet issues L w q a
  refine ⟨fun four room ok fresh => ?_, fun full => ?_⟩
  · obtain ⟨t, run, retired⟩ := issue_completes (i := .dmaq core bad) rfl issues rfl (noteDesc_quiet quiet _ _ _) (dmaq_effect room ok fresh)
      ((fetchedCore_wait s L).trans (Issues.wait issues))
    have queue (r : Nat) : t.queueOf L r = ((fetchedCore s L).queued q ((s.fetched L w).copiedDesc L a)).queues.getD r [] := by
      rw [State.queueOf, retired.core]
    have before (r : Nat) : (fetchedCore s L).queues.getD r [] = s.queueOf L r := by rw [fetchedCore_queues]; rfl
    refine ⟨t, (s.fetched L w).copiedDesc L a, run, ?_, ?_, rfl, rfl, fun r _ other => ?_, ?_, fun M other => ?_⟩
    · rw [queue, queued_same _ (by rw [fetchedCore_queues, four]; exact bits_lt w 46 2), before]
    · rfl
    · rw [queue, queued_other _ other, before]
    · refine retired.pc.trans (congrArg (fun x : List Loop × Nat => x.2 % 2 ^ 18) ?_)
      rw [onward, noteDesc_pc]
      rfl
    · rw [retired.rest.cores M other]
      exact core_lift (f := fun u => u.noteDesc L q _) (noteDesc_cores L q _) s M
  · have stalls : dmaqEff L bad w (s.fetched L w) = .stall 5 := dmaqEff_full bad (by rw [fetched_queueOf]; exact full)
    refine congrArg done ((issue_runs issues rfl _).trans ?_)
    rw [stalls]
    rfl

/-! Starts -/

/-- A row of a DMA operation comes to the start of a descriptor of that operation. -/
def DescRow.Starts (x : DescRow) : Prop :=
  ∀ (core : CoreIx) (queue : QueueIx) (bad : Option Nat) (s : State), exec (x.1 core queue bad) s =
    done (s.startDesc core.val queue.val x.2.1 (x.2.2.1 core.val) (x.2.2.2 core.val queue.val bad))

theorem dmaRows_start : ∀ x ∈ dmaRows, DescRow.Starts x := by
  unfold dmaRows
  repeat refine List.forall_mem_cons.mpr ⟨fun _ _ _ _ => rfl, ?_⟩
  exact List.forall_mem_nil _

theorem collectiveRows_start : ∀ x ∈ collectiveRows, DescRow.Starts x := by
  unfold collectiveRows
  repeat refine List.forall_mem_cons.mpr ⟨fun _ _ _ _ => rfl, ?_⟩
  exact List.forall_mem_nil _

theorem descriptorRows_start {x : DescRow} (h : x ∈ descriptorRows) : DescRow.Starts x := by
  rcases List.mem_append.mp h with dma | collective
  · exact dmaRows_start x dma
  · exact collectiveRows_start x collective

section
variable {s : State} {L q op : Nat} {waits : State → Desc → Bool} {go : State → Desc → State} {d : Desc}

theorem startDesc_live (live : s.dmaLive L = true) : s.startDesc L q op waits go = match nextDesc (s.queueOf L q) with
    | none => s
    | some d =>
      if d.op ≠ op || waits s d then s
      else go ((s.trace trDescStart L q d.pc (d.tag + d.op * 2 ^ 32) d.len).modDesc L q d.number fun d => { d with started := true })
        { d with started := true } :=
  (if_neg (by rw [live]; exact Bool.false_ne_true)).trans rfl

theorem startDesc_starts (live : s.dmaLive L = true) (next : nextDesc (s.queueOf L q) = some d) (is : d.op = op) (ready : waits s d = false) :
    s.startDesc L q op waits go =
      go ((s.trace trDescStart L q d.pc (d.tag + d.op * 2 ^ 32) d.len).modDesc L q d.number fun d => { d with started := true }) { d with started := true } := by
  rw [startDesc_live live, next]
  exact if_neg (by rw [ready, Bool.or_false]; exact fun other => (of_decide_eq_true other) is)

theorem startDesc_idle
    (h : s.dmaLive L = false ∨ nextDesc (s.queueOf L q) = none ∨ (nextDesc (s.queueOf L q) = some d ∧ (d.op ≠ op ∨ waits s d = true))) :
    s.startDesc L q op waits go = s := by
  rcases h with dead | h
  · exact if_pos (by rw [dead]; rfl)
  cases live : s.dmaLive L with
  | false => exact if_pos (by rw [live]; rfl)
  | true =>
    rw [startDesc_live live]
    rcases h with bare | ⟨next, other⟩
    · rw [bare]
    · rw [next]
      exact if_pos (Bool.or_eq_true_iff.mpr (other.imp_left decide_eq_true))

end

theorem descriptorsStart : DescriptorsStart := by
  intro x row core queue bad s d quiet
  have run := descriptorRows_start row core queue bad s
  exact ⟨fun live next is ready => run.trans (congrArg done (startDesc_starts live next is ready)),
    fun idle => run.trans ((congrArg done (startDesc_idle idle)).trans (done_quiet quiet))⟩

/-- Settles O32. -/
theorem descriptorsIssueAndStart : Obligations.DescriptorsIssueAndStart := ⟨descriptorQueued, descriptorsStart⟩

end Sys2Proof.Machine
end

section
/-! What the DMA operations do, and how their packets are cut (R66 to R68, R106, R108, R148). -/

namespace Sys2Proof.Machine

open Sys2Proof

/-! The pieces of a transfer -/

/-- With fuel for every boundary, the pieces add up to what is left. -/
theorem splitAt2048_sum (addr fuel : Nat) {off left : Nat} (enough : left = 0 ∨ left + (addr + off) % 2048 ≤ fuel * 2048) :
    ((splitAt2048 addr fuel off left).map (·.2)).sum = left := by
  induction fuel generalizing off left with
  | zero =>
    rcases enough with rfl | enough
    · rfl
    · exact (Nat.eq_zero_of_add_eq_zero_right (Nat.le_zero.mp (Nat.le_trans enough (Nat.le_of_eq (Nat.zero_mul _))))).symm
  | succ fuel ih =>
    rw [splitAt2048]
    by_cases zero : left = 0
    · rw [if_pos zero, zero]
      rfl
    · rw [if_neg zero, List.map_cons, List.sum_cons, ih (by omega)]
      dsimp only
      omega

/-- Every piece holds something and ends at or before the next boundary. -/
theorem splitAt2048_piece {addr fuel off left : Nat} : ∀ p ∈ splitAt2048 addr fuel off left,
    0 < p.2 ∧ (addr + p.1) / 2048 = (addr + p.1 + p.2 - 1) / 2048 := by
  induction fuel generalizing off left with
  | zero => exact fun p h => absurd h List.not_mem_nil
  | succ fuel ih =>
    rw [splitAt2048]
    intro p h
    by_cases zero : left = 0
    · rw [if_pos zero] at h
      exact absurd h List.not_mem_nil
    · rw [if_neg zero] at h
      rcases List.mem_cons.mp h with rfl | later
      · dsimp only
        omega
      · exact ih p later

theorem markLast_lens (xs : List Xfer) : (markLast xs).map (·.len) = xs.map (·.len) := by
  induction xs with
  | nil => rfl
  | cons x xs ih =>
    cases xs with
    | nil => rfl
    | cons y ys => exact congrArg (x.len :: ·) ih

/-- A transfer of a marked list is one of the list, but for the mark. -/
theorem mem_markLast {xs : List Xfer} {x : Xfer} (h : x ∈ markLast xs) : ∃ y ∈ xs, x.len = y.len ∧ x.addr = y.addr ∧ x.src = y.src := by
  induction xs with
  | nil => exact absurd h List.not_mem_nil
  | cons z zs ih =>
    cases zs with
    | nil =>
      obtain rfl := List.mem_singleton.mp h
      exact ⟨z, List.mem_singleton.mpr rfl, rfl, rfl, rfl⟩
    | cons a as =>
      rcases List.mem_cons.mp h with rfl | later
      · exact ⟨_, List.mem_cons_self, rfl, rfl, rfl⟩
      · obtain ⟨y, hy, same⟩ := ih later
        exact ⟨y, List.mem_cons_of_mem _ hy, same⟩

theorem dataXfers_cut (op dev sel src dst len : Nat) (fields : List Byte) :
    ((dataXfers op dev sel src dst len fields).map (·.len)).sum = len ∧
      ∀ x ∈ dataXfers op dev sel src dst len fields, 0 < x.len ∧ x.addr / 2048 = (x.addr + x.len - 1) / 2048 ∧ x.src = src + (x.addr - dst) := by
  constructor
  · rw [dataXfers, markLast_lens, List.map_map]
    exact splitAt2048_sum dst _ (.inr (by omega))
  · intro x h
    obtain ⟨y, hy, hlen, haddr, hsrc⟩ := mem_markLast h
    obtain ⟨p, hp, rfl⟩ := List.mem_map.mp hy
    obtain ⟨pos, within⟩ := splitAt2048_piece p hp
    rw [hlen, haddr, hsrc]
    exact ⟨pos, within, congrArg (src + ·) (Nat.add_sub_cancel_left dst p.1).symm⟩

/-! The operations -/

section
variable {s : State} {d : Desc} (L q : Nat) (bad : Option Nat)

theorem copyDesc_fails {st off : Nat} (h : firstStatus [lengthStatus d.len 1, s.rangeStatus L d.src d.len, s.rangeStatus L d.dst d.len] = some (st, off)) :
    copyDesc L q bad s d = s.endFailed L q d.number st off := by
  unfold copyDesc
  rw [h]

theorem copyDesc_copies {u v : State} {r : ReadRes}
    (h : firstStatus [lengthStatus d.len 1, s.rangeStatus L d.src d.len, s.rangeStatus L d.dst d.len] = none)
    (clear : s.shardStatus d.dst d.len = (none, u)) (read : u.readRange d.src d.len bad = (r, v)) :
    copyDesc L q bad s d = v.storeLocal L q d.number d.dst r.bytes r.fail bad := by
  unfold copyDesc
  rw [h]
  dsimp only
  rw [clear]
  dsimp only
  rw [read]

theorem fillDesc_fills {u : State} (h : firstStatus [lengthStatus d.len 4, s.rangeStatus L d.dst d.len] = none)
    (clear : s.shardStatus d.dst d.len = (none, u)) :
    fillDesc L q bad s d = u.storeLocal L q d.number d.dst (fillBytes d) none bad := by
  unfold fillDesc
  rw [h]
  dsimp only
  rw [clear]

theorem fwriteDesc_sends (h : firstStatus [lengthStatus d.len 1, s.rangeStatus L d.src d.len] = none) :
    fwriteDesc L q bad s d = s.launchXfers L q d (dataXfers 0x40 d.dev d.sel d.src d.dst d.len []) bad := by
  unfold fwriteDesc
  rw [h]

theorem mcastDesc_checked (h : firstStatus [lengthStatus d.len 1, s.rangeStatus L d.src d.len] = none) : mcastDesc L q bad s d =
    if d.mgroup ≥ 256 ∨ (!s.flag (SWC_MG_CFG_VALID d.mgroup)) = true then s.endFailed L q d.number 7 0
    else s.launchXfers L q d (dataXfers 0x43 s.ownAddr d.sel d.src d.dst d.len (leBytes 2 d.mgroup)) bad := by
  unfold mcastDesc
  rw [h]

theorem raccDesc_sends (aligned : d.dst % 2048 = 0) (whole : d.len % 64 = 0) (positive : 0 < d.len) (short : d.len ≤ 65536)
    (range : s.rangeStatus L d.src d.len = none) :
    raccDesc L q bad s d = s.launchXfers L q d (dataXfers 0x42 d.dev d.sel d.src d.dst d.len (raccFields d (s.seedStep L).2)) bad := by
  have align : alignStatus d.dst 2048 = none := if_neg (not_not_intro aligned)
  have length : lengthStatus d.len 64 = none := if_neg (by unfold maxLength; omega)
  unfold raccDesc
  dsimp only
  rw [align, length, range, if_neg (Nat.not_lt.mpr short)]
  rfl

end

/-- Settles O33. -/
theorem descriptorWork : Obligations.DescriptorWork := by
  intro L q bad s d
  refine ⟨fun _ _ h => copyDesc_fails L q bad h, fun h _ _ _ clear read => copyDesc_copies L q bad h clear read, fun h _ clear => fillDesc_fills L q bad h clear,
    fun h => ⟨fwriteDesc_sends L q bad h, fun small valid => (mcastDesc_checked L q bad h).trans (if_neg ?_), fun _ unset => (mcastDesc_checked L q bad h).trans (if_pos ?_)⟩,
    raccDesc_sends L q bad, dataXfers_cut⟩
  · rw [valid]
    exact fun bad => bad.elim (fun big => absurd small (Nat.not_lt.mpr big)) Bool.false_ne_true
  · rw [unset]
    exact .inr rfl

end Sys2Proof.Machine
end

section
/-! The ends, time limits and resends of a descriptor (R64, R67, R68, R102, R107, R154, R258, R265). -/

namespace Sys2Proof.Machine

open Sys2Proof

/-! A core whose DMA does not work -/

theorem dmaTimers_dead {core : CoreIx} {queue : QueueIx} {s : State} (quiet : Quiet s) (dead : s.dmaLive core.val = false) :
    exec (.descriptorComplete core queue) s = .next s ∧ exec (.noAckAgeLimit core queue) s = .next s ∧
      exec (.raccRetryResend core queue) s = .next s ∧ exec (.dispatchExpertSignal core queue) s = .next s := by
  have stop : (!s.dmaLive core.val) = true := by rw [dead]; rfl
  exact ⟨(if_pos stop).trans (done_quiet quiet), (if_pos stop).trans (done_quiet quiet), (if_pos stop).trans (done_quiet quiet),
    (if_pos stop).trans (done_quiet quiet)⟩

section
variable {core : CoreIx} {queue : QueueIx} {s : State} (live : s.dmaLive core.val = true)
include live

theorem dmaWorks : ¬(!s.dmaLive core.val) = true := by
  rw [live]
  exact Bool.false_ne_true

/-! The rows of a core whose DMA works -/

theorem exec_descriptorComplete : exec (.descriptorComplete core queue) s =
    match (s.queueOf core.val queue.val).find? (·.ready) with
    | some d => done (s.finishDesc core.val queue.val d)
    | none =>
      match nextDesc (s.queueOf core.val queue.val) with
      | some d => done (if knownOp d.op then s else s.complete core.val queue.val { d with status := 1 })
      | none => done s := (if_neg (dmaWorks live)).trans rfl

theorem exec_noAckAgeLimit : exec (.noAckAgeLimit core queue) s =
    match s.findOutst core.val queue.val fun o => o.retryAt.isNone with
    | none =>
      match s.tookOver core.val queue.val with
      | some (d, it) => done ((s.passTo (it.at_ + s.ageLimit)).endTaken core.val queue.val d.number 9)
      | none => done s
    | some (d, o) => done (((s.passTo (o.firstSent + s.ageLimit)).failPacket core.val queue.val d.number o 9).pump core.val) :=
  (if_neg (dmaWorks live)).trans rfl

theorem descriptorComplete_ends {d : Desc} (ready : (s.queueOf core.val queue.val).find? (·.ready) = some d) :
    Ends (.descriptorComplete core queue) s (s.finishDesc core.val queue.val d) := by
  rw [Ends, exec_descriptorComplete live, ready]
  rfl

theorem descriptorComplete_badOp {d : Desc} (unready : (s.queueOf core.val queue.val).find? (·.ready) = none)
    (next : nextDesc (s.queueOf core.val queue.val) = some d) (unknown : knownOp d.op = false) :
    Ends (.descriptorComplete core queue) s (s.complete core.val queue.val { d with status := 1 }) := by
  rw [Ends, exec_descriptorComplete live, unready]
  dsimp only
  rw [next]
  exact congrArg done (if_neg (ne_true_of_eq_false unknown))

theorem noAckAgeLimit_packet {d : Desc} {o : Outst} (open_ : s.findOutst core.val queue.val (fun o => o.retryAt.isNone) = some (d, o)) :
    Ends (.noAckAgeLimit core queue) s (((s.passTo (o.firstSent + s.ageLimit)).failPacket core.val queue.val d.number o 9).pump core.val) := by
  rw [Ends, exec_noAckAgeLimit live, open_]
  rfl

theorem noAckAgeLimit_signal {d : Desc} {it : LogItem} (closed : s.findOutst core.val queue.val (fun o => o.retryAt.isNone) = none)
    (took : s.tookOver core.val queue.val = some (d, it)) :
    Ends (.noAckAgeLimit core queue) s ((s.passTo (it.at_ + s.ageLimit)).endTaken core.val queue.val d.number 9) := by
  rw [Ends, exec_noAckAgeLimit live, closed]
  dsimp only
  rw [took]
  rfl

/-- A packet that was answered RETRY, and the time at which it goes again: within the age limit with the BASE of its flow now. -/
theorem exec_raccRetryResend {d : Desc} {o : Outst} (retried : s.findOutst core.val queue.val (fun o => o.retryAt.isSome) = some (d, o)) :
    let u := s.passTo (o.retryAt.getD 0)
    let base := (u.flowFor core.val o.pkt.sq o.xfer.flowDev o.xfer.sel).base
    let again := { o with retryAt := none, ctag := base, pkt := o.pkt.setH 104 16 base }
    exec (.raccRetryResend core queue) s = if u.now - o.firstSent > u.ageLimit then done ((u.failPacket core.val queue.val d.number o 9).pump core.val)
      else done (((u.modDesc core.val queue.val d.number fun d =>
          { d with outst := d.outst.map fun x => if x = o then again else x }).coreOffer core.val queue.val d.number again.pkt).takeFailed) := by
  refine (if_neg (dmaWorks live)).trans ?_
  rw [retried]

theorem exec_dispatchExpertSignal : exec (.dispatchExpertSignal core queue) s =
    match (s.queueOf core.val queue.val).findSome? fun d =>
        if d.op == 0x30 && d.started && d.status == 0 then (d.groups.find? fun e => !d.open_ (3 * e)).map fun e => (d, e) else none with
    | none => done s
    | some (d, e) =>
      let x := expertOf (s.readLocal (dsMap d) (16 * dsE d)) e
      let xf : Xfer := { op := 0x44, dev := x.dev, sel := bufferEp x, addr := x.base + 4 * d.rank, src := 0, len := 4, off := d.len, fields := [], grp := 3 * e + 1, lit := some (leBytes 4 (rowsTo (s.readLocal d.dst d.len) d e)) }
      done ((s.modDesc core.val queue.val d.number fun d => { d with groups := d.groups.erase e, todo := d.todo ++ [xf] }).pump core.val) :=
  (if_neg (dmaWorks live)).trans rfl

end

/-- Settles O34. -/
theorem descriptorEnds : Obligations.DescriptorEnds := by
  intro core queue s quiet L q ds
  refine ⟨fun live => ⟨fun d => descriptorComplete_ends live, fun d => descriptorComplete_badOp live, fun d o => noAckAgeLimit_packet live,
    fun closed d it => noAckAgeLimit_signal live closed, fun d o retried => ?resend, fun d e acknowledged => ?signal⟩, fun run c stalest => ?combine,
    fun dead => dmaTimers_dead quiet dead⟩
  case resend =>
    intro u base again
    have run := exec_raccRetryResend live retried
    exact ⟨fun young => run.trans (if_neg (Nat.not_lt.mpr young)), fun old => run.trans (if_pos old)⟩
  case signal =>
    intro x count xf
    rw [Ends, exec_dispatchExpertSignal live, acknowledged]
    rfl
  case combine =>
    change execCombineTimeout core queue s = _
    unfold execCombineTimeout
    rw [stalest]
    exact congrArg done (if_neg (ne_true_of_eq_false run))

end Sys2Proof.Machine
end

section
/-! A collective descriptor at the engine, and the start of tickets (R296, R305, R317, R318). -/

namespace Sys2Proof.Machine

open Sys2Proof

/-! The checks of a collective descriptor -/

/-- The descriptor as the engine holds it: of a core's queue, with the pattern generation and the time of its issue. -/
def State.heldOf (s : State) (L q : Nat) (d : Desc) : HeldDesc :=
  { core := L, queue := q, number := d.number, bytes := d.bytes, gen := s.getR PAT_GEN_LIVE, domain := cDomain d.bytes, ticket := cTicket d.bytes, since := s.now }

/-- The engine holds a descriptor. -/
def State.holdDesc (s : State) (h : HeldDesc) : State :=
  s.modCol fun c => { c with held := c.held ++ [h], doneAhead := c.doneAhead.erase (h.domain, h.ticket) }

section
variable {L q : Nat} (bad : Option Nat) {s u : State} {d : Desc} (hu : (s.modDesc L q d.number fun d => { d with held := true }) = u)
include hu

theorem colDesc_bad (n : Nat) (h : u.colBad d.bytes = n) (fails : n ≠ 0) :
    colDesc L q bad s d = u.endRole L q d.number { d with status := 0x19, failOff := 0, detail := n } := by
  unfold colDesc
  dsimp only
  rw [hu, h, if_pos fails]

theorem colDesc_good (h : u.colBad d.bytes = 0) : colDesc L q bad s d = match u.colRefuse L d.bytes with
    | (some st, e) => (match e with
        | some e => u.noteRefused e 0x30
        | none => u).endHeld (u.heldOf L q d) st 0
    | (none, _) => match (u.holdDesc (u.heldOf L q d)).freeChain with
      | some i => if d.op = opBackup ∨ (u.heldOf L q d).ticket = (u.holdDesc (u.heldOf L q d)).nextTicket (u.heldOf L q d).domain then
          (u.holdDesc (u.heldOf L q d)).startRole (u.heldOf L q d) i bad else (u.holdDesc (u.heldOf L q d)).orderNote (u.heldOf L q d).domain
      | none => (u.holdDesc (u.heldOf L q d)).orderNote (u.heldOf L q d).domain := by
  unfold colDesc
  dsimp only
  rw [hu, h]
  exact (if_neg (not_not_intro rfl)).trans rfl

theorem colDesc_refused (h : u.colBad d.bytes = 0) {st : Nat} (refused : u.colRefuse L d.bytes = (some st, none)) :
    colDesc L q bad s d = u.endHeld (u.heldOf L q d) st 0 := by
  rw [colDesc_good bad hu h, refused]

theorem colDesc_protected (h : u.colBad d.bytes = 0) {st e : Nat} (refused : u.colRefuse L d.bytes = (some st, some e)) :
    colDesc L q bad s d = (u.noteRefused e 0x30).endHeld (u.heldOf L q d) st 0 := by
  rw [colDesc_good bad hu h, refused]

theorem colDesc_held (h : u.colBad d.bytes = 0) (kept : (u.colRefuse L d.bytes).1 = none) : colDesc L q bad s d =
    match (u.holdDesc (u.heldOf L q d)).freeChain with
    | some i => if d.op = opBackup ∨ (u.heldOf L q d).ticket = (u.holdDesc (u.heldOf L q d)).nextTicket (u.heldOf L q d).domain then
        (u.holdDesc (u.heldOf L q d)).startRole (u.heldOf L q d) i bad else (u.holdDesc (u.heldOf L q d)).orderNote (u.heldOf L q d).domain
    | none => (u.holdDesc (u.heldOf L q d)).orderNote (u.heldOf L q d).domain := by
  rw [colDesc_good bad hu h]
  generalize u.colRefuse L d.bytes = r at kept
  obtain ⟨a, b⟩ := r
  cases kept
  rfl

end

theorem colDesc_rows (L q : Nat) (bad : Option Nat) (s : State) (d : Desc) :
    let u := s.modDesc L q d.number fun d => { d with held := true }
    let h : HeldDesc := { core := L, queue := q, number := d.number, bytes := d.bytes, gen := u.getR PAT_GEN_LIVE, domain := cDomain d.bytes, ticket := cTicket d.bytes, since := u.now }
    (∀ n, u.colBad d.bytes = n → n ≠ 0 → colDesc L q bad s d = u.endRole L q d.number { d with status := 0x19, failOff := 0, detail := n }) ∧
    (u.colBad d.bytes = 0 → ∀ st, u.colRefuse L d.bytes = (some st, none) → colDesc L q bad s d = u.endHeld h st 0) ∧
    (u.colBad d.bytes = 0 → ∀ st e, u.colRefuse L d.bytes = (some st, some e) → colDesc L q bad s d = (u.noteRefused e 0x30).endHeld h st 0) ∧
    (u.colBad d.bytes = 0 → (u.colRefuse L d.bytes).1 = none →
      let k := u.modCol fun c => { c with held := c.held ++ [h], doneAhead := c.doneAhead.erase (h.domain, h.ticket) }
      (k.freeChain = none → colDesc L q bad s d = k.orderNote h.domain) ∧
      ∀ i, k.freeChain = some i →
        ((d.op = opBackup ∨ h.ticket = k.nextTicket h.domain) → colDesc L q bad s d = k.startRole h i bad) ∧
        (d.op ≠ opBackup → h.ticket ≠ k.nextTicket h.domain → colDesc L q bad s d = k.orderNote h.domain)) := by
  intro u h
  refine ⟨colDesc_bad bad rfl, fun good _ refused => colDesc_refused bad rfl good refused, fun good _ _ refused => colDesc_protected bad rfl good refused,
    fun good kept => ?_⟩
  intro k
  have held := colDesc_held bad (show (s.modDesc L q d.number fun d => { d with held := true }) = u from rfl) good kept
  refine ⟨fun full => ?_, fun i free => ?_⟩
  · rw [held, show (u.holdDesc (u.heldOf L q d)).freeChain = none from full]
    rfl
  · rw [held, show (u.holdDesc (u.heldOf L q d)).freeChain = some i from free]
    exact ⟨fun next => if_pos next, fun other later => if_neg fun next => next.elim other later⟩

/-! Ticket starts and the order timeout -/

/-- Whether a held descriptor is the one a domain can start: that of its next ticket, or a BACKUP. -/
def State.startable (s : State) (d : Nat) (h : HeldDesc) : Bool := h.domain == d && (h.ticket == s.nextTicket d || field h.bytes 0 1 == opBackup)

theorem exec_ticketStart {dom : DomIx} {bad : Option Nat} {s : State} (run : s.fatal = false) : exec (.ticketStart dom bad) s =
    match s.freeChain, s.col.held.find? (s.startable dom.val) with
    | some i, some h => done (s.startRole h i bad)
    | _, _ => done s := (if_neg (ne_true_of_eq_false run)).trans rfl

theorem ticketStart_idle {dom : DomIx} {bad : Option Nat} {s : State} (q : Quiet s) (run : s.fatal = false)
    (h : s.freeChain = none ∨ s.col.held.find? (s.startable dom.val) = none) : exec (.ticketStart dom bad) s = .next s := by
  rw [exec_ticketStart run]
  rcases h with full | idle
  · rw [full]
    exact done_quiet q
  · rw [idle]
    cases s.freeChain with
    | none => exact done_quiet q
    | some i => exact done_quiet q

theorem orderTimeout_rows {dom : DomIx} {s : State} (q : Quiet s) (run : s.fatal = false) :
    let d := dom.val
    (∀ t, Tbl.find s.col.orderAt d = some t →
      let u := s.passTo (t + 1650 * ((s.seqdom d).map (field · 4 4)).getD 1)
      let next := u.nextTicket d
      let hs := u.col.held.filter fun h => field h.bytes 0 1 != opBackup && h.domain == d
      Ends (.orderTimeout dom) s (((hs.foldl (fun s h => s.endHeld h 0x10 next) u).set (COL_DOM_CTRL_ORDER_FAULT d) 1).count COL_ORDER_FAULTS_COUNT)) ∧
    (Tbl.find s.col.orderAt d = none → exec (.orderTimeout dom) s = .next s) := by
  refine ⟨fun t since => ?_, fun idle => ?_⟩
  · intro u next hs
    change execOrderTimeout dom s = _
    unfold execOrderTimeout
    dsimp only
    rw [since]
    exact if_neg (ne_true_of_eq_false run)
  · change execOrderTimeout dom s = _
    unfold execOrderTimeout
    dsimp only
    rw [idle]
    exact done_quiet q

/-- Settles O35. -/
theorem collectiveTickets : Obligations.CollectiveTickets := by
  refine ⟨colDesc_rows, fun dom bad s q run => ⟨fun i h free found => ?_, ticketStart_idle q run⟩, fun dom s q run => orderTimeout_rows q run⟩
  rw [Ends, exec_ticketStart run, free, show s.col.held.find? (s.startable dom.val) = some h from found]
  rfl

end Sys2Proof.Machine
end

section
/-! Chunks that arrive, are checked and are sent (R309 to R315). -/

namespace Sys2Proof.Machine

open Sys2Proof

/-! A chunk that arrives -/

/-- What becomes of a chunk that has a place: a role and the state in which it takes the chunk, or none. -/
def State.chunkInto (k : State) (course level stripe : Nat) (p : Pkt) (bad : Option Nat) : Option (Nat × State) → State
  | none => k.colDiscard
  | some (i, s) =>
    match s.role i with
    | some r => match s.ring? r level stripe with
      | some rec => (s.takeChunk i r rec course level p bad).colEnd
      | none => s.colDiscard
    | none => s.colDiscard

/-- The place of a chunk: the role of its ticket and course, or that of a completed ticket which only passes late chunks on (R312). -/
def State.chunkPlace (k : State) (course level stripe : Nat) (p : Pkt) : Option (Nat × State) :=
  match k.chunkRole course level stripe p with
  | some i => some (i, k)
  | none => if course = 2 then (k.latePass level stripe p).bind k.beginPassing else none

theorem chunkPlace_role {k : State} {course level stripe i : Nat} {p : Pkt} (role : k.chunkRole course level stripe p = some i) :
    k.chunkPlace course level stripe p = some (i, k) := by
  unfold State.chunkPlace
  rw [role]

theorem chunkPlace_none {k : State} {course level stripe : Nat} {p : Pkt} (missing : k.chunkRole course level stripe p = none)
    (h : course ≠ 2 ∨ k.latePass level stripe p = none) : k.chunkPlace course level stripe p = none := by
  unfold State.chunkPlace
  rw [missing]
  rcases h with other | early
  · exact if_neg other
  · dsimp only
    rw [early, Option.bind_none, ite_self]

theorem chunkPlace_late {k z : State} {level stripe i : Nat} {p : Pkt} {d : DoneRole} (missing : k.chunkRole 2 level stripe p = none)
    (late : k.latePass level stripe p = some d) (begins : k.beginPassing d = some (i, z)) : k.chunkPlace 2 level stripe p = some (i, z) := by
  unfold State.chunkPlace
  rw [missing]
  exact (if_pos rfl).trans ((congrArg (Option.bind · k.beginPassing) late).trans begins)

theorem chunkInto_role {k z : State} {course level stripe i : Nat} {p : Pkt} {r : Role} {rec : List Byte} (bad : Option Nat)
    (role : z.role i = some r) (ring : z.ring? r level stripe = some rec) :
    k.chunkInto course level stripe p bad (some (i, z)) = (z.takeChunk i r rec course level p bad).colEnd := by
  unfold State.chunkInto
  dsimp only
  rw [role]
  dsimp only
  rw [ring]

/-- The row of a course takes the first chunk that the engine can take. -/
theorem chunkIn_rows (bad : Option Nat) (course : Nat) {c : Instr} {s : State} (run : exec c s = done (chunkIn course bad s)) (q : Quiet s) :
    let ok (x : Inb) : Bool := x.pkt.data && x.pkt.opcode == courseOp course && s.chunkOpen course x.pkt
    (s.takeInb ok = none → exec c s = .next s) ∧
    ∀ x u, s.takeInb ok = some (x, u) →
      let p := x.pkt
      let level := p.op 0x21 1 % 8
      let stripe := p.op 0x21 1 / 8 % 8
      let k := u.answer p 0x01 0 0
      (∀ i r rec, k.chunkRole course level stripe p = some i → k.role i = some r → k.ring? r level stripe = some rec →
        Ends c s ((k.takeChunk i r rec course level p bad).colEnd)) ∧
      (k.chunkRole course level stripe p = none →
        ((course ≠ 2 ∨ k.latePass level stripe p = none) → Ends c s (k.count COL_DISCARD_COUNT)) ∧
        (course = 2 → ∀ d i z r rec, k.latePass level stripe p = some d → k.beginPassing d = some (i, z) → z.role i = some r →
          z.ring? r level stripe = some rec → Ends c s ((z.takeChunk i r rec course level p bad).colEnd))) := by
  intro ok
  refine ⟨fun idle => ?_, fun x u took => ?_⟩
  · have stays : chunkIn course bad s = s := by
      unfold chunkIn
      rw [show s.takeInb _ = none from idle]
    exact run.trans ((congrArg done stays).trans (done_quiet q))
  · intro p level stripe k
    have into : chunkIn course bad s = k.chunkInto course level stripe p bad (k.chunkPlace course level stripe p) := by
      unfold chunkIn
      rw [show s.takeInb _ = some (x, u) from took]
      rfl
    have ends {t : State} {place : Option (Nat × State)} (h : k.chunkPlace course level stripe p = place)
        (taken : k.chunkInto course level stripe p bad place = t) : Ends c s t := by
      rw [Ends, run, into, h, taken]
      rfl
    refine ⟨fun i r rec role here ring => ends (chunkPlace_role role) (chunkInto_role bad here ring), fun missing =>
      ⟨fun early => ends (chunkPlace_none missing early) rfl, ?_⟩⟩
    rintro rfl d i z r rec late begins here ring
    exact ends (chunkPlace_late missing late begins) (chunkInto_role bad here ring)

/-! The checks of a chunk -/

section
variable {s : State} {i : Nat} {r : Role} {rec : List Byte} {course level : Nat} {p : Pkt} (bad : Option Nat)

/-- What R315 finds wrong with a chunk. -/
def State.chunkBreach (s : State) (r : Role) (rec : List Byte) (course : Nat) (p : Pkt) : Option Nat :=
  if p.pgen ≠ r.gen % 256 then some 0x12
  else if p.op 0x2A 2 ≠ r.step % 65536 then some 0x13
  else if !s.foldHiOk r rec course p then some 0x14
  else none

theorem chunkBreach_gen (gen : p.pgen ≠ r.gen % 256) : s.chunkBreach r rec course p = some 0x12 := if_pos gen

theorem chunkBreach_step (gen : p.pgen = r.gen % 256) (step : p.op 0x2A 2 ≠ r.step % 65536) : s.chunkBreach r rec course p = some 0x13 :=
  (if_neg (not_not_intro gen)).trans (if_pos step)

theorem chunkBreach_fold (gen : p.pgen = r.gen % 256) (step : p.op 0x2A 2 = r.step % 65536) (fold : s.foldHiOk r rec course p = false) :
    s.chunkBreach r rec course p = some 0x14 :=
  (if_neg (not_not_intro gen)).trans ((if_neg (not_not_intro step)).trans (if_pos (by rw [fold]; rfl)))

theorem chunkBreach_some (h : p.pgen ≠ r.gen % 256 ∨ p.op 0x2A 2 ≠ r.step % 65536 ∨ s.foldHiOk r rec course p = false) :
    ∃ st, s.chunkBreach r rec course p = some st := by
  by_cases gen : p.pgen = r.gen % 256
  · by_cases step : p.op 0x2A 2 = r.step % 65536
    · exact ⟨_, chunkBreach_fold gen step ((h.resolve_left (not_not_intro gen)).resolve_left (not_not_intro step))⟩
    · exact ⟨_, chunkBreach_step gen step⟩
  · exact ⟨_, chunkBreach_gen gen⟩

theorem takeChunk_discards {st : Nat} (breach : s.chunkBreach r rec course p = some st) (passing : r.passing.isSome = true) :
    s.takeChunk i r rec course level p bad = s.count COL_DISCARD_COUNT := by
  unfold State.takeChunk
  dsimp only
  rw [show (if p.pgen ≠ r.gen % 256 then _ else _) = some st from breach, passing]
  rfl

theorem takeChunk_fails {st : Nat} (breach : s.chunkBreach r rec course p = some st) (holds : r.passing = none) :
    s.takeChunk i r rec course level p bad = s.failRole i st (s.chunkNumber r course level p) := by
  unfold State.takeChunk
  dsimp only
  rw [show (if p.pgen ≠ r.gen % 256 then _ else _) = some st from breach, holds]
  rfl

end

/-! Staging and sending -/

theorem stagingReserved_rows {chain : ChainIx} {s : State} {r : Role} (q : Quiet s) (runs : RunsRole s chain.val r) :
    (r.granted = false → r.standby = false → r.waiting = false → Ends (.stagingReserved chain) s (s.reserve chain.val r)) ∧
    ((r.granted = true ∨ r.standby = true ∨ r.waiting = true) → exec (.stagingReserved chain) s = .next s) := by
  obtain ⟨run, role⟩ := runs
  have row : exec (.stagingReserved chain) s = done (if r.granted || r.standby || r.waiting then s else s.reserve chain.val r) := by
    change execStagingReserved chain s = _
    unfold execStagingReserved
    rw [role, run]
    rfl
  refine ⟨fun granted standby waiting => row.trans (congrArg done (if_neg ?_)), fun busy => row.trans ((congrArg done (if_pos ?_)).trans (done_quiet q))⟩
  · rw [granted, standby, waiting]
    decide
  · rw [Bool.or_eq_true, Bool.or_eq_true, or_assoc]
    exact busy

section
variable {chain : ChainIx} {bad : Option Nat} {s : State} {r : Role} (q : Quiet s) (runs : RunsRole s chain.val r) (acts : r.standby = false)
include runs acts

theorem chunkSend_waiting (waiting : r.waiting = true) :
    exec (.chunkSend chain bad) s = done (if s.termsWait r then s else (s.takeUp chain.val bad).colEnd) := by
  obtain ⟨run, role⟩ := runs
  change execChunkSend chain bad s = _
  unfold execChunkSend
  dsimp only
  rw [role]
  exact (if_neg (by rw [run, acts]; decide)).trans (if_pos waiting)

theorem chunkSend_sends {o : ChunkOut} (ready : r.waiting = false) (plain : r.isScalar = false) (granted : r.granted = true)
    (credit : r.ready.find? (r.hasCredit s.ownAddr) = some o) : Ends (.chunkSend chain bad) s ((s.sendChunk chain.val r o).colEnd) := by
  obtain ⟨run, role⟩ := runs
  change execChunkSend chain bad s = _
  unfold execChunkSend
  dsimp only
  rw [role]
  refine (if_neg (by rw [run, acts]; decide)).trans ((if_neg (ne_true_of_eq_false ready)).trans ((if_neg (by rw [granted, plain]; decide)).trans ?_))
  rw [show r.canSend s.ownAddr = some o from credit]
  rfl

include q in
theorem chunkSend_unstaged (ready : r.waiting = false) (ungranted : r.granted = false) : exec (.chunkSend chain bad) s = .next s := by
  obtain ⟨run, role⟩ := runs
  change execChunkSend chain bad s = _
  unfold execChunkSend
  dsimp only
  rw [role]
  exact (if_neg (by rw [run, acts]; decide)).trans ((if_neg (ne_true_of_eq_false ready)).trans ((if_pos (by rw [ungranted]; rfl)).trans (done_quiet q)))

end

/-- Settles O36. -/
theorem chunkPackets : Obligations.ChunkPackets := by
  refine ⟨fun bad course c row s q => ?arrive, fun s i r rec course level p bad => ⟨fun wrong late => ?discard, fun holds => ?check⟩,
    fun chain s r q runs => stagingReserved_rows q runs, fun chain bad s r q runs acts => ⟨fun waiting blocked => ?_, fun waiting ready => ?_,
      fun ready plain => ⟨fun o granted credit => chunkSend_sends runs acts ready plain granted credit, chunkSend_unstaged q runs acts ready⟩⟩⟩
  case arrive =>
    refine chunkIn_rows bad course ?_ q
    rcases row with row | ⟨rfl, rfl, rfl⟩
    · simp only [List.mem_cons, List.not_mem_nil, or_false, Prod.mk.injEq] at row
      obtain ⟨rfl, rfl⟩ | ⟨rfl, rfl⟩ := row
      · rfl
      · rfl
    · rfl
  case discard =>
    obtain ⟨st, breach⟩ := chunkBreach_some wrong
    exact takeChunk_discards bad breach late
  case check =>
    exact ⟨fun gen => takeChunk_fails bad (chunkBreach_gen gen) holds, fun gen step => takeChunk_fails bad (chunkBreach_step gen step) holds,
      fun gen step fold => takeChunk_fails bad (chunkBreach_fold gen step fold) holds⟩
  · rw [chunkSend_waiting runs acts waiting, if_pos blocked]
    exact done_quiet q
  · exact (chunkSend_waiting runs acts waiting).trans (congrArg done (if_neg (ne_true_of_eq_false ready)))

end Sys2Proof.Machine
end

section
/-! The engine's control packets and combine terms (R105, R313, R319 to R321, R324, R325, R327 to R329). -/

namespace Sys2Proof.Machine

open Sys2Proof

/-! Scalars and barriers -/

theorem scalarIn_rows {c : Instr} {lo hi : Nat} (bad : Option Nat) {s : State} (run : exec c s = done (scalarIn lo hi bad s)) (q : Quiet s) :
    let ok (p : Pkt) : Bool := decide (lo ≤ p.opcode) && decide (p.opcode ≤ hi) && s.scalarOpen p
    (s.takeCtl ok = none → exec c s = .next s) ∧
    ∀ p u, s.takeCtl ok = some (p, u) →
      (∀ i r, u.scalarRole p = some i → u.role i = some r → Ends c s ((u.takeScalar i r p bad).colEnd)) ∧
      (u.scalarRole p = none → Ends c s (u.modCol fun c => { c with early := c.early ++ [p] })) := by
  intro ok
  have into : scalarIn lo hi bad s = match s.takeCtl ok with
      | none => s
      | some (p, u) => match u.scalarRole p with
        | some i => match u.role i with
          | some r => (u.takeScalar i r p bad).colEnd
          | none => u
        | none => u.modCol fun c => { c with early := c.early ++ [p] } := rfl
  refine ⟨fun idle => ?_, fun p u took => ⟨fun i r mine role => ?_, fun early => ?_⟩⟩
  · rw [run, into, idle]
    exact done_quiet q
  · rw [Ends, run, into, took]
    dsimp only
    rw [mine]
    dsimp only
    rw [role]
    rfl
  · rw [Ends, run, into, took]
    dsimp only
    rw [early]
    rfl

/-! The row of a control packet: nothing without one, else what the packet does -/

section
variable {s u : State} {p : Pkt}

theorem barrierArrive_takes (took : (s.takeCtl fun p => p.opcode == 0x10) = some (p, u)) {ok : Bool} {k : State}
    (arrives : State.arriveAt 6 (field p.pay 0 1) (field p.pay 1 1) (field p.pay 2 1) (field p.pay 4 4) p.srcAddr u = (ok, k)) :
    Ends .barrierArrive s (if ok then k.colEnd else k.answer p 0x02 0 0) := by
  change execBarrierArrive s = _
  unfold execBarrierArrive
  rw [took]
  dsimp only
  rw [arrives]
  rfl

theorem barrierRelease_takes (took : (s.takeCtl fun p => p.opcode == 0x11) = some (p, u)) :
    Ends .barrierRelease s (State.releaseAt (field p.pay 1 1) (field p.pay 0 1) (field p.pay 2 1) (field p.pay 4 4) u).colEnd := by
  change execBarrierRelease s = _
  unfold execBarrierRelease
  rw [took]
  rfl

/-- Whether a context of the engine takes a credit. -/
def State.creditWanted (s : State) (c : Credit) (i : Nat) : Bool :=
  match s.role i with
  | some r => s.wantsCredit r c
  | none => false

/-- Whether a context that takes a credit sends to the device it came from. -/
def State.creditSends (s : State) (c : Credit) (i : Nat) : Bool :=
  match s.role i with
  | some r => s.creditWanted c i && (s.rings r).any fun x => r.dest (stNext x) == c.dest
  | none => false

theorem exec_chainCredit (took : (s.takeCtl fun p => p.opcode == 0x1C) = some (p, u)) {d t : Nat} {c : Credit} (credit : creditOf p = (d, t, c)) :
    exec .chainCredit s = match ((u.keyRoles d t).find? (u.creditSends c)).orElse fun _ => (u.keyRoles d t).find? (u.creditWanted c) with
      | some i => done (u.modRole i fun r => r.addCredit c)
      | none =>
        if u.col.done.any fun x => x.role.domain == d && x.role.ticket == t then
          done (u.modCol fun y => { y with done := y.done.map fun x =>
            if x.role.domain == d && x.role.ticket == t then { x with role := x.role.addCredit c } else x })
        else if u.domainOn d && decide (0 ≤ ticketDiff t (u.nextTicket d)) then done (u.modCol fun y => { y with early := y.early ++ [p] })
        else done u := by
  change execChainCredit s = _
  unfold execChainCredit
  rw [took]
  dsimp only
  rw [credit]
  rfl

theorem credit_found {d t i : Nat} {c : Credit} {r : Role} (one : u.keyRoles d t = [i]) (role : u.role i = some r) (wants : u.wantsCredit r c = true) :
    (((u.keyRoles d t).find? (u.creditSends c)).orElse fun _ => (u.keyRoles d t).find? (u.creditWanted c)) = some i := by
  have wanted : u.creditWanted c i = true := by
    unfold State.creditWanted
    rw [role]
    exact wants
  rw [one, List.find?_singleton, List.find?_singleton, if_pos wanted]
  cases u.creditSends c i with
  | true => rfl
  | false => rfl

theorem chainCredit_rows (took : (s.takeCtl fun p => p.opcode == 0x1C) = some (p, u)) (d t : Nat) (c : Credit) (credit : creditOf p = (d, t, c)) :
    (∀ i r, u.keyRoles d t = [i] → u.role i = some r → u.wantsCredit r c = true →
      Ends .chainCredit s (u.modRole i fun r => r.addCredit c)) ∧
    (u.keyRoles d t = [] → (u.col.done.any fun x => x.role.domain == d && x.role.ticket == t) = false →
      (u.domainOn d = true → 0 ≤ ticketDiff t (u.nextTicket d) → Ends .chainCredit s (u.modCol fun y => { y with early := y.early ++ [p] })) ∧
      (u.domainOn d = false → Ends .chainCredit s u)) := by
  have run := exec_chainCredit took credit
  refine ⟨fun i r one role wants => ?_, fun bare ended => ?_⟩
  · rw [Ends, run, credit_found one role wants]
    rfl
  · rw [bare] at run
    have kept := run.trans (if_neg (ne_true_of_eq_false ended))
    refine ⟨fun on ahead => kept.trans (if_pos ?_), fun off => kept.trans (if_neg ?_)⟩
    · rw [on, Bool.true_and]
      exact decide_eq_true ahead
    · rw [off, Bool.false_and]
      exact Bool.false_ne_true

theorem chainAbort_rows (took : (s.takeCtl fun p => p.opcode == 0x1D) = some (p, u)) :
    let d := field p.pay 0 1
    let t := field p.pay 4 4
    (u.col.aborted.contains (d, t) = true → Ends .chainAbort s u) ∧
    (u.col.aborted.contains (d, t) = false →
      Ends .chainAbort s ((u.keyRoles d t).foldl (fun s i => s.failRole i 0x16 0 (some (field p.pay 1 1, field p.pay 3 1 % 16))) u).colEnd) := by
  intro d t
  have run : exec .chainAbort s = if u.col.aborted.contains (d, t) then done u
      else done ((u.keyRoles d t).foldl (fun s i => s.failRole i 0x16 0 (some (field p.pay 1 1, field p.pay 3 1 % 16))) u).colEnd := by
    change execChainAbort s = _
    unfold execChainAbort
    rw [took]
  exact ⟨fun again => run.trans (if_pos again), fun first => run.trans (if_neg (ne_true_of_eq_false first))⟩

theorem backupAct_rows (took : s.takeNotice 1 = some (p, u)) :
    (∀ i r, u.standbyOf p = some i → u.role i = some r → Ends .backupAct s ((u.activate i r).colEnd)) ∧
    (u.standbyOf p = none → u.activeFor p = false → Ends .backupAct s (u.modCol fun c => { c with acts := c.acts ++ [{ pay := p.pay, at_ := u.now }] })) := by
  have run : exec .backupAct s = match u.standbyOf p with
      | some i => match u.role i with
        | some r => done (u.activate i r).colEnd
        | none => done u
      | none => done (if u.activeFor p then u else u.modCol fun c => { c with acts := c.acts ++ [{ pay := p.pay, at_ := u.now }] }) := by
    change execBackupAct s = _
    unfold execBackupAct
    rw [took] <;> rfl
  refine ⟨fun i r standby role => ?_, fun missing fresh => ?_⟩
  · rw [Ends, run, standby]
    dsimp only
    rw [role]
    rfl
  · rw [Ends, run, missing]
    exact congrArg done (if_neg (ne_true_of_eq_false fresh))

theorem standbyRelease_rows (took : s.takeNotice 2 = some (p, u)) :
    (∀ i, u.standbyOf p = some i → Ends .standbyRelease s ((u.closeRole i 0x18 0).colEnd)) ∧ (u.standbyOf p = none → Ends .standbyRelease s u) := by
  have run : exec .standbyRelease s = match u.standbyOf p with
      | some i => done (u.closeRole i 0x18 0).colEnd
      | none => done u := by
    change execStandbyRelease s = _
    unfold execStandbyRelease
    rw [took] <;> rfl
  refine ⟨fun i standby => ?_, fun missing => ?_⟩
  · rw [Ends, run, standby]
    rfl
  · rw [Ends, run, missing]
    rfl

/-! Repairs -/

theorem repairReq_again (took : s.takeNotice 3 = some (p, u))
    (known : u.col.repairs.contains (field p.pay 0 1, field p.pay 4 4, field p.pay 0x0C 2) = true) : Ends .repairReq s u := by
  change execRepairReq s = _
  unfold execRepairReq
  rw [took]
  exact if_pos known

theorem repairReq_one (took : s.takeNotice 3 = some (p, u)) {i : Nat} {r : Role}
    (fresh : u.col.repairs.contains (field p.pay 0 1, field p.pay 4 4, field p.pay 0x0C 2) = false)
    (one : u.keyRoles (field p.pay 0 1) (field p.pay 4 4) = [i]) (role : u.role i = some r) :
    Ends .repairReq s (((u.modCol fun c => { c with repairs := c.repairs ++ [(field p.pay 0 1, field p.pay 4 4, field p.pay 0x0C 2)] }).beginRepair i
      (field p.pay 0x0C 2)).tellRepair r (field p.pay 0x0C 2) (some p.srcAddr)).colEnd := by
  change execRepairReq s = _
  unfold execRepairReq
  rw [took]
  refine (if_neg (ne_true_of_eq_false fresh)).trans ?_
  dsimp only
  rw [one]
  refine (if_neg Bool.false_ne_true).trans ?_
  rw [List.foldl_cons, List.foldl_nil, show (u.modCol fun c => { c with repairs := c.repairs ++ [(field p.pay 0 1, field p.pay 4 4, field p.pay 0x0C 2)] }).role i = some r from role]
  rfl

theorem repairReq_none (took : s.takeNotice 3 = some (p, u))
    (fresh : u.col.repairs.contains (field p.pay 0 1, field p.pay 4 4, field p.pay 0x0C 2) = false)
    (bare : u.keyRoles (field p.pay 0 1) (field p.pay 4 4) = []) (ended : u.col.done = []) : Ends .repairReq s (u.count COL_DISCARD_COUNT) := by
  change execRepairReq s = _
  unfold execRepairReq
  rw [took]
  refine (if_neg (ne_true_of_eq_false fresh)).trans ?_
  dsimp only
  rw [bare, ended]
  exact if_pos rfl

end

/-! Combine terms -/

section
variable {bad : Option Nat} {s u : State} {x : Inb} (opened : s.memOpen = true)
  (took : (s.takeInb fun x => x.pkt.data && x.pkt.opcode == 0x45) = some (x, u))
include opened took

theorem exec_combineTerm : exec (.combineTerm bad) s = match u.combineOf (x.pkt.op 0x20 4) (x.pkt.op 0x24 2) with
    | none => done ((u.answer x.pkt 0x03 0x10 0).colDiscard)
    | some c =>
      let (r, k) := u.readRange (c.desc.src + 48 * x.pkt.op 0x26 2) 48 bad
      match r.fail with
      | some (st, _) => done ((k.endCombine c st).answer x.pkt 0x03 0x10 0)
      | none =>
        if x.pkt.op 0x26 2 ≥ cmEntries c.bytes ∨ !(reSlots r.bytes).contains (x.pkt.op 0x28 1) then done ((k.answer x.pkt 0x03 0x10 0).colDiscard)
        else
          let (c', v) := k.takePiece c (x.pkt.op 0x26 2) (x.pkt.op 0x28 1) (x.pkt.addr % 2 ^ 16) x.pkt.payload
          let z := v.busy colSet ((x.pkt.byteCount / cmTermSize c.bytes + 127) / 128)
          done ((z.putCombine c { c' with lastTerm := z.now }).answer x.pkt 0x01 0 0) := by
  refine (if_neg (by rw [opened]; exact Bool.false_ne_true)).trans ?_
  rw [took] <;> rfl

theorem combineTerm_unknown (unknown : u.combineOf (x.pkt.op 0x20 4) (x.pkt.op 0x24 2) = none) :
    Ends (.combineTerm bad) s ((u.answer x.pkt 0x03 0x10 0).count COL_DISCARD_COUNT) := by
  rw [Ends, exec_combineTerm opened took, unknown]
  rfl

theorem combineTerm_rows {c : Combine} {r : ReadRes} {k : State} (known : u.combineOf (x.pkt.op 0x20 4) (x.pkt.op 0x24 2) = some c) :
    let p := x.pkt
    let t := p.op 0x26 2
    let j := p.op 0x28 1
    u.readRange (c.desc.src + 48 * t) 48 bad = (r, k) →
    (∀ st off, r.fail = some (st, off) → Ends (.combineTerm bad) s ((k.endCombine c st).answer p 0x03 0x10 0)) ∧
    (r.fail = none →
    ((t ≥ cmEntries c.bytes ∨ (reSlots r.bytes).contains j = false) → Ends (.combineTerm bad) s ((k.answer p 0x03 0x10 0).count COL_DISCARD_COUNT)) ∧
    (t < cmEntries c.bytes → (reSlots r.bytes).contains j = true → ∀ c' v, k.takePiece c t j (p.addr % 2 ^ 16) p.payload = (c', v) →
      let z := v.busy colSet ((p.byteCount / cmTermSize c.bytes + 127) / 128)
      Ends (.combineTerm bad) s ((z.putCombine c { c' with lastTerm := z.now }).answer p 0x01 0 0))) := by
  intro p t j read
  have run := exec_combineTerm (bad := bad) opened took
  rw [known] at run
  dsimp only at run
  rw [read] at run
  dsimp only at run
  refine ⟨fun st off failed => ?_, fun good => ?_⟩
  · rw [Ends, run, failed]
    rfl
  · rw [good] at run
    refine ⟨fun wrong => run.trans (if_pos (wrong.imp_right fun missing => by rw [missing]; rfl)), fun inside slot c' v piece => ?_⟩
    refine run.trans ((if_neg ?_).trans ?_)
    · rw [slot]
      exact fun wrong => wrong.elim (Nat.not_le.mpr inside) Bool.false_ne_true
    · rw [piece]
      rfl

end

/-! After the fatal decision -/

theorem takeCtl_fatal {s : State} (fatal : s.fatal = true) (ok : Pkt → Bool) : s.takeCtl ok = none := by
  have idle : s.takeInb (fun x => !x.pkt.data && x.pkt.destEp == 0xC8 && ok x.pkt) = none := if_pos fatal
  rw [State.takeCtl, idle]
  rfl

theorem control_fatal {s : State} (q : Quiet s) (fatal : s.fatal = true) :
    exec .barrierArrive s = .next s ∧ exec .barrierRelease s = .next s ∧ exec .chainCredit s = .next s ∧ exec .chainAbort s = .next s ∧
      exec .backupAct s = .next s ∧ exec .standbyRelease s = .next s ∧ exec .repairReq s = .next s := by
  have idle := takeCtl_fatal fatal
  have unnoticed (kind : Nat) : s.takeNotice kind = none := idle _
  refine ⟨?_, ?_, ?_, ?_, ?_, ?_, ?_⟩
  · change execBarrierArrive s = _
    rw [execBarrierArrive, idle]
    exact done_quiet q
  · change execBarrierRelease s = _
    rw [execBarrierRelease, idle]
    exact done_quiet q
  · change execChainCredit s = _
    rw [execChainCredit, idle]
    exact done_quiet q
  · change execChainAbort s = _
    rw [execChainAbort, idle]
    exact done_quiet q
  · change execBackupAct s = _
    rw [execBackupAct, unnoticed]
    exact done_quiet q
  · change execStandbyRelease s = _
    rw [execStandbyRelease, unnoticed]
    exact done_quiet q
  · change execRepairReq s = _
    rw [execRepairReq, unnoticed]
    exact done_quiet q

/-- Settles O37. -/
theorem engineControlPackets : Obligations.EngineControlPackets := by
  refine ⟨fun c lo hi bad row s q => ?scalars, fun _ _ _ _ took _ _ arrives => barrierArrive_takes took arrives, fun _ _ _ _ took => barrierRelease_takes took,
    fun _ _ _ _ took d t c credit => chainCredit_rows took d t c credit, fun _ _ _ _ took => chainAbort_rows took, fun _ _ _ _ took => backupAct_rows took,
    fun _ _ _ _ took => standbyRelease_rows took, fun _ _ _ _ took => ⟨repairReq_again took, fun _ _ fresh one role => repairReq_one took fresh one role,
      fun fresh bare ended => repairReq_none took fresh bare ended⟩,
    fun _ _ _ _ _ opened took unknown => combineTerm_unknown opened took unknown, fun _ _ _ _ _ _ _ _ opened took known => combineTerm_rows opened took known,
    fun _ q fatal => control_fatal q fatal⟩
  rcases row with ⟨rfl, rfl, rfl⟩ | ⟨rfl, rfl, rfl, rfl⟩
  · exact scalarIn_rows bad rfl q
  · exact scalarIn_rows none rfl q

end Sys2Proof.Machine
end

section
/-! Control and timers of the collective engine (R319, R323 to R325, R408). -/

namespace Sys2Proof.Machine

open Sys2Proof

/-! Timers of roles -/

theorem chainTimers_rows {chain : ChainIx} {s : State} {r : Role} (q : Quiet s) (runs : RunsRole s chain.val r) :
    (r.standby = false → r.op ≠ opPermute →
      let u := s.passTo (r.lastAt + s.chainTime)
      Ends (.chainTimeout chain) s (u.failRole chain.val 0x11 (u.firstOpen r)).colEnd) ∧
    (r.standby = true → exec (.chainTimeout chain) s = .next s ∧
      Ends (.standbyTimeout chain) s (((s.passTo (r.postedAt + s.chainTime)).closeRole chain.val 0x18 0).colEnd)) ∧
    (r.standby = false → exec (.standbyTimeout chain) s = .next s) := by
  obtain ⟨run, role⟩ := runs
  have timeout : exec (.chainTimeout chain) s = if (s.fatal || r.standby || r.op == opPermute) = true then done s
      else done ((s.passTo (r.lastAt + s.chainTime)).failRole chain.val 0x11 ((s.passTo (r.lastAt + s.chainTime)).firstOpen r)).colEnd := by
    change execChainTimeout chain s = _
    unfold execChainTimeout
    rw [role]
  have standby : exec (.standbyTimeout chain) s =
      done (if (s.fatal || !r.standby) = true then s else ((s.passTo (r.postedAt + s.chainTime)).closeRole chain.val 0x18 0).colEnd) := by
    change execStandbyTimeout chain s = _
    unfold execStandbyTimeout
    rw [role]
  refine ⟨fun acts other => ?_, fun waits => ⟨?_, ?_⟩, fun acts => ?_⟩
  · intro u
    refine timeout.trans (if_neg ?_)
    rw [run, acts, beq_eq_false_iff_ne.mpr other]
    decide
  · refine (timeout.trans (if_pos ?_)).trans (done_quiet q)
    rw [run, waits]
    rfl
  · refine standby.trans (congrArg done (if_neg ?_))
    rw [run, waits]
    decide
  · refine standby.trans ((congrArg done (if_pos ?_)).trans (done_quiet q))
    rw [run, acts]
    rfl

theorem heldActivationTimeout_rows {s : State} (q : Quiet s) (run : s.fatal = false) :
    (s.col.acts = [] → exec .heldActivationTimeout s = .next s) ∧
    ∀ a as, s.col.acts = a :: as → Ends .heldActivationTimeout s ((s.passTo (a.at_ + s.chainTime)).modCol fun c => { c with acts := as }) := by
  refine ⟨fun idle => ?_, fun a as waits => ?_⟩
  · change execHeldActivationTimeout s = _
    unfold execHeldActivationTimeout
    rw [idle]
    exact done_quiet q
  · change execHeldActivationTimeout s = _
    unfold execHeldActivationTimeout
    rw [waits]
    exact congrArg done (if_neg (ne_true_of_eq_false run))

/-! The engine -/

section
variable {v : Word} {s : State} (q : Quiet s) (taken : Taken s COL_CTRL) (run : s.fatal = false)
include taken run

theorem exec_colEnable : exec (.colEnable v) s = done (if s.flag COL_CTRL_EN then s else s.colOn) := by
  obtain ⟨row, -, write⟩ := s.hostWrite_COL_CTRL (setBit v 0) taken
  rw [bit_setBit_same v 0 (by decide)] at write
  exact congrArg done (write.trans ((if_neg (ne_true_of_eq_false run)).trans (if_pos rfl)))

theorem exec_colDisable : exec (.colDisable v) s = done (if s.flag COL_CTRL_EN then s.colOff else s.set COL_CTRL_ENABLE_PENDING 0) := by
  obtain ⟨row, -, write⟩ := s.hostWrite_COL_CTRL (clearBit v 0) taken
  rw [bit_clearBit_same v 0 (by decide)] at write
  exact congrArg done (write.trans ((if_neg (ne_true_of_eq_false run)).trans (if_neg Bool.false_ne_true)))

include q in
theorem colSwitch_rows :
    (s.flag COL_CTRL_EN = false → s.col.shutting = false → ∃ t, exec (.colEnable v) s = .next t ∧ t.flag COL_CTRL_EN = true ∧
      RegsKept [COL_CTRL.off] s t ∧ RegsOnly s t) ∧
    (s.flag COL_CTRL_EN = false → s.col.shutting = true → Ends (.colEnable v) s (s.set COL_CTRL_ENABLE_PENDING 1)) ∧
    (s.flag COL_CTRL_EN = true → exec (.colEnable v) s = .next s ∧ Ends (.colDisable v) s s.colOff) ∧
    (s.flag COL_CTRL_EN = false → Ends (.colDisable v) s (s.set COL_CTRL_ENABLE_PENDING 0)) := by
  have on := exec_colEnable (v := v) taken run
  have off := exec_colDisable (v := v) taken run
  refine ⟨fun dark closed => ⟨s.set COL_CTRL_EN 1, ?_, State.flag_set_same _ _ _ (by decide),
      fun r out => State.getR_set_ne _ _ _ _ (List.ne_of_not_mem_cons out), RegsOnly.set (RegsOnly.refl s) _ _⟩,
    fun dark shutting => on.trans (congrArg done ((if_neg (ne_true_of_eq_false dark)).trans (if_pos shutting))),
    fun lit => ⟨on.trans ((congrArg done (if_pos lit)).trans (done_quiet q)), off.trans (congrArg done (if_pos lit))⟩,
    fun dark => off.trans (congrArg done (if_neg (ne_true_of_eq_false dark)))⟩
  rw [on, if_neg (ne_true_of_eq_false dark), State.colOn, if_neg (ne_true_of_eq_false closed)]
  exact done_same q rfl rfl

end

theorem colShutdownDone_rows {s : State} (q : Quiet s) (run : s.fatal = false) (shutting : s.col.shutting = true) (closed : s.col.closing = [])
    (folded : s.combines = []) :
    let u := s.modCol fun c => { c with shutting := false }
    (s.flag COL_CTRL_ENABLE_PENDING = false → exec .colShutdownDone s = .next u) ∧
    (s.flag COL_CTRL_ENABLE_PENDING = true → exec .colShutdownDone s = .next ((u.set COL_CTRL_ENABLE_PENDING 0).set COL_CTRL_EN 1)) := by
  intro u
  have ends : exec .colShutdownDone s = done (if u.flag COL_CTRL_ENABLE_PENDING then (u.set COL_CTRL_ENABLE_PENDING 0).set COL_CTRL_EN 1 else u) :=
    if_neg (by rw [run, shutting, closed, folded]; decide)
  refine ⟨fun idle => ?_, fun pending => ?_⟩
  · rw [ends, if_neg (ne_true_of_eq_false (show u.flag COL_CTRL_ENABLE_PENDING = false from idle))]
    exact done_same q rfl rfl
  · rw [ends, if_pos (show u.flag COL_CTRL_ENABLE_PENDING = true from pending)]
    exact done_same q rfl rfl

/-! Domains -/

theorem domainEn_only (s : State) (d : Nat) : RegsOnly s (s.domainEn d) := by
  unfold State.domainEn
  split
  · exact RegsOnly.refl s
  · split
    · exact RegsOnly.set (RegsOnly.refl s) _ _
    · exact RegsOnly.set (RegsOnly.refl s) _ _

/-- A write of a domain's control register that leaves ORDER_FAULT, before the fatal decision. -/
theorem domCtrl_keeps {s : State} {w : RegWrite} (run : s.fatal = false) (keeps : bit w.v 3 = false) : s.domCtrl w =
    if bit w.v 0 then (if s.flag (COL_DOM_CTRL_EN w.i) then s else s.domainEn w.i)
    else if s.flag (COL_DOM_CTRL_EN w.i) then s.domainOff w.i
    else s.set (COL_DOM_CTRL_ENABLE_PENDING w.i) 0 := by
  unfold State.domCtrl
  dsimp only
  rw [keeps, if_neg Bool.false_ne_true]
  exact if_neg (ne_true_of_eq_false run)

section
variable {dom : DomIx} {v : Word} {s : State} (q : Quiet s) (taken : Taken s (COL_DOM_CTRL dom.val)) (run : s.fatal = false)
  (keeps : bit v.toNat 3 = false)
include taken run keeps

theorem exec_domainEnable :
    exec (.domainEnable dom v) s = done (if s.flag (COL_DOM_CTRL_EN dom.val) then s else s.domainEn dom.val) := by
  obtain ⟨row, -, write⟩ := s.hostWrite_COL_DOM_CTRL dom (setBit v 0) taken
  have same : bit (setBit v 0).toNat 3 = false := (bit_setBit_ne v 0 3 (by decide) (by decide)).trans keeps
  exact congrArg done (write.trans ((domCtrl_keeps run same).trans (if_pos (bit_setBit_same v 0 (by decide)))))

theorem exec_domainDisable : exec (.domainDisable dom v) s =
    done (if s.flag (COL_DOM_CTRL_EN dom.val) then s.domainOff dom.val else s.set (COL_DOM_CTRL_ENABLE_PENDING dom.val) 0) := by
  obtain ⟨row, -, write⟩ := s.hostWrite_COL_DOM_CTRL dom (clearBit v 0) taken
  have same : bit (clearBit v 0).toNat 3 = false := (bit_clearBit_ne v 0 3 (by decide) (by decide)).trans keeps
  exact congrArg done (write.trans ((domCtrl_keeps run same).trans (if_neg (ne_true_of_eq_false (bit_clearBit_same v 0 (by decide))))))

include q in
theorem domainSwitch_rows :
    let d := dom.val
    (s.flag (COL_DOM_CTRL_EN d) = false → (s.seqdom d).isSome = true → s.col.closing.contains d = false →
      ∃ t, exec (.domainEnable dom v) s = .next t ∧ t.flag (COL_DOM_CTRL_EN d) = true ∧ RegsKept [(COL_DOM_CTRL d).off] s t ∧ RegsOnly s t) ∧
    (s.flag (COL_DOM_CTRL_EN d) = false → s.seqdom d = none → exec (.domainEnable dom v) s = .next s) ∧
    (s.flag (COL_DOM_CTRL_EN d) = true → Ends (.domainDisable dom v) s (s.domainOff d)) ∧
    (s.flag (COL_DOM_CTRL_EN d) = false → Ends (.domainDisable dom v) s (s.set (COL_DOM_CTRL_ENABLE_PENDING d) 0)) := by
  intro d
  have on := exec_domainEnable taken run keeps
  have off := exec_domainDisable taken run keeps
  refine ⟨fun dark defined closed => ⟨s.set (COL_DOM_CTRL_EN d) 1, ?_, State.flag_set_same _ _ _ (by decide : 0 + 1 ≤ 32),
      fun r out => State.getR_set_ne _ _ _ _ (List.ne_of_not_mem_cons out), RegsOnly.set (RegsOnly.refl s) _ _⟩,
    fun dark undefined => ?_, fun lit => off.trans (congrArg done (if_pos lit)), fun dark => off.trans (congrArg done (if_neg (ne_true_of_eq_false dark)))⟩
  · have turned : s.domainEn d = s.set (COL_DOM_CTRL_EN d) 1 := by
      unfold State.domainEn
      rw [if_neg (by rw [Option.isNone_eq_false_iff.mpr defined]; exact Bool.false_ne_true), if_neg (ne_true_of_eq_false closed)]
    rw [on, if_neg (ne_true_of_eq_false dark), turned]
    exact done_same q rfl rfl
  · have stays : s.domainEn d = s := if_pos (by rw [undefined]; rfl)
    rw [on, if_neg (ne_true_of_eq_false dark), stays]
    exact done_quiet q

end

theorem domainShutdownDone_rows {dom : DomIx} {s : State} (q : Quiet s) (run : s.fatal = false) (closing : s.col.closing.contains dom.val = true)
    (idle : s.domainIdle dom.val = true) :
    let u := s.modCol fun c => { c with closing := c.closing.erase dom.val }
    (s.flag (COL_DOM_CTRL_ENABLE_PENDING dom.val) = false → exec (.domainShutdownDone dom) s = .next u) ∧
    (s.flag (COL_DOM_CTRL_ENABLE_PENDING dom.val) = true →
      exec (.domainShutdownDone dom) s = .next ((u.set (COL_DOM_CTRL_ENABLE_PENDING dom.val) 0).domainEn dom.val)) := by
  intro u
  have quiet : Quiet u := q
  have ends : exec (.domainShutdownDone dom) s =
      done (if u.flag (COL_DOM_CTRL_ENABLE_PENDING dom.val) then (u.set (COL_DOM_CTRL_ENABLE_PENDING dom.val) 0).domainEn dom.val else u) :=
    if_neg (by rw [run, closing, idle]; decide)
  refine ⟨fun alone => ?_, fun pending => ?_⟩
  · rw [ends, if_neg (ne_true_of_eq_false (show u.flag (COL_DOM_CTRL_ENABLE_PENDING dom.val) = false from alone))]
    exact done_quiet quiet
  · rw [ends, if_pos (show u.flag (COL_DOM_CTRL_ENABLE_PENDING dom.val) = true from pending)]
    exact done_quiet (RegsOnly.quiet (domainEn_only _ _) quiet)

theorem backupGo_row {v : Word} {s : State} (taken : Taken s COL_BACKUP_GO) (run : s.fatal = false) :
    Ends (.backupGo v) s (s.backupGo (v.toNat % 2 ^ 21)) := by
  have write := s.hostWrite_COL_BACKUP_GO (setBit v 31) taken
  have low := bits_putBits_below v.toNat 31 1 1 0 21 (by decide)
  rw [bits_from_zero, bits_from_zero, ← setBit_toNat v 31 (by decide)] at low
  rw [bit_setBit_same v 31 (by decide), run, low] at write
  exact congrArg done (write.trans (if_pos rfl))

/-- Settles O38. -/
theorem engineControl : Obligations.EngineControl :=
  ⟨fun _ _ _ q runs => chainTimers_rows q runs, fun _ q run => heldActivationTimeout_rows q run, fun _ _ q taken run => colSwitch_rows q taken run,
    fun _ q run shutting closed folded => colShutdownDone_rows q run shutting closed folded,
    fun _ _ _ q taken run keeps => domainSwitch_rows q taken run keeps, fun _ _ q run closing idle => domainShutdownDone_rows q run closing idle,
    fun _ _ _ taken run => backupGo_row taken run⟩

end Sys2Proof.Machine
end

section
/-! Sharded training: permutes, shard data, roll-back, translation (R357, R360, R368 to R373, R375). -/

namespace Sys2Proof.Machine

open Sys2Proof

/-! Permutes -/

section
variable {chain : ChainIx} {s : State} {r : Role} (q : Quiet s) (runs : RunsRole s chain.val r) (permute : r.op = opPermute)
include runs permute

theorem isPermute : (s.fatal || r.op != opPermute) = false := by rw [runs.1, permute]; rfl

include q in
theorem permuteWaitEnd_rows :
    (r.waitOver = false → s.oldOpen r = false → s.memOpen = true → Ends (.permuteWaitEnd chain) s (s.permGo chain.val r).colEnd) ∧
    ((r.waitOver = true ∨ s.oldOpen r = true ∨ s.memOpen = false) → exec (.permuteWaitEnd chain) s = .next s) := by
  have run : exec (.permuteWaitEnd chain) s = done (if (r.waitOver || s.oldOpen r || !s.memOpen) = true then s else (s.permGo chain.val r).colEnd) := by
    change execPermuteWaitEnd chain s = _
    unfold execPermuteWaitEnd
    rw [runs.2]
    dsimp only
    rw [isPermute runs permute, Bool.false_or]
  refine ⟨fun waits closed opened => run.trans (congrArg done (if_neg ?_)), fun h => run.trans ((congrArg done (if_pos ?_)).trans (done_quiet q))⟩
  · rw [waits, closed, opened]
    decide
  · rcases h with waited | old | shut
    · rw [waited]
      rfl
    · rw [old, Bool.or_true]
      rfl
    · rw [shut]
      exact Bool.or_true _

theorem permuteBlockedTimeout_row (waits : r.waitOver = false) :
    Ends (.permuteBlockedTimeout chain) s ((s.passTo (r.postedAt + s.chainTime)).closeRole chain.val 0x35 0).colEnd := by
  change execPermuteBlockedTimeout chain s = _
  unfold execPermuteBlockedTimeout
  rw [runs.2]
  exact if_neg (by rw [isPermute runs permute, waits]; decide)

theorem permuteProgressTimeout_row (waited : r.waitOver = true) :
    Ends (.permuteProgressTimeout chain) s ((s.passTo (r.lastAt + s.chainTime)).permFail chain.val
      ((((r.movesOut.map (·.xfer.grp)) ++ r.moves.map (·.grp)).head?).getD 0)).colEnd := by
  change execPermuteProgressTimeout chain s = _
  unfold execPermuteProgressTimeout
  rw [runs.2]
  exact if_neg (by rw [isPermute runs permute, waited]; decide)

/-- The entry of a permute in its new layout: swapped, with the epoch of the permute, no longer being permuted. -/
def State.newLayout (s : State) (r : Role) : State :=
  ((((s.swapEntry r.entry (s.get64 (DET_STEP_STEP r.group))).set (MEM_SHD_EPOCH_EPOCH r.entry) (cEpoch r.bytes)).set
    (MEM_SHD_STATE_PERMUTING r.entry) 0).setR (MEM_SHD_RECV r.entry) 0)

/-- The layout epoch of the device follows a newer one. -/
def State.layoutTo (s : State) (epoch : Nat) : State := if epochOlder (s.get MEM_LAYOUT_EPOCH) epoch then s.set MEM_LAYOUT_EPOCH epoch else s

theorem exec_permuteComplete (waited : r.waitOver = true) (sent : r.moves = []) (acknowledged : r.movesOut = []) :
    exec (.permuteComplete chain) s =
      if s.getR (MEM_SHD_RECV r.entry) > cRecv r.bytes / 64 then done (s.permFail chain.val 0).colEnd
      else if s.getR (MEM_SHD_RECV r.entry) < cRecv r.bytes / 64 then done s
      else done ((((s.newLayout r).layoutTo (cEpoch r.bytes)).modCol fun c => { c with permOwner := Tbl.drop c.permOwner r.entry }).closeRole
        chain.val 0 0).colEnd := by
  change execPermuteComplete chain s = _
  unfold execPermuteComplete
  rw [runs.2]
  exact (if_neg (by rw [isPermute runs permute, waited, sent, acknowledged]; decide)).trans rfl

end

theorem permute_rows {chain : ChainIx} {s : State} {r : Role} (q : Quiet s) (runs : RunsRole s chain.val r) (permute : r.op = opPermute) :
    (r.waitOver = false → s.oldOpen r = false → s.memOpen = true → Ends (.permuteWaitEnd chain) s (s.permGo chain.val r).colEnd) ∧
    ((r.waitOver = true ∨ s.oldOpen r = true ∨ s.memOpen = false) → exec (.permuteWaitEnd chain) s = .next s) ∧
    (r.waitOver = false → Ends (.permuteBlockedTimeout chain) s ((s.passTo (r.postedAt + s.chainTime)).closeRole chain.val 0x35 0).colEnd) ∧
    (r.waitOver = true →
      let move := (((r.movesOut.map (·.xfer.grp)) ++ r.moves.map (·.grp)).head?).getD 0
      Ends (.permuteProgressTimeout chain) s ((s.passTo (r.lastAt + s.chainTime)).permFail chain.val move).colEnd) ∧
    (r.waitOver = true → r.moves = [] → r.movesOut = [] →
      let e := r.entry
      let got := s.getR (MEM_SHD_RECV e)
      (got < cRecv r.bytes / 64 → exec (.permuteComplete chain) s = .next s) ∧
      (cRecv r.bytes / 64 < got → Ends (.permuteComplete chain) s (s.permFail chain.val 0).colEnd) ∧
      (got = cRecv r.bytes / 64 →
        let swapped := (s.swapEntry e (s.get64 (DET_STEP_STEP r.group))).set (MEM_SHD_EPOCH_EPOCH e) (cEpoch r.bytes)
        let shown := (swapped.set (MEM_SHD_STATE_PERMUTING e) 0).setR (MEM_SHD_RECV e) 0
        let moved := if epochOlder (shown.get MEM_LAYOUT_EPOCH) (cEpoch r.bytes) then shown.set MEM_LAYOUT_EPOCH (cEpoch r.bytes) else shown
        Ends (.permuteComplete chain) s ((moved.modCol fun c => { c with permOwner := Tbl.drop c.permOwner e }).closeRole chain.val 0 0).colEnd)) := by
  obtain ⟨ends, stays⟩ := permuteWaitEnd_rows q runs permute
  refine ⟨ends, stays, permuteBlockedTimeout_row runs permute, permuteProgressTimeout_row runs permute, fun waited sent acknowledged => ?_⟩
  have run := exec_permuteComplete runs permute waited sent acknowledged
  refine ⟨fun few => run.trans ((if_neg (Nat.not_lt.mpr (Nat.le_of_lt few))).trans ((if_pos few).trans (done_quiet q))), fun many => run.trans (if_pos many), fun all => ?_⟩
  intro swapped shown moved
  exact run.trans ((if_neg (Nat.not_lt.mpr (Nat.le_of_eq all))).trans (if_neg (Nat.not_lt.mpr (Nat.le_of_eq all.symm))))

/-! Shard data -/

theorem exec_permuteData {s u : State} {x : Inb} (opened : s.memOpen = true)
    (took : (s.takeInb fun x => x.pkt.data && x.pkt.opcode == 0x54) = some (x, u)) : exec .permuteData s = match u.permEntry x.pkt with
      | some e =>
        if u.permOther e x.pkt then done ((u.noteRefused e 0x30).answer x.pkt 0x03 0x10 (0x30000000 + e))
        else match u.permStore e x.pkt.addr x.pkt.payload with
        | (true, k) => done ((k.takeMove e x.pkt).answer x.pkt 0x01 0 0).colEnd
        | (false, k) => done (k.answer x.pkt 0x03 0x10 0)
      | none => done (u.answer x.pkt 0x03 0x10 0) := by
  refine (if_neg (by rw [opened]; exact Bool.false_ne_true)).trans ?_
  rw [took] <;> rfl

theorem permuteData_entry {s u k : State} {x : Inb} {e : Nat} {ok : Bool} (opened : s.memOpen = true)
    (took : (s.takeInb fun x => x.pkt.data && x.pkt.opcode == 0x54) = some (x, u)) (entry : u.permEntry x.pkt = some e)
    (stored : u.permStore e x.pkt.addr x.pkt.payload = (ok, k)) :
    Ends .permuteData s (if u.permOther e x.pkt then (u.noteRefused e 0x30).answer x.pkt 0x03 0x10 (0x30000000 + e)
      else if ok then ((k.takeMove e x.pkt).answer x.pkt 0x01 0 0).colEnd else k.answer x.pkt 0x03 0x10 0) := by
  rw [Ends, exec_permuteData opened took, entry]
  dsimp only
  rw [stored]
  by_cases other : u.permOther e x.pkt = true
  · rw [if_pos other, if_pos other]
    rfl
  · rw [if_neg other, if_neg other]
    cases ok with
    | true => rfl
    | false => rfl

theorem permuteData_none {s u : State} {x : Inb} (opened : s.memOpen = true)
    (took : (s.takeInb fun x => x.pkt.data && x.pkt.opcode == 0x54) = some (x, u)) (missing : u.permEntry x.pkt = none) :
    Ends .permuteData s (u.answer x.pkt 0x03 0x10 0) := by
  rw [Ends, exec_permuteData opened took, missing]
  rfl

/-! Translation entries -/

theorem xlateHoldExpiry_rows {entry : EntryIx} {s : State} (q : Quiet s) (run : s.fatal = false) :
    let x := entry.val
    (s.flag (MEM_XLATE_CTRL_ACTIVE x) = false → exec (.xlateHoldExpiry entry) s = .next s) ∧
    (s.flag (MEM_XLATE_CTRL_ACTIVE x) = true →
      let u := s.passTo (Tbl.read s.mem.xlateAt 0 x + 1650 * (1000 * max 1 (s.get MEM_XLATE_HOLD_HOLD)))
      Ends (.xlateHoldExpiry entry) s (((u.modMem fun m => { m with xlateAt := Tbl.drop m.xlateAt x }).set (MEM_XLATE_CTRL_VALID x) 0).set
        (MEM_XLATE_CTRL_ACTIVE x) 0)) := by
  refine ⟨fun idle => (if_pos ?_).trans (done_quiet q), fun active => ?_⟩
  · rw [idle]
    exact Bool.or_true _
  · intro u
    exact if_neg (by rw [run, active]; decide)

/-! Roll-back and registration -/

/-- The registers of a shard entry that a roll-back writes lie apart. -/
theorem shdRegs_apart (e : Nat) : (MEM_SHD_STATE e).off ≠ (MEM_SHD_VERSION e).off ∧ (MEM_SHD_STATE e).off ≠ (MEM_SHD_EPOCH e).off ∧
    (MEM_SHD_VERSION e).off ≠ (MEM_SHD_EPOCH e).off := by
  dsimp only [MEM_SHD_STATE, MEM_SHD_VERSION, MEM_SHD_EPOCH]
  omega

/-- The slot, version and epoch before the current ones are current again. -/
def State.stepBack (s : State) (e : Nat) : State :=
  ((s.set (MEM_SHD_STATE_CUR e) ((s.get (MEM_SHD_STATE_CUR e) + 2) % 3)).set (MEM_SHD_VERSION_VERSION e)
    (s.get (MEM_SHD_VERSION_VERSION e) + 2 ^ 32 - 1)).set (MEM_SHD_EPOCH_EPOCH e) (s.get (MEM_SHD_EPOCH_PREV_EPOCH e))

theorem rollbackEntry_eq (s : State) (e : Nat) :
    s.rollbackEntry e = ((s.stepBack e).set (MEM_SHD_STATE_DIRTY e) 0).set (MEM_SHD_STATE_ROLLED e) 1 := by
  obtain ⟨stateVersion, stateEpoch, versionEpoch⟩ := shdRegs_apart e
  unfold State.rollbackEntry State.stepBack
  dsimp only
  rw [State.get_set_ne s (MEM_SHD_STATE_CUR e) (MEM_SHD_VERSION_VERSION e) _ stateVersion.symm,
    State.get_set_ne _ (MEM_SHD_VERSION_VERSION e) (MEM_SHD_EPOCH_PREV_EPOCH e) _ versionEpoch.symm,
    State.get_set_ne s (MEM_SHD_STATE_CUR e) (MEM_SHD_EPOCH_PREV_EPOCH e) _ stateEpoch.symm]

theorem stepBack_shows (s : State) (e : Nat) :
    let t := s.stepBack e
    t.get (MEM_SHD_STATE_CUR e) = (s.get (MEM_SHD_STATE_CUR e) + 2) % 3 ∧
      t.get (MEM_SHD_VERSION_VERSION e) = (s.get (MEM_SHD_VERSION_VERSION e) + 2 ^ 32 - 1) % 2 ^ 32 ∧
      t.get (MEM_SHD_EPOCH_EPOCH e) = s.get (MEM_SHD_EPOCH_PREV_EPOCH e) ∧
      RegsKept [(MEM_SHD_STATE e).off, (MEM_SHD_VERSION e).off, (MEM_SHD_EPOCH e).off] s t ∧ RegsOnly s t := by
  obtain ⟨stateVersion, stateEpoch, versionEpoch⟩ := shdRegs_apart e
  refine ⟨?cur, ?version, ?epoch, fun r out => ?kept, RegsOnly.set (RegsOnly.set (RegsOnly.set (RegsOnly.refl s) _ _) _ _) _ _⟩
  case cur =>
    refine (State.get_set_ne _ (MEM_SHD_EPOCH_EPOCH e) _ _ stateEpoch).trans ((State.get_set_ne _ (MEM_SHD_VERSION_VERSION e) _ _ stateVersion).trans ?_)
    rw [State.get_set_same _ _ _ (by decide : 2 + 2 ≤ 32)]
    exact Nat.mod_eq_of_lt (Nat.lt_trans (Nat.mod_lt _ (by decide : 0 < 3)) (by decide : 3 < 4))
  case version =>
    exact (State.get_set_ne _ (MEM_SHD_EPOCH_EPOCH e) _ _ versionEpoch).trans (State.get_set_same _ _ _ (by decide : 0 + 32 ≤ 32))
  case epoch =>
    rw [State.stepBack, State.get_set_same _ _ _ (by decide : 0 + 16 ≤ 32)]
    exact Nat.mod_eq_of_lt (bits_lt _ _ _)
  case kept =>
    simp only [List.mem_cons, List.not_mem_nil, or_false, not_or] at out
    obtain ⟨state, version, epoch⟩ := out
    exact (State.getR_set_ne _ (MEM_SHD_EPOCH_EPOCH e) r _ epoch).trans ((State.getR_set_ne _ (MEM_SHD_VERSION_VERSION e) r _ version).trans
      (State.getR_set_ne _ (MEM_SHD_STATE_CUR e) r _ state))

theorem rollbackEntry_shows (s : State) (e : Nat) :
    let t := s.rollbackEntry e
    t.get (MEM_SHD_STATE_CUR e) = (s.get (MEM_SHD_STATE_CUR e) + 2) % 3 ∧
      t.get (MEM_SHD_VERSION_VERSION e) = (s.get (MEM_SHD_VERSION_VERSION e) + 2 ^ 32 - 1) % 2 ^ 32 ∧
      t.get (MEM_SHD_EPOCH_EPOCH e) = s.get (MEM_SHD_EPOCH_PREV_EPOCH e) ∧ t.flag (MEM_SHD_STATE_DIRTY e) = false ∧
      t.flag (MEM_SHD_STATE_ROLLED e) = true ∧
      RegsKept [(MEM_SHD_STATE e).off, (MEM_SHD_VERSION e).off, (MEM_SHD_EPOCH e).off] s t ∧ RegsOnly s t := by
  intro t
  have is : t = ((s.stepBack e).set (MEM_SHD_STATE_DIRTY e) 0).set (MEM_SHD_STATE_ROLLED e) 1 := rollbackEntry_eq s e
  obtain ⟨cur, version, epoch, kept, only⟩ := stepBack_shows s e
  obtain ⟨stateVersion, stateEpoch, -⟩ := shdRegs_apart e
  have outside (f : Fld) (other : f.reg.off ≠ (MEM_SHD_STATE e).off) : t.get f = (s.stepBack e).get f := by
    rw [is]
    exact (State.get_set_ne _ (MEM_SHD_STATE_ROLLED e) f _ other).trans (State.get_set_ne _ (MEM_SHD_STATE_DIRTY e) f _ other)
  refine ⟨?cur, (outside _ stateVersion.symm).trans version, (outside _ stateEpoch.symm).trans epoch, ?dirty, ?rolled, fun r out => ?kept, ?only⟩
  case cur =>
    rw [is, State.get_set_apart _ (MEM_SHD_STATE_ROLLED e) (MEM_SHD_STATE_CUR e) _ rfl (by decide : 4 + 1 ≤ 32) (.inl (by decide : 2 + 2 ≤ 4)),
      State.get_set_apart _ (MEM_SHD_STATE_DIRTY e) (MEM_SHD_STATE_CUR e) _ rfl (by decide : 0 + 1 ≤ 32) (.inr (by decide : 0 + 1 ≤ 2))]
    exact cur
  case dirty =>
    rw [State.flag, is, State.get_set_apart _ (MEM_SHD_STATE_ROLLED e) (MEM_SHD_STATE_DIRTY e) _ rfl (by decide : 4 + 1 ≤ 32) (.inl (by decide : 0 + 1 ≤ 4)),
      State.get_set_same _ _ _ (by decide : 0 + 1 ≤ 32)]
    rfl
  case rolled =>
    rw [is]
    exact State.flag_set_same _ _ _ (by decide : 4 + 1 ≤ 32)
  case kept =>
    have other : r.off ≠ (MEM_SHD_STATE e).off := List.ne_of_not_mem_cons out
    rw [is]
    exact (State.getR_set_ne _ (MEM_SHD_STATE_ROLLED e) r _ other).trans ((State.getR_set_ne _ (MEM_SHD_STATE_DIRTY e) r _ other).trans (kept r out))
  case only =>
    rw [is]
    exact RegsOnly.set (RegsOnly.set only _ _) _ _

theorem exec_rollback {entry : EntryIx} {v : Word} {s : State} (taken : Taken s (MEM_SHD_STATE entry.val)) :
    exec (.rollback entry v) s = done (s.rollback entry.val (MEM_SHD_STATE entry.val).off) :=
  congrArg done ((s.hostWrite_MEM_SHD_STATE entry (setBit v 6) taken).trans (if_pos (bit_setBit_same v 6 (by decide))))

theorem rollback_rows (entry : EntryIx) (v : Word) {s : State} (q : Quiet s) (taken : Taken s (MEM_SHD_STATE entry.val)) :
    let e := entry.val
    (s.groupHeld (s.get (MEM_SHD_CFG_GROUP e)) = false → s.flag (MEM_SHD_STATE_ROLLED e) = false →
      ∃ t, exec (.rollback entry v) s = .next t ∧ t.get (MEM_SHD_STATE_CUR e) = (s.get (MEM_SHD_STATE_CUR e) + 2) % 3 ∧
        t.get (MEM_SHD_VERSION_VERSION e) = (s.get (MEM_SHD_VERSION_VERSION e) + 2 ^ 32 - 1) % 2 ^ 32 ∧
        t.get (MEM_SHD_EPOCH_EPOCH e) = s.get (MEM_SHD_EPOCH_PREV_EPOCH e) ∧ t.flag (MEM_SHD_STATE_DIRTY e) = false ∧
        t.flag (MEM_SHD_STATE_ROLLED e) = true ∧
        RegsKept [(MEM_SHD_STATE e).off, (MEM_SHD_VERSION e).off, (MEM_SHD_EPOCH e).off] s t ∧ RegsOnly s t) ∧
    ((s.groupHeld (s.get (MEM_SHD_CFG_GROUP e)) = true ∨ s.flag (MEM_SHD_STATE_ROLLED e) = true) →
      Ends (.rollback entry v) s (s.aerr 0 (MEM_SHD_STATE e).off true 2)) := by
  intro e
  refine ⟨fun free fresh => ?_, fun barred => (exec_rollback taken).trans (congrArg done (if_pos (Bool.or_eq_true_iff.mpr barred)))⟩
  have back : s.rollback e (MEM_SHD_STATE e).off = s.rollbackEntry e := if_neg (by rw [free, fresh]; decide)
  obtain ⟨cur, version, epoch, dirty, rolled, kept, only⟩ := rollbackEntry_shows s e
  refine ⟨_, (exec_rollback taken).trans ((congrArg done back).trans (done_quiet (RegsOnly.quiet only q))), cur, version, epoch, dirty, rolled, kept, only⟩

theorem shdCfg_row (entry : EntryIx) {row : RegRow} {ix : List Nat} (h : regAt (MEM_SHD_CFG entry.val).off = some (row, ix)) :
    row.rwp = 0xFFFF7FFF ∧ row.rwb = 0 ∧ regOf (MEM_SHD_CFG entry.val).off = MEM_SHD_CFG entry.val := by
  have table : ∀ e : Fin 64, (regAt (MEM_SHD_CFG e.val).off).any (fun x => x.1.rwp == 0xFFFF7FFF && x.1.rwb == 0) = true ∧
      regOf (MEM_SHD_CFG e.val).off = MEM_SHD_CFG e.val := by decide +kernel
  obtain ⟨fields, own⟩ := table entry
  rw [h] at fields
  simp only [Option.any_some, Bool.and_eq_true, beq_iff_eq] at fields
  exact ⟨fields.1, fields.2, own⟩

theorem rwpOpen_shdCfg (s : State) (entry : EntryIx) :
    s.rwpOpen (MEM_SHD_CFG entry.val).off = !s.groupHeld (s.get (MEM_SHD_CFG_GROUP entry.val)) := by
  have small := entry.isLt
  have index : ((MEM_SHD_CFG entry.val).off - 0x180800) / 0x40 = entry.val := by
    dsimp only [MEM_SHD_CFG]
    omega
  have block : 0x180800 ≤ (MEM_SHD_CFG entry.val).off ∧ (MEM_SHD_CFG entry.val).off < 0x181800 := by
    dsimp only [MEM_SHD_CFG]
    omega
  generalize (MEM_SHD_CFG entry.val).off = off at index block
  unfold State.rwpOpen
  rw [index, if_neg (by omega), if_neg (by omega), if_pos block]

/-- An entry made valid while its rules may change: it is taken, or discarded when it breaks a rule. -/
theorem shdCfg_open {s : State} {w : RegWrite} (valid : bit w.v 0 = true) (opened : s.rwpOpen w.off = true) :
    s.shdCfg w = if (s.stored w).shdBad w.i then s.discarded w.at_ else s.stored w := by
  unfold State.shdCfg
  dsimp only
  rw [valid, opened, Bool.true_and, Bool.true_and]

theorem memShdCfgValid_row (entry : EntryIx) (v : Word) {s : State} (q : Quiet s) (taken : Taken s (MEM_SHD_CFG entry.val))
    (free : s.groupHeld (s.get (MEM_SHD_CFG_GROUP entry.val)) = false) :
    ∃ u, RegsOnly s u ∧ RegsKept [(MEM_SHD_CFG entry.val).off] s u ∧ u.flag (MEM_SHD_CFG_VALID entry.val) = true ∧
      u.get (MEM_SHD_CFG_KIND entry.val) = bits v.toNat 1 2 ∧ u.get (MEM_SHD_CFG_SLOT_UNITS entry.val) = bits v.toNat 16 16 ∧
      (u.shdBad entry.val = false → exec (.memShdCfgValid entry v) s = .next u) ∧
      (u.shdBad entry.val = true → Ends (.memShdCfgValid entry v) s (s.aerr 0 (MEM_SHD_CFG entry.val).off true 2)) := by
  obtain ⟨row, hr, write⟩ := s.hostWrite_MEM_SHD_CFG entry (setBit v 0) taken
  obtain ⟨rwp, rwb, own⟩ := shdCfg_row entry hr
  have opened : s.rwpOpen (MEM_SHD_CFG entry.val).off = true := by rw [rwpOpen_shdCfg, free]; rfl
  have stored : s.stored (ownWrite (MEM_SHD_CFG entry.val) row [entry.val] (setBit v 0)) =
      s.setR (MEM_SHD_CFG entry.val) (keptValue row (s.getR (MEM_SHD_CFG entry.val)) (setBit v 0).toNat) := by
    have written := s.stored_eq (ownWrite (MEM_SHD_CFG entry.val) row [entry.val] (setBit v 0)) (.inr opened) rwb
    rw [show (ownWrite (MEM_SHD_CFG entry.val) row [entry.val] (setBit v 0)).off = (MEM_SHD_CFG entry.val).off from rfl, own] at written
    exact written
  generalize hx : keptValue row (s.getR (MEM_SHD_CFG entry.val)) (setBit v 0).toNat = x at stored
  have field (lo width : Nat) (le : lo + width ≤ 32) (low : 0 < lo) (open_ : ∀ i < width, Nat.testBit 0xFFFF7FFF (lo + i) = true) :
      bits x lo width = bits v.toNat lo width := by
    rw [← hx, bits_keptValue_rwp _ _ le (by rw [rwp]; exact open_)]
    rw [setBit_toNat v 0 (by decide), bits_putBits_above _ _ _ _ _ _ low]
  have valid : bits x 0 1 = bits (setBit v 0).toNat 0 1 := by
    rw [← hx, bits_keptValue_rwp _ _ (by decide) (by rw [rwp]; decide)]
  have run : exec (.memShdCfgValid entry v) s = done (if (s.setR (MEM_SHD_CFG entry.val) x).shdBad entry.val then
      s.discarded (MEM_SHD_CFG entry.val).off else s.setR (MEM_SHD_CFG entry.val) x) := by
    have written := shdCfg_open (w := ownWrite (MEM_SHD_CFG entry.val) row [entry.val] (setBit v 0)) (bit_setBit_same v 0 (by decide)) opened
    rw [stored] at written
    exact congrArg done (write.trans written)
  refine ⟨s.setR (MEM_SHD_CFG entry.val) x, RegsOnly.setR (RegsOnly.refl s) _ _, fun r out => State.getR_setR_ne _ _ _ _ (List.ne_of_not_mem_cons out), ?_,
    (s.get_setR_same (MEM_SHD_CFG_KIND entry.val) x (by decide : 1 + 2 ≤ 32)).trans (field 1 2 (by decide) (by decide) (by decide)),
    (s.get_setR_same (MEM_SHD_CFG_SLOT_UNITS entry.val) x (by decide : 16 + 16 ≤ 32)).trans (field 16 16 (by decide) (by decide) (by decide)),
    fun good => ?_, fun bad => run.trans (congrArg done (if_pos bad))⟩
  · exact (flag_setR_bit s _ x (by decide)).trans ((bit_congr valid).trans (bit_setBit_same v 0 (by decide)))
  · rw [run, if_neg (ne_true_of_eq_false good)]
    exact done_same q rfl rfl

/-- Settles O39. -/
theorem shardsAndPermutes : Obligations.ShardsAndPermutes :=
  ⟨fun _ _ _ q runs permute => permute_rows q runs permute,
    fun _ _ _ _ opened took => ⟨fun _ entry _ _ stored => permuteData_entry opened took entry stored, permuteData_none opened took⟩,
    fun _ _ q run => xlateHoldExpiry_rows q run, fun entry v _ q taken => rollback_rows entry v q taken,
    fun entry v _ q taken free => memShdCfgValid_row entry v q taken free⟩

end Sys2Proof.Machine
end

section
/-! The control of a port: LNK_CTRL and LNK_PING_CTRL (R173, R193 to R199, R273, R407). -/

namespace Sys2Proof.Machine

open Sys2Proof

/-! What a write of LNK_CTRL stores -/

theorem linkCtrl_row (port : PortIx) {row : RegRow} {ix : List Nat} (h : regAt (LNK_CTRL port.val).off = some (row, ix)) :
    row.rw = 0x9D ∧ row.rwp = 0x60 ∧ row.w1c = 0 ∧ row.rwb = 0 ∧ regOf (LNK_CTRL port.val).off = LNK_CTRL port.val := by
  have table : ∀ p : Fin 24, (regAt (LNK_CTRL p.val).off).any (fun x => x.1.rw == 0x9D && x.1.rwp == 0x60 && x.1.w1c == 0 && x.1.rwb == 0) = true ∧
      regOf (LNK_CTRL p.val).off = LNK_CTRL p.val := by decide +kernel
  obtain ⟨fields, own⟩ := table port
  rw [h] at fields
  simp only [Option.any_some, Bool.and_eq_true, beq_iff_eq] at fields
  obtain ⟨⟨⟨rw, rwp⟩, w1c⟩, rwb⟩ := fields
  exact ⟨rw, rwp, w1c, rwb, own⟩

/-- The registers of the links and the fatal decision lie outside the access-error log. -/
theorem outside_aerr {off : Nat} (h : off < 0x10000 ∨ 0x20000 ≤ off) (i : Nat) (small : i < 16) : off ∉ aerrOffs i := by
  simp only [aerrOffs, List.mem_cons, List.not_mem_nil, or_false, not_or]
  dsimp only [HIF_AERR_INFO, HIF_AERR_ADDR, HIF_AERR_TIME, HIF_AERR_PROD]
  omega

/-- What a write of LNK_CTRL stores: EN as written, and every register beyond LNK_CTRL and the host bridge as before. -/
theorem linkStored_facts (s : State) (port : PortIx) (v : Word) {row : RegRow} (h : regAt (LNK_CTRL port.val).off = some (row, [port.val])) :
    let u := s.stored (ownWrite (LNK_CTRL port.val) row [port.val] v)
    BridgeOnly s u ∧ u.flag (LNK_CTRL_EN port.val) = bit v.toNat 0 ∧
      ∀ r : Reg, 0x20000 ≤ r.off → r.off ≠ (LNK_CTRL port.val).off → u.getR r = s.getR r := by
  obtain ⟨rw, rwp, w1c, rwb, own⟩ := linkCtrl_row port h
  obtain ⟨x, val, effect⟩ := stored_cases s (ownWrite (LNK_CTRL port.val) row [port.val] v) rwb
  rw [show (ownWrite (LNK_CTRL port.val) row [port.val] v).off = (LNK_CTRL port.val).off from rfl, own] at val effect
  have enabled : bit x 0 = bit v.toNat 0 := by
    rcases val with rfl | rfl
    · exact bit_congr (bits_keptValue_rw (row := row) _ _ (by decide : 0 + 1 ≤ 32) (by rw [rw, w1c]; decide))
    · refine bit_congr (bits_congr fun i hi => ?_)
      rw [show (ownWrite (LNK_CTRL port.val) row [port.val] v).row = row from rfl, w1c, rw, Nat.and_zero,
        maskIn_testBit_zero _ _ _ (by omega), maskIn_testBit_of_mem _ _ _ _ (by omega) (by rw [Nat.lt_one_iff.mp hi]; decide)]
      rfl
  have flag : (s.setR (LNK_CTRL port.val) x).flag (LNK_CTRL_EN port.val) = bit v.toNat 0 := (flag_setR_bit s _ x (by decide)).trans enabled
  have only : BridgeOnly s (s.setR (LNK_CTRL port.val) x) := .of_regsOnly (RegsOnly.setR (RegsOnly.refl s) _ _)
  have link : 0x20000 ≤ (LNK_CTRL port.val).off := by
    dsimp only [LNK_CTRL]
    omega
  have logged (t : State) {r : Reg} (far : 0x20000 ≤ r.off) : (t.aerr 0 (ownWrite (LNK_CTRL port.val) row [port.val] v).at_ true 1).getR r = t.getR r :=
    aerr_getR _ _ _ _ _ (outside_aerr (.inr far) _ (Nat.mod_lt _ (by decide)))
  intro u
  rcases effect with effect | effect
  · rw [show u = _ from effect]
    exact ⟨only, flag, fun r _ other => State.getR_setR_ne _ _ _ _ other⟩
  · rw [show u = _ from effect]
    refine ⟨only.trans (.aerr _ _ _ _ _), ?_, fun r far other => (logged _ far).trans (State.getR_setR_ne _ _ _ _ other)⟩
    exact (congrArg (fun y => bits y 0 1 != 0) (logged _ link)).trans flag

theorem linkStored (s : State) (port : PortIx) (v : Word) {row : RegRow} (h : regAt (LNK_CTRL port.val).off = some (row, [port.val])) :
    LinkStored s (s.stored (ownWrite (LNK_CTRL port.val) row [port.val] v)) port.val (bit v.toNat 0) := by
  obtain ⟨only, en, kept⟩ := linkStored_facts s port v h
  refine ⟨only, en, ?_⟩
  rw [State.lst, State.get, kept _ (by dsimp only [LNK_STATUS_STATE, LNK_STATUS]; omega) (by dsimp only [LNK_STATUS_STATE, LNK_STATUS, LNK_CTRL]; omega)]
  rfl

/-! What a write of LNK_CTRL does -/

/-- LP of a value of LNK_CTRL; 3 acts as 2. -/
def lpOf (v : Word) : Nat := min 2 (bits v.toNat 2 2)

/-- A value of LNK_CTRL that a port discards: an enable of a fenced port or before the switch core, or LP2 on a port that must not enter it. -/
def State.linkBars (s : State) (p : Nat) (v : Word) : Bool :=
  (bit v.toNat 0 && (s.portFenced p || !s.flag SWC_CTRL_EN)) || (lpOf v == 2 && s.noLp2 p)

/-- What a write of LNK_CTRL does once it is stored, for EN as it was before. -/
def State.linkActs (u : State) (p : Nat) (v : Word) (was : Bool) : State :=
  let en := bit v.toNat 0
  let t := if en && !was then u.lnkEnable p else if !en && was then u.lnkDisable p else u
  if bit v.toNat 8 && (t.lst p == lkActive || t.lst p == lkFailed) then t.lnkRetrain p else if en then t.lpWritten p (lpOf v) else t

section
variable {port : PortIx} {v : Word} {s : State} (taken : Taken s (LNK_CTRL port.val))
include taken

theorem hostWrite_link_discarded (bars : s.linkBars port.val v = true) :
    s.hostWrite (LNK_CTRL port.val) v = s.aerr 0 (LNK_CTRL port.val).off true 2 := by
  obtain ⟨row, -, write⟩ := s.hostWrite_LNK_CTRL port v taken
  exact write.trans (if_pos bars)

theorem hostWrite_link_acts (run : s.fatal = false) (allows : s.linkBars port.val v = false) : ∃ u, LinkStored s u port.val (bit v.toNat 0) ∧
    s.hostWrite (LNK_CTRL port.val) v = u.linkActs port.val v (s.flag (LNK_CTRL_EN port.val)) := by
  obtain ⟨row, hr, write⟩ := s.hostWrite_LNK_CTRL port v taken
  have stored := linkStored s port v hr
  refine ⟨_, stored, write.trans ((if_neg (ne_true_of_eq_false allows)).trans (if_neg (ne_true_of_eq_false run)))⟩

end

section
variable {u : State} {p : Nat} {v : Word}

theorem linkActs_enable (en : bit v.toNat 0 = true) (plain : bit v.toNat 8 = false) : u.linkActs p v false = (u.lnkEnable p).lpWritten p (lpOf v) := by
  unfold State.linkActs
  dsimp only
  rw [en, plain]
  rfl

theorem linkActs_disable (off : bit v.toNat 0 = false) (plain : bit v.toNat 8 = false) : u.linkActs p v true = u.lnkDisable p := by
  unfold State.linkActs
  dsimp only
  rw [off, plain]
  rfl

theorem linkActs_stays (en : bit v.toNat 0 = true) (plain : bit v.toNat 8 = false) : u.linkActs p v true = u.lpWritten p (lpOf v) := by
  unfold State.linkActs
  dsimp only
  rw [en, plain]
  rfl

theorem linkActs_retrain (en : bit v.toNat 0 = true) (again : bit v.toNat 8 = true) : u.linkActs p v true =
    if u.lst p == lkActive || u.lst p == lkFailed then u.lnkRetrain p else u.lpWritten p (lpOf v) := by
  unfold State.linkActs
  dsimp only
  rw [en, again]
  rfl

theorem lpWritten_zero (lp1 : u.lst p = lkLp1) :
    u.lpWritten p 0 = (u.modPort p fun q => { q with lpAsked := if q.lpAsked = 3 then 0 else q.lpAsked }).wakeLp1 p := by
  unfold State.lpWritten
  dsimp only
  rw [if_neg (not_not_intro rfl)]
  exact if_pos lp1

theorem lpWritten_request {lp : Nat} (asks : lp ≠ 0) :
    u.lpWritten p lp = u.modPort p fun q => { q with lpAsked := if q.lpAsked = 3 then 0 else q.lpAsked } := if_pos asks

end

/-! Enable and disable -/

/-- The values that the rows of a port write, and what they leave of a value. -/
theorem linkValues (v : Word) : bit (setBit v 0).toNat 0 = true ∧ bit (clearBit v 0).toNat 0 = false ∧ bit (setBit v 8).toNat 8 = true ∧
    bit (setBit v 8).toNat 0 = bit v.toNat 0 ∧ bit (setBit v 0).toNat 8 = bit v.toNat 8 ∧ bit (clearBit v 0).toNat 8 = bit v.toNat 8 ∧
    lpOf (setBit v 0) = lpOf v ∧ lpOf (clearBit v 0) = lpOf v ∧ lpOf (setBit v 8) = lpOf v := by
  refine ⟨bit_setBit_same v 0 (by decide), bit_clearBit_same v 0 (by decide), bit_setBit_same v 8 (by decide), bit_setBit_ne v 8 0 (by decide) (by decide),
    bit_setBit_ne v 0 8 (by decide) (by decide), bit_clearBit_ne v 0 8 (by decide) (by decide), congrArg (min 2) ?_, congrArg (min 2) ?_, congrArg (min 2) ?_⟩
  · rw [setBit_toNat v 0 (by decide), bits_putBits_above _ _ _ _ _ _ (by decide)]
  · rw [clearBit_toNat v 0 (by decide), bits_putBits_above _ _ _ _ _ _ (by decide)]
  · rw [setBit_toNat v 8 (by decide), bits_putBits_below _ _ _ _ _ _ (by decide)]

theorem lpOf_zero {v : Word} (light : bits v.toNat 2 2 = 0) : lpOf v = 0 := by rw [lpOf, light]; rfl

/-- An enable that a port need not discard. -/
theorem linkBars_none {s : State} {p : Nat} {v : Word} (unfenced : s.portFenced p = false) (core : s.flag SWC_CTRL_EN = true)
    (low : lpOf v = 2 → s.noLp2 p = false) : s.linkBars p v = false := by
  unfold State.linkBars
  rw [unfenced, core]
  by_cases deep : lpOf v = 2
  · rw [low deep]
    simp
  · simp [deep]

section
variable {port : PortIx} {v : Word} {s : State} (taken : Taken s (LNK_CTRL port.val)) (run : s.fatal = false)
include taken run

theorem linkEnable_rows (plain : bit v.toNat 8 = false) (light : bits v.toNat 2 2 = 0) :
    let p := port.val
    ((s.portFenced p = true ∨ s.flag SWC_CTRL_EN = false) → Ends (.lnkEnable port v) s (s.aerr 0 (LNK_CTRL p).off true 2)) ∧
    (s.portFenced p = false → s.flag SWC_CTRL_EN = true → s.flag (LNK_CTRL_EN p) = false →
      (s.lst p = lkOff → ∃ u, LinkStored s u p true ∧ Ends (.lnkEnable port v) s ((u.powerPort p).lpWritten p 0)) ∧
      (s.lst p = lkShutdown → ∃ u, LinkStored s u p true ∧ Ends (.lnkEnable port v) s ((u.set (LNK_CTRL_ENABLE_PENDING p) 1).lpWritten p 0))) ∧
    (s.flag (LNK_CTRL_EN p) = true →
      (s.lst p = lkActive → ∃ u, LinkStored s u p false ∧ Ends (.lnkDisable port v) s (u.goPort p lkShutdown)) ∧
      (s.lst p = lkShutdown → ∃ u, LinkStored s u p false ∧ Ends (.lnkDisable port v) s (u.set (LNK_CTRL_ENABLE_PENDING p) 0))) := by
  intro p
  obtain ⟨en, off, -, -, plainOn, plainOff, lpOn, lpOff, -⟩ := linkValues v
  have lp : lpOf v = 0 := lpOf_zero light
  refine ⟨fun bars => congrArg done (hostWrite_link_discarded taken ?_), fun unfenced core dark => ?_, fun lit => ?_⟩
  · rw [State.linkBars, en, Bool.true_and, Bool.or_eq_true, Bool.or_eq_true, Bool.not_eq_true']
    exact .inl bars
  · obtain ⟨u, stored, write⟩ := hostWrite_link_acts (v := setBit v 0) taken run
      (linkBars_none unfenced core fun deep => absurd (lp.symm.trans (lpOn.symm.trans deep)) (by decide))
    rw [dark, linkActs_enable en (plainOn.trans plain), lpOn, lp] at write
    rw [en] at stored
    refine ⟨fun closed => ⟨u, stored, ?_⟩, fun draining => ⟨u, stored, ?_⟩⟩
    · have powers : u.lnkEnable p = u.powerPort p := by
        unfold State.lnkEnable
        rw [stored.state, show s.lst port.val = lkOff from closed]
        rfl
      rw [powers] at write
      exact congrArg done write
    · have waits : u.lnkEnable p = u.set (LNK_CTRL_ENABLE_PENDING p) 1 := if_pos (stored.state.trans draining)
      rw [waits] at write
      exact congrArg done write
  · have allows : s.linkBars p (clearBit v 0) = false := by
      rw [State.linkBars, off, lpOff, lp]
      rfl
    obtain ⟨u, stored, write⟩ := hostWrite_link_acts taken run allows
    rw [lit, linkActs_disable off (plainOff.trans plain)] at write
    rw [off] at stored
    refine ⟨fun active => ⟨u, stored, ?_⟩, fun draining => ⟨u, stored, ?_⟩⟩
    · have drains : u.lnkDisable p = u.goPort p lkShutdown := by
        unfold State.lnkDisable
        rw [stored.state, show s.lst port.val = lkActive from active]
        rfl
      rw [drains] at write
      exact congrArg done write
    · have forgets : u.lnkDisable p = u.set (LNK_CTRL_ENABLE_PENDING p) 0 := if_pos (stored.state.trans draining)
      rw [forgets] at write
      exact congrArg done write

/-! RETRAIN and LP on an enabled port -/

/-- A value of LNK_CTRL with another LP. -/
def withLp (v : Word) (lp : Nat) : Word := BitVec.ofNat 32 (putBits v.toNat 2 2 lp)

omit taken run in
theorem withLp_values (v : Word) {lp : Nat} (low : lp < 4) :
    bit (withLp v lp).toNat 0 = bit v.toNat 0 ∧ bit (withLp v lp).toNat 8 = bit v.toNat 8 ∧ lpOf (withLp v lp) = min 2 lp := by
  have value : (withLp v lp).toNat = putBits v.toNat 2 2 lp :=
    Nat.mod_eq_of_lt (putBits_lt _ _ _ _ 32 v.isLt (by decide))
  rw [lpOf, value, bits_putBits_same, Nat.mod_eq_of_lt (show lp < 2 ^ 2 from low)]
  exact ⟨bit_congr (bits_putBits_below _ _ _ _ _ _ (by decide)), bit_congr (bits_putBits_above _ _ _ _ _ _ (by decide)), rfl⟩

section
variable (unfenced : s.portFenced port.val = false) (core : s.flag SWC_CTRL_EN = true) (lit : s.flag (LNK_CTRL_EN port.val) = true)
  (en : bit v.toNat 0 = true)
include unfenced core lit en

theorem hostWrite_link_stays (plain : bit v.toNat 8 = false) (low : lpOf v = 2 → s.noLp2 port.val = false) :
    ∃ u, LinkStored s u port.val true ∧ s.hostWrite (LNK_CTRL port.val) v = u.lpWritten port.val (lpOf v) := by
  obtain ⟨u, stored, write⟩ := hostWrite_link_acts taken run (linkBars_none unfenced core low)
  rw [lit, linkActs_stays en plain] at write
  rw [en] at stored
  exact ⟨u, stored, write⟩

theorem linkRetrain_acts (light : bits v.toNat 2 2 = 0) : ∃ u, LinkStored s u port.val true ∧
    exec (.lnkRetrain port v) s = done (if u.lst port.val == lkActive || u.lst port.val == lkFailed then u.lnkRetrain port.val else u.lpWritten port.val 0) := by
  obtain ⟨-, -, again, same, -, -, -, -, lp⟩ := linkValues v
  have zero : lpOf (setBit v 8) = 0 := lp.trans (lpOf_zero light)
  obtain ⟨u, stored, write⟩ := hostWrite_link_acts (v := setBit v 8) taken run
    (linkBars_none unfenced core fun deep => absurd (zero.symm.trans deep) (by decide))
  rw [lit, linkActs_retrain (same.trans en) again, zero] at write
  rw [same, en] at stored
  exact ⟨u, stored, congrArg done write⟩

theorem linkRetrain_rows (light : bits v.toNat 2 2 = 0) :
    let p := port.val
    (s.lst p = lkActive → ∃ u, LinkStored s u p true ∧ Ends (.lnkRetrain port v) s ((u.sendDisable p).enterDetect p)) ∧
    (s.lst p = lkFailed → ∃ u, LinkStored s u p true ∧ Ends (.lnkRetrain port v) s (u.enterDetect p)) ∧
    (s.lst p = lkLp1 → ∃ u, LinkStored s u p true ∧ Ends (.lnkRetrain port v) s
      ((u.modPort p fun q => { q with lpAsked := if q.lpAsked = 3 then 0 else q.lpAsked }).wakeLp1 p)) ∧
    (s.lst p ∉ [lkActive, lkFailed, lkLp1, lkLp2] → ∃ u, LinkStored s u p true ∧ Ends (.lnkRetrain port v) s (u.lpWritten p 0)) ∧
    (bit v.toNat 8 = false → ∃ u, LinkStored s u p true ∧ Ends (.lpRequest port v) s (u.lpWritten p 1)) ∧
    (bit v.toNat 8 = false → ∃ u, LinkStored s u p true ∧ Ends (.lpExitWrite port v) s (u.lpWritten p 0)) := by
  intro p
  obtain ⟨u, stored, ends⟩ := linkRetrain_acts taken run unfenced core lit en light
  rw [stored.state] at ends
  have request (lp : Nat) (low : lp < 2) (plain : bit v.toNat 8 = false) :
      ∃ u, LinkStored s u p true ∧ s.hostWrite (LNK_CTRL port.val) (withLp v lp) = u.lpWritten p lp := by
    obtain ⟨enabled, same, asks⟩ := withLp_values v (Nat.lt_trans low (by decide : 2 < 4))
    have is : lpOf (withLp v lp) = lp := asks.trans (Nat.min_eq_right (Nat.le_of_lt low))
    obtain ⟨u, stored, write⟩ := hostWrite_link_stays taken run unfenced core lit (enabled.trans en) (same.trans plain)
      fun deep => absurd (is.symm.trans deep) (Nat.ne_of_lt low)
    exact ⟨u, stored, write.trans (by rw [is])⟩
  refine ⟨fun active => ⟨u, stored, ?_⟩, fun failed => ⟨u, stored, ?_⟩, fun lp1 => ⟨u, stored, ?_⟩, fun other => ⟨u, stored, ?_⟩, fun plain => ?_, fun plain => ?_⟩
  · have trains : u.lnkRetrain p = (u.sendDisable p).enterDetect p := if_pos (stored.state.trans active)
    rw [Ends, ends, show s.lst port.val = lkActive from active, ← trains]
    rfl
  · have trains : u.lnkRetrain p = u.enterDetect p := by
      unfold State.lnkRetrain
      rw [stored.state, show s.lst port.val = lkFailed from failed]
      rfl
    rw [Ends, ends, show s.lst port.val = lkFailed from failed, ← trains]
    rfl
  · rw [Ends, ends, show s.lst port.val = lkLp1 from lp1, ← lpWritten_zero (stored.state.trans lp1)]
    rfl
  · simp only [List.mem_cons, List.not_mem_nil, or_false, not_or] at other
    obtain ⟨active, failed, -, -⟩ := other
    rw [Ends, ends, if_neg (by rw [Bool.or_eq_true, beq_iff_eq, beq_iff_eq]; exact fun is => is.elim active failed)]
    rfl
  · obtain ⟨u, stored, write⟩ := request 1 (by decide) plain
    refine ⟨u, stored, ?_⟩
    change done (s.hostWrite (LNK_CTRL port.val) (withLp v (max 1 (bits v.toNat 2 2)))) = _
    rw [light, show max 1 0 = 1 from rfl, write]
    rfl
  · obtain ⟨u, stored, write⟩ := request 0 (by decide) plain
    exact ⟨u, stored, congrArg done write⟩

theorem linkDeep_rows (deep : bits v.toNat 2 2 = 2) (plain : bit v.toNat 8 = false) :
    let p := port.val
    (s.noLp2 p = true → Ends (.lpRequest port v) s (s.aerr 0 (LNK_CTRL p).off true 2)) ∧
    (s.noLp2 p = false → ∃ u, LinkStored s u p true ∧ Ends (.lpRequest port v) s
      (u.modPort p fun q => { q with lpAsked := if q.lpAsked = 3 then 0 else q.lpAsked })) := by
  intro p
  obtain ⟨enabled, same, asks⟩ := withLp_values v (by decide : 2 < 4)
  have value : exec (.lpRequest port v) s = done (s.hostWrite (LNK_CTRL port.val) (withLp v 2)) := by
    change done (s.hostWrite (LNK_CTRL port.val) (withLp v (max 1 (bits v.toNat 2 2)))) = _
    rw [deep]
    rfl
  refine ⟨fun barred => value.trans (congrArg done (hostWrite_link_discarded taken ?_)), fun allowed => ?_⟩
  · rw [State.linkBars, asks, show s.noLp2 port.val = true from barred]
    exact Bool.or_true _
  · obtain ⟨u, stored, write⟩ := hostWrite_link_stays taken run unfenced core lit (enabled.trans en) (same.trans plain) fun _ => allowed
    exact ⟨u, stored, value.trans (congrArg done (write.trans (by rw [asks]; exact lpWritten_request (by decide))))⟩

end

end

/-! The round-trip measurement -/

theorem pingCtrl_facts (port : PortIx) : plainReg (LNK_PING_CTRL port.val) = true ∧ (LNK_STATUS port.val).off ≠ (LNK_PING_CTRL port.val).off := by
  have table : ∀ p : Fin 24, plainReg (LNK_PING_CTRL p.val) = true := by decide +kernel
  refine ⟨table port, ?_⟩
  dsimp only [LNK_STATUS, LNK_PING_CTRL]
  omega

theorem pingStart_rows (port : PortIx) (v : Word) {s : State} (q : Quiet s) (taken : Taken s (LNK_PING_CTRL port.val)) (run : s.fatal = false) :
    ∃ u, RegsOnly s u ∧ RegsKept [(LNK_PING_CTRL port.val).off] s u ∧
      (s.lst port.val = lkActive → Ends (.pingStart port v) s (u.sendCtl port.val 0xB (leBytes 1 1))) ∧
      (s.lst port.val ≠ lkActive → exec (.pingStart port v) s = .next u) := by
  obtain ⟨row, hr, write⟩ := s.hostWrite_LNK_PING_CTRL port (setBit v 0) taken
  obtain ⟨plain, apart⟩ := pingCtrl_facts port
  rw [s.stored_plain (LNK_PING_CTRL port.val) row [port.val] (setBit v 0) plain hr, bit_setBit_same v 0 (by decide), run] at write
  generalize keptValue row (s.getR (LNK_PING_CTRL port.val)) (setBit v 0).toNat = x at write
  have state : (s.setR (LNK_PING_CTRL port.val) x).lst port.val = s.lst port.val := State.get_setR_ne _ _ _ _ apart
  refine ⟨s.setR (LNK_PING_CTRL port.val) x, RegsOnly.setR (RegsOnly.refl s) _ _, fun r out => State.getR_setR_ne _ _ _ _ (List.ne_of_not_mem_cons out),
    fun active => congrArg done (write.trans (if_pos (state.trans active))), fun other => ?_⟩
  refine (congrArg done (write.trans (if_neg fun is => other (state.symm.trans is)))).trans (done_same q rfl rfl)

end Sys2Proof.Machine
end

section
/-! The timers of a port: its shutdown, low power, staged power-up, and its hold before routing (R194 to R196, R198, R220, R385). -/

namespace Sys2Proof.Machine

open Sys2Proof

section
variable {port : PortIx} {s : State} (q : Quiet s) (run : s.fatal = false)
include run

/-! Shutdown -/

theorem portShutdownDone_drained (draining : s.lst port.val = lkShutdown) :
    let p := port.val
    let d := if (s.port p).drained then s else s.passTo ((s.port p).stepAt + 1650 * 100)
    let k := d.pass (((d.outSt p).slotDue - d.tu) / 160)
    let u := (k.putInSlot p 0xA (leBytes 1 6)).portOff p
    (k.flag (LNK_CTRL_ENABLE_PENDING p) = false → Ends (.portShutdownDone port) s u) ∧
    (k.flag (LNK_CTRL_ENABLE_PENDING p) = true → Ends (.portShutdownDone port) s (u.powerPort p)) := by
  intro p d k u
  have ends : exec (.portShutdownDone port) s = done (if k.flag (LNK_CTRL_ENABLE_PENDING p) then u.powerPort p else u) :=
    if_neg (by rw [run, draining]; decide)
  exact ⟨fun idle => ends.trans (congrArg done (if_neg (ne_true_of_eq_false idle))), fun pending => ends.trans (congrArg done (if_pos pending))⟩

include q in
omit run in
theorem portShutdownDone_other (other : s.lst port.val ≠ lkShutdown) : exec (.portShutdownDone port) s = .next s :=
  (if_pos (Bool.or_eq_true_iff.mpr (.inr (bne_iff_ne.mpr other)))).trans (done_quiet q)

/-! Low power -/

theorem lp1AutoIdle_row (active : s.lst port.val = lkActive) (auto : s.flag (LNK_CTRL_LP1_AUTO port.val) = true) :
    Ends (.lp1AutoIdle port) s ((s.passTo ((s.port port.val).idleSince + 1650 * max 1 (s.get (LNK_LP_CFG_IDLE port.val)))).modPort port.val
      fun q => { q with autoDue := true }) :=
  if_neg (by rw [run, active, auto]; decide)

include q in
theorem squelchWake_wakes (asleep : s.lst port.val = lkLp2) (still : (s.port port.val).waking = none) (unlocked : (s.port port.val).relocked = false) :
    exec (.squelchWake port) s = .next (s.modPort port.val fun q => { q with waking := some s.now }) :=
  (if_neg (by rw [run, asleep, still, unlocked]; decide)).trans (done_same q rfl rfl)

include q in
omit run in
theorem squelchWake_awake (waking : (s.port port.val).waking.isSome = true) : exec (.squelchWake port) s = .next s := by
  refine (if_pos ?_).trans (done_quiet q)
  rw [waking, Bool.or_true]
  rfl

theorem lp2ExitDone_relocks {t : Nat} (waking : (s.port port.val).waking = some t) :
    Ends (.lp2ExitDone port) s ((s.passTo (t + 1650 * 12)).relock port.val) := by
  refine (if_neg (ne_true_of_eq_false run)).trans ?_
  rw [waking]
  rfl

theorem lp2ExitDone_active (asleep : s.lst port.val = lkLp2) (still : (s.port port.val).waking = none) (relocked : (s.port port.val).relocked = true)
    (aligned : (s.port port.val).goodMarkers ≥ 1) (sent : (s.port port.val).credSent = true) (seen : (s.port port.val).credSeen = true) :
    Ends (.lp2ExitDone port) s ((s.goPort port.val lkActive).modPort port.val fun q => { q with relocked := false }) := by
  refine (if_neg (ne_true_of_eq_false run)).trans ?_
  rw [still]
  refine congrArg done ?_
  unfold State.initDone
  dsimp only
  rw [sent, seen, asleep, relocked]
  exact (if_neg (by decide)).trans ((if_neg (by decide)).trans (if_pos ⟨rfl, rfl, aligned⟩))

/-! Staged power-up -/

theorem portPowerTurn_row (waits : (s.port port.val).waitPower = true) (first : ∀ i < port.val, (s.port i).waitPower = false) (few : s.recentPower < 4) :
    Ends (.portPowerTurn port) s (s.powerPort port.val) := by
  have ahead : ((List.range port.val).any fun i => (s.port i).waitPower) = false :=
    List.any_eq_false.mpr fun i hi => ne_true_of_eq_false (first i (List.mem_range.mp hi))
  have turn : execPortPowerTurn port s = done ((if (((List.range 24).filter fun i => (s.port i).powered &&
      decide (s.now - (s.port i).powerAt < fclk 100)).map fun i => (s.port i).powerAt).length ≥ 4 then _ else s).powerPort port.val) :=
    if_neg (by rw [run, waits, ahead]; decide)
  refine turn.trans (congrArg (fun u => done (State.powerPort u port.val)) (if_neg ?_))
  rw [List.length_map]
  exact Nat.not_le.mpr few

include q in
omit run in
theorem portPowerTurn_idle (served : (s.port port.val).waitPower = false) : exec (.portPowerTurn port) s = .next s := by
  refine (if_pos ?_).trans (done_quiet q)
  rw [served, Bool.not_false, Bool.or_true]
  rfl

/-! The hold before routing -/

theorem portUpHoldExpiry_rows {t : Nat} (since : (s.port port.val).upAt = some t) :
    let p := port.val
    let u := s.passTo (t + 1650 * max 1 (s.get RTE_UP_HOLD_HOLD))
    let k := u.modPort p fun q => { q with upAt := none }
    (u.flag RTE_CFG_UP_AUTO = true → Ends (.portUpHoldExpiry port) s (k.setR RTE_PORT_UP (putBits (k.getR RTE_PORT_UP) p 1 1))) ∧
    (u.flag RTE_CFG_UP_AUTO = false → Ends (.portUpHoldExpiry port) s u) := by
  intro p u k
  have ends : exec (.portUpHoldExpiry port) s = done (if u.flag RTE_CFG_UP_AUTO then u.portHeld p else u) := by
    change execPortUpHoldExpiry port s = _
    unfold execPortUpHoldExpiry
    dsimp only
    rw [since]
    exact if_neg (ne_true_of_eq_false run)
  exact ⟨fun auto => ends.trans (congrArg done (if_pos auto)), fun manual => ends.trans (congrArg done (if_neg (ne_true_of_eq_false manual)))⟩

end

/-- The end of the exit from LP2, for the port's state once time has passed (R194). -/
theorem relock_rows (d : State) (p : Nat) :
    let u := (d.widthLanes p).foldl (fun s l => s.set (LANE_STATUS_LOCK l) 1) d
    let u := u.modPort p fun q => { q with waking := none }
    let k := (List.range 32).foldl (fun s v => s.setR (LNK_CRED p v) 0) u
    let k := k.modPort p fun q => { q with relocked := true, credNew := [], credSent := false, credSeen := false, goodMarkers := 0 }
    (u.lst p = lkLp2 → d.relock p = ((k.initCredits p).sendMarker p).2) ∧ (u.lst p ≠ lkLp2 → d.relock p = (u.sendMarker p).2) := by
  intro u₀ u k₀ k
  exact ⟨fun asleep => if_neg (not_not_intro asleep), fun draining => if_pos draining⟩

/-- Settles O40. -/
theorem linkControl : Obligations.LinkControl := by
  refine ⟨fun _ _ _ _ taken run plain light => linkEnable_rows taken run plain light,
    fun _ _ _ _ taken run en light unfenced core lit => linkRetrain_rows taken run unfenced core lit en light,
    fun _ _ _ _ taken run en deep unfenced core lit plain => linkDeep_rows taken run unfenced core lit en deep plain,
    fun port v _ q taken run => pingStart_rows port v q taken run, fun port s q run => ?_⟩
  refine ⟨portShutdownDone_drained run, portShutdownDone_other q, lp1AutoIdle_row run, squelchWake_wakes q run, fun _ => squelchWake_awake q, fun t _ waking => ?_,
    lp2ExitDone_active run, portPowerTurn_row run, portPowerTurn_idle q, fun _ since => portUpHoldExpiry_rows run since⟩
  have relocks := lp2ExitDone_relocks run waking
  obtain ⟨asleep, draining⟩ := relock_rows (s.passTo (t + 1650 * 12)) port.val
  exact ⟨fun is => asleep is ▸ relocks, fun other => draining other ▸ relocks⟩

end Sys2Proof.Machine
end

section
/-! Training: frames on a lane, and what a lane's lock and figure of merit mean (R163 to R166, R173 to R178, R197). -/

namespace Sys2Proof.Machine

open Sys2Proof

/-! Training frames -/

section
variable {lane : LaneIx} {bytes : List Byte} {s : State} (q : Quiet s) (run : s.fatal = false)

/-- In DETECT and CONFIG the frames of a lane count. -/
theorem framesCount {p : Nat} (run : s.fatal = false) (h : s.lst p = lkDetect ∨ s.lst p = lkConfig) :
    ¬(s.fatal || !(s.lst p == lkDetect || s.lst p == lkConfig)) = true := by
  rw [run]
  rcases h with h | h
  · rw [h]
    decide
  · rw [h]
    decide

/-- What a frame shows of its lane: the polarity of its sync and the figure of merit. -/
def State.seenLane (s : State) (l : Nat) (inverted : Bool) (fom : Nat) : State :=
  (s.set (LANE_STATUS_POL_INV l) (b2n inverted)).set (LANE_STATUS_FOM l) (min 255 fom)

include run

theorem identFrame_bad {inverted : Bool} {fom : Nat} (h : s.lst (lane.val / 8) = lkDetect ∨ s.lst (lane.val / 8) = lkConfig) (bad : frameGood bytes 1 = false) :
    Ends (.identFrame lane bytes inverted fom) s ((s.seenLane lane.val inverted fom).modLane lane.val fun x => { x with goodFrames := 0 }) :=
  (if_neg (framesCount run h)).trans (if_pos (by rw [bad]; rfl))

theorem identFrame_good {inverted : Bool} {fom : Nat} (h : s.lst (lane.val / 8) = lkDetect ∨ s.lst (lane.val / 8) = lkConfig) (good : frameGood bytes 1 = true) :
    let p := lane.val / 8
    let seen := s.seenLane lane.val inverted fom
    let taken := ((seen.takeFrame lane.val bytes).takeIdent p bytes).detectDone p
    let agreed := taken.agree p (taken.lane lane.val).goodFrames
    agreed.laneMask p = seen.laneMask p → Ends (.identFrame lane bytes inverted fom) s (agreed.bothReady p) := by
  intro p seen taken agreed same
  refine (if_neg (framesCount run h)).trans ((if_neg (by rw [good]; exact Bool.false_ne_true)).trans ?_)
  exact congrArg (fun u => done (State.bothReady u p)) (if_neg fun changed => changed.1 same)

theorem readyFrame_good (h : s.lst (lane.val / 8) = lkDetect ∨ s.lst (lane.val / 8) = lkConfig) (good : frameGood bytes 2 = true) :
    let p := lane.val / 8
    let u := (s.takeFrame lane.val bytes).detectDone p
    exec (.readyFrame lane bytes) s = if u.lst p ≠ lkConfig then done u
      else done (((u.agree p (u.lane lane.val).goodFrames).modPort p fun q => { q with peerReady := true }).bothReady p) :=
  (if_neg (framesCount run h)).trans ((if_neg (by rw [good]; exact Bool.false_ne_true)).trans rfl)

omit run in
/-- The taps of a lane after a request, as the partner's frame asks for them. -/
def State.steered (s : State) (t req : Nat) : State :=
  (s.set (LANE_TXEQ_PRE t) (txStep (s.get (LANE_TXEQ_PRE t)) (bits req 0 2) 16).1).set (LANE_TXEQ_POST t)
    (txStep (s.get (LANE_TXEQ_POST t)) (bits req 2 2) 24).1

omit run in
/-- The answer to an equalization frame. -/
def State.eqAnswer (k : State) (l t code : Nat) (atPre atPost : Bool) : State :=
  k.sendFrame t (k.frame t 3 code (b2n atPre + 4 * b2n atPost + 16 * b2n (k.converged l)))

omit run in
theorem State.draw_free (s : State) : s.draw.2 = { s with free := s.draw.2.free } := rfl

omit run in
theorem State.eqAnswer_free (u : State) (n l t code : Nat) (atPre atPost : Bool) : { u with free := n }.eqAnswer l t code atPre atPost =
    { u with free := n }.sendFrame t ({ u with free := n }.frame t 3 code (b2n atPre + 4 * b2n atPost + 16 * b2n (decide ((u.lane l).flat ≥ 8)))) := rfl

theorem eqFrame_row {fom : Nat} (h : s.lst (lane.val / 8) = lkEq) (good : frameGood bytes 3 = true) :
    let t := 8 * (lane.val / 8) + s.get (LANE_STATUS_LOGICAL lane.val)
    let req := field bytes 20 1
    let u := (s.steered t req).iterate lane.val fom
    exec (.eqFrame lane bytes fom) s = done (u.draw.2.eqAnswer lane.val t (u.draw.1 % 3 + 4 * (u.draw.1 / 3 % 3))
      (txStep (s.get (LANE_TXEQ_PRE t)) (bits req 0 2) 16).2 (txStep (s.get (LANE_TXEQ_POST t)) (bits req 2 2) 24).2) := by
  intro t req u
  change execEqFrame lane bytes fom s = _
  unfold execEqFrame
  dsimp only
  rw [if_neg (by rw [run, h, good]; decide)]
  rfl

theorem eqFrame_steers {fom : Nat} (h : s.lst (lane.val / 8) = lkEq) (good : frameGood bytes 3 = true) :
    let l := lane.val
    let p := l / 8
    let t := 8 * p + s.get (LANE_STATUS_LOGICAL l)
    let req := field bytes 20 1
    let pre := txStep (s.get (LANE_TXEQ_PRE t)) (bits req 0 2) 16
    let post := txStep (s.get (LANE_TXEQ_POST t)) (bits req 2 2) 24
    let u := ((s.set (LANE_TXEQ_PRE t) pre.1).set (LANE_TXEQ_POST t) post.1).set (LANE_STATUS_FOM l) (min 255 fom)
    let u := u.modLane l fun x => if u.get (LANE_STATUS_FOM l) > x.bestFom then { x with bestFom := u.get (LANE_STATUS_FOM l), flat := 0 }
      else { x with flat := x.flat + 1 }
    ∃ code n, let k := { u with free := n }
      Ends (.eqFrame lane bytes fom) s (k.sendFrame t (k.frame t 3 code (b2n pre.2 + 4 * b2n post.2 + 16 * b2n (decide ((u.lane l).flat ≥ 8))))) := by
  intro l p t req pre post _ u
  have iterated : (s.steered t req).iterate l fom = u := rfl
  have row := eqFrame_row (fom := fom) run h good
  dsimp only at row
  rw [State.draw_free, iterated] at row
  generalize u = u at row
  exact ⟨u.draw.1 % 3 + 4 * (u.draw.1 / 3 % 3), u.draw.2.free, row.trans (congrArg done (State.eqAnswer_free u _ l t _ pre.2 post.2))⟩

theorem loopReqFrame_row (good : frameGood bytes 4 = true) :
    let p := lane.val / 8
    exec (.loopReqFrame lane bytes) s = if s.lst p = lkEq ∧ (s.port p).loopAsked = true then done (s.enterLoop p)
      else if (s.lst p = lkEq ∨ s.lst p = lkDeskew) ∧ s.flag (LNK_CTRL_FAR_ALLOW p) = true then
        done (((s.enterLoop p).modPort p fun q => { q with farLoop := true }).sendFrame lane bytes)
      else if s.lst p = lkLoopback ∧ (s.port p).farLoop = true then done (s.sendFrame lane bytes)
      else done s :=
  (if_neg (by rw [run, good]; decide)).trans rfl

include q in
theorem loopReqFrame_rows (good : frameGood bytes 4 = true) :
    let p := lane.val / 8
    (s.lst p = lkEq → (s.port p).loopAsked = true → Ends (.loopReqFrame lane bytes) s (s.enterLoop p)) ∧
    ((s.lst p = lkEq ∨ s.lst p = lkDeskew) → (s.port p).loopAsked = false → s.flag (LNK_CTRL_FAR_ALLOW p) = true →
      Ends (.loopReqFrame lane bytes) s (((s.enterLoop p).modPort p fun q => { q with farLoop := true }).sendFrame lane bytes)) ∧
    ((s.lst p = lkEq ∨ s.lst p = lkDeskew) → (s.port p).loopAsked = false → s.flag (LNK_CTRL_FAR_ALLOW p) = false →
      exec (.loopReqFrame lane bytes) s = .next s) := by
  intro p
  have row := loopReqFrame_row (lane := lane) run good
  refine ⟨fun eq asked => row.trans (if_pos ⟨eq, asked⟩), fun state fresh allowed => ?_, fun state fresh barred => ?_⟩
  · exact row.trans ((if_neg fun h => ne_true_of_eq_false fresh h.2).trans (if_pos ⟨state, allowed⟩))
  · have apart : s.lst p ≠ lkLoopback := fun loop => by rcases state with h | h <;> exact absurd (h.symm.trans loop) (by decide)
    exact (row.trans ((if_neg fun h => ne_true_of_eq_false fresh h.2).trans ((if_neg fun h => ne_true_of_eq_false barred h.2).trans
      (if_neg fun h => apart h.1)))).trans (done_quiet q)

theorem narrowFrame_rows (good : frameGood bytes 5 = true) (active : s.lst (lane.val / 8) = lkActive) :
    let p := lane.val / 8
    let upper := decide (s.get (LANE_STATUS_LOGICAL lane.val) ≥ 4)
    ((s.mayNarrow p && s.halfGood p (4 * b2n upper)) = true → Ends (.narrowFrame lane bytes) s ((s.narrow p upper).sendMarker p).2) ∧
    ((s.mayNarrow p && s.halfGood p (4 * b2n upper)) = false → Ends (.narrowFrame lane bytes) s (s.failPort p 0xA)) := by
  intro p upper
  have row : exec (.narrowFrame lane bytes) s = if (s.mayNarrow p && s.halfGood p (4 * b2n upper)) = true then done ((s.narrow p upper).sendMarker p).2
      else done (s.failPort p 0xA) :=
    (if_neg (by rw [run, good]; decide)).trans (if_pos active)
  exact ⟨fun may => row.trans (if_pos may), fun mayNot => row.trans (if_neg (ne_true_of_eq_false mayNot))⟩

include q in
omit run in
theorem eqFrame_other {fom : Nat} (other : s.lst (lane.val / 8) ≠ lkEq) : exec (.eqFrame lane bytes fom) s = .next s := by
  refine (if_pos ?_).trans (done_quiet q)
  rw [bne_iff_ne.mpr other, Bool.or_true]
  rfl

include q in
omit run in
theorem frames_other {inverted : Bool} {fom : Nat} (other : s.lst (lane.val / 8) ∉ [lkDetect, lkConfig]) :
    exec (.identFrame lane bytes inverted fom) s = .next s ∧ exec (.readyFrame lane bytes) s = .next s := by
  simp only [List.mem_cons, List.not_mem_nil, or_false, not_or] at other
  have stop : (s.fatal || !(s.lst (lane.val / 8) == lkDetect || s.lst (lane.val / 8) == lkConfig)) = true := by
    rw [beq_eq_false_iff_ne.mpr other.1, beq_eq_false_iff_ne.mpr other.2]
    exact Bool.or_true _
  exact ⟨(if_pos stop).trans (done_quiet q), (if_pos stop).trans (done_quiet q)⟩

end

/-! Locks and figures of merit -/

/-- The registers of a port's lanes lie above those of the ports. -/
theorem laneStatus_above (l : Nat) (lane : LaneIx) : (LNK_STATUS (lane.val / 8)).off ≠ (LANE_STATUS l).off ∧
    (LNK_FOM_MIN (lane.val / 8)).off ≠ (LANE_STATUS l).off := by
  have small : lane.val < 192 := lane.isLt
  dsimp only [LNK_STATUS, LNK_FOM_MIN, LANE_STATUS]
  omega

section
variable {lane : LaneIx} {s : State} (q : Quiet s) (run : s.fatal = false)

include q in
theorem laneLock_dead (dead : s.lst (lane.val / 8) ∈ [lkOff, lkFailed, lkFenced]) : exec (.laneLock lane) s = .next s := by
  refine (if_pos ?_).trans (done_quiet q)
  simp only [List.mem_cons, List.not_mem_nil, or_false] at dead
  rcases dead with h | h | h
  · rw [h]
    simp
  · rw [h]
    simp
  · rw [h]
    simp

include q in
theorem laneLock_asleep (asleep : s.lst (lane.val / 8) = lkLp2) (still : (s.port (lane.val / 8)).waking = none) : exec (.laneLock lane) s = .next s := by
  refine (if_pos ?_).trans (done_quiet q)
  rw [asleep, still]
  simp

include run in
theorem laneLock_locks (other : s.lst (lane.val / 8) ∉ [lkOff, lkLp2, lkFailed, lkFenced, lkDetect, lkSpeed]) :
    Ends (.laneLock lane) s (s.set (LANE_STATUS_LOCK lane.val) 1) := by
  simp only [List.mem_cons, List.not_mem_nil, or_false, not_or] at other
  obtain ⟨off, lp2, failed, fenced, detect, speed⟩ := other
  have state : (s.set (LANE_STATUS_LOCK lane.val) 1).lst (lane.val / 8) = s.lst (lane.val / 8) := State.get_set_ne _ _ _ _ (laneStatus_above _ lane).1
  have stays : (s.set (LANE_STATUS_LOCK lane.val) 1).detectDone (lane.val / 8) = s.set (LANE_STATUS_LOCK lane.val) 1 :=
    if_neg fun h => detect (state.symm.trans h.1)
  refine (if_neg ?_).trans ?_
  · rw [run, beq_eq_false_iff_ne.mpr off, beq_eq_false_iff_ne.mpr lp2, beq_eq_false_iff_ne.mpr failed, beq_eq_false_iff_ne.mpr fenced]
    simp
  · rw [stays]
    exact if_neg fun h => speed (state.symm.trans h.1)

/-- A lane has lost its lock. -/
def State.lockLost (s : State) (l : Nat) : State := (s.set (LANE_STATUS_LOCK l) 0).modLane l fun x => { x with goodFrames := 0 }

include run in
theorem laneLockLoss_active (active : s.lst (lane.val / 8) = lkActive) (idle : Bool) :
    let p := lane.val / 8
    let u := (if idle then portLanes p else [lane.val]).foldl State.lockLost s
    exec (.laneLockLoss lane idle) s = if idle then done (if bit (s.pmap p 6 2) 0 then u else u.failPort p 9)
      else done (if s.flag (LANE_STATUS_ACTIVE lane.val) then u.laneFault lane.val else u) := by
  intro p u
  have inService : (s.lst p == lkLp1) = false := by
    rw [show s.lst p = lkActive from active]
    rfl
  change execLaneLockLoss lane idle s = _
  unfold execLaneLockLoss
  dsimp only
  rw [run, show s.lst (lane.val / 8) = s.lst p from rfl, inService, Bool.false_and, Bool.or_false, if_neg Bool.false_ne_true,
    if_neg fun h => absurd (h.1.symm.trans active) (by decide), Bool.or_false, show (s.lst p == lkActive) = true from beq_iff_eq.mpr active, Bool.and_true]
  exact if_neg Bool.false_ne_true

include run in
theorem laneLockLoss_rows (active : s.lst (lane.val / 8) = lkActive) (idle : Bool) :
    let l := lane.val
    let p := l / 8
    (idle = false → s.flag (LANE_STATUS_ACTIVE l) = true → Ends (.laneLockLoss lane idle) s ((s.lockLost l).laneFault l)) ∧
    (idle = false → s.flag (LANE_STATUS_ACTIVE l) = false → Ends (.laneLockLoss lane idle) s (s.lockLost l)) ∧
    (idle = true → bit (s.pmap p 6 2) 0 = false → Ends (.laneLockLoss lane idle) s (((portLanes p).foldl State.lockLost s).failPort p 9)) ∧
    (idle = true → bit (s.pmap p 6 2) 0 = true → Ends (.laneLockLoss lane idle) s ((portLanes p).foldl State.lockLost s)) := by
  intro l p
  have row := laneLockLoss_active run active idle
  refine ⟨?_, ?_, ?_, ?_⟩
  · rintro rfl carries
    exact row.trans (congrArg done (if_pos carries))
  · rintro rfl bare
    exact row.trans (congrArg done (if_neg (ne_true_of_eq_false bare)))
  · rintro rfl electric
    exact row.trans (congrArg done (if_neg (ne_true_of_eq_false electric)))
  · rintro rfl optical
    exact row.trans (congrArg done (if_pos optical))

include q in
theorem laneLockLoss_spare (lp1 : s.lst (lane.val / 8) = lkLp1) (spare : lane.val ∉ s.rxLanes (lane.val / 8)) (idle : Bool) :
    exec (.laneLockLoss lane idle) s = .next s := by
  refine (if_pos ?_).trans (done_quiet q)
  rw [lp1]
  simp [spare]

include run in
theorem fomMeasure_row (fom : Nat) (active : s.lst (lane.val / 8) = lkActive) (carries : s.flag (LANE_STATUS_ACTIVE lane.val) = true) :
    let l := lane.val
    let n := if min 255 fom < s.get (LNK_FOM_MIN_FOM (l / 8)) then (s.lane l).lowFom + 1 else 0
    let u := (s.set (LANE_STATUS_FOM l) (min 255 fom)).modLane l fun x => { x with lowFom := n }
    exec (.fomMeasure lane fom) s = done (if n ≥ 3 && !s.flag (LANE_STATUS_FAULT l) then u.laneFault l else u) := by
  intro l n u
  have measured : (s.setFom l fom).get (LANE_STATUS_FOM l) = min 255 fom :=
    (State.get_set_same _ _ _ (by dsimp only [LANE_STATUS_FOM]; decide)).trans (Nat.mod_eq_of_lt (Nat.lt_succ_of_le (Nat.min_le_left 255 fom)))
  have limit : (s.setFom l fom).get (LNK_FOM_MIN_FOM (l / 8)) = s.get (LNK_FOM_MIN_FOM (l / 8)) :=
    State.get_set_ne _ _ _ _ (laneStatus_above _ lane).2
  have fault : (s.setFom l fom).flag (LANE_STATUS_FAULT l) = s.flag (LANE_STATUS_FAULT l) := by
    exact congrArg (· != 0) (State.get_set_apart s (LANE_STATUS_FOM l) (LANE_STATUS_FAULT l) (min 255 fom) rfl
      (by dsimp only [LANE_STATUS_FOM]; decide) (.inl (by dsimp only [LANE_STATUS_FOM, LANE_STATUS_FAULT]; decide)))
  change execFomMeasure lane fom s = _
  unfold execFomMeasure
  dsimp only
  rw [if_neg (by rw [run, active, carries]; decide), measured, limit]
  exact congrArg (fun b => done (if n ≥ 3 && !b then u.laneFault l else u)) fault

include run in
theorem fomMeasure_rows (fom : Nat) (active : s.lst (lane.val / 8) = lkActive) (carries : s.flag (LANE_STATUS_ACTIVE lane.val) = true) :
    let l := lane.val
    let p := l / 8
    let u := s.set (LANE_STATUS_FOM l) (min 255 fom)
    (s.get (LNK_FOM_MIN_FOM p) ≤ min 255 fom → Ends (.fomMeasure lane fom) s (u.modLane l fun x => { x with lowFom := 0 })) ∧
    (min 255 fom < s.get (LNK_FOM_MIN_FOM p) → (s.lane l).lowFom + 1 < 3 →
      Ends (.fomMeasure lane fom) s (u.modLane l fun x => { x with lowFom := (s.lane l).lowFom + 1 })) ∧
    (min 255 fom < s.get (LNK_FOM_MIN_FOM p) → 3 ≤ (s.lane l).lowFom + 1 → s.flag (LANE_STATUS_FAULT l) = false →
      Ends (.fomMeasure lane fom) s ((u.modLane l fun x => { x with lowFom := (s.lane l).lowFom + 1 }).laneFault l)) := by
  intro l p u
  have row := fomMeasure_row run fom active carries
  dsimp only at row
  refine ⟨fun enough => ?_, fun low few => ?_, fun low third fresh => ?_⟩
  · rw [if_neg (Nat.not_lt.mpr enough)] at row
    exact row
  · rw [if_pos low] at row
    exact row.trans (congrArg done (if_neg (by simp only [Bool.and_eq_true, decide_eq_true_eq]; exact fun h => absurd h.1 (Nat.not_le.mpr few))))
  · rw [if_pos low] at row
    exact row.trans (congrArg done (if_pos (by rw [fresh, decide_eq_true third]; rfl)))

end

end Sys2Proof.Machine
end

section
/-! Training: the end of adaptation, marker blocks and the time limits of a port (R165, R170 to R173, R177, R197). -/

namespace Sys2Proof.Machine

open Sys2Proof

/-- Two folds of steps that agree on the elements of the list. -/
theorem foldl_congr_mem {α β : Type} {f g : β → α → β} (l : List α) (b : β) (same : ∀ b, ∀ a ∈ l, f b a = g b a) : l.foldl f b = l.foldl g b := by
  induction l generalizing b with
  | nil => rfl
  | cons a l ih =>
    obtain ⟨here, rest⟩ := forall_and.mp fun b => List.forall_mem_cons.mp (same b)
    rw [List.foldl_cons, List.foldl_cons, here, ih _ rest]

section
variable {port : PortIx} {lanes : List (List Byte)} {skews : List Nat} {s : State} (q : Quiet s) (run : s.fatal = false)

/-! The end of adaptation -/

theorem adapted_iff {p : Nat} : s.adapted p = true ↔ ∀ l ∈ s.widthLanes p, 8 ≤ (s.lane l).flat := by
  simp only [State.adapted, State.converged, List.all_eq_true, decide_eq_true_eq, ge_iff_le]

theorem fomLow_iff {p : Nat} : s.fomLow p = true ↔ ∃ l ∈ s.widthLanes p, s.get (LANE_STATUS_FOM l) < s.get (LNK_FOM_MIN_FOM p) := by
  simp only [State.fomLow, List.any_eq_true, decide_eq_true_eq]

include run in
theorem eqAdaptEnd_rows (h : s.lst port.val = lkEq) (fresh : (s.port port.val).loopAsked = false) :
    let p := port.val
    let u := if ∀ l ∈ s.widthLanes p, 8 ≤ (s.lane l).flat then s else s.passTo ((s.port p).stepAt + 1650 * 16000)
    ((∃ l ∈ u.widthLanes p, u.get (LANE_STATUS_FOM l) < u.get (LNK_FOM_MIN_FOM p)) → Ends (.eqAdaptEnd port) s (u.failPort p 5)) ∧
    ((∀ l ∈ u.widthLanes p, u.get (LNK_FOM_MIN_FOM p) ≤ u.get (LANE_STATUS_FOM l)) →
      (u.get (LNK_CTRL_LOOP p) ≠ 3 → Ends (.eqAdaptEnd port) s ((u.goPort p lkDeskew).sendMarker p).2) ∧
      (u.get (LNK_CTRL_LOOP p) = 3 → Ends (.eqAdaptEnd port) s ((u.modPort p fun q => { q with loopAsked := true }).sendFrames (u.txLanes p) 4))) := by
  intro p u
  have row : exec (.eqAdaptEnd port) s = done (u.endAdapt p) :=
    (if_neg (by rw [run, h, fresh]; decide)).trans (congrArg (fun k : State => done (k.endAdapt p)) (ite_congr (propext adapted_iff) (fun _ => rfl) fun _ => rfl))
  generalize u = k at row
  refine ⟨fun low => row.trans (congrArg done (if_pos (fomLow_iff.mpr low))), fun enough => ?_⟩
  have high : k.fomLow p ≠ true := fun low => by
    obtain ⟨l, member, less⟩ := fomLow_iff.mp low
    exact absurd (enough l member) (Nat.not_le.mpr less)
  exact ⟨fun near => row.trans (congrArg done ((if_neg high).trans (if_neg near))), fun far => row.trans (congrArg done ((if_neg high).trans (if_pos far)))⟩

/-! Marker blocks -/

theorem markerBlock_idle (state : s.lst port.val ∈ [lkOff, lkDetect, lkConfig, lkSpeed, lkEq, lkFailed, lkFenced]) (q : Quiet s) :
    exec (.markerBlock port lanes skews) s = .next s := by
  have dead : ∀ st ∈ [lkOff, lkDetect, lkConfig, lkSpeed, lkEq, lkFailed, lkFenced], ∀ b : Bool,
      (!(decide (lkDeskew ≤ st) && decide (st ≤ lkLp1) || st == lkShutdown || st == lkLoopback || st == lkLp2 && b)) = true := by decide
  exact (if_pos (Bool.or_eq_true_iff.mpr (.inr (dead _ state _)))).trans (done_quiet q)

/-- A good marker is there. -/
theorem ne_nil_of_markerHolds {bs : List Byte} (h : markerHolds bs = true) : bs ≠ [] := by
  rintro rfl
  exact absurd h (by decide)

theorem widthLanes_of_regs {t : State} (h : t.regs = s.regs) (p : Nat) : t.widthLanes p = s.widthLanes p := by
  unfold State.widthLanes State.flag State.get State.getR
  rw [h]

theorem modLanes_regs (f : State → Nat → Lane → Lane) (ls : List Nat) (s : State) : (ls.foldl (fun s l => s.modLane l (f s l)) s).regs = s.regs :=
  foldl_regs (f := fun s l => s.modLane l (f s l)) (fun _ _ => rfl) ls s

/-- The descramblers of a marker block take its number, and no register changes. -/
theorem seedRx_regs (p : Nat) (ls : List Nat) (seqs : List (Option Nat)) : (s.seedRx p ls seqs).regs = s.regs := by
  unfold State.seedRx
  dsimp only
  rw [State.modPort_regs]
  exact modLanes_regs (fun s l x => { x with rx := Coder.seeded _ (s.get (LANE_STATUS_LOGICAL l)) _ }) ls s

theorem alignBlock_good {p : Nat} {ls : List Nat} {m : Nat} {sk : List Nat} (all : ls = s.widthLanes p) (some_ : ls ≠ []) :
    s.alignBlock p ls (ls.map fun _ => some m) sk =
      let first := sk.foldl min (sk.headD 0)
      let u := (ls.zip sk).foldl (fun s x => s.set (LANE_STATUS_SKEW x.1) (min 255 ((x.2 - first) / 4))) s
      if sk.any fun x => decide (x - first > 64 * 2 ^ u.get (LNK_STATUS_SPEED p)) then u.failPort p 6 else u.aligned p := by
  refine if_neg ?_
  rintro (short | missing | differ)
  · rw [all] at short
    exact Nat.lt_irrefl _ short
  · simp at missing
  · cases ls with
    | nil => exact some_ rfl
    | cons l ls => simp at differ

/-- Skews are written beside the states of the ports. -/
theorem skews_lst (port : PortIx) (xs : List (Nat × Nat)) (skew : Nat × Nat → Nat) :
    (xs.foldl (fun s x => s.set (LANE_STATUS_SKEW x.1) (skew x)) s).lst port.val = s.lst port.val := by
  have apart (l : Nat) : (LNK_STATUS port.val).off ≠ (LANE_STATUS l).off := by
    have small : port.val < 24 := port.isLt
    dsimp only [LNK_STATUS, LANE_STATUS]
    omega
  induction xs generalizing s with
  | nil => rfl
  | cons x xs ih => exact ih.trans (State.get_set_ne _ _ _ _ (apart x.1))

theorem aligned_deskew {p : Nat} (deskew : s.lst p = lkDeskew) :
    let k := s.modPort p fun q => { q with goodMarkers := q.goodMarkers + 1 }
    ((s.port p).goodMarkers = 0 → s.aligned p = (k.sendMarker p).2) ∧ ((s.port p).goodMarkers = 1 → s.aligned p = k.enterInit p) := by
  intro k
  have state : k.lst p = lkDeskew := (State.get_congr s k _ rfl).trans deskew
  have counted : (k.port p).goodMarkers = (s.port p).goodMarkers + 1 := congrArg Port.goodMarkers (State.port_modPort_same s p _)
  have awake : k.lst p ≠ lkLp2 := fun h => absurd (state.symm.trans h) (by decide)
  refine ⟨fun first => ?_, fun second => ?_⟩
  · exact (if_neg awake).trans (if_pos (by rw [counted, first]; decide))
  · exact (if_neg awake).trans ((if_neg (by rw [counted, second]; decide)).trans (if_pos state))

/-- The markers of a port in DESKEW, all of them good and of one number. -/
theorem markerBlock_deskew (run : s.fatal = false) (deskew : s.lst port.val = lkDeskew) (near : (s.port port.val).farLoop = false)
    (wide : (s.port port.val).onLane0 = false) :
    let p := port.val
    let ls := s.widthLanes p
    (∀ l ∈ ls, markerHolds (lanes.getD (l % 8) []) = true) → ∀ m,
    (∀ l ∈ ls, markerSeq (lanes.getD (l % 8) []) (s.get (LANE_STATUS_LOGICAL l)) = some m) →
    let u := (ls.foldl (fun s l => s.modLane l fun x => { x with badMarkers := 0 }) s).seedRx p ls (ls.map fun _ => some m)
    exec (.markerBlock port lanes skews) s = done (u.alignBlock p ls (ls.map fun _ => some m) (ls.map fun l => skews.getD (l % 8) 0)) := by
  intro p ls holds m seqs u
  have live : ¬(s.fatal || !(decide (lkDeskew ≤ s.lst p) && decide (s.lst p ≤ lkLp1) || s.lst p == lkShutdown || s.lst p == lkLoopback ||
      s.lst p == lkLp2 && (s.port p).relocked)) = true := by
    rw [run, show s.lst p = lkDeskew from deskew]
    exact Bool.false_ne_true
  have kept : ls.filter (fun l => decide (lanes.getD (l % 8) [] ≠ [])) = ls :=
    List.filter_eq_self.mpr fun l member => decide_eq_true (ne_nil_of_markerHolds (holds l member))
  have numbers : (ls.map fun l => markerSeq (lanes.getD (l % 8) []) (s.get (LANE_STATUS_LOGICAL l))) = ls.map fun _ => some m :=
    List.map_congr_left seqs
  have marks : ls.foldl (fun s l => s.laneMarker l (markerHolds (lanes.getD (l % 8) []))) s =
      ls.foldl (fun s l => s.modLane l fun x => { x with badMarkers := 0 }) s :=
    foldl_congr_mem _ _ fun k l member => if_pos (holds l member)
  have regs : u.regs = s.regs := (seedRx_regs _ _ _).trans (modLanes_regs (fun _ _ x => { x with badMarkers := 0 }) ls s)
  have state : u.lst p = s.lst p := State.get_congr s u _ regs
  change execMarkerBlock port lanes skews s = _
  unfold execMarkerBlock
  dsimp only
  rw [if_neg live, wide, if_neg Bool.false_ne_true, show s.widthLanes port.val = ls from rfl, kept, near, if_neg Bool.false_ne_true, marks, numbers]
  exact congrArg done (if_neg fun h => h.elim (fun moved => moved state) fun other => by rw [show s.lst port.val = lkDeskew from deskew] at other; exact absurd other (by decide))

theorem markerBlock_aligns (run : s.fatal = false) (deskew : s.lst port.val = lkDeskew) (near : (s.port port.val).farLoop = false)
    (wide : (s.port port.val).onLane0 = false) (some_ : s.widthLanes port.val ≠ []) :
    let p := port.val
    let ls := s.widthLanes p
    (∀ l ∈ ls, markerHolds (lanes.getD (l % 8) []) = true) → ∀ m,
    (∀ l ∈ ls, markerSeq (lanes.getD (l % 8) []) (s.get (LANE_STATUS_LOGICAL l)) = some m) →
    let sk := ls.map fun l => skews.getD (l % 8) 0
    let first := sk.foldl min (sk.headD 0)
    let u := (ls.foldl (fun s l => s.modLane l fun x => { x with badMarkers := 0 }) s).seedRx p ls (ls.map fun _ => some m)
    let u := (ls.zip sk).foldl (fun s x => s.set (LANE_STATUS_SKEW x.1) (min 255 ((x.2 - first) / 4))) u
    let limit := 64 * 2 ^ u.get (LNK_STATUS_SPEED p)
    ((∃ x ∈ sk, limit < x - first) → Ends (.markerBlock port lanes skews) s (u.failPort p 6)) ∧
    ((∀ x ∈ sk, x - first ≤ limit) →
      let k := u.modPort p fun q => { q with goodMarkers := q.goodMarkers + 1 }
      ((u.port p).goodMarkers = 0 → Ends (.markerBlock port lanes skews) s (k.sendMarker p).2) ∧
      ((u.port p).goodMarkers = 1 → Ends (.markerBlock port lanes skews) s (k.enterInit p))) := by
  intro p ls holds m seqs sk first k u limit
  have regs : k.regs = s.regs := (seedRx_regs _ _ _).trans (modLanes_regs (fun _ _ x => { x with badMarkers := 0 }) ls s)
  have state : u.lst p = lkDeskew := ((skews_lst port _ _).trans (State.get_congr s k _ regs)).trans deskew
  have row : exec (.markerBlock port lanes skews) s = done (if sk.any (fun x => decide (x - first > limit)) then u.failPort p 6 else u.aligned p) :=
    (markerBlock_deskew run deskew near wide holds m seqs).trans (congrArg done (alignBlock_good (widthLanes_of_regs regs p).symm some_))
  refine ⟨fun ⟨x, member, apart⟩ => ?_, fun close => ?_⟩
  · exact row.trans (congrArg done (if_pos (List.any_eq_true.mpr ⟨x, member, decide_eq_true apart⟩)))
  · have aligned : exec (.markerBlock port lanes skews) s = done (u.aligned p) := by
      refine row.trans (congrArg done (if_neg fun h => ?_))
      obtain ⟨x, member, apart⟩ := List.any_eq_true.mp h
      exact absurd (of_decide_eq_true apart) (Nat.not_lt.mpr (close x member))
    obtain ⟨once, twice⟩ := aligned_deskew state
    exact ⟨fun h => aligned.trans (congrArg done (once h)), fun h => aligned.trans (congrArg done (twice h))⟩

/-! Time limits -/

theorem trainingStepTimeout_fails (run : s.fatal = false) (us : Nat) (limit : stepLimit (s.lst port.val) = some us) :
    let p := port.val
    let u := s.passTo ((s.port p).stepAt + 1650 * us)
    Ends (.trainingStepTimeout port) s (u.failPort p (if u.lst p = lkRetrain then 0xA else if (u.port p).loopAsked then 0xC
      else if u.lst p = lkEq ∧ u.fomLow p = true then 5 else 1)) := by
  intro p u
  change execTrainingStepTimeout port s = _
  unfold execTrainingStepTimeout
  dsimp only
  rw [limit]
  exact if_neg (ne_true_of_eq_false run)

theorem trainingStepTimeout_other (q : Quiet s) (other : stepLimit (s.lst port.val) = none) : exec (.trainingStepTimeout port) s = .next s := by
  change execTrainingStepTimeout port s = _
  unfold execTrainingStepTimeout
  dsimp only
  rw [other]
  exact done_quiet q

theorem failedRetryTimer_retries (run : s.fatal = false) (failed : s.lst port.val = lkFailed) (partner : s.get (LNK_STATUS_FAIL_CODE port.val) ≠ 4)
    (en : s.flag (LNK_CTRL_EN port.val) = true) :
    Ends (.failedRetryTimer port) s ((s.passTo ((s.port port.val).stepAt + 1650 * 100000)).enterDetect port.val) :=
  if_neg (by rw [run, failed, en, beq_eq_false_iff_ne.mpr partner]; decide)

theorem failedRetryTimer_wrongPeer (q : Quiet s) (partner : s.get (LNK_STATUS_FAIL_CODE port.val) = 4) : exec (.failedRetryTimer port) s = .next s :=
  (if_pos (by rw [partner, beq_self_eq_true, Bool.or_true]; rfl)).trans (done_quiet q)

end

/-- Settles O41: frames, locks, marker blocks and time limits, each in its own states. -/
theorem linkTraining : Obligations.LinkTraining := by
  refine ⟨fun lane bytes inverted fom s q run => ?_, fun lane idle fom s q run => ?_, fun port lanes skews s q run => ?_⟩
  · refine ⟨identFrame_bad run, identFrame_good run, fun state good other => ?_, fun config state good => ?_, eqFrame_steers run,
      fun good => (loopReqFrame_rows q run good).1, fun good => (loopReqFrame_rows q run good).2.1, fun good => (loopReqFrame_rows q run good).2.2,
      narrowFrame_rows run, eqFrame_other q, frames_other q⟩
    · exact (readyFrame_good run (.inl state) good).trans (if_pos other)
    · exact (readyFrame_good run state good).trans (if_neg fun other => other config)
  · exact ⟨laneLock_dead q, laneLock_asleep q, laneLock_locks run, fun active => laneLockLoss_rows run active idle,
      fun lp1 spare => laneLockLoss_spare q lp1 spare idle, fomMeasure_rows run fom⟩
  · exact ⟨eqAdaptEnd_rows run, fun state => markerBlock_idle state q, markerBlock_aligns run, trainingStepTimeout_fails run,
      trainingStepTimeout_other q, failedRetryTimer_retries run, failedRetryTimer_wrongPeer q⟩

end Sys2Proof.Machine
end

section
/-! Flits: what a received flit does (R180 to R198, R245 to R247). -/

namespace Sys2Proof.Machine

open Sys2Proof

section
variable {port : PortIx} {rx : RxFlit} {s r : State} {bytes : List Byte} (q : Quiet s)

/-! What a flit gives the layers above -/

theorem rxFlit_off (want : Nat) (off : s.rxOn port.val = false) : s.rxFlit port.val rx want = (s, none) :=
  if_pos (by rw [off]; rfl)

section
variable (on : s.rxOn port.val = true)
include on

theorem rxFlit_loop (want : Nat) (loop : s.lst port.val = lkLoopback) : s.rxFlit port.val rx want = (s.rxLoop port.val rx, none) :=
  (if_neg (by rw [on]; exact Bool.false_ne_true)).trans (if_pos loop)

variable (apart : s.lst port.val ≠ lkLoopback)
include apart

theorem rxFlit_row (want : Nat) {v : Verdict} (came : s.rxIn port.val rx = (bytes, v, r)) :
    (v = .stomped → s.rxFlit port.val rx want = (r.rxBad port.val true, none)) ∧
    (v = .bad → s.rxFlit port.val rx want = (r.rxBad port.val false, none)) ∧
    (v = .good → typeKnown (flitType bytes) = false → s.rxFlit port.val rx want = ((r.rxGood port.val bytes).count (LNK_PROTO_ERR_COUNT port.val), none)) ∧
    (v = .good → typeKnown (flitType bytes) = true → flitType bytes = want →
      s.rxFlit port.val rx want = (r.rxGood port.val bytes, some bytes)) := by
  unfold State.rxFlit
  rw [if_neg (by rw [on]; exact Bool.false_ne_true), if_neg apart, came]
  refine ⟨?_, ?_, ?_, ?_⟩
  · rintro rfl
    rfl
  · rintro rfl
    rfl
  · rintro rfl unknown
    exact if_pos (by rw [unknown]; rfl)
  · rintro rfl known wanted
    exact (if_neg (by rw [known]; exact Bool.false_ne_true)).trans (if_neg fun other => other wanted)

theorem rxFlit_good {want : Nat} (came : s.rxIn port.val rx = (bytes, .good, r)) (known : typeKnown want = true) (type : flitType bytes = want) :
    s.rxFlit port.val rx want = (r.rxGood port.val bytes, some bytes) :=
  (rxFlit_row on apart want came).2.2.2 rfl (type.symm ▸ known) type

theorem rxLpm_good (came : s.rxIn port.val rx = (bytes, .good, r)) (type : flitType bytes = 0xA) {k : Nat} (command : field bytes 0 1 = k) :
    s.rxLpm port.val rx k = (r.rxGood port.val bytes, true) := by
  unfold State.rxLpm
  rw [rxFlit_good on apart came rfl type]
  exact congrArg (Prod.mk _) (beq_iff_eq.mpr command)

end

/-! What each type of flit does -/

include q in
theorem flits_off (header replayed : Bool) (off : s.rxOn port.val = false) :
    exec (.nullFlit port rx) s = .next s ∧ exec (.dataFlit port rx header) s = .next s ∧ exec (.ctrlFlit port rx replayed) s = .next s ∧
      exec (.creditFlit port rx) s = .next s ∧ exec (.nak port rx) s = .next s ∧ exec (.replayStart port rx) s = .next s ∧
      exec (.pingRequest port rx) s = .next s ∧ exec (.wake port rx) s = .next s ∧ exec (.nakTimeout port) s = .next s := by
  have quiet := done_quiet q
  refine ⟨?_, ?_, ?_, ?_, ?_, ?_, ?_, ?_, (if_pos (by rw [off]; rfl)).trans quiet⟩
  · change done (s.rxFlit port.val rx 0).1 = _
    rw [rxFlit_off 0 off, quiet]
  · change execDataFlit port rx header s = _
    unfold execDataFlit
    rw [rxFlit_off 1 off]
    exact quiet
  · change execCtrlFlit port rx replayed s = _
    unfold execCtrlFlit
    dsimp only
    rw [if_neg fun h => ne_true_of_eq_false off h.2.2.2.1, rxFlit_off 2 off]
    exact quiet
  · change execCreditFlit port rx s = _
    unfold execCreditFlit
    rw [rxFlit_off 3 off]
    exact quiet
  · change execNak port rx s = _
    unfold execNak
    rw [rxFlit_off 8 off]
    exact quiet
  · change execReplayStart port rx s = _
    unfold execReplayStart
    rw [rxFlit_off 9 off]
    exact quiet
  · change execPingRequest port rx s = _
    unfold execPingRequest
    rw [rxFlit_off 0xB off]
    exact quiet
  · change execWake port rx s = _
    unfold execWake State.rxLpm
    rw [rxFlit_off 0xA off]
    exact quiet

theorem nullFlit_loop (on : s.rxOn port.val = true) (loop : s.lst port.val = lkLoopback) : Ends (.nullFlit port rx) s (s.rxLoop port.val rx) := by
  change done (s.rxFlit port.val rx 0).1 = _
  rw [rxFlit_loop on 0 loop]
  rfl

section
variable (on : s.rxOn port.val = true) (apart : s.lst port.val ≠ lkLoopback)
include on apart

omit on apart in
theorem nullFlit_none {u : State} (h : s.rxFlit port.val rx 0 = (u, none)) : Ends (.nullFlit port rx) s u := by
  change done (s.rxFlit port.val rx 0).1 = _
  rw [h]
  rfl

omit on apart in
theorem dataFlit_none {u : State} (header : Bool) (h : s.rxFlit port.val rx 1 = (u, none)) : Ends (.dataFlit port rx header) s u := by
  change execDataFlit port rx header s = _
  unfold execDataFlit
  rw [h]
  rfl

theorem ctrlFlit_bad (came : s.rxIn port.val rx = (bytes, .bad, r)) :
    (flitType bytes = 2 → (s.port port.val).inOrder bytes = true →
      Ends (.ctrlFlit port rx false) s ((r.ctlBad port.val bytes).rxBad port.val false)) ∧
    Ends (.ctrlFlit port rx true) s (r.rxBad port.val false) := by
  refine ⟨fun type order => ?_, ?_⟩
  · change execCtrlFlit port rx false s = _
    unfold execCtrlFlit
    rw [came]
    exact if_pos ⟨rfl, by rw [order]; rfl, type, on, apart⟩
  · change execCtrlFlit port rx true s = _
    unfold execCtrlFlit
    dsimp only
    rw [if_neg fun h => Bool.false_ne_true h.2.1, (rxFlit_row on apart 2 came).2.1 rfl]
    rfl

/-! Good flits -/

variable (came : s.rxIn port.val rx = (bytes, .good, r))
include came

theorem nullFlit_good (type : flitType bytes = 0) : Ends (.nullFlit port rx) s (r.rxGood port.val bytes) := by
  change done (s.rxFlit port.val rx 0).1 = _
  rw [rxFlit_good on apart came rfl type]
  rfl

theorem dataFlit_good (header : Bool) (type : flitType bytes = 1) (k : State) (seq : (r.rxGood port.val bytes).rxSeq port.val bytes = (k, true)) :
    Ends (.dataFlit port rx header) s (if header then k.dataHeader port.val (bytes.take 64) else k.dataPayload port.val (bytes.take 64)) := by
  change execDataFlit port rx header s = _
  unfold execDataFlit
  rw [rxFlit_good on apart came rfl type]
  dsimp only
  rw [seq]
  rfl

theorem ctrlFlit_good (replayed : Bool) (type : flitType bytes = 2) (k : State) (seq : (r.rxGood port.val bytes).rxSeq port.val bytes = (k, true)) :
    Ends (.ctrlFlit port rx replayed) s (k.ctlGood port.val bytes (!replayed && (s.port port.val).inOrder bytes)) := by
  change execCtrlFlit port rx replayed s = _
  unfold execCtrlFlit
  rw [rxFlit_good on apart came rfl type, came]
  dsimp only
  rw [if_neg fun h => Verdict.noConfusion h.1, seq]
  rfl

theorem creditFlit_good (type : flitType bytes = 3) (k : State) (seq : (r.rxGood port.val bytes).rxSeq port.val bytes = (k, true)) :
    let p := port.val
    let c := (List.range 32).foldl (fun s i => s.addCredit p (field bytes (2 * i) 1 % 32) (field bytes (2 * i + 1) 1)) k
    Ends (.creditFlit port rx) s ((c.modPort p fun q => { q with credSeen := true }).initDone p) := by
  change execCreditFlit port rx s = _
  unfold execCreditFlit
  rw [rxFlit_good on apart came rfl type]
  dsimp only
  rw [seq]
  rfl

theorem nak_good (type : flitType bytes = 8) :
    Ends (.nak port rx) s ((r.rxGood port.val bytes).takeNak port.val (field bytes 0 2 % 4096) (field bytes 2 1 % 16)) := by
  change execNak port rx s = _
  unfold execNak
  rw [rxFlit_good on apart came rfl type]
  rfl

theorem replayStart_good (type : flitType bytes = 9) :
    let p := port.val
    let u := r.rxGood p bytes
    let skip := ((u.port p).expected + 4096 - field bytes 0 2 % 4096) % 4096
    (1024 < skip → Ends (.replayStart port rx) s ((u.count (LNK_PROTO_ERR_COUNT p)).failPort p 0xB)) ∧
    (skip ≤ 1024 → Ends (.replayStart port rx) s
      (u.modPort p fun q => { q with rxGen := field bytes 2 1 % 16, skip := skip, rxWait := false, resend := 0 })) := by
  intro p u skip
  have row : exec (.replayStart port rx) s = if skip > 1024 then done (u.protocolError p)
      else done (u.modPort p fun q => { q with rxGen := field bytes 2 1 % 16, skip := skip, rxWait := false, resend := 0 }) := by
    change execReplayStart port rx s = _
    unfold execReplayStart
    rw [rxFlit_good on apart came rfl type]
  exact ⟨fun far => row.trans (if_pos far), fun near => row.trans (if_neg (Nat.not_lt.mpr near))⟩

omit apart came in
/-- A port that receives flits has not failed. -/
theorem rxOn_not_failed : s.lst port.val ≠ lkFailed := by
  intro failed
  unfold State.rxOn at on
  rw [failed] at on
  exact absurd on (by simp [lkFailed, lkInit, lkActive, lkLp1, lkLp2, lkShutdown, lkLoopback])

theorem fatalFlit_good (type : flitType bytes = 0xF) :
    let p := port.val
    let u := r.rxGood p bytes
    let k := (u.set (LNK_PEER_FATAL_ADDR p) (field bytes 0 4)).set (LNK_PEER_FATAL_CODE p) (field bytes 4 1)
    let k := (k.setR64 (LNK_PEER_FATAL_TIME p) (field bytes 8 8)).set (LNK_STATUS_PEER_FATAL p) 1
    Ends (.fatalFlit port rx) s ((k.failPort p 8).report 0x04 p (field bytes 4 1)) := by
  change execFatalFlit port rx s = _
  unfold execFatalFlit
  rw [if_neg (by rw [beq_eq_false_iff_ne.mpr (rxOn_not_failed on), Bool.and_false]; exact Bool.false_ne_true), rxFlit_good on apart came rfl type]
  rfl

theorem lpmFlit_good (type : flitType bytes = 0xA) :
    let p := port.val
    let u := r.rxGood p bytes
    (field bytes 0 1 = 1 → Ends (.reqLp1 port rx) s (u.lpAskedFor p 1)) ∧ (field bytes 0 1 = 2 → Ends (.reqLp2 port rx) s (u.lpAskedFor p 2)) ∧
    (field bytes 0 1 = 3 → u.lst p = lkActive → ∀ k ∈ [1, 2], (u.port p).lpAsked = k → Ends (.lpmAccept port rx) s (u.enterLp p k)) ∧
    (field bytes 0 1 = 4 → (u.port p).lpAsked ≠ 0 →
      Ends (.lpmRefuse port rx) s (u.modPort p fun q => { q with lpAsked := 3, autoDue := false })) ∧
    (field bytes 0 1 = 5 → u.lst p = lkLp1 → Ends (.wake port rx) s ((u.modPort p fun q => { q with onLane0 := false }).goPort p lkActive)) ∧
    (field bytes 0 1 = 6 → u.lst p ≠ lkShutdown → Ends (.lpmDisable port rx) s ((u.emit (.idle p)).enterDetect p)) := by
  intro p u
  have lpm {k : Nat} (command : field bytes 0 1 = k) := rxLpm_good on apart came type command
  refine ⟨fun command => ?_, fun command => ?_, fun command active k member asked => ?_, fun command asked => ?_, fun command lp1 => ?_,
    fun command running => ?_⟩
  · change execReqLp1 port rx s = _
    unfold execReqLp1
    rw [lpm command]
    rfl
  · change execReqLp2 port rx s = _
    unfold execReqLp2
    rw [lpm command]
    rfl
  · change execLpmAccept port rx s = _
    unfold execLpmAccept
    rw [lpm command]
    subst asked
    exact congrArg done (if_pos ⟨active, by simpa using member⟩)
  · change execLpmRefuse port rx s = _
    unfold execLpmRefuse
    rw [lpm command]
    exact congrArg done (if_neg asked)
  · change execWake port rx s = _
    unfold execWake
    rw [lpm command]
    have awake : (u.modPort p fun q => { q with onLane0 := false }).lst p = lkLp1 := (State.get_congr u _ _ rfl).trans lp1
    exact congrArg done ((if_pos lp1).trans (if_pos awake))
  · change execLpmDisable port rx s = _
    unfold execLpmDisable
    rw [lpm command]
    exact congrArg done (if_neg running)

theorem pingFlit_good (type : flitType bytes = 0xB) :
    let p := port.val
    let u := r.rxGood p bytes
    (field bytes 0 1 = 1 → Ends (.pingRequest port rx) s (u.sendCtl p 0xB (leBytes 8 2 ++ slice bytes 8 8 ++ leBytes 8 u.ft))) ∧
    (field bytes 0 1 = 2 →
      let k := [0, 1, 2].foldl (fun s i => s.setR64 (LNK_PING_T p i) (field bytes (8 + 8 * i) 8)) u
      Ends (.pingResponse port rx) s ((k.setR64 (LNK_PING_T p 3) k.ft).set (LNK_PING_CTRL_DONE p) 1)) := by
  refine ⟨fun request => ?_, fun response => ?_⟩
  · change execPingRequest port rx s = _
    unfold execPingRequest
    rw [rxFlit_good on apart came rfl type]
    exact if_neg fun other => other request
  · change execPingResponse port rx s = _
    unfold execPingResponse
    rw [rxFlit_good on apart came rfl type]
    exact if_neg fun other => other response

end

end

/-! Timers -/

section
variable {port : PortIx} {s : State} (q : Quiet s) (run : s.fatal = false)

include run in
theorem ackTimeout_replays (state : s.lst port.val ∈ [lkActive, lkLp1, lkShutdown]) (outstanding : (s.port port.val).stored ≠ [])
    (still : (s.port port.val).replayFrom = none) :
    let p := port.val
    let u := s.passTo ((s.port p).ackAt + max 1 (s.get (LNK_RETRY_CFG_ACK_TIMEOUT p)))
    Ends (.ackTimeout port) s (u.replayLink p (u.port p).oldest) := by
  have live : ∀ st ∈ [lkActive, lkLp1, lkShutdown], (!(st == lkActive || st == lkLp1 || st == lkShutdown)) = false := by decide
  refine if_neg ?_
  rw [run, live _ state, still, List.isEmpty_eq_false_iff.mpr outstanding]
  exact Bool.false_ne_true

include q in
theorem ackTimeout_none (empty : (s.port port.val).stored = []) : exec (.ackTimeout port) s = .next s := by
  refine (if_pos ?_).trans (done_quiet q)
  rw [empty]
  simp

include run in
theorem nakTimeout_rows (active : s.lst port.val = lkActive) (waits : (s.port port.val).rxWait = true) :
    let p := port.val
    let u := (s.passTo ((s.port p).nakAt + max 1 (s.get (LNK_RETRY_CFG_ACK_TIMEOUT p)))).modPort p fun q => { q with resend := q.resend + 1 }
    ((u.port p).resend ≤ u.get (LNK_RETRY_CFG_RETRY_LIMIT p) → Ends (.nakTimeout port) s (u.sendNak p)) ∧
    (u.get (LNK_RETRY_CFG_RETRY_LIMIT p) < (u.port p).resend → Ends (.nakTimeout port) s (u.failPort p 7)) := by
  intro p u
  have on : s.rxOn port.val = true := by
    unfold State.rxOn
    rw [run, active]
    rfl
  have row : exec (.nakTimeout port) s =
      done (if (u.port p).resend > u.get (LNK_RETRY_CFG_RETRY_LIMIT p) then u.failPort p 7 else u.sendNak p) :=
    if_neg (by rw [on, waits]; exact Bool.false_ne_true)
  exact ⟨fun few => row.trans (congrArg done (if_neg (Nat.not_lt.mpr few))), fun many => row.trans (congrArg done (if_pos many))⟩

include run in
theorem creditWaitTimeout_owed (t : Nat) (owed : (s.port port.val).owedAt = some t) (state : s.lst port.val = lkActive ∨ s.lst port.val = lkLp1) :
    Ends (.creditWaitTimeout port) s ((s.passTo (t + 106)).runSlot port.val) := by
  change execCreditWaitTimeout port s = _
  unfold execCreditWaitTimeout
  dsimp only
  rw [owed]
  refine if_neg ?_
  rcases state with h | h
  · rw [run, h]
    decide
  · rw [run, h]
    decide

include q in
theorem creditWaitTimeout_none (none_ : (s.port port.val).owedAt = none) : exec (.creditWaitTimeout port) s = .next s := by
  change execCreditWaitTimeout port s = _
  unfold execCreditWaitTimeout
  dsimp only
  rw [none_]
  exact done_quiet q

include run in
theorem openPacketTimeout_drops (o : OpenPkt) (found : Tbl.find s.switch.opens port.val = some o) :
    Ends (.openPacketTimeout port) s ((s.passTo (o.lastAt + 16500)).dropOpen port.val) := by
  change execOpenPacketTimeout port s = _
  unfold execOpenPacketTimeout
  rw [found]
  exact if_neg (ne_true_of_eq_false run)

include q in
theorem openPacketTimeout_none (none_ : Tbl.find s.switch.opens port.val = none) : exec (.openPacketTimeout port) s = .next s := by
  change execOpenPacketTimeout port s = _
  unfold execOpenPacketTimeout
  rw [none_]
  exact done_quiet q

include run in
theorem markerIntervalEnd_sends (state : s.lst port.val ∈ [lkInit, lkActive, lkLp1, lkShutdown]) (marks : s.markerDue port.val = true) :
    let p := port.val
    let due := max (s.outSt p).slotDue s.tu
    let r := s.sendMarker p
    Ends (.markerIntervalEnd port) s (r.2.modOut p fun y => { y with slotDue := due + r.1 * r.2.slotTime p }) := by
  intro p due r
  have live : ∀ st ∈ [lkInit, lkActive, lkLp1, lkShutdown],
      (!(st == lkInit || st == lkActive || st == lkLp1 || st == lkShutdown || st == lkLoopback)) = false ∧ st ≠ lkLoopback := by decide
  obtain ⟨on, apart⟩ := live _ state
  change execMarkerIntervalEnd port s = _
  unfold execMarkerIntervalEnd
  dsimp only
  rw [if_neg (by rw [run, on, marks]; exact Bool.false_ne_true), if_neg apart]
  rfl

include q in
theorem markerIntervalEnd_early (early : s.markerDue port.val = false) : exec (.markerIntervalEnd port) s = .next s := by
  refine (if_pos ?_).trans (done_quiet q)
  rw [early, Bool.or_eq_true]
  exact .inr rfl

end

/-- Settles O42: what each flit gives the layers above (`rxFlit_row`), what its type does, and the timers of the retry, of credit and of markers. -/
theorem flitsAndTimers : Obligations.FlitsAndTimers := by
  refine ⟨fun port rx header replayed s q off => flits_off q header replayed off, fun port rx s q on loop => nullFlit_loop on loop,
    fun port rx header replayed s r bytes v q on apart came => ?_, fun port s q run => ?_⟩
  · refine ⟨?_, ?_, ?_, ?_⟩
    · rintro rfl
      exact ⟨nullFlit_none ((rxFlit_row on apart 0 came).1 rfl), dataFlit_none header ((rxFlit_row on apart 1 came).1 rfl)⟩
    · rintro rfl
      exact ⟨nullFlit_none ((rxFlit_row on apart 0 came).2.1 rfl), dataFlit_none header ((rxFlit_row on apart 1 came).2.1 rfl), ctrlFlit_bad on apart came⟩
    · rintro rfl unknown
      exact nullFlit_none ((rxFlit_row on apart 0 came).2.2.1 rfl unknown)
    · rintro rfl
      exact ⟨nullFlit_good on apart came, dataFlit_good on apart came header, ctrlFlit_good on apart came replayed, creditFlit_good on apart came,
        nak_good on apart came, replayStart_good on apart came, fatalFlit_good on apart came, lpmFlit_good on apart came, pingFlit_good on apart came⟩
  · exact ⟨ackTimeout_replays run, ackTimeout_none q, nakTimeout_rows run, creditWaitTimeout_owed run, creditWaitTimeout_none q,
      openPacketTimeout_drops run, openPacketTimeout_none q, markerIntervalEnd_sends run, markerIntervalEnd_early q⟩

end Sys2Proof.Machine
end

section
/-! The switch core's own events: slots, windows, grants, holds, the age scanner and the resequencer (R226, R243, R261 to R264, R275, R287). -/

namespace Sys2Proof.Machine

open Sys2Proof

/-! Slots -/

section
variable {output : OutIx} {s : State} (run : s.fatal = false)

/-- Without a packet that is ready to cut through there is nothing to choose from. -/
theorem cutTurn_none {u : State} {o : Nat} (none_ : ∀ x ∈ u.switch.cuts, x.output ≠ o) : u.cutTurn o = u := by
  have empty : u.switch.cuts.filter (·.output == o) = [] := List.filter_eq_nil_iff.mpr fun x member h => none_ x member (beq_iff_eq.mp h)
  unfold State.cutTurn
  dsimp only
  rw [empty]
  rfl

include run

theorem outputSlot_cuts :
    let o := output.val
    let u := s.pass (((s.outSt o).slotDue - s.tu) / 160)
    ((u.cutTurn o).outSt o |>.slotDue) ≠ (u.outSt o).slotDue → Ends (.outputSlot output) s (u.cutTurn o) := by
  intro o u moved
  exact (if_neg (ne_true_of_eq_false run)).trans (congrArg done (if_pos moved))

theorem outputSlot_chooses :
    let o := output.val
    let u := s.pass (((s.outSt o).slotDue - s.tu) / 160)
    (∀ x ∈ u.switch.cuts, x.output ≠ o) →
      let w := if o < 24 ∧ u.lst o = lkLp1 ∧ u.seqWaiting o = true then u.wakeLp1 o else u
      let k := w.slot o (max (u.outSt o).slotDue w.tu)
      exec (.outputSlot output) s = done (if o < 24 then k.initDone o else k) := by
  intro o u none_
  have same := cutTurn_none none_
  refine (if_neg (ne_true_of_eq_false run)).trans (congrArg done ?_)
  unfold State.runSlot
  dsimp only
  rw [show (s.pass (((s.outSt output.val).slotDue - s.tu) / 160)).cutTurn output.val = u from same]
  exact if_neg fun moved => moved rfl

theorem outputSlot_inner (inner : 24 ≤ output.val) :
    let u := s.pass (((s.outSt output.val).slotDue - s.tu) / 160)
    (∀ x ∈ u.switch.cuts, x.output ≠ output.val) → Ends (.outputSlot output) s (u.slot output.val (max (u.outSt output.val).slotDue u.tu)) := by
  intro u none_
  have row := outputSlot_chooses run none_
  dsimp only at row
  rw [if_neg (Nat.not_lt.mpr inner), if_neg fun h => Nat.not_lt.mpr inner h.1] at row
  exact row

theorem outputSlot_port (port : output.val < 24) :
    let o := output.val
    let u := s.pass (((s.outSt o).slotDue - s.tu) / 160)
    (∀ x ∈ u.switch.cuts, x.output ≠ o) →
      (u.lst o ≠ lkLp1 → Ends (.outputSlot output) s ((u.slot o (max (u.outSt o).slotDue u.tu)).initDone o)) ∧
      (u.lst o = lkLp1 → u.seqWaiting o = true →
        Ends (.outputSlot output) s (((u.wakeLp1 o).slot o (max (u.outSt o).slotDue (u.wakeLp1 o).tu)).initDone o)) := by
  intro o u none_
  have row := outputSlot_chooses run none_
  dsimp only at row
  rw [if_pos port] at row
  refine ⟨fun awake => ?_, fun lp1 waits => ?_⟩
  · rw [if_neg fun h => awake h.2.1] at row
    exact row
  · rw [if_pos ⟨port, lp1, waits⟩] at row
    exact row

end

/-! Windows -/

section
variable {s : State} (q : Quiet s) (run : s.fatal = false)

include q in
theorem gateWindowChange_none {port : PortIx} (none_ : s.window port.val = none) : exec (.gateWindowChange port) s = .next s := by
  change execGateWindowChange port s = _
  unfold execGateWindowChange
  dsimp only
  rw [none_]
  exact done_quiet q

include run in
theorem gateWindowChange_opens {port : PortIx} (i open_ len past : Nat) (found : s.window port.val = some (i, open_, len, past)) :
    let u := s.passToFt (s.ft + (len - past))
    Ends (.gateWindowChange port) s (u.refreshOut port.val u.tu) := by
  change execGateWindowChange port s = _
  unfold execGateWindowChange
  dsimp only
  rw [found]
  exact if_neg (ne_true_of_eq_false run)

/-! Grants of cells -/

include q run in
theorem cellGrant_none {input : OutIx} (none_ : s.grantTurn = none) : exec (.cellGrant input) s = .next s := by
  change execCellGrant input s = _
  unfold execCellGrant
  rw [if_neg (ne_true_of_eq_false run), none_]
  exact done_quiet q

include run in
theorem cellGrant_turn {input : OutIx} {o : Offer} {tie : Bool} (turn : s.grantTurn = some (o, tie)) :
    exec (.cellGrant input) s = done (if o.input = input.val then s.grantNext o tie else s) := by
  change execCellGrant input s = _
  unfold execCellGrant
  rw [if_neg (ne_true_of_eq_false run), turn]

/-- An offer that has no output any more is discarded at its origin. -/
theorem placeOffer_none {u : State} {o : Offer} {aside : Nat} (none_ : (u.originRoute (o.pkt.setH 72 16 u.usFt)).out = none) :
    u.placeOffer State.offerC3 o aside = u.originDiscard (u.originRoute (o.pkt.setH 72 16 u.usFt)).reason o := by
  unfold State.placeOffer
  dsimp only
  rw [none_]

include q run in
theorem cellGrant_rows {input : OutIx} {o : Offer} {tie : Bool} (turn : s.grantTurn = some (o, tie)) :
    let rest := s.sw fun w => { w with offers := w.offers.erase o, tieWon := if tie then some o.input else w.tieWon }
    let d := rest.originRoute (o.pkt.setH 72 16 rest.usFt)
    (o.input ≠ input.val → exec (.cellGrant input) s = .next s) ∧
    (o.input = input.val → d.out = none → Ends (.cellGrant input) s (rest.originDiscard d.reason o).offersEnd) ∧
    (o.input = input.val → Ends (.cellGrant input) s
      (rest.placeOffer State.offerC3 o ((rest.grantAside (cellsOf o.pkt.flits) o.job).getD 0)).offersEnd) := by
  intro rest d
  have row := cellGrant_turn (input := input) run turn
  refine ⟨fun other => ?_, fun own unrouted => ?_, fun own => row.trans (congrArg done (if_pos own))⟩
  · exact (row.trans (congrArg done (if_neg other))).trans (done_quiet q)
  · refine row.trans (congrArg done ((if_pos own).trans ?_))
    exact congrArg State.offersEnd (placeOffer_none unrouted)

/-! Holds -/

include q run in
theorem congestionHoldEnd_none {input : OutIx} (none_ : ∀ o ∈ s.switch.offers, o.input = input.val → o.heldAt = none) :
    exec (.congestionHoldEnd input) s = .next s := by
  have missing : s.switch.offers.find? (fun o => o.input == input.val && o.heldAt.isSome) = none := by
    refine List.find?_eq_none.mpr fun o member held => ?_
    obtain ⟨own, since⟩ := Bool.and_eq_true_iff.mp held
    rw [none_ o member (beq_iff_eq.mp own)] at since
    exact Bool.false_ne_true since
  change execCongestionHoldEnd input s = _
  unfold execCongestionHoldEnd
  rw [if_neg (ne_true_of_eq_false run), missing]
  exact done_quiet q

include run in
theorem congestionHoldEnd_ends {input : OutIx} {o : Offer} {k : Nat}
    (found : s.switch.offers.find? (fun o => o.input == input.val && o.heldAt.isSome) = some o) (key : (s.originRoute o.pkt).queueKey o.pkt = some k) :
    let d := if s.marked k then s.passTo (o.heldAt.getD s.now + 1650 * s.get SWC_CONG_HOLD_HOLD) else s
    let u := d.sw fun w => { w with offers := w.offers.map fun x => if x = o then { o with heldAt := none, came := d.now } else x }
    (u.grantTurn = none → Ends (.congestionHoldEnd input) s u) ∧
    ∀ x tie, u.grantTurn = some (x, tie) →
      (x.input ≠ input.val → Ends (.congestionHoldEnd input) s u) ∧ (x.input = input.val → Ends (.congestionHoldEnd input) s (u.grantNext x tie)) := by
  intro d u
  have row : ∀ {t}, (u.grantTurn = none → t = u) → (∀ x tie, u.grantTurn = some (x, tie) → (if x.input = input.val then u.grantNext x tie else u) = t) →
      Ends (.congestionHoldEnd input) s t := by
    intro t none_ some_
    change execCongestionHoldEnd input s = _
    unfold execCongestionHoldEnd
    rw [if_neg (ne_true_of_eq_false run), found]
    dsimp only
    rw [key]
    change (match u.grantTurn with
      | some (x, tie) => done (if x.input = input.val then u.grantNext x tie else u)
      | none => done u) = done t
    cases turn : u.grantTurn with
    | none => exact congrArg done (none_ turn).symm
    | some x => exact congrArg done (some_ x.1 x.2 turn)
  refine ⟨fun none_ => row (fun _ => rfl) fun x tie turn => ?_, fun x tie turn => ⟨fun other => row (fun _ => rfl) fun y t turn' => ?_,
    fun own => row (fun none_ => ?_) fun y t turn' => ?_⟩⟩
  · rw [none_] at turn
    cases turn
  · rw [turn] at turn'
    cases turn'
    exact if_neg other
  · rw [turn] at none_
    cases none_
  · rw [turn] at turn'
    cases turn'
    exact if_pos own

/-! The age scanner -/

include q run in
theorem ageScan_none (none_ : s.scanNext = none) : exec .ageScan s = .next s := by
  change execAgeScan s = _
  unfold execAgeScan
  rw [if_neg (ne_true_of_eq_false run), none_]
  exact done_quiet q

include run in
theorem ageScan_visits {k : Nat} {d : PD} {rest : List PD} (next : s.scanNext = some k) (queued : s.queue k = d :: rest) :
    let u := s.sw fun w => { w with scanPtr := k }
    exec .ageScan s = done ((u.oldHead k d rest).getD u) := by
  intro u
  change execAgeScan s = _
  unfold execAgeScan
  rw [if_neg (ne_true_of_eq_false run), next]
  dsimp only
  rw [show (s.sw fun w => { w with scanPtr := k }).queue k = d :: rest from queued]

/-- A head that was reclaimed has nothing left. -/
theorem oldHead_dead {u : State} {k : Nat} {d : PD} {rest : List PD} (dead : u.pdLive d = false) :
    u.oldHead k d rest = some (u.setQueue k rest).dropStale := by
  unfold State.oldHead
  cases u.bufPkt d.head with
  | none => rfl
  | some b => exact if_pos (by rw [dead]; rfl)

theorem oldHead_live {u : State} {k : Nat} {d : PD} {rest : List PD} {b : BufPkt} (live : u.pdLive d = true) (held : u.bufPkt d.head = some b) :
    u.oldHead k d rest = if u.aged b.pkt && !b.left then some ((u.setQueue k rest).discardHead State.offerC3 8 d.head true (decide (768 ≤ k)))
      else none := by
  unfold State.oldHead
  rw [held]
  exact if_neg (by rw [live]; exact Bool.false_ne_true)

include q run in
theorem ageScan_rows {k : Nat} {d : PD} {rest : List PD} (next : s.scanNext = some k) (queued : s.queue k = d :: rest) :
    let u := s.sw fun w => { w with scanPtr := k }
    (s.pdLive d = false → Ends .ageScan s (u.setQueue k rest).dropStale) ∧
    ∀ b, s.pdLive d = true → s.bufPkt d.head = some b →
      ((s.aged b.pkt = false ∨ b.left = true) → exec .ageScan s = .next u) ∧
      (s.aged b.pkt = true → b.left = false →
        Ends .ageScan s ((u.setQueue k rest).discardHead State.offerC3 8 d.head true (decide (768 ≤ k)))) := by
  intro u
  have row := ageScan_visits run next queued
  refine ⟨fun dead => ?_, fun b live held => ?_⟩
  · exact row.trans (congrArg done (congrArg (·.getD u) (oldHead_dead (u := u) dead)))
  · have head := oldHead_live (u := u) (k := k) (rest := rest) live held
    refine ⟨fun fresh => ?_, fun aged waits => ?_⟩
    · have stays : ¬(u.aged b.pkt && !b.left) = true := by
        intro h
        obtain ⟨aged, waits⟩ := Bool.and_eq_true_iff.mp h
        rcases fresh with young | left
        · exact ne_true_of_eq_false young aged
        · rw [left] at waits
          exact Bool.false_ne_true waits
      exact (row.trans (congrArg done (congrArg (·.getD u) (head.trans (if_neg stays))))).trans (done_quiet q)
    · exact row.trans (congrArg done (congrArg (·.getD u) (head.trans (if_pos (by rw [show u.aged b.pkt = true from aged, waits]; rfl)))))

/-! The resequencer -/

include q in
theorem rsq_none {i : Nat} (missing : s.switch.flows[i]? = none) : exec (.rsqTimeout i) s = .next s ∧ exec (.rsqIdleRelease i) s = .next s := by
  refine ⟨?_, ?_⟩
  · change execRsqTimeout i s = _
    unfold execRsqTimeout
    rw [missing]
    exact done_quiet q
  · change execRsqIdleRelease i s = _
    unfold execRsqIdleRelease
    rw [missing]
    exact done_quiet q

include q run in
theorem rsqTimeout_rows {i : Nat} {f : Flow} (found : s.switch.flows[i]? = some f) :
    (f.gapAt = none → exec (.rsqTimeout i) s = .next s) ∧
    (∀ t, f.gapAt = some t →
      let u := s.passTo (t + 1650 * max 1 (s.get SWC_RSQ_CFG_TIMEOUT))
      let far := (f.slots.map fun x => (x.1 + 65536 - f.expected) % 65536).foldl max 0
      let k := u.modFlow i fun f => { f with slots := [], expected := (f.expected + far + 1) % 65536, gapAt := none }
      Ends (.rsqTimeout i) s ((f.slots.foldl (fun s x =>
        if s.pdLive x.2 then s.discardHead State.offerC3 11 x.2.head true true else s.dropStale) k).sweep [0x78])) := by
  refine ⟨fun whole => ?_, fun t since => ?_⟩
  · change execRsqTimeout i s = _
    unfold execRsqTimeout
    rw [found]
    dsimp only
    rw [whole]
    exact done_quiet q
  · change execRsqTimeout i s = _
    unfold execRsqTimeout
    rw [found]
    dsimp only
    rw [since]
    exact if_neg (ne_true_of_eq_false run)

include q run in
theorem rsqIdleRelease_rows {i : Nat} {f : Flow} (found : s.switch.flows[i]? = some f) :
    (f.slots ≠ [] → exec (.rsqIdleRelease i) s = .next s) ∧
    (f.slots = [] → Ends (.rsqIdleRelease i) s ((s.passTo (f.lastAt + 1650 * max 1 (s.get SWC_RSQ_CFG_IDLE))).sw fun w =>
      { w with flows := w.flows.eraseIdx i })) := by
  refine ⟨fun held => ?_, fun empty => ?_⟩
  · change execRsqIdleRelease i s = _
    unfold execRsqIdleRelease
    rw [found]
    exact (if_pos (by rw [List.isEmpty_eq_false_iff.mpr held]; exact Bool.or_true _)).trans (done_quiet q)
  · change execRsqIdleRelease i s = _
    unfold execRsqIdleRelease
    rw [found]
    exact if_neg (by rw [run, empty]; exact Bool.false_ne_true)

end

/-- Settles O43: the slot of an output, the window of a gate list, the grant of cells, the end of a hold, the scanner and the resequencer. -/
theorem switchEvents : Obligations.SwitchEvents := by
  refine ⟨fun output s q run => outputSlot_inner run, fun output s q run _ => outputSlot_cuts run, fun output s q run => outputSlot_port run,
    fun port s q run => ⟨gateWindowChange_none q, gateWindowChange_opens run⟩, fun input s q run => ⟨cellGrant_none q run, fun o tie => cellGrant_rows q run⟩,
    fun input s q run => ⟨congestionHoldEnd_none q run, fun o k => congestionHoldEnd_ends run⟩,
    fun s q run => ⟨ageScan_none q run, fun k d rest => ageScan_rows q run⟩, fun i s q run => ⟨rsq_none q, fun f found => ?_⟩⟩
  obtain ⟨whole, lasted⟩ := rsqTimeout_rows q run found
  obtain ⟨held, idle⟩ := rsqIdleRelease_rows q run found
  exact ⟨whole, lasted, held, idle⟩

end Sys2Proof.Machine
end

section
/-! Sweeps, audits and the control registers of the switch (R268 to R273, R292). -/

namespace Sys2Proof.Machine

open Sys2Proof

section
variable {s : State} (q : Quiet s)

/-! Sweeps -/

include q in
theorem sweepDone_none (none_ : s.switch.sweeps = []) : exec .sweepDone s = .next s := by
  change execSweepDone s = _
  unfold execSweepDone
  rw [none_]
  exact done_quiet q

theorem sweepDone_last (w0 : Sweep) (ws0 : List Sweep) (runs : s.switch.sweeps = w0 :: ws0) :
    let u := s.pass ((131072 - w0.pos + 15) / 16)
    ∀ w, u.switch.sweeps = [w] → u.switch.auditAsked = false → Ends .sweepDone s ((u.sw fun x =>
      { x with sweeps := [], swept := if w.marked.isEmpty then x.swept else x.swept ++ [w] }).set BPM_STATUS_SWEEP_BUSY 0) := by
  intro u w last noAudit
  change execSweepDone s = _
  unfold execSweepDone
  rw [runs]
  dsimp only
  rw [show (s.pass ((totalCells - w0.pos + 15) / 16)).switch.sweeps = [w] from last]
  exact congrArg done (if_neg fun h => ne_true_of_eq_false noAudit (Bool.and_eq_true_iff.mp h).2)

include q in
theorem reclaimTimeout_none (none_ : s.switch.swept = []) (still : s.switch.sweeps = []) : exec .reclaimTimeout s = .next s := by
  change execReclaimTimeout s = _
  unfold execReclaimTimeout
  rw [none_, still]
  exact done_quiet q

theorem reclaimTimeout_frees (w : Sweep) (ws : List Sweep) (swept : s.switch.swept = w :: ws) :
    let u := s.passTo (w.start.getD 0 + 1650 * max 1 (s.get BPM_RECLAIM_TIMEOUT_TIME))
    Ends .reclaimTimeout s (w.marked.foldl State.forceFree (u.sw fun x => { x with swept := x.swept.erase w })) := by
  change execReclaimTimeout s = _
  unfold execReclaimTimeout
  rw [swept]
  rfl

/-! Audits -/

/-- The value's bits in an RW field of a register that only stores. -/
theorem stored_rwField (s : State) {f : Fld} (hf : rwField f = true) {row : RegRow} {ix : List Nat} (hr : regAt f.reg.off = some (row, ix)) (v : Word) :
    ∃ x, s.stored (ownWrite f.reg row ix v) = s.setR f.reg x ∧ (s.setR f.reg x).get f = bits v.toNat f.lo f.width := by
  have own := regOf_rwField hf
  simp only [rwField, hr, Option.any_some, Bool.and_eq_true] at hf
  have le : f.lo + f.width ≤ 32 := of_decide_eq_true (Bool.and_eq_true_iff.mp hf.1).2
  obtain ⟨x, val, get⟩ := s.storeBits_rwBits f.reg.off v.toNat hf.1
  rw [own] at val
  exact ⟨x, val, (s.get_setR_same f x le).trans get⟩

/-- A bit of a value is the field of one bit there. -/
theorem bits_one_ne_zero (x i : Nat) : (bits x i 1 != 0) = bit x i := by
  rw [bits, bit, Nat.pow_one]
  rcases Nat.mod_two_eq_zero_or_one (x / 2 ^ i) with e | e
  · rw [e]
    rfl
  · rw [e]
    rfl

theorem audit_asks (v : Word) (taken : Taken s BPM_CTRL) (run : s.fatal = false) :
    ∃ u, RegsOnly s u ∧ RegsKept [BPM_CTRL.off] s u ∧ Ends (.audit v) s u.askAudit := by
  obtain ⟨row, hr, write⟩ := s.hostWrite_BPM_CTRL (setBit v 0) taken
  obtain ⟨x, stored, -⟩ := stored_rwField s (f := BPM_CTRL_AUDIT_PERIOD) (by decide +kernel) hr (setBit v 0)
  refine ⟨s.setR BPM_CTRL x, RegsOnly.setR (RegsOnly.refl s) _ _, setR_kept s _ x, congrArg done (write.trans ((if_pos ?_).trans ?_))⟩
  · rw [bit_setBit_same v 0 (by decide), run]
    rfl
  · exact congrArg State.askAudit stored

include q in
theorem auditPeriodTimer_rows : (s.get BPM_CTRL_AUDIT_PERIOD = 0 → exec .auditPeriodTimer s = .next s) ∧
    (s.get BPM_CTRL_AUDIT_PERIOD ≠ 0 → Ends .auditPeriodTimer s
      (s.passTo (s.switch.auditStart + s.get BPM_CTRL_AUDIT_PERIOD * 16500000)).askAudit) :=
  ⟨fun off => (if_pos off).trans (done_quiet q), fun on => if_neg on⟩

include q in
theorem auditDone_none (none_ : s.switch.audit = none) : exec .auditDone s = .next s := by
  change execAuditDone s = _
  unfold execAuditDone
  rw [none_]
  exact done_quiet q

include q in
theorem auditDone_sweeping {a : Audit} (runs : s.switch.audit = some a) (sweeping : s.switch.sweeps ≠ []) : exec .auditDone s = .next s := by
  change execAuditDone s = _
  unfold execAuditDone
  rw [runs]
  exact (if_pos (by rw [List.isEmpty_eq_false_iff.mpr sweeping]; rfl)).trans (done_quiet q)

theorem auditDone_shows {a0 : Audit} (runs : s.switch.audit = some a0) (swept : s.switch.sweeps = []) :
    let u := s.pass ((131072 - a0.pos + 15) / 16)
    ∀ a, u.switch.audit = some a →
      let k := ((u.sw fun w => { w with audit := none }).set BPM_STATUS_AUDIT_BUSY 0).set BPM_AUDIT_RESULT_LEAKED (min 0x3FFFF a.leaked)
      let k := if a.leaked > 0 then k.set BPM_STATUS_LEAK 1 else (k.set BPM_AUDIT_RESULT_OWNER 0).setR BPM_AUDIT_CELL 0
      (a.free + a.frees = k.cellsFree + a.allocs → Ends .auditDone s k) ∧
      (a.free + a.frees ≠ k.cellsFree + a.allocs → Ends .auditDone s ((k.set BPM_STATUS_AUDIT_MISMATCH 1).report 0x1D 0 k.cellsFree)) := by
  intro u a left _ k
  have row : exec .auditDone s = done (if a.free + a.frees ≠ k.cellsFree + a.allocs then (k.set BPM_STATUS_AUDIT_MISMATCH 1).report 0x1D 0 k.cellsFree
      else k) := by
    change execAuditDone s = _
    unfold execAuditDone
    rw [runs]
    dsimp only
    rw [if_neg (by rw [swept]; exact Bool.false_ne_true), show (s.pass ((totalCells - a0.pos + 15) / 16)).switch.audit = some a from left]
    rfl
  exact ⟨fun agree => row.trans (congrArg done (if_neg fun differ => differ agree)), fun differ => row.trans (congrArg done (if_pos differ))⟩

/-! Control registers -/

include q in
theorem swcEnable_enables (v : Word) (taken : Taken s SWC_CTRL) (run : s.fatal = false) :
    ∃ t, exec (.swcEnable v) s = .next t ∧ t.flag SWC_CTRL_EN = true ∧ RegsKept [SWC_CTRL.off] s t ∧ RegsOnly s t := by
  obtain ⟨row, hr, write⟩ := s.hostWrite_SWC_CTRL (setBit v 0) taken
  obtain ⟨x, stored, get⟩ := stored_rwField s (f := SWC_CTRL_EN) (by decide +kernel) hr (setBit v 0)
  refine ⟨s.setR SWC_CTRL x, ?_, ?_, setR_kept s _ x, RegsOnly.setR (RegsOnly.refl s) _ _⟩
  · refine (congrArg done (write.trans ((if_neg (ne_true_of_eq_false run)).trans ((if_pos ?_).trans stored)))).trans (done_setR q _ _)
    exact bit_setBit_same v 0 (by decide)
  · exact (congrArg (· != 0) get).trans ((bits_one_ne_zero _ 0).trans (bit_setBit_same v 0 (by decide)))

include q in
theorem swcDisable_rows (v : Word) (taken : Taken s SWC_CTRL) (run : s.fatal = false) :
    (s.anyEnabled = true → Ends (.swcDisable v) s (s.aerr 0 SWC_CTRL.off true 2)) ∧
    (s.anyEnabled = false → s.flag SWC_CTRL_EN = true → Ends (.swcDisable v) s s.swcDisable) ∧
    (s.anyEnabled = false → s.flag SWC_CTRL_EN = false → exec (.swcDisable v) s = .next s) := by
  obtain ⟨row, hr, write⟩ := s.hostWrite_SWC_CTRL (clearBit v 0) taken
  have effect : exec (.swcDisable v) s = done (if s.anyEnabled then s.aerr 0 SWC_CTRL.off true 2 else if s.flag SWC_CTRL_EN then s.swcDisable else s) :=
    congrArg done (write.trans ((if_neg (ne_true_of_eq_false run)).trans (if_neg (ne_true_of_eq_false (bit_clearBit_same v 0 (by decide))))))
  refine ⟨fun busy => effect.trans (congrArg done (if_pos busy)), fun idle on => ?_, fun idle off => ?_⟩
  · exact effect.trans (congrArg done ((if_neg (ne_true_of_eq_false idle)).trans (if_pos on)))
  · exact (effect.trans (congrArg done ((if_neg (ne_true_of_eq_false idle)).trans (if_neg (ne_true_of_eq_false off))))).trans (done_quiet q)

theorem schClear_asks (v : Word) (taken : Taken s SCH_CTRL) :
    ∃ u, Ends (.schClear v) s (u.sw fun w => { w with clearDue := true }) ∧ u.flag SCH_CTRL_OBS_EN = bit v.toNat 0 ∧ RegsKept [SCH_CTRL.off] s u ∧
      RegsOnly s u := by
  obtain ⟨row, hr, write⟩ := s.hostWrite_SCH_CTRL (setBit v 1) taken
  obtain ⟨x, stored, get⟩ := stored_rwField s (f := SCH_CTRL_OBS_EN) (by decide +kernel) hr (setBit v 1)
  refine ⟨s.setR SCH_CTRL x, congrArg done (write.trans ((if_pos (bit_setBit_same v 1 (by decide))).trans ?_)), ?_, setR_kept s _ x,
    RegsOnly.setR (RegsOnly.refl s) _ _⟩
  · exact congrArg (fun t : State => t.sw fun w => { w with clearDue := true }) stored
  · exact (congrArg (· != 0) get).trans ((bits_one_ne_zero _ 0).trans (bit_setBit_ne v 1 0 (by decide) (by decide)))

/-! What SCH_CTRL.CLEAR clears -/

theorem schClear_getR (u : State) (r : Reg) : u.schClear.getR r =
    if (SCH_Q_SAMPLES 0).off ≤ r.off ∧ r.off < (SCH_CQ_HWM 280).off then r.reset % 2 ^ 32 else u.getR r := by
  have found := find_filter_key u.regs (fun k => !(decide ((SCH_Q_SAMPLES 0).off ≤ k) && decide (k < (SCH_CQ_HWM 280).off))) r.off
  unfold State.getR Tbl.read State.schClear
  rw [found]
  by_cases inside : (SCH_Q_SAMPLES 0).off ≤ r.off ∧ r.off < (SCH_CQ_HWM 280).off
  · rw [if_pos inside, if_neg (by rw [decide_eq_true inside.1, decide_eq_true inside.2]; exact Bool.false_ne_true)]
    rfl
  · rw [if_neg inside, if_pos]
    rw [← Bool.decide_and, decide_eq_false inside]
    rfl

theorem pass_clears (run : s.fatal = false) (due : s.switch.clearDue = true) :
    let u := (s.cutAll.elapse 1).switchPass 1
    u.switch.clearDue = true → s.pass 1 = u.schClear.sw fun w => { w with clearDue := false } := by
  intro u still
  have ends : s.pass 1 = s.endFclk := by
    unfold State.pass
    rw [if_neg (by decide), if_neg (by rw [due]; simp), if_pos rfl]
  rw [ends]
  unfold State.endFclk
  rw [if_neg (ne_true_of_eq_false run)]
  exact if_pos still

theorem pass_clears_rows (run : s.fatal = false) (due : s.switch.clearDue = true) :
    let u := (s.cutAll.elapse 1).switchPass 1
    u.switch.clearDue = true → (s.pass 1).switch.clearDue = false ∧
      (∀ r : Reg, (SCH_Q_SAMPLES 0).off ≤ r.off → r.off < (SCH_CQ_HWM 280).off → (s.pass 1).getR r = r.reset % 2 ^ 32) ∧
      (∀ r : Reg, ¬((SCH_Q_SAMPLES 0).off ≤ r.off ∧ r.off < (SCH_CQ_HWM 280).off) → (s.pass 1).getR r = u.getR r) := by
  intro u still
  have cleared := pass_clears run due still
  refine ⟨?_, fun r above below => ?_, fun r outside => ?_⟩
  · rw [cleared]
    rfl
  · rw [cleared]
    exact (schClear_getR u r).trans (if_pos ⟨above, below⟩)
  · rw [cleared]
    exact (schClear_getR u r).trans (if_neg outside)

end

/-- Settles O44: sweeps, audits, the control registers, and what SCH_CTRL.CLEAR leaves. -/
theorem sweepsAndSwitchControl : Obligations.SweepsAndSwitchControl := by
  refine ⟨fun s q => ⟨sweepDone_none q, sweepDone_last⟩, fun s q => ⟨reclaimTimeout_none q, reclaimTimeout_frees⟩,
    fun v s _ => audit_asks v, fun s q => auditPeriodTimer_rows q, fun s q => ⟨auditDone_none q, fun a0 runs => ⟨auditDone_sweeping q runs, auditDone_shows runs⟩⟩,
    fun v s q taken run => ⟨swcEnable_enables q v taken run, swcDisable_rows q v taken run⟩, fun v s _ => schClear_asks v, fun s => pass_clears_rows⟩

end Sys2Proof.Machine
end

section
/-! The commands of PAT_CTRL and the check of an image (R29, R32, R33, R42). -/

namespace Sys2Proof.Machine

open Sys2Proof

/-! The commands of a value -/

/-- The four commands that a value of PAT_CTRL gives with one of them set. -/
theorem setBit_commands (v : Word) (k : Fin 4) : (setBit v k.val).toNat % 16 = putBits (v.toNat % 16) k.val 1 1 % 16 := by
  rw [setBit_toNat v k.val (by omega)]
  unfold putBits
  obtain ⟨k, known⟩ := k
  match k, known with
  | 0, _ => dsimp only; omega
  | 1, _ => dsimp only; omega
  | 2, _ => dsimp only; omega
  | 3, _ => dsimp only; omega

theorem popcount_commands (x : Nat) : popcount 4 x = popcount 4 (x % 16) := by
  simp only [popcount]
  omega

theorem bit_command (x : Nat) (i : Fin 4) : bit x i.val = bit (x % 16) i.val := by
  unfold bit
  obtain ⟨i, known⟩ := i
  refine congrArg (· == 1) ?_
  match i, known with
  | 0, _ => dsimp only; omega
  | 1, _ => dsimp only; omega
  | 2, _ => dsimp only; omega
  | 3, _ => dsimp only; omega

/-- What the command bits of a value with one of them set say: another one is set too, or none is. -/
theorem commands_table : ∀ (y : Fin 16) (k : Fin 4), let w := putBits y.val k.val 1 1 % 16
    (y.val &&& (15 ^^^ 2 ^ k.val) ≠ 0 → popcount 4 w > 1) ∧
    (y.val &&& (15 ^^^ 2 ^ k.val) = 0 → ¬popcount 4 w > 1 ∧ ∀ i : Fin 4, bit w i.val = decide (i = k)) := by
  decide +kernel

theorem setBit_alone (v : Word) (k : Fin 4) : let w := (setBit v k.val).toNat
    (bits v.toNat 0 4 &&& (15 ^^^ 2 ^ k.val) ≠ 0 → popcount 4 w > 1) ∧
    (bits v.toNat 0 4 &&& (15 ^^^ 2 ^ k.val) = 0 → ¬popcount 4 w > 1 ∧ ∀ i : Fin 4, bit w i.val = decide (i = k)) := by
  intro w
  obtain ⟨several, one⟩ := commands_table ⟨v.toNat % 16, Nat.mod_lt _ (by decide)⟩ k
  dsimp only at several one
  rw [← setBit_commands] at several one
  rw [bits_from_zero, popcount_commands]
  refine ⟨several, fun alone => ?_⟩
  obtain ⟨few, which⟩ := one alone
  exact ⟨few, fun i => (bit_command w i).trans (which i)⟩

section
variable {s : State} (q : Quiet s)

theorem patCtrl_starts (taken : Taken s PAT_CTRL) (v : Word) (k : Fin 3) :
    done (s.hostWrite PAT_CTRL (setBit v k.val)) =
      done (if bits v.toNat 0 4 &&& (15 ^^^ 2 ^ k.val) ≠ 0 then s.aerr 0 PAT_CTRL.off true 2 else s.startImage k.val) := by
  rw [s.hostWrite_PAT_CTRL _ taken]
  refine congrArg done ?_
  obtain ⟨several, one⟩ := setBit_alone v k.castSucc
  by_cases other : bits v.toNat 0 4 &&& (15 ^^^ 2 ^ k.val) ≠ 0
  · rw [if_pos other]
    exact if_pos (several other)
  · rw [if_neg other]
    obtain ⟨few, which⟩ := one (Decidable.not_not.mp other)
    refine (if_neg few).trans ?_
    have b0 : bit (setBit v k.val).toNat 0 = decide ((0 : Fin 4) = k.castSucc) := which 0
    have b1 : bit (setBit v k.val).toNat 1 = decide ((1 : Fin 4) = k.castSucc) := which 1
    have b2 : bit (setBit v k.val).toNat 2 = decide ((2 : Fin 4) = k.castSucc) := which 2
    rw [b0, b1, b2]
    match k with
    | 0 => rfl
    | 1 => rfl
    | 2 => rfl

/-- A check under way, whose image has been asked for. -/
def State.reading (s : State) (c : PatCheck) : State :=
  (({ s with pat := { s.pat with check := some c } } : State).set PAT_STATUS_BUSY 1).emit (.hostRead c.addr c.len)

theorem reading_shows (q : Quiet s) (c : PatCheck) : done (s.reading c) = .next (s.reading c) ∧
    (s.reading c).pat = { s.pat with check := some c } ∧ (s.reading c).flag PAT_STATUS_BUSY = true ∧
    (s.reading c).out = s.out ++ [.hostRead c.addr c.len] ∧ RegsKept [PAT_STATUS.off] s (s.reading c) := by
  have regs : (s.reading c).regs = (s.set PAT_STATUS_BUSY 1).regs := rfl
  refine ⟨done_same q rfl rfl, rfl, ?_, rfl, fun r out => ?_⟩
  · rw [State.flag_congr _ _ _ regs]
    exact State.flag_set_same _ _ _ (by decide)
  · rw [State.getR_congr _ _ _ regs]
    exact State.getR_set_ne _ _ _ _ (List.ne_of_not_mem_cons out)

theorem startImage_reads (op : Nat) (passes : s.startCheck op = none) :
    s.startImage op = s.reading { op := op, addr := s.getR64 PAT_LOAD_ADDR, len := s.get PAT_LOAD_LEN_LEN } := by
  unfold State.startImage
  rw [passes]
  rfl

theorem startImage_refused (op c : Nat) (refused : s.startCheck op = some c) : s.startImage op = s.patResult op { code := c } := by
  unfold State.startImage
  rw [refused]

theorem patCommands (q : Quiet s) (v : Word) (taken : Taken s PAT_CTRL) : ∀ x ∈ ([(.load v, 0), (.baste v, 1), (.drained v, 2)] : List (Instr × Nat)),
    (bits v.toNat 0 4 &&& (15 ^^^ 2 ^ x.2) ≠ 0 → Ends x.1 s (s.aerr 0 PAT_CTRL.off true 2)) ∧
    (bits v.toNat 0 4 &&& (15 ^^^ 2 ^ x.2) = 0 → ∀ c, s.startCheck x.2 = some c → Ends x.1 s (s.patResult x.2 { code := c })) ∧
    (bits v.toNat 0 4 &&& (15 ^^^ 2 ^ x.2) = 0 → s.startCheck x.2 = none → ∃ t, exec x.1 s = .next t ∧
      t.pat = { s.pat with check := some { op := x.2, addr := s.getR64 PAT_LOAD_ADDR, len := s.get PAT_LOAD_LEN_LEN } } ∧
      t.flag PAT_STATUS_BUSY = true ∧ t.out = s.out ++ [.hostRead (s.getR64 PAT_LOAD_ADDR) (s.get PAT_LOAD_LEN_LEN)] ∧
      RegsKept [PAT_STATUS.off] s t) := by
  have rows (i : Instr) (k : Fin 3) (write : exec i s = done (s.hostWrite PAT_CTRL (setBit v k.val))) :
      (bits v.toNat 0 4 &&& (15 ^^^ 2 ^ k.val) ≠ 0 → Ends i s (s.aerr 0 PAT_CTRL.off true 2)) ∧
      (bits v.toNat 0 4 &&& (15 ^^^ 2 ^ k.val) = 0 → ∀ c, s.startCheck k.val = some c → Ends i s (s.patResult k.val { code := c })) ∧
      (bits v.toNat 0 4 &&& (15 ^^^ 2 ^ k.val) = 0 → s.startCheck k.val = none → ∃ t, exec i s = .next t ∧
        t.pat = { s.pat with check := some { op := k.val, addr := s.getR64 PAT_LOAD_ADDR, len := s.get PAT_LOAD_LEN_LEN } } ∧
        t.flag PAT_STATUS_BUSY = true ∧ t.out = s.out ++ [.hostRead (s.getR64 PAT_LOAD_ADDR) (s.get PAT_LOAD_LEN_LEN)] ∧
        RegsKept [PAT_STATUS.off] s t) := by
    have row := write.trans (patCtrl_starts taken v k)
    refine ⟨fun several => row.trans (congrArg done (if_pos several)), fun alone c refused => ?_, fun alone passes => ?_⟩
    · exact row.trans (congrArg done ((if_neg fun several => several alone).trans (startImage_refused k.val c refused)))
    · obtain ⟨ends, shows⟩ := reading_shows q { op := k.val, addr := s.getR64 PAT_LOAD_ADDR, len := s.get PAT_LOAD_LEN_LEN }
      have starts := row.trans (congrArg done ((if_neg fun several => several alone).trans (startImage_reads k.val passes)))
      exact ⟨_, starts.trans ends, shows⟩
  intro x member
  simp only [List.mem_cons, List.not_mem_nil, or_false] at member
  rcases member with rfl | rfl | rfl
  · exact rows (.load v) 0 rfl
  · exact rows (.baste v) 1 rfl
  · exact rows (.drained v) 2 rfl

/-! The staged pieces -/

/-- What the release of a bank leaves: all but the bank and its VALID bit. -/
theorem setBank_keeps (epoch : Nat) (b : RouteBank) (valid : Bool) :
    let t := s.setBank epoch b valid
    t.pat.live = s.pat.live ∧ t.fault = s.fault ∧ t.switch = s.switch ∧ RegsKept [PAT_EPOCH_STATUS.off] s t := by
  intro t
  have apart (f : Fld) (x : Nat) (u : State) (h : f.reg = PAT_EPOCH_STATUS) (regs : u.regs = s.regs) : RegsKept [PAT_EPOCH_STATUS.off] s (u.set f x) :=
    fun r out => (State.getR_set_ne _ _ _ _ (by rw [h]; exact List.ne_of_not_mem_cons out)).trans (State.getR_congr s u r regs)
  by_cases zero : epoch = 0
  · rw [show t = ({ s with pat := { s.pat with bank0 := b } } : State).set PAT_EPOCH_STATUS_BANK0_VALID (b2n valid) from if_pos zero]
    exact ⟨rfl, rfl, rfl, apart _ _ _ rfl rfl⟩
  · rw [show t = ({ s with pat := { s.pat with bank1 := b } } : State).set PAT_EPOCH_STATUS_BANK1_VALID (b2n valid) from if_neg zero]
    exact ⟨rfl, rfl, rfl, apart _ _ _ rfl rfl⟩

theorem dropStaged_shows :
    let t := s.dropStaged
    t.flag PAT_STATUS_STAGED = false ∧ t.pat.staged = [] ∧ t.pat.live = s.pat.live ∧ t.fault = s.fault ∧ t.switch = s.switch ∧
      RegsKept [PAT_STATUS.off, PAT_EPOCH_STATUS.off] s t := by
  intro t
  let u := if s.routeStaged then s.setBank s.otherEpoch {} false else s
  have bank : u.pat.live = s.pat.live ∧ u.fault = s.fault ∧ u.switch = s.switch ∧ RegsKept [PAT_EPOCH_STATUS.off] s u := by
    by_cases routes : s.routeStaged = true
    · rw [show u = s.setBank s.otherEpoch {} false from if_pos routes]
      exact setBank_keeps _ _ _
    · rw [show u = s from if_neg routes]
      exact ⟨rfl, rfl, rfl, fun _ _ => rfl⟩
  obtain ⟨live, fault, switch, kept⟩ := bank
  refine ⟨State.flag_set_same _ _ _ (by decide), rfl, live, fault, switch, fun r out => ?_⟩
  simp only [List.mem_cons, List.not_mem_nil, or_false, not_or] at out
  obtain ⟨status, epoch⟩ := out
  refine (State.getR_set_ne _ _ _ _ status).trans ?_
  exact (State.getR_congr u _ r rfl).trans (kept r (by simpa using epoch))

theorem discardBaste_rows (q : Quiet s) (v : Word) (taken : Taken s PAT_CTRL) (alone : bits v.toNat 0 3 = 0) :
    (s.flag PAT_STATUS_ARMED = true → exec (.discardBaste v) s = .next s) ∧
    (s.flag PAT_STATUS_ARMED = false → ∃ t, exec (.discardBaste v) s = .next t ∧ t.flag PAT_STATUS_STAGED = false ∧ t.pat.staged = [] ∧
      t.pat.live = s.pat.live ∧ RegsKept [PAT_STATUS.off, PAT_EPOCH_STATUS.off] s t) := by
  have low : bits v.toNat 0 4 &&& (15 ^^^ 2 ^ (3 : Fin 4).val) = 0 := by
    have table : ∀ y : Fin 16, y.val % 8 = 0 → y.val &&& (15 ^^^ 2 ^ (3 : Fin 4).val) = 0 := by decide +kernel
    rw [bits_from_zero] at alone ⊢
    exact table ⟨v.toNat % 16, Nat.mod_lt _ (by decide)⟩ (by dsimp only; omega)
  obtain ⟨few, which⟩ := (setBit_alone v 3).2 low
  have row : exec (.discardBaste v) s = done (if !s.flag PAT_STATUS_ARMED then s.dropStaged else s) := by
    change done (s.hostWrite PAT_CTRL (setBit v 3)) = _
    rw [s.hostWrite_PAT_CTRL _ taken]
    refine congrArg done ((if_neg few).trans ?_)
    have b0 : bit (setBit v 3).toNat 0 = false := which 0
    have b1 : bit (setBit v 3).toNat 1 = false := which 1
    have b2 : bit (setBit v 3).toNat 2 = false := which 2
    have b3 : bit (setBit v 3).toNat 3 = true := which 3
    rw [b0, b1, b2, b3]
    exact (if_neg Bool.false_ne_true).trans ((if_neg Bool.false_ne_true).trans (if_neg Bool.false_ne_true))
  refine ⟨fun armed => ?_, fun unarmed => ?_⟩
  · rw [armed] at row
    exact row.trans (done_quiet q)
  · rw [unarmed] at row
    obtain ⟨staged, none_, live, fault, switch, kept⟩ := dropStaged_shows (s := s)
    exact ⟨s.dropStaged, row.trans (done_same q fault switch), staged, none_, live, kept⟩

/-! The check of an image -/

theorem patternCheckDone_none {image : Option (List Byte)} (q : Quiet s) (none_ : s.pat.check = none) : exec (.patternCheckDone image) s = .next s := by
  change execPatternCheckDone image s = _
  unfold execPatternCheckDone
  rw [none_]
  exact done_quiet q

theorem acceptImage_by (u : State) (bs : List Byte) :
    let ps := (entriesOf bs).map (·.piece bs)
    let hash := sha256 (bs.take (bs.length - 1024))
    acceptImage u 0 bs = u.install ps (field bs 0x0C 4) hash ∧ acceptImage u 1 bs = u.stage ps (field bs 0x0C 4) hash ∧
      acceptImage u 2 bs = u.drained ps (field bs 0x0C 4) hash := by
  intro ps hash
  unfold acceptImage
  refine ⟨?_, ?_, ?_⟩
  · exact if_pos rfl
  · rw [if_neg (by decide), if_pos rfl]
  · rw [if_neg (by decide), if_neg (by decide)]

theorem patternCheckDone_rows {image : Option (List Byte)} {c : PatCheck} (run : s.fatal = false) (checks : s.pat.check = some c) :
    let u := { s with pat := { s.pat with check := none } }.set PAT_STATUS_BUSY 0
    (image = none → Ends (.patternCheckDone image) s (u.patResult c.op { code := 0x14 })) ∧
    ∀ raw, image = some raw →
      (∀ r, u.imageCheck c.op (slice raw 0 c.len) = some r → Ends (.patternCheckDone image) s (u.patResult c.op r)) ∧
      (u.imageCheck c.op (slice raw 0 c.len) = none → c.op ≤ 2 →
        Ends (.patternCheckDone image) s ((acceptImage u c.op (slice raw 0 c.len)).patResult c.op { code := 0 })) := by
  intro u
  obtain ⟨op, addr, len⟩ := c
  have live : ¬s.fatal = true := ne_true_of_eq_false run
  refine ⟨?_, fun raw => ?_⟩
  · rintro rfl
    change execPatternCheckDone none s = _
    unfold execPatternCheckDone
    rw [checks]
    exact if_neg live
  · rintro rfl
    refine ⟨fun r refused => ?_, fun accepted known => ?_⟩
    · change execPatternCheckDone (some raw) s = _
      unfold execPatternCheckDone
      rw [checks]
      dsimp only
      rw [if_neg live, show (({ s with pat := { s.pat with check := none } } : State).set PAT_STATUS_BUSY 0).imageCheck op (slice raw 0 len) = some r from refused]
      rfl
    · change execPatternCheckDone (some raw) s = _
      unfold execPatternCheckDone
      rw [checks]
      dsimp only
      rw [if_neg live, show (({ s with pat := { s.pat with check := none } } : State).set PAT_STATUS_BUSY 0).imageCheck op (slice raw 0 len) = none from accepted]
      match op, known with
      | 0, _ => rw [(acceptImage_by u (slice raw 0 len)).1]; rfl
      | 1, _ => rw [(acceptImage_by u (slice raw 0 len)).2.1]; rfl
      | 2, _ => rw [(acceptImage_by u (slice raw 0 len)).2.2]; rfl

end

/-- Settles O45: one command at a time, the read of its image, and what its check installs, stages, applies or refuses. -/
theorem patternImages : Obligations.PatternImages :=
  ⟨fun v _ q taken => patCommands q v taken, fun v _ q taken => discardBaste_rows q v taken, fun _ _ q => patternCheckDone_none q,
    fun _ _ _ _ run => patternCheckDone_rows run⟩

end Sys2Proof.Machine
end

section
/-! Arming, cancelling and applying a seam, and the release of the old bank (R37, R38, R40, R41). -/

namespace Sys2Proof.Machine

open Sys2Proof

/-! Arming and cancelling -/

section
variable {s : State} {v : Word}

/-- The generation of a value stands above its ARM bit. -/
theorem seamGen (v : Word) : bits (setBit v 0).toNat 16 16 = bits v.toNat 16 16 ∧ bits (clearBit v 0).toNat 16 16 = bits v.toNat 16 16 ∧
    (setBit v 0).toNat % 2 = 1 ∧ (clearBit v 0).toNat % 2 = 0 := by
  rw [setBit_toNat v 0 (by decide), clearBit_toNat v 0 (by decide)]
  have low (x : Nat) : putBits v.toNat 0 1 x % 2 = x % 2 := by
    have same := bits_putBits_same v.toNat 0 1 x
    rw [bits_from_zero] at same
    exact same
  exact ⟨bits_putBits_above _ _ _ _ _ _ (by decide), bits_putBits_above _ _ _ _ _ _ (by decide), low 1, low 0⟩

/-- An armed device refuses another arm before it looks at the time. -/
theorem armRefusal_missed {gen : Nat} (missed : s.armRefusal gen = some 0x21) : s.flag PAT_STATUS_ARMED = false := by
  refine Bool.eq_false_iff.mpr fun armed => ?_
  unfold State.armRefusal at missed
  rw [armed, Bool.or_true] at missed
  split at missed
  · cases missed
  · cases missed

theorem arm_row (taken : Taken s PAT_SEAM_CTRL) (v : Word) :
    let gen := bits v.toNat 16 16
    let stored := s.setR PAT_SEAM_CTRL (gen * 2 ^ 16 + 1)
    (s.armRefusal gen = none → exec (.arm v) s = done ((stored.set PAT_STATUS_ARMED 1).patResult 3 { code := 0 })) ∧
    (∀ c, s.armRefusal gen = some c →
      let u := if s.flag PAT_STATUS_ARMED then s else stored.set PAT_SEAM_CTRL_ARM 0
      let k := if c = 0x21 then (u.set PAT_STATUS_MISSED 1).count PAT_SEAM_MISS_COUNT_COUNT else u
      exec (.arm v) s = done (k.patResult 3 { code := c })) := by
  intro gen stored
  obtain ⟨high, -, one, -⟩ := seamGen v
  have write : exec (.arm v) s = done (s.seamCtrl PAT_SEAM_CTRL.off (setBit v 0).toNat) := congrArg done (s.hostWrite_PAT_SEAM_CTRL _ taken)
  refine ⟨fun passes => write.trans (congrArg done ?_), fun c refused => write.trans (congrArg done ?_)⟩
  · unfold State.seamCtrl
    dsimp only
    rw [if_pos (bit_setBit_same v 0 (by decide)), high, one, show s.armRefusal (bits v.toNat 16 16) = none from passes]
  · unfold State.seamCtrl
    dsimp only
    rw [if_pos (bit_setBit_same v 0 (by decide)), high, one, show s.armRefusal (bits v.toNat 16 16) = some c from refused]

theorem arm_rows (taken : Taken s PAT_SEAM_CTRL) (v : Word) :
    let gen := bits v.toNat 16 16
    (s.armRefusal gen = none →
      Ends (.arm v) s (((s.setR PAT_SEAM_CTRL (gen * 2 ^ 16 + 1)).set PAT_STATUS_ARMED 1).patResult 3 { code := 0 })) ∧
    (∀ c, s.armRefusal gen = some c → s.flag PAT_STATUS_ARMED = true → c ≠ 0x21 → Ends (.arm v) s (s.patResult 3 { code := c })) ∧
    (∀ c, s.armRefusal gen = some c → s.flag PAT_STATUS_ARMED = false → c ≠ 0x21 →
      Ends (.arm v) s (((s.setR PAT_SEAM_CTRL (gen * 2 ^ 16 + 1)).set PAT_SEAM_CTRL_ARM 0).patResult 3 { code := c })) ∧
    (s.armRefusal gen = some 0x21 → Ends (.arm v) s (((((s.setR PAT_SEAM_CTRL (gen * 2 ^ 16 + 1)).set PAT_SEAM_CTRL_ARM 0).set PAT_STATUS_MISSED 1).count
      PAT_SEAM_MISS_COUNT_COUNT).patResult 3 { code := 0x21 })) := by
  intro gen
  obtain ⟨arms, refuses⟩ := arm_row taken v
  refine ⟨arms, fun c refused armed other => ?_, fun c refused unarmed other => ?_, fun missed => ?_⟩
  · have row := refuses c refused
    dsimp only at row
    rw [if_pos armed, if_neg other] at row
    exact row
  · have row := refuses c refused
    dsimp only at row
    rw [if_neg (ne_true_of_eq_false unarmed), if_neg other] at row
    exact row
  · have row := refuses 0x21 missed
    dsimp only at row
    rw [if_neg (ne_true_of_eq_false (armRefusal_missed missed)), if_pos rfl] at row
    exact row

theorem seamCancel_row (taken : Taken s PAT_SEAM_CTRL) (v : Word) :
    exec (.seamCancel v) s = done (if s.flag PAT_STATUS_ARMED && decide (s.get64 PAT_SEAM_TIME_T ≤ s.ft) then s.aerr 0 PAT_SEAM_CTRL.off true 2
      else (s.setR PAT_SEAM_CTRL (bits v.toNat 16 16 * 2 ^ 16)).set PAT_STATUS_ARMED 0) := by
  obtain ⟨-, high, -, zero⟩ := seamGen v
  change done (s.hostWrite PAT_SEAM_CTRL (clearBit v 0)) = _
  rw [s.hostWrite_PAT_SEAM_CTRL _ taken]
  unfold State.seamCtrl
  dsimp only
  rw [if_neg (ne_true_of_eq_false (bit_clearBit_same v 0 (by decide))), high, zero, Nat.add_zero]
  rfl

theorem seamCancel_rows (q : Quiet s) (taken : Taken s PAT_SEAM_CTRL) (v : Word) :
    (s.flag PAT_STATUS_ARMED = true → s.get64 PAT_SEAM_TIME_T ≤ s.ft → Ends (.seamCancel v) s (s.aerr 0 PAT_SEAM_CTRL.off true 2)) ∧
    ((s.flag PAT_STATUS_ARMED = false ∨ s.ft < s.get64 PAT_SEAM_TIME_T) →
      ∃ t, exec (.seamCancel v) s = .next t ∧ t.flag PAT_STATUS_ARMED = false ∧ t.getR PAT_SEAM_CTRL = bits v.toNat 16 16 * 2 ^ 16 ∧
        t.flag PAT_STATUS_STAGED = s.flag PAT_STATUS_STAGED ∧ RegsKept [PAT_SEAM_CTRL.off, PAT_STATUS.off] s t ∧ RegsOnly s t) := by
  have row := seamCancel_row taken v
  refine ⟨fun armed late => row.trans (congrArg done (if_pos ?_)), fun free => ?_⟩
  · rw [armed, decide_eq_true late]
    rfl
  · have early : ¬(s.flag PAT_STATUS_ARMED && decide (s.get64 PAT_SEAM_TIME_T ≤ s.ft)) = true := by
      intro h
      obtain ⟨armed, late⟩ := Bool.and_eq_true_iff.mp h
      rcases free with unarmed | early
      · exact ne_true_of_eq_false unarmed armed
      · exact absurd (of_decide_eq_true late) (Nat.not_le.mpr early)
    rw [if_neg early] at row
    have status : (PAT_STATUS).off ≠ PAT_SEAM_CTRL.off := by decide
    have small : bits v.toNat 16 16 * 2 ^ 16 < 2 ^ 32 := by
      have := bits_lt v.toNat 16 16
      omega
    refine ⟨_, row.trans (done_same q rfl rfl), State.flag_set_same _ _ _ (by decide), ?_, ?_, fun r out => ?_,
      RegsOnly.set (RegsOnly.setR (RegsOnly.refl s) _ _) _ _⟩
    · rw [State.getR_set_ne _ _ _ _ status.symm, State.getR_setR_same, Nat.mod_eq_of_lt small]
    · refine (congrArg (· != 0) (State.get_set_apart _ PAT_STATUS_ARMED PAT_STATUS_STAGED 0 rfl (by decide) (.inl (by decide)))).trans ?_
      exact State.flag_setR_ne _ _ _ _ status
    · simp only [List.mem_cons, List.not_mem_nil, or_false, not_or] at out
      rw [State.getR_set_ne _ _ _ _ out.2, State.getR_setR_ne _ _ _ _ out.1]

end

/-! What the tracing and the choices of the outputs leave alone -/

/-- Nothing but registers, the trace unit's state and the choices of the outputs differs. -/
def OutsOnly (s t : State) : Prop := ∃ regs obs outs, t = { s with regs := regs, obs := obs, switch := { s.switch with outs := outs } }

theorem OutsOnly.refl (s : State) : OutsOnly s s := ⟨_, _, _, rfl⟩

theorem OutsOnly.trans {s t u : State} (h : OutsOnly s t) (k : OutsOnly t u) : OutsOnly s u := by
  obtain ⟨r, o, x, rfl⟩ := h
  obtain ⟨r', o', x', rfl⟩ := k
  exact ⟨r', o', x', rfl⟩

theorem OutsOnly.obs {s t : State} (h : OutsOnly s t) (o : ObsState) : OutsOnly s { t with obs := o } := h.trans ⟨_, _, _, rfl⟩

theorem OutsOnly.set {s t : State} (h : OutsOnly s t) (f : Fld) (v : Nat) : OutsOnly s (t.set f v) := h.trans ⟨_, _, _, rfl⟩

theorem OutsOnly.modOut {s t : State} (h : OutsOnly s t) (o : Nat) (f : OutSt → OutSt) : OutsOnly s (t.modOut o f) := h.trans ⟨_, _, _, rfl⟩

theorem OutsOnly.foldl {α : Type} {f : State → α → State} (h : ∀ u a, OutsOnly u (f u a)) (l : List α) (s : State) : OutsOnly s (l.foldl f s) := by
  induction l generalizing s with
  | nil => exact .refl s
  | cons a l ih => exact (h s a).trans (ih _)

theorem tracePut_outsOnly (s : State) (r : TRec) : OutsOnly s (s.tracePut r) := by
  unfold State.tracePut
  dsimp only
  split
  · exact OutsOnly.obs ((OutsOnly.refl s).set _ _) _
  · split
    · exact (((OutsOnly.refl s).obs _).set _ _).set _ _
    · exact ((OutsOnly.refl s).obs _).set _ _

theorem traceGap_outsOnly (s : State) : OutsOnly s s.traceGap := by
  unfold State.traceGap
  split
  · exact .refl s
  · exact OutsOnly.trans ((OutsOnly.refl s).obs _) (tracePut_outsOnly _ _)

theorem traceFire_outsOnly (s : State) (cause : Nat) (m : Option TRec) : OutsOnly s (s.traceFire cause m) := by
  unfold State.traceFire
  dsimp only
  split
  · exact .refl s
  · refine OutsOnly.obs (OutsOnly.set (OutsOnly.set ?_ _ _) _ _) _
    exact ((traceGap_outsOnly s).set _ _).trans (tracePut_outsOnly _ _)

theorem traceCheck_outsOnly (s : State) (r : TRec) : OutsOnly s (s.traceCheck r) := by
  unfold State.traceCheck
  split
  · dsimp only
    split
    · split
      · exact OutsOnly.trans ((OutsOnly.refl s).obs _) (traceFire_outsOnly _ _ _)
      · exact (OutsOnly.refl s).obs _
    · exact .refl s
  · exact .refl s

theorem trace_outsOnly (s : State) (type unit sub addr d0 d1 : Nat) : OutsOnly s (s.trace type unit sub addr d0 d1) := by
  unfold State.trace
  split
  · dsimp only
    split
    · exact .refl s
    · split
      · exact (OutsOnly.refl s).obs _
      · exact OutsOnly.trans (((OutsOnly.refl s).set _ _).obs _) (traceCheck_outsOnly _ _)
  · exact .refl s

theorem settleTok_outsOnly (s : State) (o t : Nat) : OutsOnly s (s.settleTok o t) := by
  unfold State.settleTok
  dsimp only
  split
  · exact (OutsOnly.refl s).modOut _ _
  · exact ((OutsOnly.refl s).set _ _).modOut _ _

theorem refreshClass_outsOnly (s : State) (o t : Nat) (ctl : Bool) (c : Nat) : OutsOnly s (s.refreshClass o t ctl c) := by
  have out (f : OutSt → OutSt) := (OutsOnly.refl s).modOut o f
  unfold State.refreshClass
  dsimp only
  repeat' split
  all_goals simp only [out, OutsOnly.refl]

theorem refreshOut_outsOnly (s : State) (o t : Nat) : OutsOnly s (s.refreshOut o t) :=
  OutsOnly.foldl (fun u c => (refreshClass_outsOnly u o t true c).trans (refreshClass_outsOnly _ o t false c)) _ s

/-- Neither the pattern nor the pending RWB writes differ. -/
def PatKept (s t : State) : Prop := t.pat = s.pat ∧ t.shadow = s.shadow

theorem PatKept.refl (s : State) : PatKept s s := ⟨rfl, rfl⟩

theorem PatKept.trans {s t u : State} (h : PatKept s t) (k : PatKept t u) : PatKept s u := ⟨k.1.trans h.1, k.2.trans h.2⟩

theorem OutsOnly.patKept {s t : State} (h : OutsOnly s t) : PatKept s t := by
  obtain ⟨r, o, x, rfl⟩ := h
  exact ⟨rfl, rfl⟩

theorem PatKept.fault {s t : State} (h : PatKept s t) (f : FaultState) : PatKept s { t with fault := f } := h

theorem PatKept.setR {s t : State} (h : PatKept s t) (r : Reg) (v : Nat) : PatKept s (t.setR r v) := h

theorem PatKept.set {s t : State} (h : PatKept s t) (f : Fld) (v : Nat) : PatKept s (t.set f v) := h

theorem PatKept.modOut {s t : State} (h : PatKept s t) (o : Nat) (f : OutSt → OutSt) : PatKept s (t.modOut o f) := h

theorem PatKept.foldl {α : Type} {f : State → α → State} (h : ∀ u a, PatKept u (f u a)) (l : List α) (s : State) : PatKept s (l.foldl f s) := by
  induction l generalizing s with
  | nil => exact .refl s
  | cons a l ih => exact (h s a).trans (ih _)

theorem raiseVec_patKept (s : State) (v : Nat) : PatKept s (s.raiseVec v) := by
  obtain ⟨x, o, shape⟩ := (HostOnly.refl s).raiseVec v
  rw [shape]
  exact ⟨rfl, rfl⟩

/-! The seam -/

theorem PatKept.list {f : State → Nat → State} (h : ∀ u o, PatKept u (f u o)) (os : List Nat) {s t : State} (k : PatKept s t) :
    PatKept s (os.foldl f t) := k.trans (PatKept.foldl h os t)

/-- The live pieces become those given, and the pending RWB writes stay. -/
theorem liveBecomes_shows (s : State) (ps : List Piece) : (s.liveBecomes ps).pat.live = ps ∧ (s.liveBecomes ps).shadow = s.shadow := by
  obtain ⟨outs, all⟩ : ∃ outs, outs = List.range 35 := ⟨_, rfl⟩
  let u := outs.foldl (fun k o => (k.settleTok o s.tu).refreshOut o s.tu) s
  let v : State := { u.keepShapes with pat := { u.keepShapes.pat with live := ps } }
  have before : PatKept s u := (OutsOnly.foldl (fun k o => (settleTok_outsOnly k o _).trans (refreshOut_outsOnly _ o _)) _ s).patKept
  have after : PatKept v (s.liveBecomes ps) := by
    unfold State.liveBecomes
    dsimp only
    rw [← all]
    refine PatKept.list (fun k o => (refreshOut_outsOnly k o _).patKept) _ ?_
    refine PatKept.fault ?_ _
    refine PatKept.list (fun k o => ?_) _ (PatKept.list (fun k o => ?_) _ (.refl _))
    · split
      · exact (PatKept.refl k).modOut _ _
      · exact .refl k
    · split
      · exact (PatKept.refl k).set _ _
      · exact .refl k
  exact ⟨congrArg (·.live) after.1, after.2.trans before.2⟩

/-- A pending RWB write becomes live. -/
def State.shadowLive (s : State) (w : Nat × Word) : State :=
  s.setR (regOf w.1) (maskIn (s.getR (regOf w.1)) w.2.toNat (((regAt w.1).map (·.1.rwb)).getD 0))

theorem shadowLive_patKept (s : State) (w : Nat × Word) : PatKept s (s.shadowLive w) := (PatKept.refl s).setR _ _

theorem applyShadow_eq (s : State) : s.applyShadow = { s.shadow.foldl State.shadowLive s with shadow := [] } := rfl

theorem applyShadow_shows (s : State) : s.applyShadow.pat = s.pat ∧ s.applyShadow.shadow = [] := by
  have kept := PatKept.foldl shadowLive_patKept s.shadow s
  rw [applyShadow_eq]
  exact ⟨kept.1, rfl⟩

/-- The staged pieces are live: the shadow generation is empty. -/
def State.seamTaken (s : State) (staged : List Piece) (hash : List Byte) : State :=
  { s with pat := { s.pat with staged := [], stagedHash := [], appliedHash := hash }
           obs := if hasType staged 0xB then { s.obs with matched := 0 } else s.obs }

theorem seamTaken_shows (s : State) (staged : List Piece) (hash : List Byte) :
    (s.seamTaken staged hash).pat.live = s.pat.live ∧ (s.seamTaken staged hash).shadow = s.shadow := ⟨rfl, rfl⟩

/-- The staged pieces of a seam take their place among the live ones. -/
def State.seamPieces (s : State) (staged : List Piece) : State :=
  let t := (s.liveBecomes (mergePieces s.pat.live staged)).seamTaken staged s.pat.stagedHash
  t.setR PAT_GEN_LIVE (t.getR PAT_GEN_STAGED)

theorem seamPieces_shows (s : State) (staged : List Piece) :
    (s.seamPieces staged).pat.live = mergePieces s.pat.live staged ∧ (s.seamPieces staged).shadow = s.shadow := by
  unfold State.seamPieces
  dsimp only
  obtain ⟨live, shadow⟩ := liveBecomes_shows s (mergePieces s.pat.live staged)
  generalize s.liveBecomes (mergePieces s.pat.live staged) = k at *
  obtain ⟨same, kept⟩ := seamTaken_shows k staged s.pat.stagedHash
  rw [State.setR_pat, State.setR_shadow]
  exact ⟨same.trans live, kept.trans shadow⟩

/-- The last steps of a seam: what it shows of itself. -/
def State.seamShown (s : State) (report : Nat) : State :=
  let s := (s.setR64 PAT_SEAM_APPLIED s.ft).setR PAT_SEAM_REPORT report
  let s := ((s.set PAT_STATUS_ARMED 0).set PAT_STATUS_STAGED 0).set PAT_SEAM_CTRL_ARM 0
  let s := (s.set PAT_STATUS_SEAM_DONE 1).raiseVec 1
  s.trace trSeam 0xD8 0 0 report s.ft

theorem seamShown_patKept (s : State) (report : Nat) : PatKept s (s.seamShown report) := by
  unfold State.seamShown
  dsimp only
  refine PatKept.trans (PatKept.trans ?_ (raiseVec_patKept _ _)) (trace_outsOnly _ _ _ _ _ _ _).patKept
  exact (((((PatKept.refl s).setR _ _).setR _ _).setR _ _).set _ _).set _ _ |>.set _ _ |>.set _ _

theorem seamShown_flags (s : State) (report : Nat) : (s.seamShown report).flag PAT_STATUS_ARMED = false ∧
    (s.seamShown report).flag PAT_STATUS_STAGED = false ∧ (s.seamShown report).flag PAT_STATUS_SEAM_DONE = true := by
  unfold State.seamShown
  dsimp only
  generalize (s.setR64 PAT_SEAM_APPLIED s.ft).setR PAT_SEAM_REPORT report = u
  let k := (((u.set PAT_STATUS_ARMED 0).set PAT_STATUS_STAGED 0).set PAT_SEAM_CTRL_ARM 0).set PAT_STATUS_SEAM_DONE 1
  have low (f : Fld) (h : f.reg = PAT_STATUS) : ((k.raiseVec 1).trace trSeam 0xD8 0 0 report (k.raiseVec 1).ft).flag f = k.flag f :=
    ((State.trace_lowKept _ _ _ _ _ _ _).flag f (by rw [h]; decide)).trans (State.flag_congr _ _ _ (State.raiseVec_regs _ _))
  have apart (w : State) (f g : Fld) (x : Nat) (hr : g.reg = f.reg) (hf : f.lo + f.width ≤ 32) (h : g.lo + g.width ≤ f.lo ∨ f.lo + f.width ≤ g.lo) :
      (w.set f x).flag g = w.flag g := congrArg (· != 0) (State.get_set_apart w f g x hr hf h)
  refine ⟨(low _ rfl).trans ?_, (low _ rfl).trans ?_, (low _ rfl).trans (State.flag_set_same _ _ _ (by decide))⟩
  · rw [show k.flag PAT_STATUS_ARMED = _ from apart _ _ _ _ rfl (by decide) (.inl (by decide))]
    rw [State.flag_set_ne _ _ _ _ (by decide), apart _ PAT_STATUS_STAGED PAT_STATUS_ARMED 0 rfl (by decide) (.inr (by decide))]
    exact State.flag_set_same _ _ _ (by decide)
  · rw [show k.flag PAT_STATUS_STAGED = _ from apart _ _ _ _ rfl (by decide) (.inl (by decide))]
    rw [State.flag_set_ne _ _ _ _ (by decide)]
    exact State.flag_set_same _ _ _ (by decide)

/-- The change of epoch of a seam with ROUTE pieces. -/
def State.seamEpoch (s : State) (toggles : Bool) : State :=
  if toggles then (s.set PAT_EPOCH_STATUS_CUR_EPOCH s.otherEpoch).set PAT_EPOCH_STATUS_OLD_DRAINING 1 else s

theorem seamEpoch_patKept (s : State) (toggles : Bool) : PatKept s (s.seamEpoch toggles) := by
  cases toggles with
  | false => exact .refl s
  | true => exact ((PatKept.refl s).set PAT_EPOCH_STATUS_CUR_EPOCH _).set PAT_EPOCH_STATUS_OLD_DRAINING 1

theorem applySeam_eq (s : State) :
    ∃ report, s.applySeam = ((if s.flag PAT_STATUS_STAGED then s.applyShadow.seamPieces s.pat.staged else s.applyShadow).seamEpoch
      (s.flag PAT_STATUS_STAGED && hasType s.pat.staged 3)).seamShown report := ⟨_, rfl⟩

theorem applySeam_shows (u : State) : u.applySeam.flag PAT_STATUS_ARMED = false ∧ u.applySeam.flag PAT_STATUS_STAGED = false ∧
    u.applySeam.flag PAT_STATUS_SEAM_DONE = true ∧ u.applySeam.shadow = [] ∧
    u.applySeam.pat.live = (if u.flag PAT_STATUS_STAGED then mergePieces u.pat.live u.pat.staged else u.pat.live) := by
  obtain ⟨report, shape⟩ := applySeam_eq u
  rw [shape]
  obtain ⟨before, none_⟩ := applyShadow_shows u
  obtain ⟨live, shadow⟩ := seamPieces_shows u.applyShadow u.pat.staged
  generalize u.applyShadow.seamPieces u.pat.staged = on at *
  generalize u.applyShadow = off at *
  have taken : (if u.flag PAT_STATUS_STAGED then on else off).shadow = [] ∧ (if u.flag PAT_STATUS_STAGED then on else off).pat.live =
      (if u.flag PAT_STATUS_STAGED then mergePieces u.pat.live u.pat.staged else u.pat.live) := by
    by_cases staged : u.flag PAT_STATUS_STAGED = true
    · rw [if_pos staged, if_pos staged, shadow, live, before]
      exact ⟨none_, rfl⟩
    · rw [if_neg staged, if_neg staged, before]
      exact ⟨none_, rfl⟩
  generalize (if u.flag PAT_STATUS_STAGED then on else off) = k at *
  generalize (u.flag PAT_STATUS_STAGED && hasType u.pat.staged 3) = toggles
  obtain ⟨armed, staged, shown⟩ := seamShown_flags (k.seamEpoch toggles) report
  have kept := (seamEpoch_patKept k toggles).trans (seamShown_patKept _ report)
  exact ⟨armed, staged, shown, kept.2.trans taken.1, (congrArg (·.live) kept.1).trans taken.2⟩

section
variable {s : State} (q : Quiet s) (run : s.fatal = false)
include q run

theorem seamApply_rows : (s.flag PAT_STATUS_ARMED = false → exec .seamApply s = .next s) ∧
    (s.flag PAT_STATUS_ARMED = true →
      let u := s.passToFt (s.get64 PAT_SEAM_TIME_T)
      Ends .seamApply s u.applySeam ∧ u.applySeam.flag PAT_STATUS_ARMED = false ∧ u.applySeam.flag PAT_STATUS_STAGED = false ∧
        u.applySeam.flag PAT_STATUS_SEAM_DONE = true ∧ u.applySeam.shadow = [] ∧
        u.applySeam.pat.live = (if u.flag PAT_STATUS_STAGED then mergePieces u.pat.live u.pat.staged else u.pat.live)) := by
  refine ⟨fun unarmed => (if_pos ?_).trans (done_quiet q), fun armed => ⟨if_neg ?_, applySeam_shows _⟩⟩
  · rw [unarmed, Bool.or_eq_true]
    exact .inr rfl
  · rw [run, armed]
    exact Bool.false_ne_true

/-! The old bank -/

omit q run in
theorem drainedAll_iff : s.drainedAll = true ↔ ∀ p < 35, s.drainCount p = 0 := by
  simp only [State.drainedAll, List.all_eq_true, List.mem_range, beq_iff_eq]

theorem oldBankRelease_rows :
    (s.flag PAT_EPOCH_STATUS_OLD_DRAINING = true → (∀ p < 35, s.drainCount p = 0) →
      Ends .oldBankRelease s ((s.setBank (1 - s.curEpoch) {} false).set PAT_EPOCH_STATUS_OLD_DRAINING 0)) ∧
    ((s.flag PAT_EPOCH_STATUS_OLD_DRAINING = false ∨ ∃ p < 35, s.drainCount p ≠ 0) → exec .oldBankRelease s = .next s) := by
  refine ⟨fun drains empty => if_neg ?_, fun held => (if_pos ?_).trans (done_quiet q)⟩
  · rw [run, drains, drainedAll_iff.mpr empty]
    exact Bool.false_ne_true
  · rcases held with released | ⟨p, member, counts⟩
    · rw [released, run]
      rfl
    · have full : s.drainedAll = false := Bool.eq_false_iff.mpr fun h => counts (drainedAll_iff.mp h p member)
      rw [full, Bool.or_eq_true]
      exact .inr rfl

end

/-- Settles O46: the arm and its refusals, the cancel, the seam, and the release of the old bank. -/
theorem seamCommands : Obligations.SeamCommands := by
  refine ⟨fun v s q taken => ?_, fun _ q run => seamApply_rows q run, fun _ q run => oldBankRelease_rows q run⟩
  obtain ⟨arms, armed, unarmed, missed⟩ := arm_rows taken v
  obtain ⟨late, early⟩ := seamCancel_rows q taken v
  exact ⟨arms, armed, unarmed, missed, late, early⟩

end Sys2Proof.Machine
end

section
/-! The end of a replay (R344), and why it does not leave the determinism state alone. -/

namespace Sys2Proof.Machine

open Sys2Proof

/-- A core that has caught up replays no step any more. -/
theorem caughtUp_replayStep {s : State} {L : Nat} (replays : s.flag (DET_CORE_REPLAY_REPLAYING L) = true) :
    ((s.caughtUp L).cdet L).replayStep = none := by
  unfold State.caughtUp
  rw [if_pos replays]
  exact congrArg CoreDet.replayStep (Tbl.read_write_same _ _ _ _)

theorem exec_replayCaughtUp {core : CoreIx} {s : State} (run : s.fatal = false) (replays : s.flag (DET_CORE_REPLAY_REPLAYING core.val) = true)
    (reached : (s.cdet core.val).faultCount ≤ (s.cdet core.val).count) : exec (.replayCaughtUp core) s = done (s.caughtUp core.val) :=
  congrArg done (if_pos (by rw [run, replays, decide_eq_true reached]; rfl))

/-- A core that has caught up with a step it replayed is not changed in its registers alone. -/
theorem replayCaughtUp_not_regsOnly {core : CoreIx} {s : State} (q : Quiet s) (run : s.fatal = false)
    (replays : s.flag (DET_CORE_REPLAY_REPLAYING core.val) = true) (reached : (s.cdet core.val).faultCount ≤ (s.cdet core.val).count)
    (step : (s.cdet core.val).replayStep ≠ none) : ¬∃ t, exec (.replayCaughtUp core) s = .next t ∧ RegsOnly s t := by
  rintro ⟨t, ends, only⟩
  have quiet : (s.caughtUp core.val).fault = s.fault ∧ (s.caughtUp core.val).switch = s.switch := by
    unfold State.caughtUp
    rw [if_pos replays, State.count_fault, State.modDet_fault, State.set_fault, State.count_switch, State.modDet_switch, State.set_switch]
    exact ⟨rfl, rfl⟩
  have same : t = s.caughtUp core.val := by
    have next := (exec_replayCaughtUp run replays reached).trans (done_same q quiet.1 quiet.2)
    rw [ends] at next
    exact Host.Outcome.next.inj next
  have det : t.cdet core.val = s.cdet core.val := by
    rw [only]
    rfl
  exact step (by rw [← det, same, caughtUp_replayStep replays])

/-- Refutes O47: REPLAY_CAUGHT_UP also ends the replay of a step (`replayStep`), which is no register, so it does not change registers only. The
state is core 0 replaying step 0 with no instruction left to replay. -/
theorem not_replayAndStart : ¬Obligations.ReplayAndStart := by
  rintro ⟨-, -, caughtUp, -⟩
  let s : State := (State.reset.modDet 0 fun d => { d with replayStep := some 0 }).set (DET_CORE_REPLAY_REPLAYING 0) 1
  have q : Quiet s := ⟨rfl, rfl⟩
  have run : s.fatal = false := by decide +kernel
  have replays : s.flag (DET_CORE_REPLAY_REPLAYING 0) = true := by decide +kernel
  have step : (s.cdet 0).replayStep = some 0 ∧ (s.cdet 0).faultCount ≤ (s.cdet 0).count := by decide +kernel
  obtain ⟨t, ends, -, -, -, only⟩ := (caughtUp (0 : CoreIx) s q run).1 replays step.2
  have stepping : (s.cdet (0 : CoreIx).val).replayStep ≠ none := by
    rw [show (s.cdet (0 : CoreIx).val).replayStep = some 0 from step.1]
    exact Option.some_ne_none 0
  exact replayCaughtUp_not_regsOnly (core := (0 : CoreIx)) q run replays step.2 stepping ⟨t, ends, only⟩

end Sys2Proof.Machine
end

section
/-! What a reset that reads the firmware again keeps of the boot's registers (R378). -/

namespace Sys2Proof.Machine

open Sys2Proof

/-- A link reset of a device with power. -/
theorem linkReset_resets {s : State} (powered : s.boot.powered = true) :
    exec .linkReset s = .next ((s.bootReset hostKept {}).set PWR_RESET_CAUSE_LINK 1) := by
  have effect : exec .linkReset s = done ((s.bootReset hostKept {}).set PWR_RESET_CAUSE_LINK 1) :=
    if_neg (by rw [powered]; exact Bool.false_ne_true)
  exact effect.trans (done_quiet ⟨rfl, rfl⟩)

/-- A device with power whose register table has an entry between two words of PWR_ID_HASH. -/
def hashGap : State := { State.reset with regs := [(0x11, 5)], boot := { State.reset.boot with powered := true } }

/-- The reset writes the eight words of PWR_ID_HASH and no offset between them. -/
theorem hashGap_keeps : ((hashGap.bootReset hostKept {}).set PWR_RESET_CAUSE_LINK 1).getR ⟨0x11, 0⟩ = 5 := by decide +kernel

/-- Refutes O48: `bootResult` names every offset from 0x10 to 0x2F, and a reset that reads the firmware again clears only the words of PWR_ID_HASH
among them. In the state `hashGap` the offset 0x11 still holds 5 after LINK_RESET, where the statement asks for the reset value. -/
theorem not_resets : ¬Obligations.Resets := by
  rintro ⟨-, -, linkReset, -⟩
  obtain ⟨t, ends, -, -, kept, -⟩ := linkReset hashGap ⟨rfl, rfl⟩ rfl
  have same : t = (hashGap.bootReset hostKept {}).set PWR_RESET_CAUSE_LINK 1 :=
    Host.Outcome.next.inj (ends.symm.trans (linkReset_resets rfl))
  have value := kept ⟨0x11, 0⟩ (by decide)
  rw [same, hashGap_keeps] at value
  exact absurd value (by decide +kernel)

end Sys2Proof.Machine
end

section
/-! Boot: the root PLL, the flash, the identity and the recovery image (R381 to R383, R463, R464). -/

namespace Sys2Proof.Machine

open Sys2Proof

/-! Fields of byte lists, and words written in a row -/

theorem leNat_lt (bs : List Byte) : leNat bs < 256 ^ bs.length := by
  induction bs with
  | nil => exact Nat.one_pos
  | cons b bs ih =>
    have small : b.toNat < 256 := b.isLt
    simp only [leNat, List.length_cons, Nat.pow_succ]
    omega

theorem field_lt (bs : List Byte) (off n : Nat) : field bs off n < 256 ^ n :=
  Nat.lt_of_lt_of_le (leNat_lt _) (Nat.pow_le_pow_right (by decide) (List.length_take_le _ _))

theorem field_word_lt (bs : List Byte) (off : Nat) : field bs off 4 < 2 ^ 32 := field_lt bs off 4

section
variable {r : Nat → Reg} {f : Nat → Nat} (n : Nat) (s : State)

/-- A row of n registers is written. -/
def State.setWords (r : Nat → Reg) (f : Nat → Nat) (n : Nat) (s : State) : State := (List.range n).foldl (fun s i => s.setR (r i) (f i)) s

theorem setWords_succ : State.setWords r f (n + 1) s = (State.setWords r f n s).setR (r n) (f n) := by
  unfold State.setWords
  rw [List.range_succ, List.foldl_append]
  rfl

theorem setWords_only : RegsOnly s (State.setWords r f n s) := by
  induction n with
  | zero => exact RegsOnly.refl s
  | succ n ih =>
    rw [setWords_succ]
    exact RegsOnly.setR ih _ _

theorem setWords_ne {q : Reg} (apart : ∀ i < n, q.off ≠ (r i).off) : (State.setWords r f n s).getR q = s.getR q := by
  induction n with
  | zero => rfl
  | succ n ih =>
    rw [setWords_succ, State.getR_setR_ne _ _ _ _ (apart n (Nat.lt_succ_self n))]
    exact ih fun i less => apart i (Nat.lt_succ_of_lt less)

theorem setWords_same (inj : ∀ i j, i ≠ j → (r i).off ≠ (r j).off) {i : Nat} (less : i < n) : (State.setWords r f n s).getR (r i) = f i % 2 ^ 32 := by
  induction n with
  | zero => exact absurd less (Nat.not_lt_zero i)
  | succ n ih =>
    rw [setWords_succ]
    rcases Nat.lt_succ_iff_lt_or_eq.mp less with below | rfl
    · rw [State.getR_setR_ne _ _ _ _ (inj _ _ (Nat.ne_of_lt below))]
      exact ih below
    · exact State.getR_setR_same _ _ _

end

/-! The stages -/

section
variable {s : State} (q : Quiet s)

theorem goBoot_shows (s : State) {stage code : Nat} (hs : stage < 16) (hc : code < 256) :
    (s.goBoot stage code).stage_ = stage ∧ (s.goBoot stage code).get PWR_BOOT_STATUS_CODE = code ∧ RegsKept [PWR_BOOT_STATUS.off] s (s.goBoot stage code) := by
  refine ⟨?_, ?_, fun r out => ?_⟩
  · refine (State.get_set_apart _ PWR_BOOT_STATUS_CODE PWR_BOOT_STATUS_STAGE code rfl (by decide) (.inl (by decide))).trans ?_
    exact (State.get_set_same _ _ _ (by decide)).trans (Nat.mod_eq_of_lt hs)
  · exact (State.get_set_same _ _ _ (by decide)).trans (Nat.mod_eq_of_lt hc)
  · have status := List.ne_of_not_mem_cons out
    exact (State.getR_set_ne _ _ _ _ status).trans (State.getR_set_ne _ _ _ _ status)

include q

theorem rootPllLock_waits (modData : List Byte) (h : 2 ≤ s.stage_ ∨ s.clock.refGone = true) : exec (.rootPllLock modData) s = .next s := by
  refine (if_pos ?_).trans (done_quiet q)
  rcases h with late | gone
  · rw [decide_eq_true (show s.stage_ ≥ bsFlash from late)]
    simp
  · rw [gone]
    simp

/-- What the module data of the flash give. -/
def State.moduleRead (s : State) (m : ModData) : State :=
  { s with ftime := 0, host := { s.host with config := { s.host.config with subsystem := BitVec.ofNat 16 (m.variant + 1) } }
           boot := { s.boot with mod := m } }

theorem rootPllLock_locks (modData : List Byte) (early : s.stage_ < 2) (powered : s.boot.powered = true) (ref : s.clock.refGone = false)
    (served : s.boot.resetting = false) (free : s.boot.jtagHold = false) :
    ∃ t, exec (.rootPllLock modData) s = .next t ∧ t.stage_ = 2 ∧ t.get PWR_BOOT_STATUS_CODE = 0 ∧ t.flag PWR_CLK_STATUS_ROOT_LOCK = true ∧
      t.ftime = 0 ∧ t.boot.mod.serial = field modData 0 8 ∧ t.host.config.subsystem.toNat = min 1 (field modData 8 1) + 1 ∧
      RegsKept [PWR_BOOT_STATUS.off, PWR_CLK_STATUS.off] s t := by
  let m : ModData := { serial := field modData 0 8, variant := min 1 (field modData 8 1), limits := thermLimits (field modData 8 1) }
  let u := (s.moduleRead m).set PWR_CLK_STATUS_ROOT_LOCK 1
  have row : exec (.rootPllLock modData) s = done (u.goBoot bsFlash 0) := by
    refine if_neg ?_
    rw [powered, ref, served, free, decide_eq_false (Nat.not_le.mpr (show s.stage_ < bsFlash from early))]
    decide
  obtain ⟨stage, code, kept⟩ := goBoot_shows u (stage := bsFlash) (code := 0) (by decide) (by decide)
  have regs (r : Reg) : (s.moduleRead m).getR r = s.getR r := rfl
  refine ⟨u.goBoot bsFlash 0, row.trans (done_same q rfl rfl), stage, code, ?_, rfl, rfl, ?_, fun r out => ?_⟩
  · refine (congrArg (fun x => bits x 8 1 != 0) (kept PWR_CLK_STATUS (by decide))).trans ?_
    exact State.flag_set_same (s.moduleRead m) PWR_CLK_STATUS_ROOT_LOCK 1 (by decide)
  · change (BitVec.ofNat 16 (min 1 (field modData 8 1) + 1)).toNat = _
    rw [BitVec.toNat_ofNat]
    omega
  · simp only [List.mem_cons, List.not_mem_nil, or_false, not_or] at out
    obtain ⟨status, clk⟩ := out
    rw [kept r (by simpa using status), State.getR_set_ne _ _ _ _ clk, regs]

/-! The flash -/

theorem flashSlotRead_other (headers : List Byte) (image : Option (List Byte)) (other : s.stage_ ≠ 2) : exec (.flashSlotRead headers image) s = .next s := by
  refine (if_pos ?_).trans (done_quiet q)
  rw [bne_iff_ne.mpr (show s.stage_ ≠ bsFlash from other)]
  rfl

omit q in
theorem flashSlotRead_rows (headers : List Byte) (image : Option (List Byte)) (stage : s.stage_ = 2) (served : s.boot.resetting = false)
    (free : s.boot.jtagHold = false) :
    (image = none → Ends (.flashSlotRead headers image) s (s.goBoot 7 1)) ∧
    ∀ raw, image = some raw →
      (headers = [] → s.boot.prefB = none → Ends (.flashSlotRead headers image) s (s.goBoot 8 2)) ∧
      (headers ≠ [] →
        let pref := s.boot.prefB.getD (bit (field headers 0 1) 0)
        let slotB := if s.boot.tried then !pref else pref
        let bs := (if slotB then s.boot.slotB else s.boot.slotA).getD raw
        (fwStatus bs = 0 → Ends (.flashSlotRead headers image) s (s.bootImage bs false slotB)) ∧
        (fwStatus bs ≠ 0 → s.boot.tried = false →
          Ends (.flashSlotRead headers image) s ((s.modBoot fun b => { b with tried := true }).goBoot 2 3)) ∧
        (fwStatus bs ≠ 0 → s.boot.tried = true → Ends (.flashSlotRead headers image) s (s.goBoot 8 (if fwStatus bs = 6 then 5 else 4)))) := by
  have live : ¬(s.stage_ != bsFlash || s.boot.resetting || s.boot.jtagHold) = true := by
    rw [stage, served, free]
    decide
  refine ⟨?_, fun raw => ?_⟩
  · rintro rfl
    exact if_neg live
  · rintro rfl
    have row := (if_neg live : execFlashSlotRead headers (some raw) s = _)
    refine ⟨fun empty fresh => row.trans (if_pos ⟨by rw [empty]; rfl, by rw [fresh]; rfl⟩), fun headed => ?_⟩
    have valid := row.trans (if_neg fun h => headed (List.isEmpty_iff.mp h.1))
    exact ⟨fun verifies => valid.trans (if_pos verifies),
      fun fails first => valid.trans ((if_neg fails).trans (if_neg (ne_true_of_eq_false first))),
      fun fails second => valid.trans ((if_neg fails).trans (if_pos second))⟩

end

/-! The identity and the firmware -/

/-- The words of the identity's hash lie apart from one another, and below the states of the boot that follow. -/
theorem idHash_apart (i : Nat) : (∀ j, i ≠ j → (PWR_ID_HASH i).off ≠ (PWR_ID_HASH j).off) ∧ (PWR_ID_HASH i).off ≠ PWR_BOOT_STATUS.off := by
  refine ⟨fun j differ => ?_, ?_⟩
  · dsimp only [PWR_ID_HASH]
    omega
  · dsimp only [PWR_ID_HASH, PWR_BOOT_STATUS]
    omega

theorem idHash_small {i : Nat} (less : i < 8) : (PWR_ID_HASH i).off ≠ PWR_THERM_LIMITS.off ∧ (PWR_ID_HASH i).off ≠ SEC_PUF_STATUS.off := by
  dsimp only [PWR_ID_HASH, PWR_THERM_LIMITS, SEC_PUF_STATUS]
  omega

/-- The state of the key's reconstruction is shown. -/
def State.pufShown (w : State) (n m k : Nat) : State :=
  (({ w with free := k }.set SEC_PUF_STATUS_CORRECTED n).set SEC_PUF_STATUS_MARGIN_LOW m).set PWR_BOOT_STATUS_ID_VALID 1

theorem pufShown_facts (w : State) (n m k : Nat) : (w.pufShown n m k).fault = w.fault ∧ (w.pufShown n m k).switch = w.switch ∧
    (w.pufShown n m k).boot = w.boot ∧ (w.pufShown n m k).flag PWR_BOOT_STATUS_ID_VALID = true ∧
    ∀ i < 8, (w.pufShown n m k).getR (PWR_ID_HASH i) = w.getR (PWR_ID_HASH i) := by
  unfold State.pufShown
  refine ⟨rfl, rfl, rfl, State.flag_set_same _ _ _ (by decide), fun i less => ?_⟩
  obtain ⟨-, puf⟩ := idHash_small less
  rw [State.getR_set_ne _ _ _ _ (idHash_apart i).2, State.getR_set_ne _ _ _ _ puf, State.getR_set_ne _ _ _ _ puf]
  exact State.getR_congr w _ _ rfl

/-- The device has its identity: the key is reconstructed, and the words of its hash are shown. -/
theorem identity_shows (s : State) : ∃ n m k, s.identity = (State.setWords PWR_ID_HASH (fun i => field idHashOf (4 * i) 4) 8 s).pufShown n m k := by
  unfold State.identity State.setWords
  generalize (List.range 8).foldl (fun s i => s.setR (PWR_ID_HASH i) (field idHashOf (4 * i) 4)) s = w
  exact ⟨(Config.freeWord w.free).toNat, (Config.freeWord (w.free + 1)).toNat, w.free + 1 + 1, rfl⟩

theorem hashShown_facts (s : State) (f : Nat → Nat) (small : ∀ i, f i < 2 ^ 32) (n m k : Nat) :
    let t := (State.setWords PWR_ID_HASH f 8 s).pufShown n m k
    t.fault = s.fault ∧ t.switch = s.switch ∧ t.boot = s.boot ∧ t.flag PWR_BOOT_STATUS_ID_VALID = true ∧ ∀ i < 8, t.getR (PWR_ID_HASH i) = f i := by
  have only : RegsOnly s (State.setWords PWR_ID_HASH f 8 s) := setWords_only 8 s
  have words (i : Nat) (less : i < 8) := setWords_same (r := PWR_ID_HASH) (f := f) 8 s (fun i => (idHash_apart i).1) less
  generalize State.setWords PWR_ID_HASH f 8 s = w at *
  obtain ⟨fault, switch, boot, valid, kept⟩ := pufShown_facts w n m k
  refine ⟨fault.trans ?_, switch.trans ?_, boot.trans ?_, valid, fun i less => ?_⟩
  · rw [only]
  · rw [only]
  · rw [only]
  · rw [kept i less, words i less, Nat.mod_eq_of_lt (small i)]

theorem identity_facts (s : State) : s.identity.fault = s.fault ∧ s.identity.switch = s.switch ∧ s.identity.boot = s.boot ∧
    s.identity.flag PWR_BOOT_STATUS_ID_VALID = true ∧ ∀ i < 8, s.identity.getR (PWR_ID_HASH i) = field idHashOf (4 * i) 4 := by
  obtain ⟨n, m, k, shape⟩ := identity_shows s
  rw [shape]
  exact hashShown_facts s (fun i => field idHashOf (4 * i) 4) (fun i => field_word_lt idHashOf (4 * i)) n m k

section
variable {s : State} (q : Quiet s)

include q in
theorem bootReady_other (parts : BootParts) (other : s.stage_ ≠ 4) : exec (.bootReady parts) s = .next s := by
  refine (if_pos ?_).trans (done_quiet q)
  rw [bne_iff_ne.mpr (show s.stage_ ≠ bsIdentity from other)]
  rfl

variable (stage : s.stage_ = 4) (served : s.boot.resetting = false) (free : s.boot.jtagHold = false)
include stage served free

/-- The device after its identity has been reconstructed, or not. -/
def State.identified (s : State) (pufOk : Bool) : State := if pufOk then s.identity else s.set PWR_BOOT_STATUS_CODE 6

omit stage served free in
theorem identified_same (pufOk : Bool) : (s.identified pufOk).fault = s.fault ∧ (s.identified pufOk).switch = s.switch ∧
    (s.identified pufOk).boot = s.boot := by
  cases pufOk with
  | true => exact ⟨(identity_facts s).1, (identity_facts s).2.1, (identity_facts s).2.2.1⟩
  | false => exact ⟨rfl, rfl, rfl⟩

theorem bootReady_row (parts : BootParts) :
    let u := s.identified parts.pufOk
    exec (.bootReady parts) s = if parts.fwOk = false then done (u.goBoot 7 7)
      else done ((u.setR PWR_THERM_LIMITS s.boot.mod.limits).set PWR_BOOT_STATUS_STAGE 6) := by
  intro u
  have limits : u.boot = s.boot := (identified_same parts.pufOk).2.2
  have row : exec (.bootReady parts) s = if !parts.fwOk then done (u.goBoot 7 7)
      else done ((u.setR PWR_THERM_LIMITS u.boot.mod.limits).set PWR_BOOT_STATUS_STAGE 6) :=
    if_neg (by rw [stage, served, free]; decide)
  rw [row, limits]
  exact ite_congr (Bool.not_eq_true' _) (fun _ => rfl) fun _ => rfl

include q in
theorem bootReady_fails (parts : BootParts) (fails : parts.fwOk = false) :
    ∃ t, exec (.bootReady parts) s = .next t ∧ t.stage_ = 7 ∧ t.get PWR_BOOT_STATUS_CODE = 7 := by
  obtain ⟨fault, switch, -⟩ := identified_same (s := s) parts.pufOk
  obtain ⟨shown, code, -⟩ := goBoot_shows (s.identified parts.pufOk) (stage := 7) (code := 7) (by decide) (by decide)
  refine ⟨(s.identified parts.pufOk).goBoot 7 7, ((bootReady_row stage served free parts).trans (if_pos fails)).trans (done_same q ?_ ?_), shown, code⟩
  · exact fault
  · exact switch

include q in
theorem bootReady_runs (parts : BootParts) (inits : parts.fwOk = true) :
    ∃ t, exec (.bootReady parts) s = .next t ∧ t.ready = true ∧ t.getR PWR_THERM_LIMITS = s.boot.mod.limits % 2 ^ 32 ∧
      (parts.pufOk = true → t.flag PWR_BOOT_STATUS_ID_VALID = true ∧ ∀ i < 8, t.getR (PWR_ID_HASH i) = field idHashOf (4 * i) 4) ∧
      (parts.pufOk = false → t.get PWR_BOOT_STATUS_CODE = 6 ∧ RegsKept [PWR_BOOT_STATUS.off, PWR_THERM_LIMITS.off] s t) := by
  obtain ⟨fault, switch, -⟩ := identified_same (s := s) parts.pufOk
  have row := (bootReady_row stage served free parts).trans (if_neg (by rw [inits]; decide))
  have therm : PWR_BOOT_STATUS.off ≠ PWR_THERM_LIMITS.off := by decide
  refine ⟨_, row.trans (done_same q fault switch), ?_, ?_, fun puf => ?_, fun puf => ?_⟩
  · exact beq_iff_eq.mpr (State.get_set_same _ PWR_BOOT_STATUS_STAGE 6 (by decide))
  · rw [State.getR_set_ne _ _ _ _ therm.symm, State.getR_setR_same]
  · rw [puf]
    obtain ⟨-, -, -, valid, words⟩ := identity_facts s
    refine ⟨?_, fun i less => ?_⟩
    · refine (congrArg (· != 0) (State.get_set_apart _ PWR_BOOT_STATUS_STAGE PWR_BOOT_STATUS_ID_VALID 6 rfl (by decide) (.inr (by decide)))).trans ?_
      exact (State.flag_setR_ne _ _ _ _ therm).trans valid
    · rw [State.getR_set_ne _ _ _ _ (idHash_apart i).2, State.getR_setR_ne _ _ _ _ (idHash_small less).1]
      exact words i less
  · rw [puf]
    refine ⟨?_, fun r out => ?_⟩
    · refine (State.get_set_apart _ PWR_BOOT_STATUS_STAGE PWR_BOOT_STATUS_CODE 6 rfl (by decide) (.inr (by decide))).trans ?_
      exact (State.get_setR_ne _ _ _ _ therm).trans (State.get_set_same _ _ _ (by decide))
    · simp only [List.mem_cons, List.not_mem_nil, or_false, not_or] at out
      obtain ⟨status, limits⟩ := out
      rw [State.getR_set_ne _ _ _ _ status, State.getR_setR_ne _ _ _ _ limits]
      exact State.getR_set_ne _ _ _ _ status

end

/-! The recovery image -/

section
variable {s : State} (q : Quiet s)

include q in
theorem recoveryGo_rows (v : Word) (taken : Taken s PWR_RECOVERY_LEN) :
    (s.stage_ ≠ 8 → ∃ t, exec (.recoveryGo v) s = .next t ∧ RegsOnly s t ∧ RegsKept [PWR_RECOVERY_LEN.off] s t) ∧
    (s.stage_ = 8 → s.boot.recovering = false → ∃ t, exec (.recoveryGo v) s = .next t ∧ t.boot.recovering = true ∧
      t.get PWR_RECOVERY_LEN_LEN = bits v.toNat 0 23 ∧ t.out = s.out ++ [.hostRead (s.getR64 PWR_RECOVERY_ADDR) (bits v.toNat 0 23)] ∧
      RegsKept [PWR_RECOVERY_LEN.off] s t) := by
  obtain ⟨row, hr, write⟩ := s.hostWrite_PWR_RECOVERY_LEN (setBit v 31) taken
  obtain ⟨x, stored, len⟩ := stored_rwField s (f := PWR_RECOVERY_LEN_LEN) (by decide +kernel) hr (setBit v 31)
  have below : bits (setBit v 31).toNat 0 23 = bits v.toNat 0 23 := by
    rw [setBit_toNat v 31 (by decide)]
    exact bits_putBits_below _ _ _ _ _ _ (by decide)
  have asks : exec (.recoveryGo v) s = done (s.setR PWR_RECOVERY_LEN x).recoveryGo :=
    congrArg done (write.trans ((if_pos (bit_setBit_same v 31 (by decide))).trans (congrArg State.recoveryGo stored)))
  have read : (s.setR PWR_RECOVERY_LEN x).get PWR_RECOVERY_LEN_LEN = bits v.toNat 0 23 := len.trans below
  have kept := setR_kept s PWR_RECOVERY_LEN x
  have stage : (s.setR PWR_RECOVERY_LEN x).stage_ = s.stage_ := State.get_setR_ne _ _ _ _ (by decide)
  have addr : (s.setR PWR_RECOVERY_LEN x).getR64 PWR_RECOVERY_ADDR = s.getR64 PWR_RECOVERY_ADDR := by
    unfold State.getR64
    rw [State.getR_setR_ne _ _ _ _ (by decide), State.getR_setR_ne _ _ _ _ (by decide)]
  have only : RegsOnly s (s.setR PWR_RECOVERY_LEN x) := RegsOnly.setR (RegsOnly.refl s) _ _
  have boot : (s.setR PWR_RECOVERY_LEN x).boot = s.boot := State.setR_boot s _ x
  have fault := s.setR_fault PWR_RECOVERY_LEN x
  have switch := s.setR_switch PWR_RECOVERY_LEN x
  have out := s.setR_out PWR_RECOVERY_LEN x
  generalize s.setR PWR_RECOVERY_LEN x = u at *
  refine ⟨fun other => ⟨u, ?_, only, kept⟩, fun waits idle => ?_⟩
  · exact (asks.trans (congrArg done (if_pos (.inl (by rw [stage]; exact other))))).trans (done_same q fault switch)
  · have reads : u.recoveryGo = (u.modBoot fun b => { b with recovering := true }).emit (.hostRead (s.getR64 PWR_RECOVERY_ADDR) (bits v.toNat 0 23)) := by
      unfold State.recoveryGo
      rw [if_neg (by rw [stage, boot, waits, idle]; decide), ← addr, ← read]
      rfl
    rw [reads] at asks
    exact ⟨_, asks.trans (done_same q fault switch), rfl, read, congrArg (· ++ _) out, kept⟩

include q in
theorem recoveryImageRead_idle (image : Option (List Byte)) (idle : s.boot.recovering = false) : exec (.recoveryImageRead image) s = .next s :=
  (if_pos (by rw [idle]; rfl)).trans (done_quiet q)

theorem recoveryImageRead_rows (image : Option (List Byte)) (recovers : s.boot.recovering = true) (stage : s.stage_ = 8) :
    let refused := (s.modBoot fun b => { b with recovering := false }).set PWR_BOOT_STATUS_CODE 8
    (image = none → Ends (.recoveryImageRead image) s refused) ∧
    ∀ raw, image = some raw →
      let bs := slice raw 0 (s.get PWR_RECOVERY_LEN_LEN)
      (fwStatus bs ≠ 0 → Ends (.recoveryImageRead image) s refused) ∧
      (fwStatus bs = 0 → Ends (.recoveryImageRead image) s (s.bootImage bs true false)) := by
  intro refused
  have live : ¬(!s.boot.recovering || s.stage_ != bsRecovery) = true := by
    rw [recovers, stage]
    decide
  refine ⟨?_, fun raw => ?_⟩
  · rintro rfl
    exact (if_neg live).trans (if_neg (by rw [Option.isSome_none, Bool.false_and]; exact Bool.false_ne_true))
  · rintro rfl
    intro bs
    refine ⟨fun fails => (if_neg live).trans (if_neg ?_), fun verifies => (if_neg live).trans (if_pos ?_)⟩
    · exact fun h => fails (beq_iff_eq.mp (Bool.and_eq_true_iff.mp h).2)
    · exact Bool.and_eq_true_iff.mpr ⟨rfl, beq_iff_eq.mpr verifies⟩

end

/-- Settles O49: each stage of the boot, and what its command leaves in the others. -/
theorem boot : Obligations.Boot := by
  refine ⟨fun modData _ q => ⟨rootPllLock_waits q modData, rootPllLock_locks q modData⟩, fun headers image _ q => flashSlotRead_other q headers image,
    fun headers image _ _ => flashSlotRead_rows headers image, fun parts _ q => ⟨bootReady_other q parts, fun stage served free => ?_, fun stage served free => ?_⟩,
    fun v _ q => recoveryGo_rows q v, fun image _ q => ⟨recoveryImageRead_idle q image, recoveryImageRead_rows image⟩⟩
  · exact bootReady_fails q stage served free parts
  · exact bootReady_runs q stage served free parts

end Sys2Proof.Machine
end

section
/-! Syntonization and the setting of fabric time (R389 to R392). -/

namespace Sys2Proof.Machine

open Sys2Proof

/-! Syntonization: the two commands -/

section
variable {s : State} (q : Quiet s) (v : Word)

theorem syntonGo_row (taken : Taken s PWR_CLK_CTRL) (alone : bit v.toNat 1 = false) :
    exec (.syntonGo v) s = done (s.syntonGo PWR_CLK_CTRL.off) := by
  have go := bit_setBit_same v 0 (by decide)
  have stay := (bit_setBit_ne v 0 1 (by decide) (by decide)).trans alone
  refine congrArg done ((s.hostWrite_PWR_CLK_CTRL (setBit v 0) taken).trans ?_)
  unfold State.clkCtrl
  dsimp only
  rw [go, stay]
  exact if_neg Bool.false_ne_true

include q in
theorem syntonGo_rows (taken : Taken s PWR_CLK_CTRL) (alone : bit v.toNat 1 = false) :
    (s.synPort ≠ 0xFF → s.lst s.synPort = lkActive → (s.clk = 0 ∨ s.clk = 3) →
      exec (.syntonGo v) s = .next (s.modClock fun c => { c with measureAt := some s.now })) ∧
    ((s.synPort = 0xFF ∨ s.lst s.synPort ≠ lkActive ∨ (s.clk ≠ 0 ∧ s.clk ≠ 3)) → Ends (.syntonGo v) s (s.aerr 0 PWR_CLK_CTRL.off true 2)) := by
  have row := syntonGo_row v taken alone
  refine ⟨fun source active state => ?_, fun out => ?_⟩
  · exact (row.trans (congrArg done (if_pos ⟨source, active, state⟩))).trans (done_same q rfl rfl)
  · refine row.trans (congrArg done (if_neg ?_))
    rintro ⟨source, active, state⟩
    rcases out with none_ | idle | ⟨notRef, notHold⟩
    · exact source none_
    · exact idle active
    · exact state.elim notRef notHold

theorem clkRevert_row (taken : Taken s PWR_CLK_CTRL) (alone : bit v.toNat 0 = false) : exec (.clkRevert v) s = done s.clkRevert := by
  have go := bit_setBit_same v 1 (by decide)
  have stay := (bit_setBit_ne v 1 0 (by decide) (by decide)).trans alone
  refine congrArg done ((s.hostWrite_PWR_CLK_CTRL (setBit v 1) taken).trans ?_)
  unfold State.clkCtrl
  dsimp only
  rw [go, stay]
  rfl

/-- A change of the clock's state shows, and touches no other register. -/
theorem goClk_shows (u : State) {st : Nat} (small : st < 8) : (u.goClk st).clk = st ∧
    ∀ f : Fld, f.reg.off ≠ PWR_CLK_STATUS.off → (u.goClk st).get f = u.get f := by
  have regs := State.raiseVec_regs (u.set PWR_CLK_STATUS_STATE st) 7
  refine ⟨?_, fun f apart => ?_⟩
  · exact (State.get_congr _ _ _ regs).trans ((State.get_set_same _ _ _ (by decide)).trans (Nat.mod_eq_of_lt small))
  · exact (State.get_congr _ _ _ regs).trans (State.get_set_ne _ _ _ _ apart)

include q in
theorem clkRevert_rows (taken : Taken s PWR_CLK_CTRL) (alone : bit v.toNat 0 = false) :
    let u := s.modClock fun c => { c with measureAt := none, lostAt := none }
    ((s.clk = 0 ∨ s.clk = 4) → exec (.clkRevert v) s = .next u) ∧
    ((s.clk = 1 ∨ s.clk = 2 ∨ s.clk = 3) → s.clock.refGone = false → Ends (.clkRevert v) s (u.goClk 4) ∧ (u.goClk 4).clk = 4) ∧
    ((s.clk = 1 ∨ s.clk = 2) → s.clock.refGone = true → Ends (.clkRevert v) s (u.goClk 3)) ∧
    (s.clk = 3 → s.clock.refGone = true → exec (.clkRevert v) s = .next u) := by
  intro u
  have row := clkRevert_row v taken alone
  have state : u.clk = s.clk := rfl
  have slews (away : ¬(s.clk = ckRef ∨ s.clk = ckToRef)) : exec (.clkRevert v) s = done u.revert := row.trans (congrArg done (if_neg away))
  have gone : u.clock.refGone = s.clock.refGone := rfl
  refine ⟨fun home => ?_, fun away ref => ⟨?_, (goClk_shows u (by decide)).1⟩, fun away none_ => ?_, fun holds none_ => ?_⟩
  · exact (row.trans (congrArg done (if_pos home))).trans (done_same q rfl rfl)
  · refine (slews ?_).trans (congrArg done (if_pos (by rw [gone, ref]; rfl)))
    rcases away with h | h | h
    · rw [h]
      decide
    · rw [h]
      decide
    · rw [h]
      decide
  · have notHold : ¬u.clk = ckHold := by
      rw [state]
      rcases away with h | h
      · rw [h]
        decide
      · rw [h]
        decide
    refine (slews ?_).trans (congrArg done ((if_neg (by rw [gone, none_]; exact Bool.false_ne_true)).trans (if_neg notHold)))
    rcases away with h | h
    · rw [h]
      decide
    · rw [h]
      decide
  · refine ((slews ?_).trans (congrArg done ((if_neg (by rw [gone, none_]; exact Bool.false_ne_true)).trans (if_pos (state.trans holds))))).trans
      (done_same q rfl rfl)
    rw [holds]
    decide

/-! Syntonization: its events -/

theorem syntonMeasureDone_rows (offset : Int) (t : Nat) (rec : List Byte) (run : s.fatal = false) (measures : s.clock.measureAt = some t)
    (piece : s.synton = some rec) (low : -32768 ≤ offset) (high : offset < 32768) :
    let u := ((s.passTo (t + 165000)).modClock fun c => { c with measureAt := none }).set PWR_CLK_STATUS_OFFSET (ofSigned 16 offset)
    (10 * field rec 2 1 < offset.natAbs → Ends (.syntonMeasureDone offset) s (u.set PWR_CLK_STATUS_OFFSET_FAIL 1)) ∧
    (offset.natAbs ≤ 10 * field rec 2 1 → Ends (.syntonMeasureDone offset) s ((u.set PWR_CLK_STATUS_PORT (field rec 0 1)).goClk 1)) := by
  intro u
  have row : exec (.syntonMeasureDone offset) s = if offset.natAbs > 10 * field rec 2 1 then done (u.set PWR_CLK_STATUS_OFFSET_FAIL 1)
      else done ((u.set PWR_CLK_STATUS_PORT (field rec 0 1)).goClk 1) := by
    change execSyntonMeasureDone offset s = _
    unfold execSyntonMeasureDone
    rw [measures, piece]
    dsimp only
    rw [if_neg (ne_true_of_eq_false run), if_pos (show -32768 ≤ offset ∧ offset < 32768 from ⟨low, high⟩)]
    rfl
  exact ⟨fun far => row.trans (if_pos far), fun near => row.trans (if_neg (Nat.not_lt.mpr near))⟩

include q in
theorem syntonMeasureDone_none (offset : Int) (none_ : s.clock.measureAt = none) : exec (.syntonMeasureDone offset) s = .next s := by
  change execSyntonMeasureDone offset s = _
  unfold execSyntonMeasureDone
  rw [none_]
  exact done_quiet q

include q in
theorem syntonSlewDone_rows (run : s.fatal = false) : (s.clk = 1 → Ends .syntonSlewDone s (s.goClk 2)) ∧ (s.clk = 4 → Ends .syntonSlewDone s (s.goClk 0)) ∧
    ((s.clk = 0 ∨ s.clk = 2 ∨ s.clk = 3) → exec .syntonSlewDone s = .next s) := by
  have live : ¬s.fatal = true := ne_true_of_eq_false run
  refine ⟨fun toPort => (if_neg live).trans (if_pos toPort), fun toRef => ?_, fun still => ?_⟩
  · refine (if_neg live).trans ((if_neg ?_).trans (if_pos toRef))
    rw [toRef]
    decide
  · have apart : ¬s.clk = ckToPort ∧ ¬s.clk = ckToRef := by
      rcases still with h | h | h
      · rw [h]
        decide
      · rw [h]
        decide
      · rw [h]
        decide
    exact ((if_neg live).trans ((if_neg apart.1).trans (if_neg apart.2))).trans (done_quiet q)

include q in
theorem syntonSourceLost_following (run : s.fatal = false) (follows : s.clk = 1 ∨ s.clk = 2) :
    (s.sourceGone (s.get PWR_CLK_STATUS_PORT) = false → exec .syntonSourceLost s = .next s) ∧
    (s.sourceGone (s.get PWR_CLK_STATUS_PORT) = true →
      let u := (s.modClock fun c => { c with measureAt := none, lostAt := some s.now }).count PWR_CLK_LOSS_COUNT
      Ends .syntonSourceLost s (u.goClk 3) ∧ (u.goClk 3).clk = 3 ∧
        (u.goClk 3).get PWR_CLK_LOSS_COUNT = min 0xFFFF (s.get PWR_CLK_LOSS_COUNT + 1)) := by
  have state : s.clk = ckToPort ∨ s.clk = ckSynt ∨ (s.clk = ckHold ∧ s.clock.measureAt.isSome = true) := follows.imp_right .inl
  have moving : ¬s.clk = ckHold := by
    rcases follows with h | h
    · rw [h]
      decide
    · rw [h]
      decide
  have row := (if_neg (ne_true_of_eq_false run) : execSyntonSourceLost s = _).trans (if_pos state)
  refine ⟨fun there => ?_, fun gone => ?_⟩
  · exact (row.trans (if_pos (by rw [there]; rfl))).trans (done_quiet q)
  · intro u
    obtain ⟨shown, others⟩ := goClk_shows u (st := 3) (by decide)
    refine ⟨row.trans ((if_neg (by rw [gone]; exact Bool.false_ne_true)).trans (congrArg done (if_neg moving))), shown, ?_⟩
    refine (others PWR_CLK_LOSS_COUNT (by decide)).trans ((State.get_set_same _ _ _ (by decide)).trans ?_)
    change min (s.get PWR_CLK_LOSS_COUNT + 1) (2 ^ 16 - 1) % 2 ^ 16 = _
    omega

include q in
theorem syntonSourceLost_reference (run : s.fatal = false) (ref : s.clk = 0) :
    (s.sourceGone s.synPort = false → exec .syntonSourceLost s = .next s) ∧
    (s.sourceGone s.synPort = true → exec .syntonSourceLost s = .next (s.modClock fun c => { c with measureAt := none })) := by
  have state : ¬(s.clk = ckToPort ∨ s.clk = ckSynt ∨ (s.clk = ckHold ∧ s.clock.measureAt.isSome = true)) := by
    rw [ref]
    simp [ckToPort, ckSynt, ckHold]
  have row := (if_neg (ne_true_of_eq_false run) : execSyntonSourceLost s = _).trans (if_neg state)
  exact ⟨fun there => (row.trans (if_neg (ne_true_of_eq_false there))).trans (done_quiet q),
    fun gone => (row.trans (if_pos gone)).trans (done_same q rfl rfl)⟩

include q in
theorem holdoverRevertTimeout_rows (t : Nat) (rec : List Byte) (run : s.fatal = false) (lost : s.clock.lostAt = some t) (piece : s.synton = some rec)
    (holds : s.clk = 3) : (bit (field rec 1 1) 0 = false → exec .holdoverRevertTimeout s = .next s) ∧
    (bit (field rec 1 1) 0 = true →
      let u := (s.passTo (t + 16500000)).modClock fun c => { c with lostAt := none }
      (u.clock.refGone = false → Ends .holdoverRevertTimeout s (u.goClk 4)) ∧
      (u.clock.refGone = true → u.clk = 3 → Ends .holdoverRevertTimeout s u)) := by
  have row : exec .holdoverRevertTimeout s = if s.fatal || s.clk != ckHold || !bit (field rec 1 1) 0 then done s
      else done (((s.passTo (t + 16500000)).modClock fun c => { c with lostAt := none }).revert) := by
    change execHoldoverRevertTimeout s = _
    unfold execHoldoverRevertTimeout
    rw [lost, piece]
    rfl
  rw [run, holds] at row
  refine ⟨fun stays => ?_, fun asks => ?_⟩
  · exact (row.trans (if_pos (by rw [stays]; rfl))).trans (done_quiet q)
  · have reverts := row.trans (if_neg (by rw [asks]; decide))
    exact ⟨fun ref => reverts.trans (congrArg done (if_pos (by rw [ref]; rfl))),
      fun gone state => reverts.trans (congrArg done ((if_neg (by rw [gone]; exact Bool.false_ne_true)).trans (if_pos state)))⟩

include q in
theorem holdoverRevertTimeout_other (other : s.clock.lostAt = none ∨ s.clk ≠ 3) : exec .holdoverRevertTimeout s = .next s := by
  change execHoldoverRevertTimeout s = _
  unfold execHoldoverRevertTimeout
  rcases other with none_ | moved
  · rw [none_]
    exact done_quiet q
  · split
    · refine (if_pos ?_).trans (done_quiet q)
      rw [bne_iff_ne.mpr (show s.clk ≠ ckHold from moved), Bool.or_true]
      rfl
    · exact done_quiet q

end

theorem syntonization : Syntonization :=
  ⟨fun v _ q => syntonGo_rows q v, fun v _ q => clkRevert_rows q v, fun offset _ t rec _ => syntonMeasureDone_rows offset t rec,
    fun offset _ q => syntonMeasureDone_none q offset, fun _ q => syntonSlewDone_rows q, fun _ q => syntonSourceLost_following q,
    fun _ q => syntonSourceLost_reference q, fun _ t rec q => holdoverRevertTimeout_rows q t rec, fun _ q => holdoverRevertTimeout_other q⟩

end Sys2Proof.Machine
end

section
/-! The setting of fabric time (R392). -/

namespace Sys2Proof.Machine

open Sys2Proof

/-! The two commands -/

section
variable {s : State} {v : Word}

theorem ftimeCtrl_slewing (slews : s.flag PWR_FTIME_CTRL_SLEWING = true) (at_ x : Nat) : s.ftimeCtrl at_ x = s.aerr 0 at_ true 2 := if_pos slews

/-- A write with one of the two commands, which leaves REFUSED as it is, does that command. -/
theorem ftimeCtrl_one (still : s.flag PWR_FTIME_CTRL_SLEWING = false) (at_ x : Nat) (keeps : bit x 3 = false) :
    (bit x 0 = true → bit x 1 = false → s.ftimeCtrl at_ x = s.ftimeStep) ∧ (bit x 0 = false → bit x 1 = true → s.ftimeCtrl at_ x = s.ftimeSlew) := by
  have rest (alone : (bit x 0 && bit x 1) = false) :
      s.ftimeCtrl at_ x = if bit x 0 then s.ftimeStep else if bit x 1 then s.ftimeSlew else s := by
    refine ((if_neg (ne_true_of_eq_false still)).trans (if_neg (ne_true_of_eq_false alone))).trans ?_
    dsimp only
    rw [keeps]
    rfl
  refine ⟨fun step slew => ?_, fun step slew => ?_⟩
  · exact (rest (by rw [step, slew]; rfl)).trans (if_pos step)
  · exact (rest (by rw [step, slew]; rfl)).trans ((if_neg (ne_true_of_eq_false step)).trans (if_pos slew))

theorem ftime_slewing (taken : Taken s PWR_FTIME_CTRL) (slews : s.flag PWR_FTIME_CTRL_SLEWING = true) :
    Ends (.ftimeStep v) s (s.aerr 0 PWR_FTIME_CTRL.off true 2) ∧ Ends (.ftimeSlew v) s (s.aerr 0 PWR_FTIME_CTRL.off true 2) :=
  ⟨congrArg done ((s.hostWrite_PWR_FTIME_CTRL _ taken).trans (ftimeCtrl_slewing slews _ _)),
    congrArg done ((s.hostWrite_PWR_FTIME_CTRL _ taken).trans (ftimeCtrl_slewing slews _ _))⟩

theorem ftimeStep_row (taken : Taken s PWR_FTIME_CTRL) (still : s.flag PWR_FTIME_CTRL_SLEWING = false) (alone : bit v.toNat 1 = false)
    (keeps : bit v.toNat 3 = false) : exec (.ftimeStep v) s = done s.ftimeStep :=
  congrArg done ((s.hostWrite_PWR_FTIME_CTRL _ taken).trans
    ((ftimeCtrl_one still _ _ ((bit_setBit_ne v 0 3 (by decide) (by decide)).trans keeps)).1 (bit_setBit_same v 0 (by decide))
      ((bit_setBit_ne v 0 1 (by decide) (by decide)).trans alone)))

theorem ftimeSlew_row (taken : Taken s PWR_FTIME_CTRL) (still : s.flag PWR_FTIME_CTRL_SLEWING = false) (alone : bit v.toNat 0 = false)
    (keeps : bit v.toNat 3 = false) : exec (.ftimeSlew v) s = done s.ftimeSlew :=
  congrArg done ((s.hostWrite_PWR_FTIME_CTRL _ taken).trans
    ((ftimeCtrl_one still _ _ ((bit_setBit_ne v 1 3 (by decide) (by decide)).trans keeps)).2
      ((bit_setBit_ne v 1 0 (by decide) (by decide)).trans alone) (bit_setBit_same v 1 (by decide))))

/-! A step of fabric time -/

/-- What holds a step back. -/
def State.stepHeld (s : State) : Bool :=
  (List.range 144).any (fun L => s.cst L == stRun) || s.flag PAT_STATUS_ARMED || s.flag DET_START_CTRL_ARM

theorem stepHeld_iff (s : State) :
    s.stepHeld = true ↔ (∃ L < 144, s.cst L = stRun) ∨ s.flag PAT_STATUS_ARMED = true ∨ s.flag DET_START_CTRL_ARM = true := by
  simp [State.stepHeld, or_assoc]

theorem stepped (s : State) (free : s.stepHeld = false) :
    let m := s.trace trTimeStep 0xD8 0 0 (s.get64 PWR_FTIME_ADJ_ADJ) s.ft
    OutsOnly { m with ftime := m.ftime + BitVec.ofNat 64 (s.get64 PWR_FTIME_ADJ_ADJ) } s.ftimeStep := by
  have row : s.ftimeStep = _ := if_neg (ne_true_of_eq_false free)
  rw [row]
  exact OutsOnly.foldl (fun u o => refreshOut_outsOnly u o _) _ _

theorem ftimeStep_rows (q : Quiet s) (taken : Taken s PWR_FTIME_CTRL) (still : s.flag PWR_FTIME_CTRL_SLEWING = false) (alone : bit v.toNat 1 = false)
    (keeps : bit v.toNat 3 = false) :
    (((∃ L < 144, s.cst L = stRun) ∨ s.flag PAT_STATUS_ARMED = true ∨ s.flag DET_START_CTRL_ARM = true) →
      Ends (.ftimeStep v) s (s.set PWR_FTIME_CTRL_REFUSED 1)) ∧
    ((∀ L < 144, s.cst L ≠ stRun) → s.flag PAT_STATUS_ARMED = false → s.flag DET_START_CTRL_ARM = false →
      ∃ t, exec (.ftimeStep v) s = .next t ∧ t.ftime = s.ftime + BitVec.ofNat 64 (s.get64 PWR_FTIME_ADJ_ADJ) ∧ t.now = s.now ∧
        t.pat = s.pat ∧ t.cores = s.cores ∧ t.gddr = s.gddr) := by
  have row := ftimeStep_row taken still alone keeps
  refine ⟨fun held => row.trans (congrArg done (if_pos ((stepHeld_iff s).mpr held))), fun idle seam barrier => ?_⟩
  have free : s.stepHeld = false := by
    rw [Bool.eq_false_iff, Ne, stepHeld_iff]
    rintro (⟨L, lt, run⟩ | armed | armed)
    · exact idle L lt run
    · exact ne_true_of_eq_false seam armed
    · exact ne_true_of_eq_false barrier armed
  have only := stepped s free
  dsimp only at only
  obtain ⟨regs, obs, outs, traced⟩ := trace_outsOnly s trTimeStep 0xD8 0 0 (s.get64 PWR_FTIME_ADJ_ADJ) s.ft
  rw [traced] at only
  obtain ⟨regs', obs', outs', after⟩ := only
  refine ⟨s.ftimeStep, row.trans (done_quiet ?_), ?_⟩
  · rw [after]
    exact q
  · rw [after]
    exact ⟨rfl, rfl, rfl, rfl, rfl⟩

/-! A slew of fabric time -/

/-- The registers of a slew that begins. -/
def State.slewRegs (s : State) (n : Nat) : State := (s.set PWR_FTIME_CTRL_SLEWING 1).set PWR_FTIME_SLEW_LEFT_TICKS n

/-- A slew that begins shows its ticks, and touches no other register. -/
theorem slewRegs_shows (s : State) (n : Nat) (small : n < 2 ^ 24) : (s.slewRegs n).flag PWR_FTIME_CTRL_SLEWING = true ∧
    (s.slewRegs n).get PWR_FTIME_SLEW_LEFT_TICKS = n ∧ RegsKept [PWR_FTIME_CTRL.off, PWR_FTIME_SLEW_LEFT.off] s (s.slewRegs n) := by
  refine ⟨?_, ?_, fun r out => ?_⟩
  · exact (State.flag_set_ne (s.set PWR_FTIME_CTRL_SLEWING 1) PWR_FTIME_SLEW_LEFT_TICKS PWR_FTIME_CTRL_SLEWING n (by decide)).trans
      (State.flag_set_same s PWR_FTIME_CTRL_SLEWING 1 (by decide))
  · exact (State.get_set_same (s.set PWR_FTIME_CTRL_SLEWING 1) PWR_FTIME_SLEW_LEFT_TICKS n (by decide)).trans (Nat.mod_eq_of_lt small)
  · exact (State.getR_set_ne (s.set PWR_FTIME_CTRL_SLEWING 1) PWR_FTIME_SLEW_LEFT_TICKS r n fun h => out (by rw [h]; decide)).trans
      (State.getR_set_ne s PWR_FTIME_CTRL_SLEWING r 1 fun h => out (by rw [h]; decide))

theorem ftimeSlew_rows (q : Quiet s) (taken : Taken s PWR_FTIME_CTRL) (still : s.flag PWR_FTIME_CTRL_SLEWING = false) (alone : bit v.toNat 0 = false)
    (keeps : bit v.toNat 3 = false) :
    let n := (toSigned 64 (s.get64 PWR_FTIME_ADJ_ADJ)).natAbs
    (2 ^ 24 ≤ n → exec (.ftimeSlew v) s = .next s) ∧
    (n = 0 → Ends (.ftimeSlew v) s (s.raiseVec 6)) ∧
    (0 < n → n < 2 ^ 24 → ∃ t, exec (.ftimeSlew v) s = .next t ∧ t.flag PWR_FTIME_CTRL_SLEWING = true ∧ t.get PWR_FTIME_SLEW_LEFT_TICKS = n ∧
      t.clock = { s.clock with slewNeg := decide (toSigned 64 (s.get64 PWR_FTIME_ADJ_ADJ) < 0), slewPhase := 0 } ∧
      RegsKept [PWR_FTIME_CTRL.off, PWR_FTIME_SLEW_LEFT.off] s t ∧ t = { s with regs := t.regs, clock := t.clock }) := by
  intro n
  have row := ftimeSlew_row taken still alone keeps
  unfold State.ftimeSlew at row
  dsimp only at row
  refine ⟨fun big => ?_, fun zero => ?_, fun nonzero small => ?_⟩
  · rw [if_pos big] at row
    exact row.trans (done_quiet q)
  · rw [if_neg (by omega), if_pos zero] at row
    exact row
  · rw [if_neg (by omega), if_neg (Nat.ne_of_gt nonzero)] at row
    obtain ⟨slews, left, kept⟩ := slewRegs_shows s n small
    obtain ⟨regs, only⟩ : ∃ regs, s.slewRegs n = { s with regs := regs } := ⟨_, RegsOnly.set (RegsOnly.set (RegsOnly.refl s) _ _) _ _⟩
    change exec (.ftimeSlew v) s = done ((s.slewRegs n).modClock _) at row
    rw [only] at row slews left kept
    exact ⟨_, row.trans (done_same q rfl rfl), slews, left, rfl, kept, rfl⟩

end

/-! Its end, and fabric time without a slew -/

theorem slewDone_rows {s : State} (q : Quiet s) : (s.flag PWR_FTIME_CTRL_SLEWING = false → exec .slewDone s = .next s) ∧
    (s.flag PWR_FTIME_CTRL_SLEWING = true → Ends .slewDone s (s.pass (16 * s.get PWR_FTIME_SLEW_LEFT_TICKS - s.clock.slewPhase))) := by
  refine ⟨fun still => ?_, fun slews => ?_⟩
  · exact (if_pos (by rw [still]; rfl) : execSlewDone s = _).trans (done_quiet q)
  · exact if_neg (by rw [slews]; exact Bool.false_ne_true)

theorem slewIn_still {s : State} (still : s.flag PWR_FTIME_CTRL_SLEWING = false) (n : Nat) : s.slewIn n = 0 := by
  unfold State.slewIn
  rw [still]
  exact ite_self 0

theorem passClock_still {s : State} (lock : s.flag PWR_CLK_STATUS_ROOT_LOCK = true) (still : s.flag PWR_FTIME_CTRL_SLEWING = false) (n : Nat) :
    (s.passClock n).ftime = s.ftime + BitVec.ofNat 64 n ∧ (s.passClock n).now = s.now + n := by
  have whole : s.ftIn n = n := by
    unfold State.ftIn
    rw [slewIn_still still]
    exact ite_self n
  have row : s.passClock n = { s with ftime := s.ftime + BitVec.ofNat 64 n, now := s.now + n,
                                      clock := { s.clock with slewPhase := (s.clock.slewPhase + n) % 16 } } := by
    unfold State.passClock
    dsimp only
    rw [if_pos (slewIn_still still n), if_pos lock, whole]
  rw [row]
  exact ⟨rfl, rfl⟩

theorem fabricTime : FabricTime :=
  ⟨fun _ _ _ => ftime_slewing, fun _ _ => ftimeStep_rows, fun _ _ => ftimeSlew_rows, fun _ => slewDone_rows,
    fun _ n lock still => passClock_still lock still n⟩

/-- Settles O50. -/
theorem clockCommands : Obligations.ClockCommands := ⟨syntonization, fabricTime⟩

end Sys2Proof.Machine
end

section
/-! The commands of the fault collector (R405, R406, R410). -/

namespace Sys2Proof.Machine

open Sys2Proof

/-! A fatal decision by the host -/

theorem forceFatal_row {s : State} (taken : Taken s FLT_CTRL) (v : Word) :
    ∃ u, RegsOnly s u ∧ RegsKept [FLT_CTRL.off] s u ∧ Ends (.forceFatal v) s (u.report 0x35 0 0) := by
  obtain ⟨row, hr, write⟩ := s.hostWrite_FLT_CTRL (setBit v 0) taken
  obtain ⟨x, stored, -⟩ := stored_rwField s (f := FLT_CTRL_INT_LASTING) (by decide +kernel) hr (setBit v 0)
  refine ⟨s.setR FLT_CTRL x, RegsOnly.setR (RegsOnly.refl s) _ _, setR_kept s _ x, congrArg done (write.trans ((if_pos (bit_setBit_same v 0 (by decide))).trans ?_))⟩
  exact congrArg (State.report · 0x35 0 0) stored

/-! A fence by the host -/

/-- A fence that the host asks for. -/
def fenceEv (kind i : Nat) : FaultEv := { src := 0x3E, inst := i, detail := kind, fence := some kind }

/-- A fence of a unit that is not fenced is judged as one: without a class of its own. -/
theorem judge_fence (s : State) {kind i : Nat} (free : s.unitFenced kind i = false) :
    s.judge [fenceEv kind i] = ([{ ev := fenceEv kind i, cls := 0, kind := kind, lasting := false, act := 1 }], s) :=
  if_neg (ne_true_of_eq_false free)

/-- The log leaves the registers below FLT_FATAL_TIME but FLT_STATUS. -/
theorem logFault_getR (s : State) (e : FaultEv) (cls : Nat) (lasting fenced : Bool) (r : Reg) (low : r.off < FLT_FATAL_TIME.off)
    (apart : r.off ≠ FLT_STATUS.off) : (s.logFault e cls lasting fenced).getR r = s.getR r := by
  have overrun (u : State) (c : Prop) [Decidable c] : (if c then u.set FLT_STATUS_LOG_OVERRUN 1 else u).getR r = u.getR r := by
    split
    · exact State.getR_set_ne _ _ _ _ apart
    · rfl
  have entry (i time info detail : Nat) : LowKept s
      ((((s.setR64 (FLT_LOG_TIME i) time).setR (FLT_LOG_INFO i) info).setR (FLT_LOG_DETAIL i) detail).countWrap FLT_LOG_PROD_PROD) :=
    ((((LowKept.refl s).setR64 (FLT_LOG_TIME i) time (Nat.le_add_right_of_le (by decide))).setR (FLT_LOG_INFO i) info
      (Nat.le_add_right_of_le (by decide))).setR (FLT_LOG_DETAIL i) detail (Nat.le_add_right_of_le (by decide))).set FLT_LOG_PROD_PROD _ (by decide)
  unfold State.logFault
  dsimp only
  rw [State.trace_lowKept _ _ _ _ _ _ _ r low, overrun, entry _ _ _ _ r low]

theorem logFault_flag_ctrl (s : State) (e : FaultEv) (cls : Nat) (lasting fenced : Bool) :
    (s.logFault e cls lasting fenced).flag FLT_CTRL_INT_LASTING = s.flag FLT_CTRL_INT_LASTING := by
  unfold State.flag State.get
  rw [logFault_getR s e cls lasting fenced FLT_CTRL_INT_LASTING.reg (by decide) (by decide)]

/-- A fence is logged, shown to the host when it asks for that, and carried out. -/
def State.fenced (s : State) (kind i : Nat) : State :=
  let k := s.logFault (fenceEv kind i) 0 false true
  let k := if s.flag FLT_CTRL_INT_LASTING then k.raiseVec 0 else k
  (k.set FLT_STATUS_FENCED 1).fenceUnit kind i

theorem act_fence (s : State) {kind i : Nat} (free : s.unitFenced kind i = false) :
    s.act false { ev := fenceEv kind i, cls := 0, kind := kind, lasting := false, act := 1 } = s.fenced kind i := by
  simp [State.act, State.faultInt, Judged.fences, fenceEv, free, logFault_flag_ctrl, State.fenced]

theorem batch_fence (s : State) {kind i : Nat} (run : s.fatal = false) (free : s.unitFenced kind i = false) :
    s.batch [fenceEv kind i] = s.fenced kind i := by
  unfold State.batch
  dsimp only [List.foldl_cons, List.foldl_nil, insertEv]
  rw [if_neg (ne_true_of_eq_false run), judge_fence s free]
  exact act_fence s free

/-- A report in an empty queue is taken up with the state as it was. -/
theorem settle_one {s : State} (empty : s.fault.queue = []) (e : FaultEv) :
    ({ s with fault := { s.fault with queue := s.fault.queue ++ [e] } } : State).settle = (State.takeFaults 63 (s.batch [e])).sw fun w => { w with failed := [] } := by
  have restored : ({ s with fault := { s.fault with queue := [] } } : State) = s := by
    rw [← empty]
  rw [empty]
  change (State.takeFaults 63 (State.batch { s with fault := { s.fault with queue := [] } } [e])).sw _ = _
  rw [restored]

theorem unitFenced_fenceCmd (s : State) (x kind i : Nat) : (s.setR FLT_FENCE_CMD x).unitFenced kind i = s.unitFenced kind i := by
  have port : (s.setR FLT_FENCE_CMD x).getR FLT_FENCE_PORT = s.getR FLT_FENCE_PORT := State.getR_setR_ne _ _ _ _ (by decide)
  have unit : (s.setR FLT_FENCE_CMD x).getR FLT_FENCE_UNIT = s.getR FLT_FENCE_UNIT := State.getR_setR_ne _ _ _ _ (by decide)
  have lane (n : Nat) : (s.setR FLT_FENCE_CMD x).getR (FLT_FENCE_LANE n) = s.getR (FLT_FENCE_LANE n) :=
    State.getR_setR_ne _ _ _ _ (by dsimp only [FLT_FENCE_LANE, FLT_FENCE_CMD]; omega)
  have core (n : Nat) : (s.setR FLT_FENCE_CMD x).getR (FLT_FENCE_CORE n) = s.getR (FLT_FENCE_CORE n) :=
    State.getR_setR_ne _ _ _ _ (by dsimp only [FLT_FENCE_CORE, FLT_FENCE_CMD]; omega)
  unfold State.unitFenced State.laneFenced State.portFenced State.coreFenced State.gwFenced State.ctlFenced
  rw [lane, port, core, unit]

theorem fenceCmd_kind (v : Word) : (setBit v 31).toNat % 8 = bits v.toNat 0 3 ∧ bits (setBit v 31).toNat 8 8 = bits v.toNat 8 8 := by
  rw [setBit_toNat v 31 (by decide)]
  exact ⟨(bits_from_zero _ 3).symm.trans (bits_putBits_below _ _ _ _ _ _ (by decide)), bits_putBits_below _ _ _ _ _ _ (by decide)⟩

theorem fltFenceCmd_rows (v : Word) {s : State} (q : Quiet s) (taken : Taken s FLT_FENCE_CMD) :
    let kind := bits v.toNat 0 3
    let i := bits v.toNat 8 8
    ∃ u, RegsOnly s u ∧ RegsKept [FLT_FENCE_CMD.off] s u ∧
      (unitCount kind = 0 → exec (.fltFenceCmd v) s = .next u) ∧
      (unitCount kind ≠ 0 → unitCount kind ≤ i → Ends (.fltFenceCmd v) s (u.aerr 0 FLT_FENCE_CMD.off true 2)) ∧
      (i < unitCount kind → s.fatal = false → s.unitFenced kind i = false →
        let e : FaultEv := { src := 0x3E, inst := i, detail := kind, fence := some kind }
        let k := u.logFault e 0 false true
        let k := if s.flag FLT_CTRL_INT_LASTING then k.raiseVec 0 else k
        exec (.fltFenceCmd v) s =
          .next ((State.takeFaults 63 ((k.set FLT_STATUS_FENCED 1).fenceUnit kind i)).sw fun w => { w with failed := [] })) := by
  intro kind i
  obtain ⟨row, hr, write⟩ := s.hostWrite_FLT_FENCE_CMD (setBit v 31) taken
  obtain ⟨x, stored, -⟩ := stored_rwField s (f := FLT_FENCE_CMD_KIND) (by decide +kernel) hr (setBit v 31)
  change s.stored (ownWrite FLT_FENCE_CMD row [] (setBit v 31)) = s.setR FLT_FENCE_CMD x at stored
  rw [stored, if_pos (bit_setBit_same v 31 (by decide))] at write
  obtain ⟨kindOf, indexOf⟩ := fenceCmd_kind v
  unfold State.fenceCmd at write
  rw [kindOf, indexOf] at write
  dsimp only at write
  change s.hostWrite FLT_FENCE_CMD (setBit v 31) = if unitCount kind = 0 then _ else if unitCount kind ≤ i then _ else _ at write
  refine ⟨s.setR FLT_FENCE_CMD x, RegsOnly.setR (RegsOnly.refl s) _ _, setR_kept s _ x, fun unknown => ?_, fun known out => ?_, fun within run free => ?_⟩
  · rw [if_pos unknown] at write
    exact (congrArg done write).trans (done_same q rfl rfl)
  · rw [if_neg known, if_pos out] at write
    exact congrArg done write
  · rw [if_neg (Nat.ne_of_gt (Nat.zero_lt_of_lt within)), if_neg (Nat.not_le.mpr within)] at write
    have live : (s.setR FLT_FENCE_CMD x).fatal = false := (State.flag_setR_ne _ _ _ _ (by decide)).trans run
    have lasting : (s.setR FLT_FENCE_CMD x).flag FLT_CTRL_INT_LASTING = s.flag FLT_CTRL_INT_LASTING := State.flag_setR_ne _ _ _ _ (by decide)
    have takes := batch_fence _ live ((unitFenced_fenceCmd s x kind i).trans free)
    unfold State.fenced at takes
    dsimp only at takes
    rw [lasting] at takes
    refine (congrArg done write).trans (congrArg Host.Outcome.next ((settle_one (s := s.setR FLT_FENCE_CMD x) q.1 (fenceEv kind i)).trans ?_))
    exact congrArg (fun t => (State.takeFaults 63 t).sw fun w => { w with failed := [] }) takes

end Sys2Proof.Machine
end

section
/-! The fatal sources, the safe state and the FAULT_N pulse (R397, R410, R412, R479, R484). -/

namespace Sys2Proof.Machine

open Sys2Proof

/-! The fatal sources -/

section
variable {s : State} (q : Quiet s)

include q in
theorem fatalSources_rows :
    (s.flag PWR_CLK_STATUS_ROOT_LOCK = true → Ends .pllUnlock s ((s.set PWR_CLK_STATUS_ROOT_LOCK 0).report 0x31 0 0)) ∧
    (s.flag PWR_CLK_STATUS_ROOT_LOCK = false → exec .pllUnlock s = .next s) ∧
    (s.ready = true → Ends .fwWatchdog s (s.report 0x34 0 0)) ∧ (s.ready = false → exec .fwWatchdog s = .next s) ∧
    (∀ rail, rail ≤ 8 → s.boot.powered = true → Ends (.powerFault rail) s (s.report 0x33 0 rail)) ∧
    (∀ rail, (8 < rail ∨ s.boot.powered = false) → exec (.powerFault rail) s = .next s) := by
  refine ⟨fun lock => congrArg done (if_pos lock), fun free => (congrArg done (if_neg (ne_true_of_eq_false free))).trans (done_quiet q),
    fun up => congrArg done (if_pos up), fun down => (congrArg done (if_neg (ne_true_of_eq_false down))).trans (done_quiet q),
    fun rail known on => congrArg done (if_pos ?_), fun rail other => (congrArg done (if_neg ?_)).trans (done_quiet q)⟩
  · rw [on, Bool.true_and]
    exact decide_eq_true known
  · rw [Bool.and_eq_true, decide_eq_true_eq]
    rintro ⟨on, known⟩
    rcases other with above | off
    · exact absurd known (Nat.not_le.mpr above)
    · exact ne_true_of_eq_false off on

include q in
theorem thermalTrip_rows (sensor : Nat) (temp : Int) (on : s.boot.powered = true) (known : sensor < 40) (limits : s.boot.mod.limits ≠ 0) :
    let u := s.set (PWR_TEMP_TEMP sensor) (ofSigned 16 temp)
    (s.tripAt sensor ≤ temp → Ends (.thermalTrip sensor temp) s (u.report 0x32 0 sensor)) ∧
    (temp < s.tripAt sensor → exec (.thermalTrip sensor temp) s = .next u) := by
  intro u
  have trip : u.tripAt sensor = s.tripAt sensor := by
    unfold State.tripAt
    rw [show u.boot = s.boot from State.setR_boot s _ _]
  have row : exec (.thermalTrip sensor temp) s = done (if temp ≥ u.tripAt sensor then u.report 0x32 0 sensor else u) := by
    refine if_neg ?_
    rw [on, decide_eq_false (Nat.not_le.mpr known), beq_false_of_ne limits, Bool.and_false]
    decide
  rw [trip] at row
  exact ⟨fun high => row.trans (congrArg done (if_pos high)),
    fun low => (row.trans (congrArg done (if_neg (Int.not_le.mpr low)))).trans (done_same q (s.set_fault _ _) (s.set_switch _ _))⟩

end

/-! The safe state -/

/-- Puts a controller that is not fenced into self-refresh. -/
def State.refreshCtl (s : State) (c : Nat) : State := if s.ctlFenced c then s else s.set (MEM_CH_STATUS_STATE c) 4

theorem refreshCtl_getR (s : State) (c : Nat) (r : Reg) (apart : r.off ≠ (MEM_CH_STATUS c).off) : (s.refreshCtl c).getR r = s.getR r := by
  unfold State.refreshCtl
  split
  · rfl
  · exact State.getR_set_ne _ _ _ _ apart

theorem refreshCtl_fenced (s : State) (c d : Nat) : (s.refreshCtl c).ctlFenced d = s.ctlFenced d := by
  unfold State.ctlFenced
  rw [refreshCtl_getR s c FLT_FENCE_UNIT (by dsimp only [MEM_CH_STATUS, FLT_FENCE_UNIT]; omega)]

theorem refreshCtl_state (s : State) (c d : Nat) :
    ctlState (s.refreshCtl c) d = if d = c ∧ s.ctlFenced d = false then 4 else ctlState s d := by
  by_cases same : d = c
  · subst same
    unfold State.refreshCtl
    cases fenced : s.ctlFenced d
    · rw [if_neg Bool.false_ne_true, if_pos ⟨rfl, rfl⟩]
      exact State.get_set_same _ _ _ (by decide : 0 + 3 ≤ 32)
    · rw [if_pos rfl, if_neg fun h => Bool.noConfusion h.2]
  · rw [if_neg fun h => same h.1]
    unfold ctlState State.get
    rw [refreshCtl_getR s c (MEM_CH_STATUS_STATE d).reg (by dsimp only [MEM_CH_STATUS_STATE, MEM_CH_STATUS]; omega)]

theorem refreshCtl_only (s : State) (c : Nat) : ∃ regs, s.refreshCtl c = { s with regs := regs } := by
  unfold State.refreshCtl
  split
  · exact ⟨_, rfl⟩
  · exact ⟨_, RegsOnly.set (RegsOnly.refl s) _ _⟩

/-- Puts controllers that are not fenced into self-refresh. -/
def State.refreshCtls (s : State) (cs : List Nat) : State := cs.foldl State.refreshCtl s

theorem refreshCtls_cons (s : State) (c : Nat) (cs : List Nat) : s.refreshCtls (c :: cs) = (s.refreshCtl c).refreshCtls cs := rfl

theorem refreshCtls_getR (cs : List Nat) (s : State) (r : Reg) (apart : ∀ c ∈ cs, r.off ≠ (MEM_CH_STATUS c).off) :
    (s.refreshCtls cs).getR r = s.getR r := by
  induction cs generalizing s with
  | nil => rfl
  | cons c cs ih =>
    obtain ⟨head, tail⟩ := List.forall_mem_cons.mp apart
    rw [refreshCtls_cons, ih _ tail, refreshCtl_getR s c r head]

theorem refreshCtls_state (cs : List Nat) (s : State) (d : Nat) :
    ctlState (s.refreshCtls cs) d = if d ∈ cs ∧ s.ctlFenced d = false then 4 else ctlState s d := by
  induction cs generalizing s with
  | nil => exact (if_neg fun h => List.not_mem_nil h.1).symm
  | cons c cs ih =>
    rw [refreshCtls_cons, ih, refreshCtl_fenced, refreshCtl_state]
    cases s.ctlFenced d
    · simp only [and_true, List.mem_cons]
      by_cases later : d ∈ cs
      · rw [if_pos later, if_pos (.inr later)]
      · rw [if_neg later]
        exact ite_congr (propext ⟨.inl, fun h => h.resolve_right later⟩) (fun _ => rfl) fun _ => rfl
    · simp only [reduceCtorEq, and_false, if_false]

theorem refreshCtls_only (cs : List Nat) (s : State) : ∃ regs, s.refreshCtls cs = { s with regs := regs } := by
  induction cs generalizing s with
  | nil => exact ⟨_, rfl⟩
  | cons c cs ih =>
    obtain ⟨regs, is⟩ := refreshCtl_only s c
    rw [refreshCtls_cons, is]
    exact ih _

/-- An address of the part that is not hashed lies on one of 24 controllers of equal size. -/
theorem linear_lt {a hashed size total : Nat} (beyond : ¬a < 24 * hashed) (within : a < total) (whole : total = 24 * size) :
    (a - 24 * hashed) / (size - hashed) < 24 := by
  refine Nat.div_lt_of_lt_mul ?_
  omega

theorem mapAddr_lt (u : Nat) {a : Nat} (within : a < gddrSize) : (mapAddr u a).1 < 24 := by
  rw [mapAddr]
  dsimp only
  split
  · exact Nat.mod_lt _ (by decide)
  · next beyond => exact linear_lt beyond within rfl

/-- Stated of the functions: at an address the kernel would compute the map. -/
theorem ctlOf_eq : State.ctlOf = fun s a => (mapAddr s.hashedUnits a).1 := rfl

/-- Every address of the GDDR7 memory lies on one of the 24 controllers. -/
theorem ctlOf_lt (s : State) {a : Nat} (within : a < gddrSize) : s.ctlOf a < 24 := by
  rw [ctlOf_eq]
  exact mapAddr_lt s.hashedUnits within

/-- The controllers whose content is lost: those not fenced that were not READY. -/
def State.unrefreshed (s : State) : List Nat := (List.range 24).filter fun c => !s.ctlFenced c && s.get (MEM_CH_STATUS_STATE c) != 2

theorem unrefreshed_contains (s : State) {c : Nat} (known : c < 24) :
    (!s.unrefreshed.contains c) = (s.ctlFenced c || ctlState s c == 2) := by
  have mem : s.unrefreshed.contains c = (!s.ctlFenced c && ctlState s c != 2) := by
    rw [Bool.eq_iff_iff, List.contains_iff_mem]
    unfold State.unrefreshed
    rw [List.mem_filter, List.mem_range]
    exact and_iff_right known
  rw [mem, bne]
  cases s.ctlFenced c
  · rw [Bool.not_false, Bool.true_and, Bool.not_not, Bool.false_or]
  · rfl

theorem gddrForget_unrefreshed (s : State) (wf : gddrWf s.gddr = true) :
    s.gddr.filter (fun x => !s.unrefreshed.contains (s.ctlOf x.1)) =
      s.gddr.filter fun x => s.ctlFenced (s.ctlOf x.1) || ctlState s (s.ctlOf x.1) == 2 := by
  refine List.filter_congr fun x mem => unrefreshed_contains s (ctlOf_lt s ?_)
  exact of_decide_eq_true (List.all_eq_true.mp (Bool.and_eq_true_iff.mp wf).2 x mem)

/-- The registers of the safe state. -/
def State.safeRegs (s : State) : State := ((s.refreshCtls (List.range 24)).set MEM_STATUS_TRAIN_BUSY 0).set FLT_STATUS_SAFE 1

theorem safeRegs_only (s : State) : ∃ regs, s.safeRegs = { s with regs := regs } := by
  obtain ⟨regs, is⟩ := refreshCtls_only (List.range 24) s
  unfold State.safeRegs
  rw [is]
  exact ⟨_, RegsOnly.set (RegsOnly.set (RegsOnly.refl ({ s with regs := regs } : State)) _ _) _ _⟩

theorem safeRegs_getR (s : State) (r : Reg) (safe : r.off ≠ FLT_STATUS.off) (busy : r.off ≠ MEM_STATUS.off) :
    s.safeRegs.getR r = (s.refreshCtls (List.range 24)).getR r :=
  (State.getR_set_ne _ FLT_STATUS_SAFE r 1 safe).trans (State.getR_set_ne _ MEM_STATUS_TRAIN_BUSY r 0 busy)

theorem safeRegs_kept (s : State) :
    RegsKept ([FLT_STATUS.off, MEM_STATUS.off] ++ (List.range 24).map fun c => (MEM_CH_STATUS c).off) s s.safeRegs := by
  intro r out
  obtain ⟨flags, ctls⟩ := not_or.mp fun h => out (List.mem_append.mpr h)
  have busy := List.not_mem_of_not_mem_cons flags
  refine (safeRegs_getR s r (List.ne_of_not_mem_cons flags) (List.ne_of_not_mem_cons busy)).trans (refreshCtls_getR _ s r fun c mem same => ctls ?_)
  exact List.mem_map.mpr ⟨c, mem, same.symm⟩

theorem safeRegs_flags (s : State) : s.safeRegs.safe = true ∧ s.safeRegs.fatal = s.fatal := by
  refine ⟨State.flag_set_same _ FLT_STATUS_SAFE 1 (by decide), ?_⟩
  have kept : s.safeRegs.get FLT_STATUS_FATAL = s.get FLT_STATUS_FATAL := by
    refine (State.get_set_apart _ FLT_STATUS_SAFE FLT_STATUS_FATAL 1 rfl (by decide) (.inl (by decide))).trans ?_
    refine (State.get_set_ne _ MEM_STATUS_TRAIN_BUSY FLT_STATUS_FATAL 0 (by decide)).trans ?_
    unfold State.get
    rw [refreshCtls_getR _ s FLT_STATUS_FATAL.reg fun c _ => by dsimp only [MEM_CH_STATUS, FLT_STATUS_FATAL, FLT_STATUS]; omega]
  unfold State.fatal State.flag
  rw [kept]

theorem safeRegs_state (s : State) {c : Nat} (known : c < 24) :
    ctlState s.safeRegs c = if s.ctlFenced c = false then 4 else ctlState s c := by
  have same : ctlState s.safeRegs c = ctlState (s.refreshCtls (List.range 24)) c := by
    unfold ctlState State.get
    rw [safeRegs_getR s (MEM_CH_STATUS_STATE c).reg (by dsimp only [MEM_CH_STATUS_STATE, MEM_CH_STATUS, FLT_STATUS]; omega)
      (by dsimp only [MEM_CH_STATUS_STATE, MEM_CH_STATUS, MEM_STATUS]; omega)]
  rw [same, refreshCtls_state]
  exact ite_congr (propext (and_iff_right (List.mem_range.mpr known))) (fun _ => rfl) fun _ => rfl

theorem safeStateReached_row {s : State} (decided : s.fatal = true) (notSafe : s.safe = false) :
    exec .safeStateReached s = done ((s.gddrForget fun a => s.unrefreshed.contains (s.ctlOf a)).safeRegs.raiseVec 0) :=
  if_neg (by rw [decided, notSafe]; decide)

theorem safeStateReached_rows {s : State} (q : Quiet s) : ((s.fatal = false ∨ s.safe = true) → exec .safeStateReached s = .next s) ∧
    (s.fatal = true → s.safe = false → ∃ t, exec .safeStateReached s = .next t ∧ t.safe = true ∧ t.fatal = true ∧
      (∀ c < 24, s.ctlFenced c = false → ctlState t c = 4) ∧ (∀ c < 24, s.ctlFenced c = true → ctlState t c = ctlState s c) ∧
      RegsKept ([FLT_STATUS.off, MEM_STATUS.off] ++ (List.range 24).map fun c => (MEM_CH_STATUS c).off) s t ∧
      t = { s with regs := t.regs, host := t.host, out := t.out, gddr := t.gddr, gddrGen := t.gddrGen } ∧
      (gddrWf s.gddr = true → t.gddr = s.gddr.filter fun x => s.ctlFenced (s.ctlOf x.1) || ctlState s (s.ctlOf x.1) == 2)) := by
  refine ⟨fun still => (if_pos ?_).trans (done_quiet q), fun decided notSafe => ?_⟩
  · rcases still with run | safe
    · rw [run]
      rfl
    · rw [safe, Bool.or_true]
  · have row := safeStateReached_row decided notSafe
    obtain ⟨shown, kept⟩ := safeRegs_flags (s.gddrForget fun a => s.unrefreshed.contains (s.ctlOf a))
    have state {c : Nat} := safeRegs_state (s.gddrForget fun a => s.unrefreshed.contains (s.ctlOf a)) (c := c)
    have regsKept := safeRegs_kept (s.gddrForget fun a => s.unrefreshed.contains (s.ctlOf a))
    obtain ⟨regs, only⟩ := safeRegs_only (s.gddrForget fun a => s.unrefreshed.contains (s.ctlOf a))
    rw [only] at row shown kept state regsKept
    obtain ⟨host, out, raised⟩ := (HostOnly.refl { s.gddrForget (fun a => s.unrefreshed.contains (s.ctlOf a)) with regs := regs }).raiseVec 0
    rw [raised] at row
    exact ⟨_, row.trans (done_same q rfl rfl), shown, kept.trans decided, fun c known free => (state known).trans (if_pos free),
      fun c known fenced => (state known).trans (if_neg (ne_false_of_eq_true fenced)), regsKept, rfl, fun wf => gddrForget_unrefreshed s wf⟩

/-! The end of the FAULT_N pulse -/

theorem faultPulseEnd_rows {s : State} (q : Quiet s) : (s.fault.pulseEnd = none → exec .faultPulseEnd s = .next s) ∧
    ∀ t, s.fault.pulseEnd = some t →
      let u := s.passTo t
      Ends .faultPulseEnd s { u.set FLT_FAULTN_PULSING 0 with fault := { u.fault with pulseEnd := none } } := by
  change (_ → execFaultPulseEnd s = _) ∧ ∀ t, _ → execFaultPulseEnd s = _
  unfold execFaultPulseEnd
  refine ⟨fun none_ => ?_, fun t runs => ?_⟩
  · rw [none_]
    exact done_quiet q
  · rw [runs]
    rfl

/-- Settles O52. -/
theorem faultEvents : Obligations.FaultEvents :=
  ⟨fun v _ _ taken => forceFatal_row taken v, fun v _ => fltFenceCmd_rows v, fun _ => fatalSources_rows, fun sensor temp _ q => thermalTrip_rows q sensor temp,
    fun _ => safeStateReached_rows, fun _ => faultPulseEnd_rows⟩

end Sys2Proof.Machine
end

section
/-! Power and thermal limiting (R481 to R483). -/

namespace Sys2Proof.Machine

open Sys2Proof

/-! The limiter's K -/

/-- A change of K, before a rise from 0 is counted. -/
def State.moveK (s : State) (k : Nat) : State := (s.set PWR_THROTTLE_K (min 12 k)).modPower fun p => { p with lastChange := s.now }

theorem setK_eq (s : State) (k : Nat) : s.setK k = if min 12 k = s.get PWR_THROTTLE_K then s else
    if s.get PWR_THROTTLE_K = 0 then (s.moveK k).count PWR_THROTTLE_EVENTS_COUNT else s.moveK k := rfl

theorem moveK_regs (s : State) (k : Nat) : (s.moveK k).regs = (s.set PWR_THROTTLE_K (min 12 k)).regs := State.modPower_regs _ _

theorem moveK_getR (s : State) (k : Nat) (r : Reg) (apart : r.off ≠ PWR_THROTTLE.off) : (s.moveK k).getR r = s.getR r :=
  (State.getR_congr _ _ r (moveK_regs s k)).trans (State.getR_set_ne _ _ _ _ apart)

theorem moveK_events (s : State) (k : Nat) : (s.moveK k).get PWR_THROTTLE_EVENTS_COUNT = s.get PWR_THROTTLE_EVENTS_COUNT := by
  unfold State.get
  rw [moveK_getR s k PWR_THROTTLE_EVENTS_COUNT.reg (by decide)]

theorem moveK_shows (s : State) (k : Nat) : (s.moveK k).get PWR_THROTTLE_K = min 12 k := by
  refine (State.get_congr _ _ _ (moveK_regs s k)).trans ((State.get_set_same _ _ _ (by decide)).trans ?_)
  change min 12 k % 16 = _
  omega

/-- A count of the events leaves the other registers. -/
theorem countK_getR (s : State) (r : Reg) (apart : r.off ≠ PWR_THROTTLE_EVENTS.off) : (s.count PWR_THROTTLE_EVENTS_COUNT).getR r = s.getR r :=
  State.getR_set_ne _ _ _ _ apart

theorem setK_shows (s : State) (k : Nat) : (s.setK k).get PWR_THROTTLE_K = min 12 k := by
  rw [setK_eq]
  split
  · next same => exact same.symm
  · split
    · exact (State.get_set_ne (s.moveK k) PWR_THROTTLE_EVENTS_COUNT PWR_THROTTLE_K _ (by decide)).trans (moveK_shows s k)
    · exact moveK_shows s k

theorem setK_getR (s : State) (k : Nat) (r : Reg) (apart : r.off ≠ PWR_THROTTLE.off) (events : r.off ≠ PWR_THROTTLE_EVENTS.off) :
    (s.setK k).getR r = s.getR r := by
  rw [setK_eq]
  split
  · rfl
  · split
    · exact (countK_getR _ r events).trans (moveK_getR s k r apart)
    · exact moveK_getR s k r apart

theorem setK_counts (s : State) (k : Nat) (zero : s.get PWR_THROTTLE_K = 0) (rises : 0 < k) :
    (s.setK k).get PWR_THROTTLE_EVENTS_COUNT = min (2 ^ 32 - 1) (s.get PWR_THROTTLE_EVENTS_COUNT + 1) := by
  rw [setK_eq, if_neg (by omega), if_pos zero]
  refine (State.get_set_same (s.moveK k) PWR_THROTTLE_EVENTS_COUNT _ (by decide)).trans ?_
  rw [moveK_events]
  change min (s.get PWR_THROTTLE_EVENTS_COUNT + 1) (2 ^ 32 - 1) % 2 ^ 32 = _
  omega

theorem setK_uncounted (s : State) (k : Nat) (on : s.get PWR_THROTTLE_K ≠ 0) :
    (s.setK k).get PWR_THROTTLE_EVENTS_COUNT = s.get PWR_THROTTLE_EVENTS_COUNT := by
  rw [setK_eq, if_neg on]
  split
  · rfl
  · exact moveK_events s k

theorem setK_rows (s : State) (k : Nat) :
    (s.setK k).get PWR_THROTTLE_K = min 12 k ∧ RegsKept [PWR_THROTTLE.off, PWR_THROTTLE_EVENTS.off] s (s.setK k) ∧
    (s.get PWR_THROTTLE_K = 0 → 0 < k →
      (s.setK k).get PWR_THROTTLE_EVENTS_COUNT = min (2 ^ 32 - 1) (s.get PWR_THROTTLE_EVENTS_COUNT + 1)) ∧
    (s.get PWR_THROTTLE_K ≠ 0 → (s.setK k).get PWR_THROTTLE_EVENTS_COUNT = s.get PWR_THROTTLE_EVENTS_COUNT) :=
  ⟨setK_shows s k, fun r out => setK_getR s k r (List.ne_of_not_mem_cons out) (List.ne_of_not_mem_cons (List.not_mem_of_not_mem_cons out)),
    setK_counts s k, setK_uncounted s k⟩

/-- A change of K leaves the flags beside it. -/
theorem setK_flag (s : State) (k : Nat) (f : Fld) (reg : f.reg = PWR_THROTTLE) (beside : 4 ≤ f.lo) : (s.setK k).flag f = s.flag f := by
  have moved : (s.moveK k).get f = s.get f := (State.get_congr _ _ _ (moveK_regs s k)).trans
    (State.get_set_apart s PWR_THROTTLE_K f _ reg (by decide) (.inr beside))
  have counted : ((s.moveK k).count PWR_THROTTLE_EVENTS_COUNT).get f = (s.moveK k).get f := State.get_set_ne _ _ _ _ (by rw [reg]; decide)
  unfold State.flag
  rw [setK_eq]
  split
  · rfl
  · split
    · rw [counted, moved]
    · rw [moved]

theorem setK_keeps (s : State) (k : Nat) :
    (s.setK k).fault = s.fault ∧ (s.setK k).power.fast = s.power.fast ∧ (s.setK k).power.checkedAt = s.power.checkedAt := by
  have moved : (s.moveK k).fault = s.fault ∧ (s.moveK k).power.fast = s.power.fast ∧ (s.moveK k).power.checkedAt = s.power.checkedAt := ⟨rfl, rfl, rfl⟩
  have counted : ((s.moveK k).count PWR_THROTTLE_EVENTS_COUNT).fault = (s.moveK k).fault ∧
      ((s.moveK k).count PWR_THROTTLE_EVENTS_COUNT).power = (s.moveK k).power := ⟨State.set_fault _ _ _, State.set_power _ _ _⟩
  rw [setK_eq]
  split
  · exact ⟨rfl, rfl, rfl⟩
  · split
    · rw [counted.1, counted.2]
      exact moved
    · exact moved

/-! A sample of the power -/

theorem powerSample_rows (tenths mv current : Nat) {s : State} (q : Quiet s) : (s.boot.powered = false → exec (.powerSample tenths mv current) s = .next s) ∧
    (s.boot.powered = true →
      let u := s.passTo (s.power.sampledAt + 16500)
      let k := u.modPower fun p =>
        { p with samples := (tenths :: p.samples).take 100, sampledAt := u.now, peak := max p.peak tenths, energy := p.energy + tenths }
      let r := if u.power.refreshAt ≤ u.now then
          ((k.set PWR_INPUT_MV mv).set PWR_INPUT_CURRENT current).modPower fun p => { p with refreshAt := u.now + 1650000 }
        else k
      (tenths ≤ 10500 → Ends (.powerSample tenths mv current) s r) ∧
      (10500 < tenths →
        let f := (r.set PWR_THROTTLE_FAST 1).modPower fun p => { p with fast := true }
        (u.power.fast = false → Ends (.powerSample tenths mv current) s (f.setK (f.get PWR_THROTTLE_K + 4))) ∧
        (u.power.fast = true → Ends (.powerSample tenths mv current) s f))) := by
  refine ⟨fun off => (if_pos (by rw [off]; rfl)).trans (done_quiet q), fun on => ?_⟩
  have row : exec (.powerSample tenths mv current) s = _ := if_neg (by rw [on]; decide)
  refine ⟨fun low => row.trans (if_neg (Nat.not_lt.mpr low)), fun high => ?_⟩
  have fast := row.trans (if_pos high)
  refine ⟨fun first => fast.trans (congrArg done (if_pos ?_)), fun again => fast.trans (congrArg done (if_neg ?_))⟩
  · rw [show (s.passTo (s.power.sampledAt + fclk 10)).power.fast = false from first]
    rfl
  · rw [show (s.passTo (s.power.sampledAt + fclk 10)).power.fast = true from again]
    decide

end Sys2Proof.Machine
end

section
/-! The limiter's check (R482 to R484). -/

namespace Sys2Proof.Machine

open Sys2Proof

/-! The flags of a check -/

/-- The flags of a check. -/
def State.limitFlags (s : State) (high die mem : Bool) : State :=
  (((s.set PWR_THROTTLE_POWER (b2n high)).set PWR_THROTTLE_DIE (b2n die)).set PWR_THROTTLE_MEM (b2n mem)).set PWR_THROTTLE_FAST 0

theorem limitFlags_only (s : State) (high die mem : Bool) : ∃ regs, s.limitFlags high die mem = { s with regs := regs } :=
  ⟨_, RegsOnly.set (RegsOnly.set (RegsOnly.set (RegsOnly.set (RegsOnly.refl s) _ _) _ _) _ _) _ _⟩

theorem flag_set_b2n (s : State) (f : Fld) (b : Bool) (one : f.width = 1) (fits : f.lo + f.width ≤ 32) : (s.set f (b2n b)).flag f = b := by
  rw [State.flag_set_same s f _ fits, one]
  cases b
  · rfl
  · rfl

theorem flag_set_apart (s : State) (f g : Fld) (v : Nat) (reg : g.reg = f.reg) (fits : f.lo + f.width ≤ 32)
    (apart : g.lo + g.width ≤ f.lo ∨ f.lo + f.width ≤ g.lo) : (s.set f v).flag g = s.flag g := by
  unfold State.flag
  rw [State.get_set_apart s f g v reg fits apart]

theorem limitFlags_shows (s : State) (high die mem : Bool) :
    let t := s.limitFlags high die mem
    t.flag PWR_THROTTLE_FAST = false ∧ t.flag PWR_THROTTLE_POWER = high ∧ t.flag PWR_THROTTLE_DIE = die ∧ t.flag PWR_THROTTLE_MEM = mem ∧
      t.get PWR_THROTTLE_K = s.get PWR_THROTTLE_K := by
  have fast (u : State) (g : Fld) := flag_set_apart u PWR_THROTTLE_FAST g 0
  have memory (u : State) (g : Fld) := flag_set_apart u PWR_THROTTLE_MEM g (b2n mem)
  have dies (u : State) (g : Fld) := flag_set_apart u PWR_THROTTLE_DIE g (b2n die)
  refine ⟨State.flag_set_same _ PWR_THROTTLE_FAST 0 (by decide), ?_, ?_, ?_, ?_⟩
  · exact (fast _ PWR_THROTTLE_POWER rfl (by decide) (.inl (by decide))).trans ((memory _ PWR_THROTTLE_POWER rfl (by decide) (.inl (by decide))).trans
      ((dies _ PWR_THROTTLE_POWER rfl (by decide) (.inl (by decide))).trans (flag_set_b2n s PWR_THROTTLE_POWER high rfl (by decide))))
  · exact (fast _ PWR_THROTTLE_DIE rfl (by decide) (.inr (by decide))).trans ((memory _ PWR_THROTTLE_DIE rfl (by decide) (.inl (by decide))).trans
      (flag_set_b2n _ PWR_THROTTLE_DIE die rfl (by decide)))
  · exact (fast _ PWR_THROTTLE_MEM rfl (by decide) (.inr (by decide))).trans (flag_set_b2n _ PWR_THROTTLE_MEM mem rfl (by decide))
  · exact (State.get_set_apart _ PWR_THROTTLE_FAST PWR_THROTTLE_K 0 rfl (by decide) (.inl (by decide))).trans
      ((State.get_set_apart _ PWR_THROTTLE_MEM PWR_THROTTLE_K _ rfl (by decide) (.inl (by decide))).trans
        ((State.get_set_apart _ PWR_THROTTLE_DIE PWR_THROTTLE_K _ rfl (by decide) (.inl (by decide))).trans
          (State.get_set_apart s PWR_THROTTLE_POWER PWR_THROTTLE_K _ rfl (by decide) (.inl (by decide)))))

/-- Reports of trips touch the fault collector alone. -/
theorem tripped_only (s : State) (n : Nat) : ∃ f, s.tripped n = { s with fault := f } := by
  have fold (l : List Nat) (u : State) : ∃ f, l.foldl (fun s i => s.report 0x32 0 i) u = { u with fault := f } := by
    induction l generalizing u with
    | nil => exact ⟨_, rfl⟩
    | cons i l ih => exact ih _
  exact fold _ s

/-! What a check finds -/

section
variable (s : State)

/-- Whether the mean power is over the limit. -/
def State.overPower : Bool := decide (10 * s.wattLimit * s.power.samples.length < s.power.samples.sum)

/-- Whether a die is at its limit or above. -/
def State.hotDie : Bool := s.boot.mod.limits != 0 && (List.range 8).any fun i => decide (s.temp i ≥ s.throttleAt i)

/-- Whether a memory sensor is at its limit or above. -/
def State.hotMem : Bool := s.boot.mod.limits != 0 && ((List.range 24).map (8 + ·)).any fun i => decide (s.temp i ≥ s.throttleAt i)

/-- Whether power and temperatures are well below their limits. -/
def State.wellBelow : Bool :=
  decide (s.power.samples.sum + 250 * s.power.samples.length ≤ 10 * s.wattLimit * s.power.samples.length) &&
    (s.boot.mod.limits != 0 && (List.range 32).all fun i => decide (s.temp i + 30 ≤ s.throttleAt i))

theorem overPower_iff : s.overPower = true ↔ 10 * s.wattLimit * s.power.samples.length < s.power.samples.sum := decide_eq_true_iff

theorem hotDie_iff : s.hotDie = true ↔ s.boot.mod.limits ≠ 0 ∧ ∃ i < 8, s.throttleAt i ≤ s.temp i := by
  simp [State.hotDie]

theorem hotMem_iff : s.hotMem = true ↔ s.boot.mod.limits ≠ 0 ∧ ∃ i < 24, s.throttleAt (8 + i) ≤ s.temp (8 + i) := by
  simp [State.hotMem]

theorem wellBelow_iff : s.wellBelow = true ↔
    s.power.samples.sum + 250 * s.power.samples.length ≤ 10 * s.wattLimit * s.power.samples.length ∧ s.boot.mod.limits ≠ 0 ∧
    ∀ i < 32, s.temp i + 30 ≤ s.throttleAt i := by
  simp [State.wellBelow]

/-- A state whose check of n sensors is shown, before its change of K. -/
def State.checked (n : Nat) : State :=
  let t := (s.tripped n).limitFlags s.overPower s.hotDie s.hotMem
  t.modPower fun p => { p with fast := false, checkedAt := t.now }

theorem checked_only (n : Nat) : ∃ regs, s.checked n =
    { s with regs := regs, fault := (s.tripped n).fault, power := { s.power with fast := false, checkedAt := s.now } } := by
  obtain ⟨f, trips⟩ := tripped_only s n
  unfold State.checked
  rw [trips]
  obtain ⟨regs, only⟩ := limitFlags_only { s with fault := f } s.overPower s.hotDie s.hotMem
  rw [only]
  exact ⟨_, rfl⟩

theorem checked_shows (n : Nat) : let t := s.checked n
    t.flag PWR_THROTTLE_FAST = false ∧ t.flag PWR_THROTTLE_POWER = s.overPower ∧ t.flag PWR_THROTTLE_DIE = s.hotDie ∧
      t.flag PWR_THROTTLE_MEM = s.hotMem ∧ t.get PWR_THROTTLE_K = s.get PWR_THROTTLE_K := by
  obtain ⟨f, trips⟩ := tripped_only s n
  have shows := limitFlags_shows (s.tripped n) s.overPower s.hotDie s.hotMem
  have regs : (s.checked n).regs = ((s.tripped n).limitFlags s.overPower s.hotDie s.hotMem).regs := State.modPower_regs _ _
  dsimp only at shows ⊢
  rw [State.flag_congr _ _ _ regs, State.flag_congr _ _ _ regs, State.flag_congr _ _ _ regs, State.flag_congr _ _ _ regs, State.get_congr _ _ _ regs]
  rw [State.get_congr s (s.tripped n) PWR_THROTTLE_K (by rw [trips])] at shows
  exact shows

/-- The change of K of a check that is shown in a state k. -/
def State.limit (k : State) : State :=
  if s.power.fast then k
  else if s.overPower || s.hotDie || s.hotMem then k.setK (k.get PWR_THROTTLE_K + 1)
  else if decide (k.now - k.power.lastChange ≥ fclk 1000) && s.wellBelow then k.setK (k.get PWR_THROTTLE_K - 1)
  else k

end

/-- The sensors' temperatures as a check reads them. -/
def State.sensed (s : State) (temps : List Int) : State :=
  (temps.take 40).zipIdx.foldl (fun (s : State) (x : Int × Nat) => s.set (PWR_TEMP_TEMP x.2) (ofSigned 16 x.1)) (s.passTo (s.power.checkedAt + 165000))

theorem limiterCheck_row {temps : List Int} {s : State} (on : s.boot.powered = true) :
    exec (.limiterCheck temps) s = done ((s.sensed temps).limit ((s.sensed temps).checked (min 40 temps.length))) := by
  unfold State.limit
  rw [apply_ite done, apply_ite done, apply_ite done, State.wellBelow, ← Bool.and_assoc]
  exact if_neg (by rw [on]; decide)

end Sys2Proof.Machine
end

section
/-! What a check of the limiter shows, and its K (R482, R483). -/

namespace Sys2Proof.Machine

open Sys2Proof

section
variable (u k : State)

theorem limit_cases : u.limit k = k ∨ ∃ x, u.limit k = k.setK x := by
  unfold State.limit
  split
  · exact .inl rfl
  · split
    · exact .inr ⟨_, rfl⟩
    · split
      · exact .inr ⟨_, rfl⟩
      · exact .inl rfl

theorem limit_flag (f : Fld) (reg : f.reg = PWR_THROTTLE) (beside : 4 ≤ f.lo) : (u.limit k).flag f = k.flag f := by
  rcases limit_cases u k with is | ⟨x, is⟩
  · rw [is]
  · rw [is, setK_flag k x f reg beside]

theorem limit_keeps :
    (u.limit k).fault = k.fault ∧ (u.limit k).power.fast = k.power.fast ∧ (u.limit k).power.checkedAt = k.power.checkedAt := by
  rcases limit_cases u k with is | ⟨x, is⟩
  · rw [is]
    exact ⟨rfl, rfl, rfl⟩
  · rw [is]
    exact setK_keeps k x

theorem limit_fast (fast : u.power.fast = true) : u.limit k = k := if_pos fast

theorem limit_rises (slow : u.power.fast = false) (limited : (u.overPower || u.hotDie || u.hotMem) = true) :
    u.limit k = k.setK (k.get PWR_THROTTLE_K + 1) :=
  (if_neg (ne_true_of_eq_false slow)).trans (if_pos limited)

theorem limit_unlimited (slow : u.power.fast = false) (free : (u.overPower || u.hotDie || u.hotMem) = false) :
    u.limit k = if decide (k.now - k.power.lastChange ≥ fclk 1000) && u.wellBelow then k.setK (k.get PWR_THROTTLE_K - 1) else k :=
  (if_neg (ne_true_of_eq_false slow)).trans (if_neg (ne_true_of_eq_false free))

end

/-- K may fall once nothing has changed it for 1 ms. -/
theorem fallsNow_iff {u k : State} (now : k.now = u.now) (last : k.power.lastChange = u.power.lastChange) :
    (decide (k.now - k.power.lastChange ≥ fclk 1000) && u.wellBelow) = true ↔ u.power.lastChange + 1650000 ≤ u.now ∧
      u.power.samples.sum + 250 * u.power.samples.length ≤ 10 * u.wattLimit * u.power.samples.length ∧ u.boot.mod.limits ≠ 0 ∧
      ∀ i < 32, u.temp i + 30 ≤ u.throttleAt i := by
  have time : u.now - u.power.lastChange ≥ fclk 1000 ↔ u.power.lastChange + 1650000 ≤ u.now := by
    change 1650000 ≤ _ ↔ _
    omega
  rw [Bool.and_eq_true, decide_eq_true_iff, now, last, time, wellBelow_iff]

theorem stays_of_or {u : State} (stays : u.now < u.power.lastChange + 1650000 ∨
      10 * u.wattLimit * u.power.samples.length < u.power.samples.sum + 250 * u.power.samples.length ∨ u.boot.mod.limits = 0 ∨
      ∃ i < 32, u.throttleAt i < u.temp i + 30) :
    ¬(u.power.lastChange + 1650000 ≤ u.now ∧
      u.power.samples.sum + 250 * u.power.samples.length ≤ 10 * u.wattLimit * u.power.samples.length ∧ u.boot.mod.limits ≠ 0 ∧
      ∀ i < 32, u.temp i + 30 ≤ u.throttleAt i) := by
  rintro ⟨late, low, limits, cool⟩
  rcases stays with early | high | unknown | ⟨i, known, warm⟩
  · exact Nat.not_le.mpr early late
  · exact Nat.not_le.mpr high low
  · exact limits unknown
  · exact Int.not_le.mpr warm (cool i known)

theorem limiterCheck_rows (temps : List Int) {s : State} (q : Quiet s) : (s.boot.powered = false → exec (.limiterCheck temps) s = .next s) ∧
    (s.boot.powered = true → ∃ u t : State,
      u = (temps.take 40).zipIdx.foldl (fun (s : State) (x : Int × Nat) => s.set (PWR_TEMP_TEMP x.2) (ofSigned 16 x.1))
        (s.passTo (s.power.checkedAt + 165000)) ∧
      exec (.limiterCheck temps) s = .next t.settle ∧ t.fault = (u.tripped (min 40 temps.length)).fault ∧ t.flag PWR_THROTTLE_FAST = false ∧ t.power.fast = false ∧ t.power.checkedAt = u.now ∧
      (t.flag PWR_THROTTLE_POWER = true ↔ 10 * u.wattLimit * u.power.samples.length < u.power.samples.sum) ∧
      (t.flag PWR_THROTTLE_DIE = true ↔ u.boot.mod.limits ≠ 0 ∧ ∃ i < 8, u.throttleAt i ≤ u.temp i) ∧
      (t.flag PWR_THROTTLE_MEM = true ↔ u.boot.mod.limits ≠ 0 ∧ ∃ i < 24, u.throttleAt (8 + i) ≤ u.temp (8 + i)) ∧
      (u.power.fast = false → (t.flag PWR_THROTTLE_POWER = true ∨ t.flag PWR_THROTTLE_DIE = true ∨ t.flag PWR_THROTTLE_MEM = true) →
        t.get PWR_THROTTLE_K = min 12 (u.get PWR_THROTTLE_K + 1)) ∧
      (u.power.fast = false → t.flag PWR_THROTTLE_POWER = false → t.flag PWR_THROTTLE_DIE = false → t.flag PWR_THROTTLE_MEM = false →
        ((u.power.lastChange + 1650000 ≤ u.now ∧
            u.power.samples.sum + 250 * u.power.samples.length ≤ 10 * u.wattLimit * u.power.samples.length ∧ u.boot.mod.limits ≠ 0 ∧
            ∀ i < 32, u.temp i + 30 ≤ u.throttleAt i) → t.get PWR_THROTTLE_K = min 12 (u.get PWR_THROTTLE_K - 1)) ∧
        ((u.now < u.power.lastChange + 1650000 ∨
            10 * u.wattLimit * u.power.samples.length < u.power.samples.sum + 250 * u.power.samples.length ∨ u.boot.mod.limits = 0 ∨
            ∃ i < 32, u.throttleAt i < u.temp i + 30) → t.get PWR_THROTTLE_K = u.get PWR_THROTTLE_K)) ∧
      (u.power.fast = true → t.get PWR_THROTTLE_K = u.get PWR_THROTTLE_K)) := by
  refine ⟨fun off => (if_pos (by rw [off]; rfl)).trans (done_quiet q), fun on => ?_⟩
  have row := limiterCheck_row (temps := temps) on
  obtain ⟨fastShown, powerShown, dieShown, memShown, kept⟩ := checked_shows (s.sensed temps) (min 40 temps.length)
  obtain ⟨regs, only⟩ := checked_only (s.sensed temps) (min 40 temps.length)
  have now : ((s.sensed temps).checked (min 40 temps.length)).now = (s.sensed temps).now := by rw [only]
  have last : ((s.sensed temps).checked (min 40 temps.length)).power.lastChange = (s.sensed temps).power.lastChange := by rw [only]
  have fault : ((s.sensed temps).checked (min 40 temps.length)).fault = ((s.sensed temps).tripped (min 40 temps.length)).fault := by rw [only]
  have slows : ((s.sensed temps).checked (min 40 temps.length)).power.fast = false := by rw [only]
  have at_ : ((s.sensed temps).checked (min 40 temps.length)).power.checkedAt = (s.sensed temps).now := by rw [only]
  refine ⟨s.sensed temps, (s.sensed temps).limit ((s.sensed temps).checked (min 40 temps.length)), rfl, row, ?_⟩
  generalize (s.sensed temps).checked (min 40 temps.length) = k at *
  generalize s.sensed temps = u at *
  obtain ⟨faultKept, fastKept, atKept⟩ := limit_keeps u k
  rw [limit_flag u k PWR_THROTTLE_FAST rfl (by decide), limit_flag u k PWR_THROTTLE_POWER rfl (by decide), limit_flag u k PWR_THROTTLE_DIE rfl (by decide),
    limit_flag u k PWR_THROTTLE_MEM rfl (by decide), powerShown, dieShown, memShown]
  refine ⟨faultKept.trans fault, fastShown, fastKept.trans slows, atKept.trans at_, overPower_iff u, hotDie_iff u, hotMem_iff u,
    fun slow limited => ?_, fun slow power die mem => ⟨fun falls => ?_, fun stays => ?_⟩, fun fast => ?_⟩
  · have any : (u.overPower || u.hotDie || u.hotMem) = true := by
      rw [Bool.or_eq_true, Bool.or_eq_true, or_assoc]
      exact limited
    rw [limit_rises u k slow any, setK_shows, kept]
  · rw [limit_unlimited u k slow (by rw [power, die, mem]; rfl), if_pos ((fallsNow_iff now last).mpr falls), setK_shows, kept]
  · rw [limit_unlimited u k slow (by rw [power, die, mem]; rfl), if_neg fun falls => stays_of_or stays ((fallsNow_iff now last).mp falls), kept]
  · rw [limit_fast u k fast, kept]

/-- Settles O53. -/
theorem powerLimiter : Obligations.PowerLimiter :=
  ⟨setK_rows, fun tenths mv current _ => powerSample_rows tenths mv current, fun temps _ => limiterCheck_rows temps⟩

end Sys2Proof.Machine
end

section
/-! Snapshots and resets of the counters (R290, R423 to R425). -/

namespace Sys2Proof.Machine

open Sys2Proof

theorem OutsOnly.setR {s t : State} (h : OutsOnly s t) (r : Reg) (v : Nat) : OutsOnly s (t.setR r v) := h.trans ⟨_, _, _, rfl⟩

theorem OutsOnly.quiet {s t : State} (h : OutsOnly s t) (q : Quiet s) : Quiet t := by
  obtain ⟨_, _, _, rfl⟩ := h
  exact q

/-- A 64-bit pair reads back as written. -/
theorem getR64_setR64 (s : State) (r : Reg64) (v : Nat) (small : v < 2 ^ 64) : (s.setR64 r v).getR64 r = v := by
  have low : (s.setR64 r v).getR r.low = v % 2 ^ 32 :=
    (State.getR_setR_ne _ _ _ _ (Nat.ne_of_lt (Nat.lt_add_of_pos_right (by decide)))).trans
      ((State.getR_setR_same _ _ _).trans (Nat.mod_mod _ _))
  have high : (s.setR64 r v).getR r.high = v / 2 ^ 32 :=
    (State.getR_setR_same _ _ _).trans (Nat.mod_eq_of_lt (Nat.div_lt_of_lt_mul (by omega)))
  unfold State.getR64
  rw [low, high]
  exact Nat.mod_add_div v (2 ^ 32)

/-! What a snapshot notes of the cores' sets -/

/-- What a snapshot notes of a core's sets. -/
def State.snapInfo (s : State) (L : Nat) : Nat × Nat :=
  match Tbl.find s.obs.resetDue L with
  | some (cause, tag) => (1 + 2 * cause, tag)
  | none => (2 * (Tbl.read s.obs.resetCause (0, 0) L).1,
      if (Tbl.read s.obs.resetCause (0, 0) L).1 = 2 then 0xFFFFFFFF else (Tbl.read s.obs.resetCause (0, 0) L).2)

theorem snapInfo_due {s : State} {L : Nat} {x : Nat × Nat} (due : Tbl.find s.obs.resetDue L = some x) : s.snapInfo L = (1 + 2 * x.1, x.2) := by
  unfold State.snapInfo
  rw [due]

theorem snapInfo_none {s : State} {L : Nat} (due : Tbl.find s.obs.resetDue L = none) :
    (s.snapInfo L).1 = 2 * (Tbl.read s.obs.resetCause (0, 0) L).1 := by
  unfold State.snapInfo
  rw [due]

theorem noteSnap_eq (s : State) (L : Nat) :
    s.noteSnap L = (s.setR (OBS_CORE_SNAPINFO L) (s.snapInfo L).1).setR (OBS_CORE_SNAPTAG L) (s.snapInfo L).2 := by
  unfold State.noteSnap State.snapInfo
  cases Tbl.find s.obs.resetDue L with
  | none => rfl
  | some x => rfl

theorem noteSnap_obs (s : State) (L : Nat) : (s.noteSnap L).obs = s.obs := by
  rw [noteSnap_eq, State.setR_obs, State.setR_obs]

theorem noteSnap_getR (s : State) (L : Nat) (r : Reg) (info : r.off ≠ (OBS_CORE_SNAPINFO L).off) (tag : r.off ≠ (OBS_CORE_SNAPTAG L).off) :
    (s.noteSnap L).getR r = s.getR r := by
  rw [noteSnap_eq, State.getR_setR_ne _ _ _ _ tag, State.getR_setR_ne _ _ _ _ info]

theorem noteSnap_shows (s : State) (L : Nat) : (s.noteSnap L).getR (OBS_CORE_SNAPINFO L) = (s.snapInfo L).1 % 2 ^ 32 ∧
    (s.noteSnap L).getR (OBS_CORE_SNAPTAG L) = (s.snapInfo L).2 % 2 ^ 32 := by
  rw [noteSnap_eq]
  refine ⟨?_, State.getR_setR_same _ _ _⟩
  rw [State.getR_setR_ne _ _ _ _ (by dsimp only [OBS_CORE_SNAPINFO, OBS_CORE_SNAPTAG]; omega), State.getR_setR_same]

theorem snapInfo_noteSnap (s : State) (L M : Nat) : (s.noteSnap L).snapInfo M = s.snapInfo M := by
  unfold State.snapInfo
  rw [noteSnap_obs]

/-- Notes the sets of a list of cores. -/
def State.noteSnaps (s : State) (Ls : List Nat) : State := Ls.foldl State.noteSnap s

theorem noteSnaps_cons (s : State) (L : Nat) (Ls : List Nat) : s.noteSnaps (L :: Ls) = (s.noteSnap L).noteSnaps Ls := rfl

theorem noteSnaps_getR (Ls : List Nat) (s : State) (r : Reg)
    (apart : ∀ L ∈ Ls, r.off ≠ (OBS_CORE_SNAPINFO L).off ∧ r.off ≠ (OBS_CORE_SNAPTAG L).off) : (s.noteSnaps Ls).getR r = s.getR r := by
  induction Ls generalizing s with
  | nil => rfl
  | cons L Ls ih =>
    obtain ⟨⟨info, tag⟩, rest⟩ := List.forall_mem_cons.mp apart
    rw [noteSnaps_cons, ih _ rest, noteSnap_getR s L r info tag]

/-- The registers of the counters' control lie below those of the cores' sets. -/
theorem noteSnaps_low (Ls : List Nat) (s : State) (r : Reg) (low : r.off < 0x3010C0) : (s.noteSnaps Ls).getR r = s.getR r :=
  noteSnaps_getR Ls s r fun L _ => by
    dsimp only [OBS_CORE_SNAPINFO, OBS_CORE_SNAPTAG]
    omega

theorem noteSnaps_shows (Ls : List Nat) (s : State) {L : Nat} (mem : L ∈ Ls) :
    (s.noteSnaps Ls).getR (OBS_CORE_SNAPINFO L) = (s.snapInfo L).1 % 2 ^ 32 ∧
      (s.noteSnaps Ls).getR (OBS_CORE_SNAPTAG L) = (s.snapInfo L).2 % 2 ^ 32 := by
  induction Ls generalizing s with
  | nil => exact absurd mem List.not_mem_nil
  | cons M Ls ih =>
    rw [noteSnaps_cons]
    by_cases later : L ∈ Ls
    · rw [← snapInfo_noteSnap s M L]
      exact ih _ later
    · have here : L = M := (List.mem_cons.mp mem).resolve_right later
      have other (N : Nat) (mem : N ∈ Ls) : L ≠ N := fun same => later (same ▸ mem)
      rw [noteSnaps_getR Ls _ (OBS_CORE_SNAPINFO L) fun N mem => by
          have := other N mem
          dsimp only [OBS_CORE_SNAPINFO, OBS_CORE_SNAPTAG]
          omega,
        noteSnaps_getR Ls _ (OBS_CORE_SNAPTAG L) fun N mem => by
          have := other N mem
          dsimp only [OBS_CORE_SNAPINFO, OBS_CORE_SNAPTAG]
          omega]
      rw [here]
      exact noteSnap_shows s M

theorem noteSnaps_only (Ls : List Nat) (s : State) : ∃ regs, s.noteSnaps Ls = { s with regs := regs } := by
  induction Ls generalizing s with
  | nil => exact ⟨_, rfl⟩
  | cons L Ls ih =>
    obtain ⟨regs, is⟩ : ∃ regs, s.noteSnap L = { s with regs := regs } := by
      rw [noteSnap_eq]
      exact ⟨_, RegsOnly.setR (RegsOnly.setR (RegsOnly.refl s) _ _) _ _⟩
    rw [noteSnaps_cons, is]
    exact ih _

/-! Snapshots -/

/-- A snapshot, before what it notes of the cores' sets. -/
def State.copySets (s : State) : State :=
  (({ s with obs := { s.obs with snap := s.obs.live, lastSnap := some s.now } } : State).setR64 OBS_SNAP_TAKEN s.ft).countWrap OBS_SNAP_COUNT_COUNT

theorem copySets_obs (s : State) : s.copySets.obs = { s.obs with snap := s.obs.live, lastSnap := some s.now } := by
  unfold State.copySets State.setR64 State.countWrap
  rw [State.set_obs, State.setR_obs, State.setR_obs]

theorem copySets_taken (s : State) : s.copySets.getR64 OBS_SNAP_TAKEN = s.ft := by
  refine Eq.trans ?_ (getR64_setR64 { s with obs := { s.obs with snap := s.obs.live, lastSnap := some s.now } } OBS_SNAP_TAKEN s.ft s.ftime.isLt)
  unfold State.getR64 State.copySets State.countWrap
  rw [State.getR_set_ne _ OBS_SNAP_COUNT_COUNT OBS_SNAP_TAKEN.low _ (by decide), State.getR_set_ne _ OBS_SNAP_COUNT_COUNT OBS_SNAP_TAKEN.high _ (by decide)]

theorem copySets_count (s : State) : s.copySets.get OBS_SNAP_COUNT_COUNT = (s.get OBS_SNAP_COUNT_COUNT + 1) % 2 ^ 32 := by
  refine (State.get_set_same _ OBS_SNAP_COUNT_COUNT _ (by decide)).trans ?_
  rw [State.setR64, State.get_setR_ne _ _ OBS_SNAP_COUNT_COUNT _ (by decide), State.get_setR_ne _ _ OBS_SNAP_COUNT_COUNT _ (by decide)]
  rfl

theorem snapshot_row {s : State} (due : s.obs.lastSnap ≠ some s.now) : s.snapshot = s.copySets.noteSnaps (List.range 144) := if_neg due

theorem snapInfo_copySets (s : State) (L : Nat) : s.copySets.snapInfo L = s.snapInfo L := by
  unfold State.snapInfo
  rw [copySets_obs]

theorem snapshot_shows {s : State} (due : s.obs.lastSnap ≠ some s.now) :
    s.snapshot.obs = { s.obs with snap := s.obs.live, lastSnap := some s.now } ∧
    s.snapshot.getR64 OBS_SNAP_TAKEN = s.ft ∧ s.snapshot.get OBS_SNAP_COUNT_COUNT = (s.get OBS_SNAP_COUNT_COUNT + 1) % 2 ^ 32 ∧
    (∀ L < 144, Tbl.find s.obs.resetDue L = none → s.snapshot.getR (OBS_CORE_SNAPINFO L) % 2 = 0) ∧
    (∀ L < 144, ∀ x, Tbl.find s.obs.resetDue L = some x → s.snapshot.getR (OBS_CORE_SNAPINFO L) % 2 = 1) := by
  have info {L : Nat} (known : L < 144) :
      (s.copySets.noteSnaps (List.range 144)).getR (OBS_CORE_SNAPINFO L) = (s.snapInfo L).1 % 2 ^ 32 :=
    snapInfo_copySets s L ▸ (noteSnaps_shows _ s.copySets (List.mem_range.mpr known)).1
  rw [snapshot_row due]
  refine ⟨?_, ?_, ?_, fun L known none_ => ?_, fun L known x due => ?_⟩
  · obtain ⟨_, is⟩ := noteSnaps_only (List.range 144) s.copySets
    rw [is]
    exact copySets_obs s
  · refine Eq.trans ?_ (copySets_taken s)
    unfold State.getR64
    rw [noteSnaps_low _ _ OBS_SNAP_TAKEN.low (by decide), noteSnaps_low _ _ OBS_SNAP_TAKEN.high (by decide)]
  · refine Eq.trans ?_ (copySets_count s)
    unfold State.get
    rw [noteSnaps_low _ _ OBS_SNAP_COUNT_COUNT.reg (by decide)]
  · rw [info known, snapInfo_none none_]
    omega
  · rw [info known, snapInfo_due due]
    omega

end Sys2Proof.Machine
end

section
/-! OBS_CTRL: a snapshot, an arm, a reset of all sets; the armed time and the sampler's visit (R290, R424, R425). -/

namespace Sys2Proof.Machine

open Sys2Proof

/-! The settings that a write stores -/

/-- A command bit outside the two settings leaves them. -/
theorem obsSet_bits (v : Word) {i : Nat} (command : i = 0 ∨ i = 1 ∨ i = 4) :
    bits (setBit v i).toNat 2 1 = bits v.toNat 2 1 ∧ bits (setBit v i).toNat 3 1 = bits v.toNat 3 1 := by
  rw [setBit_toNat v i (by omega)]
  rcases command with rfl | rfl | rfl
  · exact ⟨bits_putBits_above _ _ _ _ _ _ (by decide), bits_putBits_above _ _ _ _ _ _ (by decide)⟩
  · exact ⟨bits_putBits_above _ _ _ _ _ _ (by decide), bits_putBits_above _ _ _ _ _ _ (by decide)⟩
  · exact ⟨bits_putBits_below _ _ _ _ _ _ (by decide), bits_putBits_below _ _ _ _ _ _ (by decide)⟩

/-- A write of OBS_CTRL that leaves LATE. -/
theorem obsCtrl_row {s : State} (taken : Taken s OBS_CTRL) (v : Word) {i : Nat} (command : i = 0 ∨ i = 1 ∨ i = 4) (late : bit v.toNat 5 = false) :
    s.hostWrite OBS_CTRL (setBit v i) =
      ((if bit (setBit v i).toNat 0 then (if bit (setBit v i).toNat 4 then (obsSet s v).resetAllSets else obsSet s v).snapshot
        else if bit (setBit v i).toNat 4 then (obsSet s v).resetAllSets else obsSet s v)).snapArm (bit (setBit v i).toNat 1) := by
  obtain ⟨onJob, resetOnJob⟩ := obsSet_bits v command
  rw [s.hostWrite_OBS_CTRL _ taken, State.obsCtrl, onJob, resetOnJob,
    (bit_setBit_ne v i 5 (by omega) (by omega)).trans late]
  rfl

theorem bits_two_zero {x lo : Nat} (zero : bits x lo 2 = 0) : bit x lo = false ∧ bit x (lo + 1) = false := by
  unfold bits at zero
  unfold bit
  rw [Nat.pow_succ, ← Nat.div_div_eq_div_mul]
  refine ⟨beq_false_of_ne ?_, beq_false_of_ne ?_⟩
  · omega
  · omega

theorem obsSet_only (s : State) (v : Word) : ∃ regs, obsSet s v = { s with regs := regs } :=
  ⟨_, RegsOnly.set (RegsOnly.set (RegsOnly.refl s) _ _) _ _⟩

theorem obsSet_getR (s : State) (v : Word) (r : Reg) (apart : r.off ≠ OBS_CTRL.off) : (obsSet s v).getR r = s.getR r :=
  (State.getR_set_ne _ OBS_CTRL_RESET_ON_JOB r _ apart).trans (State.getR_set_ne s OBS_CTRL_SNAP_ON_JOB r _ apart)

theorem obsSet_armed (s : State) (v : Word) : (obsSet s v).flag OBS_CTRL_SNAP_ARM = s.flag OBS_CTRL_SNAP_ARM :=
  (flag_set_apart _ OBS_CTRL_RESET_ON_JOB OBS_CTRL_SNAP_ARM _ rfl (by decide) (.inl (by decide))).trans
    (flag_set_apart s OBS_CTRL_SNAP_ON_JOB OBS_CTRL_SNAP_ARM _ rfl (by decide) (.inl (by decide)))

theorem obsSet_time (s : State) (v : Word) : (obsSet s v).get64 OBS_SNAP_TIME_TIME = s.get64 OBS_SNAP_TIME_TIME ∧ (obsSet s v).ft = s.ft ∧
    (obsSet s v).obs = s.obs ∧ (obsSet s v).now = s.now := by
  obtain ⟨regs, is⟩ := obsSet_only s v
  refine ⟨?_, by rw [is]; rfl, by rw [is], by rw [is]⟩
  unfold State.get64 State.getR64
  rw [obsSet_getR s v OBS_SNAP_TIME_TIME.reg.low (by decide), obsSet_getR s v OBS_SNAP_TIME_TIME.reg.high (by decide)]

/-! The commands -/

section
variable {s : State} (v : Word) (taken : Taken s OBS_CTRL)

include taken in
theorem snap_row (unarmed : bit v.toNat 1 = false) (only : bits v.toNat 4 2 = 0) :
    Ends (.snap v) s ((obsSet s v).snapshot.set OBS_CTRL_SNAP_ARM 0) := by
  obtain ⟨reset, late⟩ := bits_two_zero only
  refine congrArg done ((obsCtrl_row taken v (.inl rfl) late).trans ?_)
  rw [bit_setBit_same v 0 (by decide), (bit_setBit_ne v 0 1 (by decide) (by decide)).trans unarmed,
    (bit_setBit_ne v 0 4 (by decide) (by decide)).trans reset]
  rfl

include taken in
theorem snapArm_rows (snapless : bit v.toNat 0 = false) (only : bits v.toNat 4 2 = 0) :
    (s.flag OBS_CTRL_SNAP_ARM = true → Ends (.snapArm v) s (obsSet s v)) ∧
    (s.flag OBS_CTRL_SNAP_ARM = false → s.get64 OBS_SNAP_TIME_TIME ≤ s.ft →
      Ends (.snapArm v) s (((obsSet s v).set OBS_CTRL_LATE 1).raiseVec 6)) ∧
    (s.flag OBS_CTRL_SNAP_ARM = false → s.ft < s.get64 OBS_SNAP_TIME_TIME →
      Ends (.snapArm v) s ((obsSet s v).set OBS_CTRL_SNAP_ARM 1)) := by
  obtain ⟨reset, late⟩ := bits_two_zero only
  have row : exec (.snapArm v) s = done (if s.flag OBS_CTRL_SNAP_ARM then obsSet s v
      else if s.get64 OBS_SNAP_TIME_TIME ≤ s.ft then ((obsSet s v).set OBS_CTRL_LATE 1).raiseVec 6 else (obsSet s v).set OBS_CTRL_SNAP_ARM 1) := by
    refine congrArg done ((obsCtrl_row taken v (.inr (.inl rfl)) late).trans ?_)
    obtain ⟨time, now, -⟩ := obsSet_time s v
    rw [bit_setBit_same v 1 (by decide), (bit_setBit_ne v 1 0 (by decide) (by decide)).trans snapless,
      (bit_setBit_ne v 1 4 (by decide) (by decide)).trans reset, ← obsSet_armed s v, ← time, ← now]
    rfl
  refine ⟨fun armed => row.trans (congrArg done (if_pos armed)), fun free come => ?_, fun free comes => ?_⟩
  · exact row.trans (congrArg done ((if_neg (ne_true_of_eq_false free)).trans (if_pos come)))
  · exact row.trans (congrArg done ((if_neg (ne_true_of_eq_false free)).trans (if_neg (Nat.not_le.mpr comes))))

end

/-! A reset of all sets -/

/-- The keys of a list are entered with one value, whatever the table held. -/
theorem find_insertAll {α : Type} (Ls : List Nat) (t : Tbl α) (x : α) {L : Nat} (mem : L ∈ Ls ∨ Tbl.find t L = some x) :
    Tbl.find (Ls.foldl (fun t L => Tbl.insert t L x) t) L = some x := by
  induction Ls generalizing t with
  | nil => exact mem.resolve_left List.not_mem_nil
  | cons M Ls ih =>
    refine ih _ ?_
    by_cases here : L = M
    · rw [here]
      exact .inr (Tbl.find_insert_same _ _ _)
    · rw [Tbl.find_insert_ne _ _ _ _ here]
      exact mem.imp_left fun mem => (List.mem_cons.mp mem).resolve_left here

/-- A state with resets of sets due. -/
def State.resetsDue (s : State) (Ls : List Nat) (x : Nat × Nat) : State :=
  { s with obs := { s.obs with resetDue := Ls.foldl (fun t L => Tbl.insert t L x) s.obs.resetDue } }

theorem resetsDue_find (s : State) {Ls : List Nat} (x : Nat × Nat) {L : Nat} (mem : L ∈ Ls) :
    Tbl.find (s.resetsDue Ls x).obs.resetDue L = some x :=
  find_insertAll Ls s.obs.resetDue x (.inl mem)

theorem resetSets_eq (s : State) (Ls : List Nat) (cause tag : Nat) : s.resetSets Ls cause tag =
    if s.obs.lastSnap = some s.now then (s.resetsDue Ls (cause, tag)).noteSnaps (Ls.filter (· < 144)) else s.resetsDue Ls (cause, tag) := rfl

theorem resetSets_only (s : State) (Ls : List Nat) (cause tag : Nat) :
    ∃ regs, s.resetSets Ls cause tag = { s.resetsDue Ls (cause, tag) with regs := regs } := by
  rw [resetSets_eq]
  split
  · exact noteSnaps_only _ _
  · exact ⟨_, rfl⟩

/-- A reset of sets in the cycle of a snapshot is noted with it; in another it touches no register. -/
theorem resetSets_shows (s : State) (Ls : List Nat) (cause tag : Nat) :
    (∀ L ∈ Ls, Tbl.find (s.resetSets Ls cause tag).obs.resetDue L = some (cause, tag)) ∧
    (s.obs.lastSnap ≠ some s.now → ∀ r, (s.resetSets Ls cause tag).getR r = s.getR r) ∧
    (s.obs.lastSnap = some s.now → ∀ L ∈ Ls, L < 144 →
      (s.resetSets Ls cause tag).getR (OBS_CORE_SNAPINFO L) = (1 + 2 * cause) % 2 ^ 32 ∧
        (s.resetSets Ls cause tag).getR (OBS_CORE_SNAPTAG L) = tag % 2 ^ 32) := by
  refine ⟨fun L mem => ?_, fun other r => ?_, fun noted L mem known => ?_⟩
  · obtain ⟨regs, is⟩ := resetSets_only s Ls cause tag
    rw [is]
    exact resetsDue_find s (cause, tag) mem
  · rw [resetSets_eq, if_neg other]
    rfl
  · have shows := noteSnaps_shows (Ls.filter (· < 144)) (s.resetsDue Ls (cause, tag)) (List.mem_filter.mpr ⟨mem, decide_eq_true known⟩)
    rw [snapInfo_due (resetsDue_find s (cause, tag) mem)] at shows
    rw [resetSets_eq, if_pos noted]
    exact shows

theorem resetAll_rows {s : State} (q : Quiet s) (taken : Taken s OBS_CTRL) (v : Word) (only : bits v.toNat 0 2 = 0) (late : bit v.toNat 5 = false) :
    ∃ t, exec (.resetAll v) s = .next t ∧
      (∀ L ≤ 144, Tbl.find t.obs.resetDue L = some (2, 0xFFFFFFFF)) ∧ t.flag OBS_CTRL_SNAP_ARM = false ∧
      (s.obs.lastSnap ≠ some s.now → RegsKept [OBS_CTRL.off] s t) ∧
      (s.obs.lastSnap = some s.now → ∀ L < 144, t.getR (OBS_CORE_SNAPINFO L) = 5 ∧ t.getR (OBS_CORE_SNAPTAG L) = 0xFFFFFFFF) := by
  obtain ⟨snapless, unarmed⟩ := bits_two_zero only
  have row : exec (.resetAll v) s = done ((obsSet s v).resetAllSets.set OBS_CTRL_SNAP_ARM 0) := by
    refine congrArg done ((obsCtrl_row taken v (.inr (.inr rfl)) late).trans ?_)
    rw [bit_setBit_same v 4 (by decide), (bit_setBit_ne v 4 0 (by decide) (by decide)).trans snapless,
      (bit_setBit_ne v 4 1 (by decide) (by decide)).trans unarmed]
    rfl
  obtain ⟨-, -, obs, now⟩ := obsSet_time s v
  obtain ⟨set_, isSet⟩ := obsSet_only s v
  have settingsKept := obsSet_getR s v
  generalize obsSet s v = u at *
  obtain ⟨due, kept, noted⟩ := resetSets_shows u (List.range 145) 2 0xFFFFFFFF
  obtain ⟨regs, is⟩ := resetSets_only u (List.range 145) 2 0xFFFFFFFF
  have mem {L : Nat} (known : L ≤ 144) : L ∈ List.range 145 := List.mem_range.mpr (Nat.lt_succ_of_le known)
  unfold State.resetAllSets at row
  generalize List.range 145 = Ls at *
  rw [obs, now] at kept noted
  refine ⟨_, row.trans (done_quiet ?_), fun L known => ?_, State.flag_set_same _ OBS_CTRL_SNAP_ARM 0 (by decide),
    fun other r out => ?_, fun same L known => ?_⟩
  · rw [is, isSet]
    exact q
  · rw [State.set_obs]
    exact due L (mem known)
  · rw [State.getR_set_ne _ OBS_CTRL_SNAP_ARM r 0 (List.ne_of_not_mem_cons out), kept other]
    exact settingsKept r (List.ne_of_not_mem_cons out)
  · rw [State.getR_set_ne _ OBS_CTRL_SNAP_ARM (OBS_CORE_SNAPINFO L) 0 (by dsimp only [OBS_CORE_SNAPINFO, OBS_CTRL_SNAP_ARM, OBS_CTRL]; omega),
      State.getR_set_ne _ OBS_CTRL_SNAP_ARM (OBS_CORE_SNAPTAG L) 0 (by dsimp only [OBS_CORE_SNAPTAG, OBS_CTRL_SNAP_ARM, OBS_CTRL]; omega)]
    exact noted same L (mem (Nat.le_of_lt known)) known

/-! The armed time, and the sampler's visit -/

theorem snapTimeReached_rows {s : State} (q : Quiet s) : (s.flag OBS_CTRL_SNAP_ARM = false → exec .snapTimeReached s = .next s) ∧
    (s.flag OBS_CTRL_SNAP_ARM = true → Ends .snapTimeReached s
      (((s.passToFt (s.get64 OBS_SNAP_TIME_TIME)).snapshot.set OBS_CTRL_SNAP_ARM 0).raiseVec 6)) :=
  ⟨fun free => (if_pos (by rw [free]; rfl) : execSnapTimeReached s = _).trans (done_quiet q),
    fun armed => if_neg (by rw [armed]; exact Bool.false_ne_true)⟩

theorem latencySample_rows {s : State} (q : Quiet s) (run : s.fatal = false) : (s.flag SCH_CTRL_OBS_EN = false → exec .latencySample s = .next s) ∧
    (s.flag SCH_CTRL_OBS_EN = true → Ends .latencySample s (s.pass 1)) :=
  ⟨fun off => (if_pos (by rw [run, off]; rfl) : execLatencySample s = _).trans (done_quiet q), fun on => if_neg (by rw [run, on]; decide)⟩

theorem snapshots : Snapshots :=
  ⟨fun _ => snapshot_shows, fun _ taken_ => if_pos taken_,
    fun v _ q taken => ⟨snap_row v taken, resetAll_rows q taken v, snapArm_rows v taken⟩, fun _ => snapTimeReached_rows, fun _ => latencySample_rows⟩

end Sys2Proof.Machine
end

section
/-! The trace unit's control (R409, R426, R429, R431, R434). -/

namespace Sys2Proof.Machine

open Sys2Proof

/-! The enable -/

section
variable {s : State} (q : Quiet s) (taken : Taken s OBS_TRACE_CTRL) (v : Word)

include taken in
theorem traceEnable_row (alone : bits v.toNat 2 2 = 0) :
    exec (.traceEnable v) s = done (s.traceEn OBS_TRACE_CTRL.off true) ∧ exec (.traceDisable v) s = done (s.traceEn OBS_TRACE_CTRL.off false) := by
  obtain ⟨trigger, mark⟩ := bits_two_zero alone
  refine ⟨congrArg done ((s.hostWrite_OBS_TRACE_CTRL _ taken).trans ?_), congrArg done ((s.hostWrite_OBS_TRACE_CTRL _ taken).trans ?_)⟩
  · rw [State.traceCtrl, bit_setBit_same v 0 (by decide), (bit_setBit_ne v 0 2 (by decide) (by decide)).trans trigger,
      (bit_setBit_ne v 0 3 (by decide) (by decide)).trans mark]
    rfl
  · rw [State.traceCtrl, bit_clearBit_same v 0 (by decide), (bit_clearBit_ne v 0 2 (by decide) (by decide)).trans trigger,
      (bit_clearBit_ne v 0 3 (by decide) (by decide)).trans mark]
    rfl

/-- The registers of an arm. -/
def State.armRegs (s : State) : State :=
  ((((((s.setR OBS_TRACE_STATUS 0).set OBS_TRACE_STATUS_STATE 1).set OBS_TRACE_WPTR_INDEX 0).set OBS_TRACE_TRIG_INDEX 0).setR OBS_TRACE_LOST 0).setR64
    OBS_TRACE_SPILLED 0).set OBS_TRACE_CTRL_EN 1

theorem armRegs_only (s : State) : ∃ regs, s.armRegs = { s with regs := regs } :=
  ⟨_, RegsOnly.set (RegsOnly.setR (RegsOnly.setR (RegsOnly.setR (RegsOnly.set (RegsOnly.set (RegsOnly.set (RegsOnly.setR (RegsOnly.refl s) _ _) _ _) _ _)
    _ _) _ _) _ _) _ _) _ _⟩

/-- A pair written to 0 leaves the fields of other registers. -/
theorem get_setR64_ne (s : State) (r : Reg64) (f : Fld) (x : Nat) (low : f.reg.off ≠ r.off) (high : f.reg.off ≠ r.off + 4) :
    (s.setR64 r x).get f = s.get f :=
  (State.get_setR_ne _ r.high f _ high).trans (State.get_setR_ne _ r.low f _ low)

theorem armRegs_get (s : State) (f : Fld) (state : f.reg = OBS_TRACE_STATUS) :
    s.armRegs.get f = ((s.setR OBS_TRACE_STATUS 0).set OBS_TRACE_STATUS_STATE 1).get f :=
  (State.get_set_ne _ OBS_TRACE_CTRL_EN f 1 (by rw [state]; decide)).trans
    ((get_setR64_ne _ OBS_TRACE_SPILLED f 0 (by rw [state]; decide) (by rw [state]; decide)).trans
      ((State.get_setR_ne _ OBS_TRACE_LOST f 0 (by rw [state]; decide)).trans
        ((State.get_set_ne _ OBS_TRACE_TRIG_INDEX f 0 (by rw [state]; decide)).trans
          (State.get_set_ne _ OBS_TRACE_WPTR_INDEX f 0 (by rw [state]; decide)))))

theorem armRegs_shows (s : State) : s.armRegs.trSt = 1 ∧ s.armRegs.get OBS_TRACE_WPTR_INDEX = 0 ∧ s.armRegs.flag OBS_TRACE_STATUS_TRIGGERED = false := by
  refine ⟨?_, ?_, ?_⟩
  · exact (armRegs_get s OBS_TRACE_STATUS_STATE rfl).trans (State.get_set_same _ _ _ (by decide))
  · refine (State.get_set_ne _ OBS_TRACE_CTRL_EN OBS_TRACE_WPTR_INDEX 1 (by decide)).trans ?_
    refine (get_setR64_ne _ OBS_TRACE_SPILLED OBS_TRACE_WPTR_INDEX 0 (by decide) (by decide)).trans ?_
    refine (State.get_setR_ne _ OBS_TRACE_LOST OBS_TRACE_WPTR_INDEX 0 (by decide)).trans ?_
    exact (State.get_set_ne _ OBS_TRACE_TRIG_INDEX OBS_TRACE_WPTR_INDEX 0 (by decide)).trans (State.get_set_same _ _ _ (by decide))
  · unfold State.flag
    rw [armRegs_get s OBS_TRACE_STATUS_TRIGGERED rfl,
      State.get_set_apart _ OBS_TRACE_STATUS_STATE OBS_TRACE_STATUS_TRIGGERED 1 rfl (by decide) (.inr (by decide)), State.get,
      show OBS_TRACE_STATUS_TRIGGERED.reg = OBS_TRACE_STATUS from rfl, State.getR_setR_same]
    rfl

theorem set_withObs (u : State) (o : ObsState) (f : Fld) (x : Nat) : ({ u with obs := o } : State).set f x = { u.set f x with obs := o } := rfl

/-- An arm is its registers with an empty ring. -/
theorem traceArm_eq (s : State) (p : List Byte) : ∃ o : ObsState, (s.traceArm p).set OBS_TRACE_CTRL_EN 1 = { s.armRegs with obs := o } ∧ o.ring = [] ∧ o.staged = [] := by
  unfold State.traceArm
  exact ⟨_, set_withObs _ _ _ _, rfl, rfl⟩

theorem traceOnAt_some {p : List Byte} (piece : s.tracePiece = some p) (space at_ : Nat) :
    s.traceOnAt space at_ = (s.traceArm p).set OBS_TRACE_CTRL_EN 1 := by
  unfold State.traceOnAt
  rw [piece]

theorem traceOnAt_none (piece : s.tracePiece = none) (space at_ : Nat) : s.traceOnAt space at_ = s.aerr space at_ true 2 := by
  unfold State.traceOnAt
  rw [piece]

include q taken in
theorem traceEnable_rows (alone : bits v.toNat 2 2 = 0) :
    (s.trSt = 0 → ∀ p, s.tracePiece = some p → ∃ t, exec (.traceEnable v) s = .next t ∧ t = (s.traceArm p).set OBS_TRACE_CTRL_EN 1 ∧
      t.trSt = 1 ∧ t.get OBS_TRACE_WPTR_INDEX = 0 ∧ t.flag OBS_TRACE_STATUS_TRIGGERED = false ∧ t.obs.ring = [] ∧ t.obs.staged = []) ∧
    (s.trSt = 0 → s.tracePiece = none → Ends (.traceEnable v) s (s.aerr 0 OBS_TRACE_CTRL.off true 2)) ∧
    (s.trSt = 5 → Ends (.traceEnable v) s ((s.set OBS_TRACE_CTRL_EN 1).set OBS_TRACE_CTRL_ENABLE_PENDING 1)) ∧
    (s.trSt ∈ [1, 2, 3, 4] → Ends (.traceEnable v) s (s.set OBS_TRACE_CTRL_EN 1)) ∧
    let off := (s.set OBS_TRACE_CTRL_EN 0).set OBS_TRACE_CTRL_ENABLE_PENDING 0
    (s.trSt ∈ [1, 2, 3] → Ends (.traceDisable v) s (off.set OBS_TRACE_STATUS_STATE 5)) ∧
    (s.trSt = 4 → Ends (.traceDisable v) s (off.set OBS_TRACE_STATUS_STATE 0)) ∧
    (s.trSt ∈ [0, 5] → Ends (.traceDisable v) s off) := by
  obtain ⟨on, off⟩ := traceEnable_row taken v alone
  have enables : s.traceEn OBS_TRACE_CTRL.off true = if s.trSt = 0 then s.traceOnAt 0 OBS_TRACE_CTRL.off
      else if s.trSt = 5 then (s.set OBS_TRACE_CTRL_EN 1).set OBS_TRACE_CTRL_ENABLE_PENDING 1 else s.set OBS_TRACE_CTRL_EN 1 := rfl
  have kept : ((s.set OBS_TRACE_CTRL_EN 0).set OBS_TRACE_CTRL_ENABLE_PENDING 0).trSt = s.trSt :=
    (State.get_set_ne _ OBS_TRACE_CTRL_ENABLE_PENDING OBS_TRACE_STATUS_STATE 0 (by decide)).trans
      (State.get_set_ne s OBS_TRACE_CTRL_EN OBS_TRACE_STATUS_STATE 0 (by decide))
  have disables : s.traceEn OBS_TRACE_CTRL.off false =
      let u := (s.set OBS_TRACE_CTRL_EN 0).set OBS_TRACE_CTRL_ENABLE_PENDING 0
      if u.trSt = 1 ∨ u.trSt = 2 ∨ u.trSt = 3 then u.set OBS_TRACE_STATUS_STATE 5 else if u.trSt = 4 then u.set OBS_TRACE_STATUS_STATE 0 else u := rfl
  rw [enables] at on
  rw [disables] at off
  dsimp only at off
  rw [kept] at off
  refine ⟨fun idle p piece => ?_, fun idle piece => ?_, fun ends => ?_, fun runs => ?_, fun runs => ?_, fun frozen => ?_, fun stops => ?_⟩
  · rw [if_pos idle, traceOnAt_some piece] at on
    obtain ⟨state, index, triggered⟩ := armRegs_shows s
    obtain ⟨o, is, ring, staged⟩ := traceArm_eq s p
    obtain ⟨regs, only⟩ := armRegs_only s
    rw [only] at is state index triggered
    rw [is] at on
    exact ⟨_, on.trans (done_same q rfl rfl), is.symm, state, index, triggered, ring, staged⟩
  · rw [if_pos idle, traceOnAt_none piece] at on
    exact on
  · rw [if_neg (by rw [ends]; decide), if_pos ends] at on
    exact on
  · simp only [List.mem_cons, List.not_mem_nil, or_false] at runs
    rw [if_neg (by omega), if_neg (by omega)] at on
    exact on
  · simp only [List.mem_cons, List.not_mem_nil, or_false] at runs
    rw [if_pos runs] at off
    exact off
  · rw [if_neg (by omega), if_pos frozen] at off
    exact off
  · simp only [List.mem_cons, List.not_mem_nil, or_false] at stops
    rw [if_neg (by omega), if_neg (by omega)] at off
    exact off

end

end Sys2Proof.Machine
end

section
/-! The trigger, the mark, the ends of POST and DRAIN, and the window on the trace ring (R426, R431, R434). -/

namespace Sys2Proof.Machine

open Sys2Proof

/-! The host's trigger and the mark -/

section
variable (s : State) (r : TRec)

/-- Without spill a record takes the next slot of the ring. -/
theorem tracePut_row (dry : s.obs.spill = none) :
    let put := ({ s with obs := { s.obs with ring := Tbl.insert s.obs.ring (s.get OBS_TRACE_WPTR_INDEX) r, written := s.obs.written + 1
                                             postLeft := s.obs.postLeft - 1 } } : State).set OBS_TRACE_WPTR_INDEX ((s.get OBS_TRACE_WPTR_INDEX + 1) % 8192)
    s.tracePut r = if s.get OBS_TRACE_WPTR_INDEX = 8191 then put.set OBS_TRACE_STATUS_WRAPPED 1 else put :=
  if_neg (by rw [dry]; exact Bool.false_ne_true)

theorem tracePut_ring (dry : s.obs.spill = none) : (s.tracePut r).obs.ring = Tbl.insert s.obs.ring (s.get OBS_TRACE_WPTR_INDEX) r := by
  rw [tracePut_row s r dry]
  split
  · rw [State.set_obs, State.set_obs]
  · rw [State.set_obs]

theorem tracePut_get (dry : s.obs.spill = none) (f : Fld) (index : f.reg.off ≠ OBS_TRACE_WPTR.off) (status : f.reg.off ≠ OBS_TRACE_STATUS.off) :
    (s.tracePut r).get f = s.get f := by
  have put (u : State) (same : u.regs = s.regs) (x : Nat) : (u.set OBS_TRACE_WPTR_INDEX x).get f = s.get f :=
    (State.get_set_ne u OBS_TRACE_WPTR_INDEX f x index).trans (State.get_congr s u f same)
  rw [tracePut_row s r dry]
  split
  · exact (State.get_set_ne _ OBS_TRACE_STATUS_WRAPPED f 1 status).trans (put _ rfl _)
  · exact put _ rfl _

end

/-- The record that a trigger of the host writes. -/
def State.triggerRec (s : State) (cause : Nat) : TRec :=
  { time := s.ft, type := 0x0E, unit := 0xD8, sub := cause, addr := 0, d0 := s.obs.written, d1 := 0 }

/-- A trigger's registers and record. -/
def State.fired (s : State) (cause : Nat) : State :=
  ((((s.set OBS_TRACE_TRIG_INDEX (s.get OBS_TRACE_WPTR_INDEX)).tracePut (s.triggerRec cause)).set OBS_TRACE_STATUS_TRIGGERED 1).set OBS_TRACE_STATUS_STATE 2)

theorem traceFire_fires (s : State) (cause : Nat) (armed : s.trSt = 1) (first : s.flag OBS_TRACE_STATUS_TRIGGERED = false) (gapless : s.obs.gap = 0) :
    ∃ left, s.traceFire cause none = { s.fired cause with obs := { (s.fired cause).obs with postLeft := left } } := by
  have state : s.get OBS_TRACE_STATUS_STATE = 1 := armed
  have whole : s.traceGap = s := if_pos (by rw [gapless]; rfl)
  unfold State.traceFire
  rw [if_neg (by rw [state, first]; decide), whole]
  exact ⟨_, rfl⟩

theorem fired_shows (s : State) (cause : Nat) (dry : s.obs.spill = none) :
    (s.fired cause).trSt = 2 ∧ (s.fired cause).flag OBS_TRACE_STATUS_TRIGGERED = true ∧
    (s.fired cause).get OBS_TRACE_TRIG_INDEX = s.get OBS_TRACE_WPTR_INDEX ∧
    Tbl.find (s.fired cause).obs.ring (s.get OBS_TRACE_WPTR_INDEX) = some (s.triggerRec cause) := by
  have marked : (s.set OBS_TRACE_TRIG_INDEX (s.get OBS_TRACE_WPTR_INDEX)).obs.spill = none := (congrArg ObsState.spill (State.set_obs _ _ _)).trans dry
  refine ⟨State.get_set_same _ OBS_TRACE_STATUS_STATE 2 (by decide), ?_, ?_, ?_⟩
  · exact (flag_set_apart _ OBS_TRACE_STATUS_STATE OBS_TRACE_STATUS_TRIGGERED 2 rfl (by decide) (.inr (by decide))).trans
      (State.flag_set_same _ OBS_TRACE_STATUS_TRIGGERED 1 (by decide))
  · refine (State.get_set_ne _ OBS_TRACE_STATUS_STATE OBS_TRACE_TRIG_INDEX 2 (by decide)).trans ?_
    refine (State.get_set_ne _ OBS_TRACE_STATUS_TRIGGERED OBS_TRACE_TRIG_INDEX 1 (by decide)).trans ?_
    refine (tracePut_get _ _ marked OBS_TRACE_TRIG_INDEX (by decide) (by decide)).trans ?_
    exact (State.get_set_same s OBS_TRACE_TRIG_INDEX _ (by decide)).trans (Nat.mod_eq_of_lt (bits_lt _ _ _))
  · have index : (s.set OBS_TRACE_TRIG_INDEX (s.get OBS_TRACE_WPTR_INDEX)).get OBS_TRACE_WPTR_INDEX = s.get OBS_TRACE_WPTR_INDEX :=
      State.get_set_ne s OBS_TRACE_TRIG_INDEX OBS_TRACE_WPTR_INDEX _ (by decide)
    unfold State.fired
    rw [State.set_obs, State.set_obs, tracePut_ring _ _ marked, index, Tbl.find_insert_same]

section
variable {s : State} (q : Quiet s) (taken : Taken s OBS_TRACE_CTRL) (v : Word)

theorem traceEn_runs (runs : s.trSt ∈ [1, 2, 3, 4]) (at_ : Nat) : s.traceEn at_ true = s.set OBS_TRACE_CTRL_EN 1 := by
  simp only [List.mem_cons, List.not_mem_nil, or_false] at runs
  have row : s.traceEn at_ true = if s.trSt = 0 then s.traceOnAt 0 at_
      else if s.trSt = 5 then (s.set OBS_TRACE_CTRL_EN 1).set OBS_TRACE_CTRL_ENABLE_PENDING 1 else s.set OBS_TRACE_CTRL_EN 1 := rfl
  rw [row, if_neg (by omega), if_neg (by omega)]

include taken in
theorem traceTrigger_rows (on : bit v.toNat 0 = true) (runs : s.trSt ∈ [1, 2, 3, 4]) :
    let u := s.set OBS_TRACE_CTRL_EN 1
    (bit v.toNat 3 = false → Ends (.traceTrigger v) s (u.traceFire 2 none) ∧
      (s.trSt = 1 → s.flag OBS_TRACE_STATUS_TRIGGERED = false → s.obs.gap = 0 → s.obs.spill = none →
        (u.traceFire 2 none).trSt = 2 ∧ (u.traceFire 2 none).flag OBS_TRACE_STATUS_TRIGGERED = true ∧
        (u.traceFire 2 none).get OBS_TRACE_TRIG_INDEX = s.get OBS_TRACE_WPTR_INDEX ∧
        ((Tbl.find (u.traceFire 2 none).obs.ring (s.get OBS_TRACE_WPTR_INDEX)).map (·.type)) = some 0x0E) ∧
      (s.trSt ≠ 1 → u.traceFire 2 none = u)) ∧
    (bit v.toNat 2 = false → Ends (.traceMark v) s (u.trace 0x0C 0xFF 0 0 (s.getR64 OBS_TRACE_MARK) s.ft)) := by
  intro u
  have obs : u.obs = s.obs := State.set_obs _ _ _
  have kept (f : Fld) (apart : f.reg.off ≠ OBS_TRACE_CTRL.off) : u.get f = s.get f := State.get_set_ne s OBS_TRACE_CTRL_EN f 1 apart
  have state : u.trSt = s.trSt := kept OBS_TRACE_STATUS_STATE (by decide)
  refine ⟨fun unmarked => ⟨?_, fun armed first gapless dry => ?_, fun other => ?_⟩, fun untriggered => ?_⟩
  · refine congrArg done ((s.hostWrite_OBS_TRACE_CTRL _ taken).trans ?_)
    rw [State.traceCtrl, (bit_setBit_ne v 2 0 (by decide) (by decide)).trans on, bit_setBit_same v 2 (by decide),
      (bit_setBit_ne v 2 3 (by decide) (by decide)).trans unmarked, traceEn_runs runs]
    rfl
  · obtain ⟨left, fires⟩ := traceFire_fires u 2 (state.trans armed)
      ((State.flag_set_ne s OBS_TRACE_CTRL_EN OBS_TRACE_STATUS_TRIGGERED 1 (by decide)).trans first) (by rw [obs]; exact gapless)
    obtain ⟨post, triggered, index, found⟩ := fired_shows u 2 (by rw [obs]; exact dry)
    rw [kept OBS_TRACE_WPTR_INDEX (by decide)] at index found
    have regs : (u.traceFire 2 none).regs = (u.fired 2).regs := by rw [fires]
    have ring : (u.traceFire 2 none).obs.ring = (u.fired 2).obs.ring := by rw [fires]
    refine ⟨(State.get_congr _ _ _ regs).trans post, (State.flag_congr _ _ _ regs).trans triggered, (State.get_congr _ _ _ regs).trans index, ?_⟩
    rw [ring, found]
    rfl
  · refine if_pos ?_
    rw [show u.get OBS_TRACE_STATUS_STATE = s.trSt from state, bne_iff_ne.mpr other, Bool.true_or]
  · refine congrArg done ((s.hostWrite_OBS_TRACE_CTRL _ taken).trans ?_)
    have mark : u.getR64 OBS_TRACE_MARK = s.getR64 OBS_TRACE_MARK := by
      unfold State.getR64
      rw [State.getR_set_ne s OBS_TRACE_CTRL_EN OBS_TRACE_MARK.low 1 (by decide), State.getR_set_ne s OBS_TRACE_CTRL_EN OBS_TRACE_MARK.high 1 (by decide)]
    rw [State.traceCtrl, (bit_setBit_ne v 3 0 (by decide) (by decide)).trans on, bit_setBit_same v 3 (by decide),
      (bit_setBit_ne v 3 2 (by decide) (by decide)).trans untriggered, traceEn_runs runs, ← mark]
    rfl

end

/-! The ends of POST and DRAIN -/

section
variable {s : State} (q : Quiet s)

include q in
theorem tracePostDone_rows : (s.trSt = 2 → s.obs.postLeft = 0 → exec .tracePostDone s = .next (s.set OBS_TRACE_STATUS_STATE 3)) ∧
    ((s.trSt ≠ 2 ∨ s.obs.postLeft ≠ 0) → exec .tracePostDone s = .next s) := by
  refine ⟨fun post written => ?_, fun other => ?_⟩
  · exact (congrArg done (if_pos ⟨post, written⟩)).trans (done_same q (State.set_fault _ _ _) (State.set_switch _ _ _))
  · exact (congrArg done (if_neg fun h => other.elim (fun no => no h.1) fun no => no h.2)).trans (done_quiet q)

include q in
theorem traceDrainDone_other (other : s.trSt ∉ [3, 5]) : exec .traceDrainDone s = .next s := by
  simp only [List.mem_cons, List.not_mem_nil, or_false, not_or] at other
  refine (if_pos ?_ : execTraceDrainDone s = _).trans (done_quiet q)
  rw [show (s.trSt == trDraining) = false from beq_false_of_ne other.1, show (s.trSt == trShutdown) = false from beq_false_of_ne other.2]
  exact Bool.or_true _

theorem traceDrainDone_rows (run : s.fatal = false) (drains : s.trSt ∈ [3, 5]) :
    let u := s.pass ((s.obs.staged.length + 1) / 2)
    let k := u.pass (if u.obs.spill.isSome then 4 * (u.obs.written - u.get64 OBS_TRACE_SPILLED_COUNT) else 0)
    (k.obs.spill.isSome = true → k.get64 OBS_TRACE_SPILLED_COUNT < k.obs.written → Ends .traceDrainDone s k) ∧
    ((k.obs.spill = none ∨ k.obs.written ≤ k.get64 OBS_TRACE_SPILLED_COUNT) → k.trSt = 3 →
      Ends .traceDrainDone s ((k.set OBS_TRACE_STATUS_STATE 4).raiseVec 5)) ∧
    ((k.obs.spill = none ∨ k.obs.written ≤ k.get64 OBS_TRACE_SPILLED_COUNT) → k.trSt = 5 → k.flag OBS_TRACE_CTRL_ENABLE_PENDING = false →
      Ends .traceDrainDone s ((k.set OBS_TRACE_STATUS_STATE 0).set OBS_TRACE_CTRL_ENABLE_PENDING 0)) := by
  intro u k
  have live : ¬(s.fatal || !(s.trSt == trDraining || s.trSt == trShutdown)) = true := by
    simp only [List.mem_cons, List.not_mem_nil, or_false] at drains
    rw [run]
    rcases drains with three | five
    · rw [three]
      decide
    · rw [five]
      decide
  have row : exec .traceDrainDone s = if k.obs.spill.isSome = true ∧ k.get64 OBS_TRACE_SPILLED_COUNT < k.obs.written then done k
      else if k.trSt = 3 then done ((k.set OBS_TRACE_STATUS_STATE 4).raiseVec 5)
      else done (if k.flag OBS_TRACE_CTRL_ENABLE_PENDING then
          ((k.set OBS_TRACE_STATUS_STATE 0).set OBS_TRACE_CTRL_ENABLE_PENDING 0).traceOnAt 2 OBS_TRACE_CTRL.off
        else (k.set OBS_TRACE_STATUS_STATE 0).set OBS_TRACE_CTRL_ENABLE_PENDING 0) := if_neg live
  have whole (spilled : k.obs.spill = none ∨ k.obs.written ≤ k.get64 OBS_TRACE_SPILLED_COUNT) :
      ¬(k.obs.spill.isSome = true ∧ k.get64 OBS_TRACE_SPILLED_COUNT < k.obs.written) := by
    rintro ⟨spills, behind⟩
    rcases spilled with dry | level
    · rw [dry] at spills
      cases spills
    · exact Nat.not_le.mpr behind level
  refine ⟨fun spills behind => row.trans (if_pos ⟨spills, behind⟩), fun spilled three => row.trans ((if_neg (whole spilled)).trans (if_pos three)),
    fun spilled five still => row.trans ((if_neg (whole spilled)).trans ((if_neg (by rw [five]; decide)).trans ?_))⟩
  exact congrArg done (if_neg (ne_true_of_eq_false still))

end

/-! The window -/

theorem traceWin_view (s : State) {i : Nat} (known : i < 65536) : s.regView (OBS_TRACE_WIN i).off = s.traceWin i := by
  have index : ((OBS_TRACE_WIN i).off - 0x310000) / 4 = i := by
    dsimp only [OBS_TRACE_WIN]
    omega
  have page : (OBS_TRACE_WIN i).off / 0x10000 = 0x31 ∨ (OBS_TRACE_WIN i).off / 0x10000 = 0x32 ∨ (OBS_TRACE_WIN i).off / 0x10000 = 0x33 ∨
      (OBS_TRACE_WIN i).off / 0x10000 = 0x34 := by
    dsimp only [OBS_TRACE_WIN]
    omega
  unfold State.regView
  rcases page with is | is | is | is
  all_goals
    rw [is, index]
    rfl

theorem traceWin_rows (s : State) (i : Nat) (known : i < 65536) : (s.trSt ∉ [0, 4] → s.regView (OBS_TRACE_WIN i).off = 0) ∧
    ∀ r, s.trSt ∈ [0, 4] → Tbl.find s.obs.ring (i / 8) = some r → s.regView (OBS_TRACE_WIN i).off = field r.bytes (4 * (i % 8)) 4 := by
  rw [traceWin_view s known]
  simp only [List.mem_cons, List.not_mem_nil, or_false]
  refine ⟨fun runs => if_neg runs, fun r still found => ?_⟩
  unfold State.traceWin
  rw [if_pos (show s.trSt = trOff ∨ s.trSt = trFrozen from still), found, Nat.mul_comm 4]

theorem traceControl : TraceControl :=
  ⟨fun v _ q taken => traceEnable_rows q taken v, fun v _ _ taken => traceTrigger_rows taken v,
    fun _ q => ⟨(tracePostDone_rows q).1, (tracePostDone_rows q).2, traceDrainDone_other q, traceDrainDone_rows⟩, traceWin_rows⟩

/-- Settles O54. -/
theorem countersAndTrace : Obligations.CountersAndTrace := ⟨snapshots, traceControl⟩

end Sys2Proof.Machine
end

section
/-! The BAR2 window (R446, R447). -/

namespace Sys2Proof.Machine

open Sys2Proof

/-! Reads -/

section
variable {s : State} (q : Quiet s) (addr len : Nat) (bad : Bool)

include q in
theorem bar2Read_outside (out : s.inReset = true ∨ s.bar2Size < addr + len) :
    exec (.bar2Read addr len bad) s = .next (s.emit (.readData (List.replicate len 0xFF))) := by
  refine (if_pos ?_ : execBar2Read addr len bad s = _).trans (done_same q rfl rfl)
  rw [Bool.or_eq_true, decide_eq_true_iff]
  exact out

theorem bar2Read_down (runs : s.inReset = false) (within : addr + len ≤ s.bar2Size) (down : s.ready = false) :
    Ends (.bar2Read addr len bad) s ((s.emit (.readData (List.replicate len 0xFF))).aerr 1 addr false 8) :=
  (if_neg (by rw [runs, decide_eq_false (Nat.not_lt.mpr within)]; decide) : execBar2Read addr len bad s = _).trans (if_pos (by rw [down]; rfl))

include q in
theorem bar2Read_rows (runs : s.inReset = false) (within : addr + len ≤ s.bar2Size) (up : s.ready = true) :
    let os := (List.range len).map (addr + ·)
    (∀ k, s.bar2Kind false os = some k → k ≠ 6 →
      Ends (.bar2Read addr len bad) s ((s.emit (.readData (List.replicate len 0xFF))).aerr 1 addr false k)) ∧
    (s.bar2Kind false os = some 6 → Ends (.bar2Read addr len bad) s ((s.emit .completerAbort).aerr 1 addr false 6)) ∧
    (s.bar2Kind false os = none → s.bar2Fail addr len bad = none →
      exec (.bar2Read addr len bad) s = .next (s.emit (.readData (os.map s.bar2Byte)))) ∧
    (s.bar2Kind false os = none → ∀ b, s.bar2Fail addr len bad = some b →
      (b < 2 ^ 48 → Ends (.bar2Read addr len bad) s (((s.bar2Bad b).emit .completerAbort).aerr 1 addr false 6)) ∧
      (2 ^ 48 ≤ b → Ends (.bar2Read addr len bad) s ((s.edcEvent (b % 2 ^ 48) true).emit (.readData (os.map s.bar2Byte))))) := by
  intro os
  have row : execBar2Read addr len bad s = _ :=
    (if_neg (by rw [runs, decide_eq_false (Nat.not_lt.mpr within)]; decide)).trans (if_neg (by rw [up]; decide))
  change (∀ k, _ → _ → execBar2Read addr len bad s = _) ∧ (_ → execBar2Read addr len bad s = _) ∧ (_ → _ → execBar2Read addr len bad s = _) ∧
    (_ → ∀ b, _ → (_ → execBar2Read addr len bad s = _) ∧ (_ → execBar2Read addr len bad s = _))
  rw [row]
  refine ⟨fun k kind other => ?_, fun kind => ?_, fun kind sound => ?_, fun kind b fails => ?_⟩
  · rw [show s.bar2Kind false ((List.range len).map (addr + ·)) = some k from kind]
    simp only
    rfl
  · rw [show s.bar2Kind false ((List.range len).map (addr + ·)) = some 6 from kind]
    rfl
  · rw [show s.bar2Kind false ((List.range len).map (addr + ·)) = none from kind, sound]
    exact done_same q rfl rfl
  · rw [show s.bar2Kind false ((List.range len).map (addr + ·)) = none from kind, fails]
    exact ⟨fun uncorrected => if_pos uncorrected, fun corrected => if_neg (Nat.not_lt.mpr corrected)⟩

end

/-! Writes -/

section
variable {s : State} (q : Quiet s) (addr : Nat) (bytes : List Byte) (enables : List Bool)

include q in
theorem bar2Write_outside (out : s.inReset = true ∨ s.bar2Size < addr + bytes.length) : exec (.bar2Write addr bytes enables) s = .next s := by
  refine (if_pos ?_ : execBar2Write addr bytes enables s = _).trans (done_quiet q)
  rw [Bool.or_eq_true, decide_eq_true_iff]
  exact out

theorem bar2Write_down (runs : s.inReset = false) (within : addr + bytes.length ≤ s.bar2Size) (down : s.ready = false) :
    Ends (.bar2Write addr bytes enables) s (s.aerr 1 addr true 8) :=
  (if_neg (by rw [runs, decide_eq_false (Nat.not_lt.mpr within)]; decide) : execBar2Write addr bytes enables s = _).trans (if_pos (by rw [down]; rfl))

theorem bar2Write_rows (runs : s.inReset = false) (within : addr + bytes.length ≤ s.bar2Size) (up : s.ready = true) :
    let bs := bytes.zipIdx.filter fun x => enables.getD x.2 true
    let os := bs.map fun x => addr + x.2
    (∀ k, s.bar2Kind true os = some k → k ≠ 5 → Ends (.bar2Write addr bytes enables) s (s.aerr 1 addr true k)) ∧
    (s.bar2Kind true os = some 5 → ∀ x e, ((os.filterMap s.bar2At).findSome? fun a => s.shardHit a 1) = some (x, e) →
      Ends (.bar2Write addr bytes enables) s ((s.noteRefused e 0x30).aerr 1 addr true 5)) ∧
    (s.bar2Kind true os = none → Ends (.bar2Write addr bytes enables) s (bs.foldl (fun u x => u.bar2Put (addr + x.2) x.1) s)) := by
  intro bs os
  have row : execBar2Write addr bytes enables s = _ :=
    (if_neg (by rw [runs, decide_eq_false (Nat.not_lt.mpr within)]; decide)).trans (if_neg (by rw [up]; decide))
  change (∀ k, _ → _ → execBar2Write addr bytes enables s = _) ∧ (_ → ∀ x e, _ → execBar2Write addr bytes enables s = _) ∧
    (_ → execBar2Write addr bytes enables s = _)
  rw [row]
  refine ⟨fun k kind other => ?_, fun kind x e hit => ?_, fun kind => ?_⟩
  · rw [show s.bar2Kind true os = some k from kind]
    simp only
    rfl
  · rw [show s.bar2Kind true os = some 5 from kind]
    simp only
    rw [show ((os.filterMap s.bar2At).findSome? fun a => s.shardHit a 1) = some (x, e) from hit]
    rfl
  · rw [show s.bar2Kind true os = none from kind]
    rfl

end

/-! What a write leaves -/

/-- What a byte written through BAR2 leaves when it lands elsewhere: the window itself, the upsets, and a byte of GDDR7. -/
structure LeavesByte (b : Nat) (s t : State) : Prop where
  host : t.host = s.host
  mem : t.mem = s.mem
  base : t.getR64 HIF_BAR2_BASE = s.getR64 HIF_BAR2_BASE
  byte : t.gddrByte b = s.gddrByte b

theorem LeavesByte.refl (b : Nat) (s : State) : LeavesByte b s s := ⟨rfl, rfl, rfl, rfl⟩

theorem LeavesByte.trans {b : Nat} {s t u : State} (h : LeavesByte b s t) (k : LeavesByte b t u) : LeavesByte b s u :=
  ⟨k.host.trans h.host, k.mem.trans h.mem, k.base.trans h.base, k.byte.trans h.byte⟩

theorem LeavesByte.bar2At {b : Nat} {s t : State} (h : LeavesByte b s t) (o : Nat) : t.bar2At o = s.bar2At o := by
  unfold State.bar2At State.bar2Size
  rw [h.host, h.base]

theorem LeavesByte.ofOnly {b : Nat} {s t : State} (only : ∃ regs, t = { s with regs := regs }) (low : LowKept s t) : LeavesByte b s t := by
  have base : t.getR64 HIF_BAR2_BASE = s.getR64 HIF_BAR2_BASE := by
    unfold State.getR64
    rw [low HIF_BAR2_BASE.low (by decide), low HIF_BAR2_BASE.high (by decide)]
  obtain ⟨regs, rfl⟩ := only
  exact ⟨rfl, rfl, base, rfl⟩

theorem LeavesByte.foldl {α : Type} {b : Nat} {f : State → α → State} {l : List α} (h : ∀ y ∈ l, ∀ u, LeavesByte b u (f u y)) (s : State) :
    LeavesByte b s (l.foldl f s) := by
  induction l generalizing s with
  | nil => exact LeavesByte.refl b s
  | cons y l ih =>
    obtain ⟨here, rest⟩ := List.forall_mem_cons.mp h
    exact (here s).trans (ih rest _)

theorem markDirty_leaves (b : Nat) (s : State) (a n : Nat) : LeavesByte b s (s.markDirty a n) := by
  have mark (u : State) (e : Nat) :
      LeavesByte b u (if meets a n (u.slotAt e 1) (u.slotBytes e) then u.set (MEM_SHD_STATE_DIRTY e) 1 else u) := by
    split
    · exact LeavesByte.ofOnly ⟨_, RegsOnly.set (RegsOnly.refl u) _ _⟩ ((LowKept.refl u).set _ 1 (Nat.le_add_right_of_le (by decide)))
    · exact LeavesByte.refl b u
  exact LeavesByte.foldl (fun e _ u => mark u e) s

theorem gddrWrite_leaves {a b : Nat} (s : State) (x : Byte) (apart : a ≠ b) : LeavesByte b s (s.gddrWrite a [x]) := by
  refine ⟨State.gddrWrite_host _ _ _, State.gddrWrite_mem _ _ _, ?_, gddrByte_gddrWrite_outside s a b [x] (by rw [List.length_singleton]; omega)⟩
  unfold State.getR64
  rw [State.getR_congr _ _ _ (State.gddrWrite_regs s a [x]), State.getR_congr _ _ _ (State.gddrWrite_regs s a [x])]

/-- Stated of the function: at an address the kernel would compute its controller. -/
theorem gddrStore_leaves {a b : Nat} (s : State) (x : Byte) (apart : a ≠ b) : LeavesByte b s (s.gddrStore a [x]) := by
  have leaves (store : State → Nat → List Byte → State) (is : store = State.gddrStore) : LeavesByte b s (store s a [x]) := by
    delta State.gddrStore at is
    subst is
    dsimp only
    split
    · exact gddrWrite_leaves s x apart
    · refine LeavesByte.foldl (fun y mem u => ?_) s
      rw [List.mem_singleton.mp mem]
      dsimp only
      split
      · exact LeavesByte.refl b u
      · exact gddrWrite_leaves u x apart
  exact leaves _ rfl

theorem sramWrite_leaves (b : Nat) (s : State) (L o : Nat) (bs : List Byte) : LeavesByte b s (s.sramWrite L o bs) := by
  unfold State.sramWrite
  split
  · exact ⟨rfl, rfl, rfl, rfl⟩
  · exact LeavesByte.refl b s

/-- Without an upset no range fails of itself. -/
theorem badIn_none {s : State} (sound : s.mem.upsets = []) (a n : Nat) : s.badIn a n none = none := by
  unfold State.badIn
  rw [sound]
  rfl

/-- A byte of GDDR7 stands at its own address. -/
theorem place_gddr {a x : Nat} (at_ : place a = .gddr x) : x = a := by
  unfold place at at_
  split at at_
  · exact (Place.gddr.inj at_).symm
  · split at at_
    · cases at_
    · cases at_

theorem writeRange_leaves {a b : Nat} {s : State} (sound : s.mem.upsets = []) (x : Byte) (apart : a ≠ b) :
    LeavesByte b s (s.writeRange a [x]).2 := by
  have dirty := markDirty_leaves b s a 1
  have stored := dirty.trans (gddrStore_leaves (s.markDirty a 1) x apart)
  unfold State.writeRange
  split
  · exact sramWrite_leaves b s _ _ _
  · next y at_ =>
    rw [place_gddr at_]
    dsimp only [List.length_singleton]
    rw [badIn_none (by rw [stored.mem]; exact sound)]
    exact stored
  · exact LeavesByte.refl b s

/-- Stated of the function: at an offset the kernel would compute the address behind it. -/
theorem bar2Put_leaves {b o : Nat} {s : State} (sound : s.mem.upsets = []) (x : Byte) (apart : s.bar2At o ≠ some b) :
    LeavesByte b s (s.bar2Put o x) := by
  have leaves (put : State → Nat → Byte → State) (is : put = State.bar2Put) : LeavesByte b s (put s o x) := by
    delta State.bar2Put at is
    subst is
    dsimp only
    split
    · next a at_ => exact writeRange_leaves sound x fun same => apart (at_.trans (congrArg some same))
    · exact LeavesByte.refl b s
  exact leaves _ rfl

theorem bar2Puts_leave {b : Nat} (addr : Nat) (bs : List (Byte × Nat)) {s : State} (sound : s.mem.upsets = [])
    (apart : ∀ x ∈ bs, s.bar2At (addr + x.2) ≠ some b) : LeavesByte b s (bs.foldl (fun u x => u.bar2Put (addr + x.2) x.1) s) := by
  induction bs generalizing s with
  | nil => exact LeavesByte.refl b s
  | cons x bs ih =>
    obtain ⟨here, rest⟩ := List.forall_mem_cons.mp apart
    have put := bar2Put_leaves sound x.1 here
    rw [List.foldl_cons]
    exact put.trans (ih (by rw [put.mem]; exact sound) fun y mem => by rw [put.bar2At]; exact rest y mem)

/-- Settles O55. -/
theorem hostMemoryWindow : Obligations.HostMemoryWindow := by
  refine ⟨fun addr len bad s q => ⟨bar2Read_outside q addr len bad, fun runs within => ⟨bar2Read_down addr len bad runs within, bar2Read_rows q addr len bad runs within⟩⟩,
    fun addr bytes enables s q => ⟨bar2Write_outside q addr bytes enables, fun runs within => ⟨bar2Write_down addr bytes enables runs within, fun up => ?_⟩⟩,
    fun s write os safe => if_pos safe⟩
  obtain ⟨refused, protected_, served⟩ := bar2Write_rows addr bytes enables runs within up
  refine ⟨refused, protected_, fun kind => ⟨served kind, fun sound b _ apart => ?_⟩⟩
  exact (bar2Puts_leave addr _ sound fun x mem => apart _ (List.mem_map_of_mem mem)).byte

end Sys2Proof.Machine
end

section
/-! The mailbox: commands brought under way, their work and their end; the lock of the signer table (R461, R462, R464 to R470). -/

namespace Sys2Proof.Machine

open Sys2Proof

/-! Bringing a command under way -/

section
variable {s : State} {c : Nat}

theorem mboxRuns_iff : s.mboxRuns c = true ↔ s.host.mbox = some (c, none) := beq_iff_eq

theorem mboxDo_runs {work : State → State} (runs : s.inReset = false) (under : s.host.mbox = some (c, none)) : s.mboxDo c work = work s := by
  have asked : s.mboxAsk c = s := if_pos (mboxRuns_iff.mpr under)
  unfold State.mboxDo
  rw [asked]
  exact if_pos (by rw [mboxRuns_iff.mpr under, runs]; rfl)

theorem mboxAsk_row (known : c < 16) (taken : Taken s HIF_MBOX_CMD) (other : s.host.mbox ≠ some (c, none)) : s.mboxAsk c = s.mboxCmd HIF_MBOX_CMD.off c := by
  refine (if_neg fun is => other (mboxRuns_iff.mp is)).trans ((s.hostWrite_HIF_MBOX_CMD _ taken).trans ?_)
  rw [BitVec.toNat_ofNat, Nat.mod_eq_of_lt (Nat.lt_trans known (by decide)), Nat.mod_eq_of_lt known]

theorem mboxCmd_inReset (s : State) (at_ c : Nat) (idle : s.host.mbox = none) : (s.mboxCmd at_ c).inReset = s.inReset := by
  obtain ⟨h, o, is⟩ := s.mboxCmd_hostOnly at_ c idle
  obtain ⟨regs, only⟩ : ∃ regs, s.mboxBusy c = { s with regs := regs } := ⟨_, s.mboxBusy_only c⟩
  have boot : (s.mboxCmd at_ c).boot = s.boot := by rw [is, only]
  unfold State.inReset
  rw [boot]

theorem mboxDo_starts {work : State → State} (known : c < 16) (taken : Taken s HIF_MBOX_CMD) (idle : s.host.mbox = none) (good : s.mboxStatus c = 0) :
    s.mboxDo c work = work (s.mboxCmd HIF_MBOX_CMD.off c) := by
  have under : (s.mboxCmd HIF_MBOX_CMD.off c).host.mbox = some (c, none) := (s.mbox_mboxCmd HIF_MBOX_CMD.off c idle).trans (by rw [if_pos good])
  unfold State.mboxDo
  rw [mboxAsk_row known taken (by rw [idle]; exact nofun)]
  exact if_pos (by rw [mboxRuns_iff.mpr under, mboxCmd_inReset s _ _ idle, taken.1]; rfl)

theorem mboxDo_fails {work : State → State} (known : c < 16) (taken : Taken s HIF_MBOX_CMD) (idle : s.host.mbox = none) (bad : s.mboxStatus c ≠ 0) :
    s.mboxDo c work = (s.mboxBusy c).modHost fun h => { h with mbox := some (c, some (s.mboxStatus c)) } := by
  have shown : s.mboxCmd HIF_MBOX_CMD.off c = (s.mboxBusy c).modHost fun h => { h with mbox := some (c, some (s.mboxStatus c)) } := by
    unfold State.mboxCmd
    rw [if_neg (by rw [idle]; exact Bool.false_ne_true)]
    dsimp only
    rw [if_neg bad, if_pos (by rw [decide_eq_true bad]; rfl)]
    rfl
  have under : (s.mboxCmd HIF_MBOX_CMD.off c).host.mbox = some (c, some (s.mboxStatus c)) := by
    rw [shown]
    rfl
  unfold State.mboxDo
  rw [mboxAsk_row known taken (by rw [idle]; exact nofun), ← shown]
  refine if_neg fun is => ?_
  have runs := under.symm.trans (mboxRuns_iff.mp (Bool.and_eq_true_iff.mp is).1)
  cases runs

theorem aerr_hostMbox (s : State) (space off : Nat) (write : Bool) (kind : Nat) : (s.aerr space off write kind).host.mbox = s.host.mbox := by
  have raise (u : State) (v : Nat) : (u.raiseVec v).host.mbox = u.host.mbox := by
    unfold State.raiseVec
    dsimp only
    split
    · rfl
    · split
      · rfl
      · rfl
  have entry : (s.aerrEntry (s.getR HIF_AERR_PROD % 16) space off write kind).host = s.host := by
    rw [aerrEntry_only s _ space off write kind]
  rw [aerr_eq, raise, entry]

theorem mboxDo_busy {work : State → State} {x : Nat × Option Nat} (known : c < 16) (taken : Taken s HIF_MBOX_CMD) (under : s.host.mbox = some x)
    (other : x ≠ (c, none)) : s.mboxDo c work = s.aerr 0 HIF_MBOX_CMD.off true 2 := by
  have apart : s.host.mbox ≠ some (c, none) := fun is => other (Option.some.inj (under.symm.trans is))
  have refused : s.mboxCmd HIF_MBOX_CMD.off c = s.aerr 0 HIF_MBOX_CMD.off true 2 := if_pos (by rw [under]; rfl)
  unfold State.mboxDo
  rw [mboxAsk_row known taken apart, refused]
  refine if_neg fun is => apart ?_
  rw [← aerr_hostMbox s 0 HIF_MBOX_CMD.off true 2]
  exact mboxRuns_iff.mp (Bool.and_eq_true_iff.mp is).1

end

/-- What holds of a command whose row brings it under way and does its work. -/
theorem mboxRow {s : State} (q : Quiet s) (runs : s.inReset = false) {i : Instr} {c : Nat} {work : State → State}
    (row : exec i s = done (s.mboxDo c work)) (known : c < 16) :
    (s.host.mbox = some (c, none) → Ends i s (work s)) ∧
    (s.host.mbox = none → s.turnedAway HIF_MBOX_CMD.off true = none → s.mboxStatus c = 0 → Ends i s (work (s.mboxCmd HIF_MBOX_CMD.off c))) ∧
    (s.host.mbox = none → s.turnedAway HIF_MBOX_CMD.off true = none → s.mboxStatus c ≠ 0 →
      ∃ t, exec i s = .next t ∧ t.host.mbox = some (c, some (s.mboxStatus c)) ∧ t.flag HIF_MBOX_STATUS_BUSY = true ∧ t.out = s.out ∧
        RegsKept [HIF_MBOX_STATUS.off] s t) ∧
    (∀ d st, s.host.mbox = some (d, st) → (d, st) ≠ (c, none) → s.turnedAway HIF_MBOX_CMD.off true = none →
      Ends i s (s.aerr 0 HIF_MBOX_CMD.off true 2)) := by
  refine ⟨fun under => row.trans (congrArg done (mboxDo_runs runs under)),
    fun idle free good => row.trans (congrArg done (mboxDo_starts known ⟨runs, free⟩ idle good)), fun idle free bad => ?_,
    fun d st under other free => row.trans (congrArg done (mboxDo_busy known ⟨runs, free⟩ under other))⟩
  rw [mboxDo_fails known ⟨runs, free⟩ idle bad] at row
  have busy := s.busy_mboxBusy c
  have kept := s.mboxBusy_kept c
  obtain ⟨regs, only⟩ : ∃ regs, s.mboxBusy c = { s with regs := regs } := ⟨_, s.mboxBusy_only c⟩
  rw [only] at row busy kept
  exact ⟨_, row.trans (done_same q rfl rfl), rfl, busy, rfl, kept⟩

theorem mailboxCommand_rows (nonce token image : Option (List Byte)) (ok : Bool) {s : State} (q : Quiet s) (runs : s.inReset = false) :
    ∀ x ∈ ([(.attest nonce, 1, fun u => u.attest nonce), (.fwUpdate image ok, 2, fun u => u.fwUpdate image ok),
        (.pufRefresh ok, 3, fun u => u.pufRefresh ok), (.debugUnlock token, 4, fun u => u.debugUnlock token)] :
        List (Instr × Nat × (State → State))),
      (s.host.mbox = some (x.2.1, none) → Ends x.1 s (x.2.2 s)) ∧
      (s.host.mbox = none → s.turnedAway HIF_MBOX_CMD.off true = none → s.mboxStatus x.2.1 = 0 →
        Ends x.1 s (x.2.2 (s.mboxCmd HIF_MBOX_CMD.off x.2.1))) ∧
      (s.host.mbox = none → s.turnedAway HIF_MBOX_CMD.off true = none → s.mboxStatus x.2.1 ≠ 0 →
        ∃ t, exec x.1 s = .next t ∧ t.host.mbox = some (x.2.1, some (s.mboxStatus x.2.1)) ∧ t.flag HIF_MBOX_STATUS_BUSY = true ∧ t.out = s.out ∧
          RegsKept [HIF_MBOX_STATUS.off] s t) ∧
      (∀ c st, s.host.mbox = some (c, st) → (c, st) ≠ (x.2.1, none) → s.turnedAway HIF_MBOX_CMD.off true = none →
        Ends x.1 s (s.aerr 0 HIF_MBOX_CMD.off true 2)) := by
  simp only [List.forall_mem_cons]
  exact ⟨mboxRow q runs (i := .attest nonce) (work := fun u => u.attest nonce) rfl (by decide),
    mboxRow q runs (i := .fwUpdate image ok) (work := fun u => u.fwUpdate image ok) rfl (by decide),
    mboxRow q runs (i := .pufRefresh ok) (work := fun u => u.pufRefresh ok) rfl (by decide),
    mboxRow q runs (i := .debugUnlock token) (work := fun u => u.debugUnlock token) rfl (by decide), nofun⟩

/-! The work of the commands -/

theorem debugUnlock_accepted (s : State) (raw : List Byte) (good : s.tokenStatus (slice raw 0 1536) = 0) :
    (s.debugUnlock (some raw)).regs = ((s.set SEC_STATUS_DEBUG_UNLOCKED 1).set SEC_STATUS_PERMS (field (slice raw 0 1536) 0x28 4)).regs := by
  unfold State.debugUnlock
  dsimp only
  rw [if_pos good]
  rfl

theorem debugUnlock_refused (s : State) (raw : List Byte) (bad : s.tokenStatus (slice raw 0 1536) ≠ 0) : (s.debugUnlock (some raw)).regs = s.regs := by
  unfold State.debugUnlock
  dsimp only
  rw [if_neg bad]
  rfl

theorem mailboxWork (s : State) :
    (s.attest none).host.mbox = some (1, some 4) ∧ (s.fwUpdate none true).host.mbox = some (2, some 4) ∧
    (s.debugUnlock none).host.mbox = some (4, some 4) ∧ (s.pufRefresh true).host.mbox = some (3, some 0) ∧
    (s.pufRefresh false).host.mbox = some (3, some 0x0A) ∧
    (∀ n, (s.attest (some n)).host.mbox = some (1, some 0) ∧
      (s.attest (some n)).out = s.out ++ [.hostWrite (s.getR64 HIF_MBOX_ADDR) (s.reportBody n ++ reportSig s.free)]) ∧
    (∀ raw, s.tokenStatus (slice raw 0 1536) = 0 → (s.debugUnlock (some raw)).flag SEC_STATUS_DEBUG_UNLOCKED = true ∧
      (s.debugUnlock (some raw)).get SEC_STATUS_PERMS = field (slice raw 0 1536) 0x28 4 % 4) ∧
    (∀ raw, s.tokenStatus (slice raw 0 1536) ≠ 0 → (s.debugUnlock (some raw)).regs = s.regs) := by
  refine ⟨rfl, rfl, rfl, rfl, rfl, fun n => ⟨rfl, rfl⟩, fun raw good => ?_, debugUnlock_refused s⟩
  have regs := debugUnlock_accepted s raw good
  refine ⟨(State.flag_congr _ _ _ regs).trans ?_, (State.get_congr _ _ _ regs).trans (State.get_set_same _ SEC_STATUS_PERMS _ (by decide))⟩
  exact (flag_set_apart _ SEC_STATUS_PERMS SEC_STATUS_DEBUG_UNLOCKED _ rfl (by decide) (.inl (by decide))).trans
    (State.flag_set_same s SEC_STATUS_DEBUG_UNLOCKED 1 (by decide))

/-! The end of a command -/

theorem mailboxDone_rows {s : State} (q : Quiet s) : (s.host.mbox = none → exec .mailboxDone s = .next s) ∧
    (∀ c, s.host.mbox = some (c, none) → exec .mailboxDone s = .next s) ∧
    (∀ c st, s.host.mbox = some (c, some st) →
      let u := if c = 2 ∧ st = 0 then s.fwCommit else if c = 3 ∧ st = 0 then s.set SEC_PUF_STATUS_REFRESHED 1 else s
      Ends .mailboxDone s ((((u.set HIF_MBOX_STATUS_CODE st).set HIF_MBOX_STATUS_BUSY 0).modHost fun h => { h with mbox := none }).raiseVec 3)) := by
  change (_ → execMailboxDone s = _) ∧ (∀ c, _ → execMailboxDone s = _) ∧ ∀ c st, _ → execMailboxDone s = _
  unfold execMailboxDone
  refine ⟨fun idle => ?_, fun c under => ?_, fun c st ends => ?_⟩
  · rw [idle]
    exact done_quiet q
  · rw [under]
    exact done_quiet q
  · rw [ends]
    dsimp only
    by_cases update : c = 2 ∧ st = 0
    · rw [if_pos update, if_pos update, if_neg (by omega)]
      rfl
    · rw [if_neg update, if_neg update]
      rfl

/-! The lock of the signer table -/

theorem secLock_row (v : Word) {s : State} (q : Quiet s) (taken : Taken s SEC_CTRL) :
    ∃ t, exec (.secLock v) s = .next t ∧ t.flag SEC_CTRL_LOCK = true ∧ RegsKept [SEC_CTRL.off] s t ∧ RegsOnly s t := by
  have row : exec (.secLock v) s = done (s.set SEC_CTRL_LOCK 1) :=
    congrArg done ((s.hostWrite_SEC_CTRL _ taken).trans (if_pos (bit_setBit_same v 0 (by decide))))
  exact ⟨_, row.trans (done_same q (State.set_fault _ _ _) (State.set_switch _ _ _)), State.flag_set_same s SEC_CTRL_LOCK 1 (by decide),
    fun r out => State.getR_set_ne _ _ _ _ (List.ne_of_not_mem_cons out), RegsOnly.set (RegsOnly.refl s) _ _⟩

/-- Only the low 32 bits of a value reach a 4-byte write. -/
theorem busWrite_low (s : State) (req off v : Nat) : s.busWrite req off 4 v = s.busWrite req off 4 (v % 2 ^ 32) := by
  unfold State.busWrite
  rw [Nat.mod_mod, if_neg (show ¬(4 = 8 ∧ off % 8 = 0) from fun h => absurd h.1 (by decide)),
    if_neg (show ¬(4 = 8 ∧ off % 8 = 0) from fun h => absurd h.1 (by decide))]

theorem signer_sole : ∀ k < 8, ∀ i < 8, soleReg (SEC_SIGNER k i).off (SEC_SIGNER 0 0).off [k, i] = true ∧ (SEC_SIGNER k i).off / 0x10000 = 0x02 := by
  decide +kernel

theorem writeReg_sec (s : State) {w : RegWrite} (block : w.off / 0x10000 = 0x02) : s.writeReg w = s.secWrite w := by
  unfold State.writeReg
  dsimp only
  rw [block, if_neg (by decide), if_neg (by decide), if_pos rfl]

theorem secWrite_locked {s : State} {w : RegWrite} (signer : w.row.base = (SEC_SIGNER 0 0).off) (lock : s.flag SEC_CTRL_LOCK = true) :
    s.secWrite w = s.aerr 0 w.at_ true 2 := by
  have other : w.is SEC_CTRL = false := by
    unfold RegWrite.is
    rw [signer]
    decide
  have here : w.is (SEC_SIGNER 0 0) = true := by
    unfold RegWrite.is
    rw [signer]
    decide
  refine (if_neg (ne_true_of_eq_false other)).trans (if_pos ?_)
  rw [here, lock, Bool.or_true]
  rfl

theorem signerWrite_locked {s : State} {k i : Nat} (w : Word) (table : k < 8) (word : i < 8) (taken : Taken s (SEC_SIGNER k i))
    (lock : s.flag SEC_CTRL_LOCK = true) : s.hostWrite (SEC_SIGNER k i) w = s.aerr 0 (SEC_SIGNER k i).off true 2 := by
  obtain ⟨sole, block⟩ := signer_sole k table i word
  obtain ⟨row, -, base, write⟩ := State.hostWrite_sole s _ w _ _ taken sole
  exact write.trans ((writeReg_sec s block).trans (secWrite_locked base lock))

theorem signerLocked_row (req v : Nat) {k i : Nat} {s : State} (table : k < 8) (word : i < 8) (taken : Taken s (SEC_SIGNER k i))
    (lock : s.flag SEC_CTRL_LOCK = true) : Ends (.registerWrite req (SEC_SIGNER k i).off 4 v) s (s.aerr 0 (SEC_SIGNER k i).off true 2) := by
  have write := s.busWrite_sole req taken (signer_sole k table i word).1 (Nat.mod_lt v (Nat.two_pow_pos 32))
  rw [← busWrite_low, signerWrite_locked _ table word taken lock] at write
  exact congrArg done write

/-- Settles O57. -/
theorem mailboxCommands : Obligations.MailboxCommands :=
  ⟨fun nonce token image ok _ => mailboxCommand_rows nonce token image ok, mailboxWork, fun _ => mailboxDone_rows, fun v _ => secLock_row v,
    fun req v _ _ _ _ table word => signerLocked_row req v table word⟩

end Sys2Proof.Machine
end

section
/-! Neighbour packets (R208, R387, R388, R396). -/

namespace Sys2Proof.Machine

open Sys2Proof

/-! Sends -/

/-- The bits of HIF_NBR_TX_CTRL that a write stores: the port, the kind and the tag. -/
theorem nbrCtrl_row {row : RegRow} {ix : List Nat} (h : regAt HIF_NBR_TX_CTRL.off = some (row, ix)) : row.rw = 0x7FF031F ∧ row.w1c = 0x1000 := by
  have known : (regAt HIF_NBR_TX_CTRL.off).any (fun x => x.1.rw == 0x7FF031F && x.1.w1c == 0x1000) = true := by decide +kernel
  rw [h, Option.any_some, Bool.and_eq_true] at known
  exact ⟨eq_of_beq known.1, eq_of_beq known.2⟩

theorem nbrCtrl_stored {s : State} {row : RegRow} (v : Word) (h : regAt HIF_NBR_TX_CTRL.off = some (row, [])) :
    ∃ x, s.stored (ownWrite HIF_NBR_TX_CTRL row [] v) = s.setR HIF_NBR_TX_CTRL x ∧
      (s.setR HIF_NBR_TX_CTRL x).get HIF_NBR_TX_CTRL_PORT = bits v.toNat 0 5 ∧ (s.setR HIF_NBR_TX_CTRL x).get HIF_NBR_TX_CTRL_KIND = bits v.toNat 8 2 ∧
      (s.setR HIF_NBR_TX_CTRL x).get HIF_NBR_TX_CTRL_TAG = bits v.toNat 16 11 := by
  obtain ⟨rw_, w1c⟩ := nbrCtrl_row h
  have field (f : Fld) (reg : f.reg = HIF_NBR_TX_CTRL) (fits : f.lo + f.width ≤ 32)
      (open_ : ∀ i < f.width, (0x7FF031F).testBit (f.lo + i) = true ∧ (0x1000).testBit (f.lo + i) = false) :
      (s.setR HIF_NBR_TX_CTRL (keptValue row (s.getR HIF_NBR_TX_CTRL) v.toNat)).get f = bits v.toNat f.lo f.width := by
    rw [← reg]
    refine (s.get_setR_same f _ fits).trans (bits_keptValue_rw _ _ fits ?_)
    rw [rw_, w1c]
    exact open_
  exact ⟨_, s.stored_plain HIF_NBR_TX_CTRL row [] v (by decide +kernel) h, field HIF_NBR_TX_CTRL_PORT rfl (by decide) (by decide),
    field HIF_NBR_TX_CTRL_KIND rfl (by decide) (by decide), field HIF_NBR_TX_CTRL_TAG rfl (by decide) (by decide)⟩

/-- The value that a send writes: its kind and SEND forced. -/
def sendValue (v : Word) (kind : Nat) : Word := setBit (BitVec.ofNat 32 (putBits v.toNat 8 2 kind)) 10

theorem sendValue_fields (v : Word) {kind : Nat} (small : kind < 4) : bit (sendValue v kind).toNat 10 = true ∧
    bits (sendValue v kind).toNat 0 5 = bits v.toNat 0 5 ∧ bits (sendValue v kind).toNat 8 2 = kind ∧
    bits (sendValue v kind).toNat 16 11 = bits v.toNat 16 11 := by
  have value : (BitVec.ofNat 32 (putBits v.toNat 8 2 kind)).toNat = putBits v.toNat 8 2 kind :=
    (BitVec.toNat_ofNat _ _).trans (Nat.mod_eq_of_lt (putBits_lt _ _ _ _ 32 v.isLt (by decide)))
  refine ⟨bit_setBit_same _ 10 (by decide), ?_⟩
  unfold sendValue
  rw [setBit_toNat _ 10 (by decide), value]
  refine ⟨?_, ?_, ?_⟩
  · exact (bits_putBits_below _ _ _ _ _ _ (by decide)).trans (bits_putBits_below _ _ _ _ _ _ (by decide))
  · exact (bits_putBits_below _ _ _ _ _ _ (by decide)).trans ((bits_putBits_same _ _ _ _).trans (Nat.mod_eq_of_lt small))
  · exact (bits_putBits_above _ _ _ _ _ _ (by decide)).trans (bits_putBits_above _ _ _ _ _ _ (by decide))

/-- A send of one of the two kinds. -/
theorem nbrSend_rows (v : Word) {s : State} (q : Quiet s) (taken : Taken s HIF_NBR_TX_CTRL) {i : Instr} {kind op words : Nat}
    (row : exec i s = done (s.hostWrite HIF_NBR_TX_CTRL (sendValue v kind))) (known : kind < 2) (opIs : op = if kind = 0 then opProbe else opNbrMsg)
    (wordsIs : words = if kind = 0 then 2 else 10) :
    let port := bits v.toNat 0 5
    let data := ((List.range words).map fun i => leBytes 4 (s.getR (HIF_NBR_TX_DATA i))).flatten
    ∃ u, RegsOnly s u ∧ RegsKept [HIF_NBR_TX_CTRL.off] s u ∧
      (s.nbrBusy = true → exec i s = .next u) ∧
      (s.nbrBusy = false → (24 ≤ port ∨ s.lst port ≠ lkActive) → Ends i s (u.set HIF_NBR_TX_CTRL_NOT_UP 1)) ∧
      (s.nbrBusy = false → port < 24 → s.lst port = lkActive → Ends i s (u.sendNbr op port (bits v.toNat 16 11) data)) := by
  intro port data
  obtain ⟨sends, portIs, kindIs, tagIs⟩ := sendValue_fields v (Nat.lt_trans known (by decide))
  obtain ⟨regRow, hr, write⟩ := s.hostWrite_HIF_NBR_TX_CTRL (sendValue v kind) taken
  obtain ⟨x, stored, portGet, kindGet, tagGet⟩ := nbrCtrl_stored (s := s) (sendValue v kind) hr
  rw [stored, if_pos sends] at write
  have busy : (s.setR HIF_NBR_TX_CTRL x).nbrBusy = s.nbrBusy := rfl
  have state : (s.setR HIF_NBR_TX_CTRL x).lst port = s.lst port :=
    State.get_setR_ne _ _ _ _ (by dsimp only [LNK_STATUS_STATE, LNK_STATUS, HIF_NBR_TX_CTRL]; omega)
  have bytes : (s.setR HIF_NBR_TX_CTRL x).regBytes (fun i => HIF_NBR_TX_DATA i) words = data := by
    unfold State.regBytes
    refine congrArg List.flatten (List.map_congr_left fun i _ => ?_)
    rw [State.getR_setR_ne s HIF_NBR_TX_CTRL (HIF_NBR_TX_DATA i) x (by dsimp only [HIF_NBR_TX_DATA, HIF_NBR_TX_CTRL]; omega)]
  have does : (s.setR HIF_NBR_TX_CTRL x).nbrSend = if s.nbrBusy || decide (kind ≥ 2) then s.setR HIF_NBR_TX_CTRL x
      else if decide (port ≥ 24) || s.lst port != lkActive then (s.setR HIF_NBR_TX_CTRL x).set HIF_NBR_TX_CTRL_NOT_UP 1
      else (s.setR HIF_NBR_TX_CTRL x).sendNbr op port (bits v.toNat 16 11) data := by
    unfold State.nbrSend
    rw [portGet, kindGet, tagGet, portIs, kindIs, tagIs, busy]
    dsimp only
    rw [← wordsIs, ← opIs, bytes, state]
  rw [write, does, decide_eq_false (Nat.not_le.mpr known), Bool.or_false] at row
  refine ⟨s.setR HIF_NBR_TX_CTRL x, RegsOnly.setR (RegsOnly.refl s) _ _, setR_kept s _ x, fun waits => ?_, fun free down => ?_, fun free known up => ?_⟩
  · rw [if_pos waits] at row
    exact row.trans (done_setR q _ _)
  · rw [if_neg (ne_true_of_eq_false free), if_pos (by rw [Bool.or_eq_true, decide_eq_true_iff, bne_iff_ne]; exact down)] at row
    exact row
  · rw [if_neg (ne_true_of_eq_false free), if_neg (by rw [decide_eq_false (Nat.not_le.mpr known), up]; decide)] at row
    exact row

theorem nbrSends (v : Word) {s : State} (q : Quiet s) (taken : Taken s HIF_NBR_TX_CTRL) :
    ∀ x ∈ ([(.sendProbe v, 0x20, 2), (.sendNbrMsg v, 0x22, 10)] : List (Instr × Nat × Nat)),
      let port := bits v.toNat 0 5
      let data := ((List.range x.2.2).map fun i => leBytes 4 (s.getR (HIF_NBR_TX_DATA i))).flatten
      ∃ u, RegsOnly s u ∧ RegsKept [HIF_NBR_TX_CTRL.off] s u ∧
        (s.nbrBusy = true → exec x.1 s = .next u) ∧
        (s.nbrBusy = false → (24 ≤ port ∨ s.lst port ≠ lkActive) → Ends x.1 s (u.set HIF_NBR_TX_CTRL_NOT_UP 1)) ∧
        (s.nbrBusy = false → port < 24 → s.lst port = lkActive → Ends x.1 s (u.sendNbr x.2.1 port (bits v.toNat 16 11) data)) := by
  simp only [List.forall_mem_cons]
  exact ⟨nbrSend_rows v q taken (i := .sendProbe v) (kind := 0) rfl (by decide) rfl rfl,
    nbrSend_rows v q taken (i := .sendNbrMsg v) (kind := 1) rfl (by decide) rfl rfl, nofun⟩

/-! The receive FIFO -/

theorem nbrRxPop_row (v : Word) {s : State} (q : Quiet s) (taken : Taken s HIF_NBR_RX_POP) :
    exec (.nbrRxPop v) s = .next (s.modHost fun h => { h with nbrRx := h.nbrRx.drop 1 }) :=
  (congrArg done ((s.hostWrite_HIF_NBR_RX_POP _ taken).trans (if_pos (bit_setBit_same v 0 (by decide))))).trans (done_same q rfl rfl)

theorem nbr_none {s : State} (q : Quiet s) : (s.takeNbr 0x20 = none → exec .probe s = .next s) ∧ (s.takeNbr 0x21 = none → exec .probeResp s = .next s) ∧
    (s.takeNbr 0x22 = none → exec .nbrMsg s = .next s) := by
  change (_ → execProbe s = _) ∧ (_ → execProbeResp s = _) ∧ (_ → execNbrMsg s = _)
  unfold execProbe execProbeResp execNbrMsg
  refine ⟨fun none_ => ?_, fun none_ => ?_, fun none_ => ?_⟩
  · rw [show s.takeNbr opProbe = none from none_]
    exact done_quiet q
  · rw [show s.takeNbr opProbeResp = none from none_]
    exact done_quiet q
  · rw [show s.takeNbr opNbrMsg = none from none_]
    exact done_quiet q

theorem probe_rows {s u : State} {x : Inb} (takes : s.takeNbr 0x20 = some (x, u)) :
    (8 ≤ u.nbrWaiting [0x21] → Ends .probe s (u.count HIF_NBR_RX_DROP_COUNT)) ∧
    (u.nbrWaiting [0x21] < 8 →
      Ends .probe s ((u.sendNbr 0x21 x.input (x.pkt.ctag / 32) (u.probeResp x.input x.ft x.pkt.pay)).count HIF_NBR_PROBES_COUNT)) := by
  change (_ → execProbe s = _) ∧ (_ → execProbe s = _)
  unfold execProbe
  rw [show s.takeNbr opProbe = some (x, u) from takes]
  exact ⟨fun full => if_pos full, fun room => if_neg (Nat.not_le.mpr room)⟩

/-- What a taken packet leaves: only the switch's inbox differs. -/
theorem takeNbr_only {s u : State} {op : Nat} {x : Inb} (takes : s.takeNbr op = some (x, u)) : ∃ w, u = { s with switch := w } := by
  unfold State.takeNbr State.takeInb at takes
  split at takes
  · cases takes
  · split at takes
    · cases takes
      exact ⟨_, rfl⟩
    · cases takes

/-- A packet in the receive FIFO. -/
def State.received (s : State) (x : Inb) : State := s.modHost fun h => { h with nbrRx := h.nbrRx ++ [(x.input, x.pkt.opcode, x.pkt.ctag / 32, x.pkt.pay)] }

theorem raiseVec_keeps (s : State) (v : Nat) : (s.raiseVec v).host.nbrRx = s.host.nbrRx ∧ (s.raiseVec v).regs = s.regs ∧ (s.raiseVec v).switch = s.switch := by
  unfold State.raiseVec
  dsimp only
  split
  · exact ⟨rfl, rfl, rfl⟩
  · split
    · exact ⟨rfl, rfl, rfl⟩
    · exact ⟨rfl, rfl, rfl⟩

theorem nbrReceive_room {u : State} (x : Inb) (room : u.host.nbrRx.length < 16) :
    u.nbrReceive x = if u.host.nbrRx.isEmpty then (u.received x).raiseVec 4 else u.received x :=
  if_neg (Nat.not_le.mpr room)

theorem nbrReceive_shows {u : State} (x : Inb) (room : u.host.nbrRx.length < 16) :
    (u.nbrReceive x).host.nbrRx = u.host.nbrRx ++ [(x.input, x.pkt.opcode, x.pkt.ctag / 32, x.pkt.pay)] ∧ (u.nbrReceive x).regs = u.regs ∧
      (u.nbrReceive x).switch = u.switch ∧ (u.host.nbrRx ≠ [] → (u.nbrReceive x).out = u.out) := by
  rw [nbrReceive_room x room]
  by_cases first : u.host.nbrRx.isEmpty = true
  · obtain ⟨fifo, regs, switch⟩ := raiseVec_keeps (u.received x) 4
    rw [if_pos first]
    exact ⟨fifo, regs, switch, fun more => absurd (List.isEmpty_iff.mp first) more⟩
  · rw [if_neg first]
    exact ⟨rfl, rfl, rfl, fun _ => rfl⟩

theorem nbrReceive_rows {s u : State} {op : Nat} {x : Inb} (takes : s.takeNbr op = some (x, u)) {i : Instr} (row : exec i s = done (u.nbrReceive x)) :
    (16 ≤ s.host.nbrRx.length → Ends i s (u.count HIF_NBR_RX_DROP_COUNT)) ∧
    (s.host.nbrRx.length < 16 → ∃ t : State, exec i s = .next t.settle ∧
      t.host.nbrRx = s.host.nbrRx ++ [(x.input, x.pkt.opcode, x.pkt.ctag / 32, x.pkt.pay)] ∧ t.regs = s.regs ∧
      t.switch = u.switch ∧ (s.host.nbrRx ≠ [] → t.out = s.out)) := by
  obtain ⟨w, rfl⟩ := takeNbr_only takes
  exact ⟨fun full => row.trans (congrArg done (if_pos full)), fun room => ⟨_, row, nbrReceive_shows x room⟩⟩

theorem nbrReceives {s u : State} {x : Inb} : ∀ y ∈ ([(.probeResp, 0x21), (.nbrMsg, 0x22)] : List (Instr × Nat)), s.takeNbr y.2 = some (x, u) →
    (16 ≤ s.host.nbrRx.length → Ends y.1 s (u.count HIF_NBR_RX_DROP_COUNT)) ∧
    (s.host.nbrRx.length < 16 → ∃ t : State, exec y.1 s = .next t.settle ∧
      t.host.nbrRx = s.host.nbrRx ++ [(x.input, x.pkt.opcode, x.pkt.ctag / 32, x.pkt.pay)] ∧ t.regs = s.regs ∧
      t.switch = u.switch ∧ (s.host.nbrRx ≠ [] → t.out = s.out)) := by
  simp only [List.forall_mem_cons]
  refine ⟨fun takes => nbrReceive_rows takes ?_, fun takes => nbrReceive_rows takes ?_, nofun⟩
  · change execProbeResp s = _
    unfold execProbeResp
    rw [show s.takeNbr opProbeResp = some (x, u) from takes]
  · change execNbrMsg s = _
    unfold execNbrMsg
    rw [show s.takeNbr opNbrMsg = some (x, u) from takes]

/-- Settles O58. -/
theorem neighbourPackets : Obligations.NeighbourPackets :=
  ⟨fun v _ => nbrSends v, fun v _ => nbrRxPop_row v, fun _ => nbr_none, fun _ _ _ _ => probe_rows, fun _ _ _ _ => nbrReceives⟩

end Sys2Proof.Machine
end

section
/-! The management side: SMBus and JTAG (R471, R472), and what a device reset leaves (R378, R379, R449). -/

namespace Sys2Proof.Machine

open Sys2Proof

/-! What a device reset leaves -/

/-- Of a table of registers cut down to some offsets, a register of these reads as before and another as its reset value. -/
theorem getR_keepRegs {s t : State} {keep : Nat → Bool} (regs : t.regs = s.keepRegs keep) (r : Reg) :
    t.getR r = if keep r.off then s.getR r else r.reset % 2 ^ 32 := by
  unfold State.getR Tbl.read
  rw [regs, State.keepRegs, find_filter_key s.regs keep r.off]
  by_cases kept : keep r.off = true
  · rw [if_pos kept, if_pos kept]
  · rw [if_neg kept, if_neg kept]
    exact BitVec.toNat_ofNat _ _

/-- The lanes of a list of ports going dark: only idles leave the block. -/
theorem darken_outs (ps : List Nat) (s : State) :
    ∃ qs : List Nat, ps.foldl (fun (s : State) p => if s.portLit p then s.emit (.idle p) else s) s = { s with out := s.out ++ qs.map Out.idle } := by
  induction ps generalizing s with
  | nil => exact ⟨[], by rw [List.map_nil, List.append_nil]; rfl⟩
  | cons p ps ih =>
    by_cases lit : s.portLit p = true
    · obtain ⟨qs, dark⟩ := ih (s.emit (.idle p))
      refine ⟨p :: qs, ?_⟩
      rw [List.foldl_cons, if_pos lit, dark, List.map_cons]
      simp only [State.emit, List.append_assoc, List.singleton_append]
    · obtain ⟨qs, dark⟩ := ih s
      exact ⟨qs, by rw [List.foldl_cons, if_neg lit, dark]⟩

/-- A device reset leaves the device inert, with the boot's registers and those of R449 as they were. -/
theorem deviceReset_inert (s : State) :
    Inert s s.deviceReset ∧ KeepsRegs (fun o => bootReg o || hostKept o) s s.deviceReset := by
  obtain ⟨qs, dark⟩ : ∃ qs : List Nat, s.darken = { s with out := s.out ++ qs.map Out.idle } := darken_outs (List.range 24) s
  have kept : KeepsRegs (fun o => bootReg o || hostKept o) s s.deviceReset := by
    intro r apart
    refine (State.getR_set_ne _ _ _ _ apart).trans (getR_keepRegs (s := s) (keep := fun o => bootReg o || hostKept o) ?_ r)
    rw [State.resetDevice, dark]
    rfl
  obtain ⟨regs, only⟩ : ∃ regs, s.deviceReset = { s.resetDevice hostKept (hostAfter s.host) with regs := regs } :=
    ⟨_, RegsOnly.set (RegsOnly.refl _) _ _⟩
  refine ⟨?_, kept⟩
  rw [only, State.resetDevice, dark]
  exact
    { pat := rfl, cores := ⟨rfl, rfl, rfl, rfl, rfl⟩, memory := ⟨rfl, rfl, rfl, rfl, rfl⟩, fabric := ⟨rfl, rfl, rfl, rfl⟩
      rest := ⟨rfl, rfl, rfl, rfl, rfl, rfl⟩, time := ⟨rfl, rfl, rfl, rfl⟩, out := ⟨qs, rfl⟩, flash := ⟨rfl, rfl, rfl⟩ }

/-- A change of the boot's state that keeps the flash leaves an inert device inert. -/
theorem inert_modBoot {s t : State} (h : Inert s t) (f : BootState → BootState)
    (flash : (f t.boot).slotA = t.boot.slotA ∧ (f t.boot).slotB = t.boot.slotB ∧ (f t.boot).prefB = t.boot.prefB) : Inert s (t.modBoot f) where
  pat := h.pat
  cores := h.cores
  memory := h.memory
  fabric := h.fabric
  rest := h.rest
  time := h.time
  out := h.out
  flash := by
    obtain ⟨slotA, slotB, prefB⟩ := flash
    obtain ⟨atA, atB, pref⟩ := h.flash
    exact ⟨slotA.trans atA, slotB.trans atB, prefB.trans pref⟩

/-! SMBus (R472) -/

/-- Before 1 ms after the rails nothing answers. -/
theorem smbus_silent {s : State} (q : Quiet s) (off : s.smbusOn = false) (code : Nat) (pec : Bool) (bytes : List Byte) :
    exec (.smbusReadByte code pec) s = .next s ∧ exec (.smbusReadWord code pec) s = .next s ∧
      exec (.smbusBlockRead code pec) s = .next s ∧ exec (.smbusWrite bytes) s = .next s := by
  have no : ¬s.smbusOn = true := by rw [off]; exact Bool.false_ne_true
  have silent : ∀ bs, s.smbusAnswer code pec bs = s := fun bs => if_neg no
  have none : done s = .next s := done_quiet q
  refine ⟨(congrArg done (silent _)).trans none, ?_, (congrArg done (silent _)).trans none, (congrArg done (if_neg no)).trans none⟩
  have word : exec (.smbusReadWord code pec) s = done (s.smbusAnswer code pec (leBytes 2 (s.smbusWord code))) :=
    congrArg done (if_neg (by rw [off, Bool.and_false]; exact Bool.false_ne_true))
  exact word.trans ((congrArg done (silent _)).trans none)

/-- From 1 ms after the rails a word answers; the read of the peak also clears it. -/
theorem smbusWord_answers {s : State} (q : Quiet s) (on : s.smbusOn = true) (code : Nat) (pec : Bool) :
    let answer := s.emit (.smbus (leBytes 2 (s.smbusWord code) ++ if pec then smbusPec code (leBytes 2 (s.smbusWord code)) else []))
    (code ≠ 0x0B → exec (.smbusReadWord code pec) s = .next answer) ∧
    (code = 0x0B → exec (.smbusReadWord code pec) s = .next (answer.modPower fun p => { p with peak := 0 })) := by
  intro answer
  have answers : s.smbusAnswer code pec (leBytes 2 (s.smbusWord code)) = answer := if_pos on
  constructor
  · intro other
    have row : exec (.smbusReadWord code pec) s = done (s.smbusAnswer code pec (leBytes 2 (s.smbusWord code))) :=
      congrArg done (if_neg (by simp [other]))
    exact row.trans ((congrArg done answers).trans (done_same q rfl rfl))
  · intro peak
    have row : exec (.smbusReadWord code pec) s =
        done ((s.smbusAnswer code pec (leBytes 2 (s.smbusWord code))).modPower fun p => { p with peak := 0 }) :=
      congrArg done (if_pos (by simp [peak, on]))
    exact row.trans ((congrArg (fun t : State => done (t.modPower fun p => { p with peak := 0 })) answers).trans (done_same q rfl rfl))

/-! JTAG (R471) -/

/-- What IDCODE shows (R471): its lowest bit is 1 and its part number is that of the device. -/
theorem idcode_fields : bit idcode 0 = true ∧ bits idcode 12 16 = 0x4816 := by
  constructor
  · exact bit_putBits_same _ 0 1
  · exact (bits_putBits_above _ 0 1 1 12 16 (by decide)).trans (bits_putBits_same _ 12 16 0x4816)

/-- The instructions that take the pins: reset, unless the device is held already, hold, and drive. -/
theorem exec_pins {s : State} (powered : s.boot.powered = true) (train : Bool) (pins : List Bool) :
    ∀ x ∈ ([(.highz, .jtagPins false []), (.extest pins, .jtagPins true pins), (.acInstruction train, .jtagPins true [train])] : List (Instr × Out)),
      exec x.1 s = done (s.jtagReset.emit x.2) := by
  simp only [List.forall_mem_cons, List.not_mem_nil, false_implies, implies_true, and_true]
  exact ⟨congrArg done (if_pos powered), congrArg done (if_pos powered), congrArg done (if_pos powered)⟩

/-- The reset by JTAG leaves the device inert and held. -/
theorem jtagReset_inert {s : State} (free : s.boot.jtagHold = false) :
    Inert s s.jtagReset ∧ s.jtagReset.boot.jtagHold = true ∧ s.jtagReset.inReset = true ∧
      KeepsRegs (fun o => bootReg o || hostKept o) s s.jtagReset := by
  obtain ⟨inert, kept⟩ := deviceReset_inert s
  have is : s.jtagReset = s.deviceReset.modBoot fun b => { b with jtagHold := true, jtagWait := false } :=
    congrArg (fun t : State => t.modBoot fun b => { b with jtagHold := true, jtagWait := false })
      (if_neg (by rw [free]; exact Bool.false_ne_true))
  rw [is]
  generalize s.deviceReset = t at inert kept
  refine ⟨inert_modBoot inert _ ⟨rfl, rfl, rfl⟩, rfl, ?_, fun r apart => kept r apart⟩
  simp [State.inReset, State.modBoot]

/-- An inert device has no report and no discard waiting, whatever it puts out. -/
theorem inert_done_emit {s t : State} (h : Inert s t) (o : Out) : done (t.emit o) = .next (t.emit o) := by
  refine done_quiet ⟨?_, ?_⟩
  · exact (congrArg (·.queue) h.rest.2.1)
  · exact (congrArg (·.failed) h.fabric.2.2.1)

/-- Settles O59. -/
theorem smbusAndJtag : Obligations.SmbusAndJtag := by
  unfold Obligations.SmbusAndJtag
  refine ⟨?_, ?_, ?_, ?_⟩
  · intro code pec bytes s q answer
    refine ⟨fun off => smbus_silent q off code pec bytes, fun on => ?_⟩
    have answers : ∀ bs, done (s.smbusAnswer code pec bs) = .next (answer bs) := fun bs =>
      (congrArg done (if_pos on)).trans (done_same q rfl rfl)
    obtain ⟨other, peak⟩ := smbusWord_answers q on code pec
    refine ⟨answers _, other, ?_, answers _, (congrArg done (if_pos on)).trans (done_same q rfl rfl)⟩
    intro is
    subst is
    exact peak rfl
  · intro tdi pins code s q powered
    refine ⟨?_, ⟨idcode, ?_, idcode_fields⟩, ?_, ?_, ?_⟩
    · exact (congrArg done (if_pos powered)).trans (done_same q rfl rfl)
    · exact (congrArg done (if_pos powered)).trans (done_same q rfl rfl)
    · exact (congrArg done (if_pos powered)).trans (done_same q rfl rfl)
    · intro closed
      have row : exec (.debugInstruction code) s = done s.bypass := if_neg (by rw [closed]; exact Bool.false_ne_true)
      exact row.trans ((congrArg done (if_pos powered)).trans (done_same q rfl rfl))
    · intro opened
      exact if_pos opened
  · intro train pins s q powered x mem
    have row := exec_pins powered train pins x mem
    constructor
    · intro free
      obtain ⟨inert, held, inReset, kept⟩ := jtagReset_inert free
      exact ⟨s.jtagReset, row.trans (inert_done_emit inert x.2), inert, held, inReset, kept⟩
    · intro held
      have is : s.jtagReset = s.modBoot fun b => { b with jtagHold := true, jtagWait := false } :=
        congrArg (fun t : State => t.modBoot fun b => { b with jtagHold := true, jtagWait := false }) (if_pos held)
      exact row.trans ((congrArg (fun t : State => done (t.emit x.2)) is).trans (done_same q rfl rfl))
  · intro s q
    constructor
    · intro held
      exact (congrArg done (if_pos held)).trans (done_same q rfl rfl)
    · intro free
      exact (congrArg done (if_neg (by rw [free]; exact Bool.false_ne_true))).trans (done_quiet q)

end Sys2Proof.Machine
end
